-- ==== Sys2Proof/Word.lean ====
section
/-! DEFINITION. Words, sparse tables, and the plain records that commands carry as operands. -/

namespace Sys2Proof

/-- One byte of any memory (00 R3: every multi-byte datum is little-endian). -/
abbrev Byte := BitVec 8

/-- One 32-bit word: an FP32 or INT32 datum, or a recipe register. -/
abbrev Word := BitVec 32

/-- A 64-bit register or message word. -/
abbrev DWord := BitVec 64

/-- A 256-byte line (01 R14, 06 R181). Byte i is bits [8i+7:8i]. -/
abbrev Line := BitVec 2048

/-- A sparse table, in one canonical form: keys strictly rising, no entry equal to the table's default value. -/
abbrev Tbl (α : Type) := List (Nat × α)

/-- A waybill as MC core 1 holds it: its ring, its 64-byte header (11 R381, Table 11-2) and the bytes that reading its
host buffer returns when it starts (11 R383). -/
structure Waybill where
  ring : Nat
  hdr  : BitVec 512
  buf  : List Byte
deriving DecidableEq, Repr

/-- A priority entry as core 3 holds it (11 R399, R403): from the BAR ring (slot 0-15) or from MCTP. -/
structure PrioEntry where
  mctp : Bool
  slot : Nat
  hdr  : BitVec 512
deriving DecidableEq, Repr

/-- What runs a descriptor: the two pipes of a core (03 R64), or the column controllers and ports (03 Table 3-3). -/
inductive Pipe where
  | tensor
  | vector
  | ports
deriving DecidableEq, Repr

/-- One strand: global core ID and strand number (03 R91, Table 3-8). -/
structure StrandRef where
  core   : Nat
  strand : Nat
deriving DecidableEq, Repr

/-- Fields of a form A recipe instruction (03 Table 3-6). -/
structure FormA where
  d  : BitVec 5
  a  : BitVec 5
  b  : BitVec 5
  p  : BitVec 3
  pn : Bool
  f  : BitVec 4
  m  : BitVec 3
deriving DecidableEq, Repr

/-- Fields of a form I recipe instruction (03 Table 3-6). -/
structure FormI where
  d   : BitVec 5
  a   : BitVec 5
  imm : BitVec 16
deriving DecidableEq, Repr

/-- Fields of a form C recipe instruction (03 Table 3-6). -/
structure FormC where
  d   : BitVec 5
  p   : BitVec 3
  pn  : Bool
  imm : BitVec 17
deriving DecidableEq, Repr

/-- How wide a BAR0 access is (11 R372, 00 R8). -/
inductive Access where
  | full
  | low
  | high
deriving DecidableEq, Repr

/-- A line at its home (06 R173): by scratch storage of a column, or by the tier-2, tier-3 or direct address that a
window homes at a column. -/
inductive LineId where
  | scratch (col off : Nat)
  | window (col addr : Nat)
deriving DecidableEq, Repr

/-- The ordered press operations (06 R185, Table 6-8). -/
inductive PressOp where
  | fadd
  | fmax
  | fmin
  | sumsq
  | iadd
deriving DecidableEq, Repr

/-- The key of an ordered contribution (06 R186). `coll` is set for collective keys, which order after every
micro-batch key (08 R267); then `r` is the sender's rank. `s1`, `s2` are the sub-key. -/
structure PressKey where
  coll : Bool
  mu   : Nat
  r    : Nat
  s1   : Nat
  s2   : Nat
deriving DecidableEq, Repr

/-- One ordered contribution (06 R186, R187): one line, with a mask of the 32-bit words it touches.
`tile` says that its descriptor is a tile product or a collective send; `inStep` that its leg belongs to a step. `src` is the cluster whose
ring stop sends it, `hint` the replacement hint of its line (06 R174), and `no` its number among what the module has sent (01 R16). -/
structure Contribution where
  ctx    : Nat
  inStep : Bool
  tensor : Word
  line   : LineId
  op     : PressOp
  mask   : BitVec 64
  data   : Line
  key    : PressKey
  tile   : Bool
  gen    : Nat
  step8  : Nat
  leg    : Nat
  hint   : Nat
  src    : Nat
  no     : Nat
deriving DecidableEq, Repr

/-- A completion notice (06 R187): the roster entry (μ, r) of a tensor, or, with `coll` set, the segment of rank r. -/
structure Notice where
  ctx    : Nat
  tensor : Word
  coll   : Bool
  mu     : Nat
  r      : Nat
deriving DecidableEq, Repr

/-- The immediate press operations (06 Table 6-8), with ATOM's m codes (03 Table 3-7). -/
inductive ImmOp where
  | add
  | swap
  | cas
  | and
  | or
deriving DecidableEq, Repr

/-- An immediate press operation on its way (06 R192): the 32-bit word, its operation and operands, and the thread
register that takes the old value. `no` is its number among what the module has sent (01 R16). -/
structure ImmReq where
  ctx    : Nat
  line   : LineId
  word   : Nat
  op     : ImmOp
  c      : Word
  cmp    : Word
  at_    : StrandRef
  lane   : Nat
  d      : BitVec 5
  no     : Nat
deriving DecidableEq, Repr

/-- A request at a line's home column (06 R184, Table 6-7). -/
inductive HomeEvent where
  | l1Read (core : Nat)
  | l1Write (core : Nat)
  | dropCopy (core : Nat)
  | ownerEvict (core : Nat) (modified : Bool) (data : Line)
  | tileRead
  | writeAtHome (mask : BitVec 256) (data : Line)
  | fullLineWrite (data : Line)
  | victim
deriving DecidableEq, Repr

/-- A request as it travels: the context whose map resolved it, its hint (06 R174: 0 normal, 1 keep, 2 evict-first). -/
structure HomeReq where
  ctx  : Nat
  line : LineId
  hint : Nat
  ev   : HomeEvent
deriving DecidableEq, Repr

/-- A line transfer whose check failed (06 R167): its line, and whether this is the transfer's first failure. -/
structure LineCheck where
  line  : LineId
  first : Bool
deriving DecidableEq, Repr

/-- An access to the HBM that failed (07 R218): its address, and whether this is the access's first failure. -/
structure HbmAccess where
  addr  : Nat
  first : Bool
deriving DecidableEq, Repr

/-- A context whose time-out comes, and when (12 R434). -/
structure CtxTime where
  ctx : Nat
  t   : Nat
deriving DecidableEq, Repr

/-- What of a vertical channel is trimmed (06 R163, R164): a coupler by direction, data couplers 0 to 255 and spares 256 to 271; a command coupler; or the
risers of a layer. -/
inductive Sampler where
  | coupler (up : Bool) (n : Nat)
  | command (n : Nat)
  | riser (layer : Nat)
deriving DecidableEq, Repr

/-- The widest run of trims without an error that a training found (13 R447): channel, sampler, first trim and number of trims. -/
structure TrimRun where
  k     : Nat
  of    : Sampler
  first : Nat
  len   : Nat
deriving DecidableEq, Repr

/-- What a training of the vertical channels found (13 R447, R448), and when. -/
structure Training where
  runs : List TrimRun
  t    : Nat
deriving DecidableEq, Repr

/-- What is seen of a neighbour (09 R324): its port, and whether PEER_ALIVE_N has been released for 5 µs. -/
structure PeerPin where
  port     : Nat
  released : Bool
deriving DecidableEq, Repr

/-- A departure notice (09 R323): the port it came in at, and the module it is about where it is not the neighbour itself. -/
structure Departure where
  port  : Nat
  about : Option Nat
deriving DecidableEq, Repr

/-- A Prouth packet (09 R303, Table 9-5): the route header's 128 bits and the data lines. -/
structure Packet where
  hdr   : BitVec 128
  vc    : Nat
  data  : List Line
deriving DecidableEq, Repr

/-- What a control flit carries (09 R302): ack state, a NAK with the expected seq, and the credits by virtual channel
and hop class (8 counts). -/
structure CtlFlit where
  ack     : Option Nat
  nak     : Option Nat
  credits : List Nat
deriving DecidableEq, Repr

/-- The trailer of a member (08 R269), with the step8 of the packet that carries it (09 Table 9-5). -/
structure Trailer where
  rank      : Nat
  step8     : Nat
  finite    : Bool
  scaleExp  : Nat
  count     : Nat
  withdrawn : Bool
  digest    : DWord
deriving DecidableEq, Repr

/-- A published mask (09 R320); `admits` names the rank and the module of a spare that the generation admits (R322, 12 R431). -/
structure MaskMsg where
  step    : Nat
  gen     : Nat
  members : List Nat
  admits  : Option (Nat × Nat)
deriving DecidableEq, Repr

/-- The unit of a targeted self-test, by the codes of SELF_TEST (12 Table 12-3). -/
inductive TestUnit where
  | core (k : Nat)
  | bank (k b : Nat)
  | channel (k : Nat)
  | pc (stack pc : Nat)
  | lane (port lane : Nat)
deriving DecidableEq, Repr

/-- The dies whose temperature acts (10 R359, Table 10-8; 07 Table 7-4). -/
inductive Die where
  | base (quadrant : Nat)
  | cellar (cluster : Nat)
  | hbm (stack : Nat)
deriving DecidableEq, Repr

/-- The sensors that can fail (12 Table 12-2, code 0x0C). -/
inductive Sensor where
  | inlet
  | base (quadrant : Nat)
  | cellarC1 (cluster : Nat)
  | cellarC4 (cluster : Nat)
  | hbm (stack : Nat)
deriving DecidableEq, Repr

/-- PLDM Type 2 sensors (13 Table 13-6). -/
inductive PldmSensor where
  | inputVoltage
  | inputPower
  | allowance
  | coolantInlet
  | coldPlate
  | modelPlate
  | heatCap
  | hottestBase (quadrant : Nat)
  | hottestCellar
  | hbmStack (stack : Nat)
  | tollgateState
  | beatValid
  | serviceCause
deriving DecidableEq, Repr

/-- A takeover query (12 R429): the rank state and last swept step asked of the leader, the newest complete buffer
asked of rank b, or the working-copy seals asked of the lowest other rank. -/
inductive TakeoverQuery where
  | rankState (rank : Nat)
  | buffer (rank : Nat)
  | seals (rank : Nat) (tensor : Word)
deriving DecidableEq, Repr

/-- The context block of a mirror (12 R427). -/
structure CtxBlock where
  step    : Nat
  seed    : DWord
  scaleExp : Nat
  fixed   : Bool
  clean   : Nat
  probe   : Bool
  probeLeft : Nat
  cursor  : DWord
  swept   : Nat
  p1      : List Word
  p2      : List Word
  hsets   : List (BitVec 256)
  digest  : DWord
deriving DecidableEq, Repr

/-- The arrays of one shard in a buddy buffer (08 R286). -/
structure ShardCopy where
  tensor  : Word
  master  : List Byte
  moment1 : List Byte
  moment2 : List Byte
  seals   : List DWord
deriving DecidableEq, Repr

/-- One buddy buffer (08 R286, 12 R427). -/
structure Buffer where
  owner    : Nat
  step     : Nat
  complete : Bool
  shards   : List ShardCopy
  block    : Option CtxBlock
deriving DecidableEq, Repr

/-- Answers to takeover queries (12 R429). -/
inductive TakeoverReply where
  | rankState (inMask lostOrDeparted : Bool) (lastSwept : Nat)
  | buffer (b : Option Buffer)
  | seals (tensor : Word) (seals : List DWord)
deriving DecidableEq, Repr

/-- What a mirror sends (08 R287, 12 R427): a unit of one array (0 master, 1 first moment, 2 second moment), with the
master seal of the unit for array 0, or the closing message with the context block. -/
inductive MirrorMsg where
  | start (owner step : Nat)
  | unit (owner step : Nat) (tensor : Word) (array unit : Nat) (bytes : List Byte) (sealv : DWord)
  | finish (owner step : Nat) (block : CtxBlock)
deriving DecidableEq, Repr

end Sys2Proof
end

