-- ==== Sys2Proof/Config.lean ====
section
/-! DEFINITION. What one implementation fixes, and the free values: opaque constants without a body, so that no proof can
rest on a value the manual leaves open. -/

namespace Sys2Proof

/-- A function table (03 R69): lo, w, tails a0 a1 b0 b1 and 256 segments (c0, c1, c2), all FP32. -/
structure FnTable where
  lo : Word
  w  : Word
  a0 : Word
  a1 : Word
  b0 : Word
  b1 : Word
  c  : List (Word × Word × Word)
deriving DecidableEq, Repr, Inhabited

/-- UNVERIFIED, log 2: a fresh 64-bit free value for each use, applied to a counter of State. -/
opaque Config.free : Nat → DWord

/-- Log 3: a byte of host memory that the module has not written; the host decides it. -/
opaque Config.hostByte : Nat → Byte

/-- UNVERIFIED, log 20: chunks of the crash log, and one byte of a chunk, at a use numbered by a counter of State. The manual says nothing of
what the log holds. -/
opaque Config.crashChunks : Nat → BitVec 16

/-- Log 20: a byte of the crash log. -/
opaque Config.crashByte : (ctr chunk i : Nat) → Byte

/-- Log 8 (10 R362): the module's calibrated power curve. Estimated power in mW of a leg with the given energy (µJ), time (ns),
cluster count and clock in 25 MHz steps. -/
opaque Config.estPower : (energy time clusters clock : Nat) → Nat

/-- Log 8 (10 R361): base(op) in mW: calibrated draw of an operating point (clock in 25 MHz steps, running clusters, HBM
active, port width code) with no leg running. -/
opaque Config.basePower : (clock clusters : Nat) → (hbm : Bool) → (width : Nat) → Nat

/-- Log 9 (05 R137): the built-in T5 table for GELU-tanh, whose contents the manual does not give. -/
opaque Config.t5Gelu : FnTable

/-- Log 10 (13 R459): the ECDSA P-384 signature of the device key over a message. -/
opaque Config.sign : List Byte → List Byte

/-- Log 10 (13 R456): whether an image's ECDSA P-384 signature verifies against the fused key. -/
opaque Config.imageSignatureOk : List Byte → Bool

/-- Log 10 (13 R457): whether an image declares that it raises the fused minimum security version. -/
opaque Config.raisesMinimum : List Byte → Bool

/-- Log 10 (13 R460): the bytes of a measured item (1 boot ROM ... 6 fused state), whose layouts the manual does not give, from what
State holds of it. -/
opaque Config.measuredItem : (index : Nat) → (content : List Nat) → List Byte

/-- Log 10 (13 R456): the security version that an image declares. -/
opaque Config.imageSecurity : List Byte → Nat

/-- Log 13: bytes of the replies of SPDM that the manual leaves to SPDM 1.2 (13 R459), by request and a counter. -/
opaque Config.spdmReply : (request ctr : Nat) → List Byte

end Sys2Proof
end

