-- ==== Sys2Proof/Syntax.lean ====
section
/-! DEFINITION. The commands of the block: one constructor per row of spec/opcode_table.json, in its order. -/

namespace Sys2Proof

/-- The commands. Each docstring names the row's mnemonic and its rule. Times `t` are in ns of the module timer. -/
inductive Instr where
  /-- IDENTIFY (R389). -/
  | identify (w : Waybill)
  /-- REG_READ (R389). -/
  | regRead (w : Waybill)
  /-- STEP_RECORDS (R293). -/
  | stepRecords (w : Waybill)
  /-- FAULT_LOG (R413). -/
  | faultLog (w : Waybill)
  /-- CTX_CREATE (R253). -/
  | ctxCreate (w : Waybill)
  /-- CTX_END (R389). -/
  | ctxEnd (w : Waybill)
  /-- PLACEMENT (R256). -/
  | placement (w : Waybill)
  /-- LSCALE_SET (R54). -/
  | lscaleSet (w : Waybill)
  /-- HPARAM_SET (R272). -/
  | hparamSet (w : Waybill)
  /-- FN_LOAD (R71). -/
  | fnLoad (w : Waybill)
  /-- RECIPE_LOAD (R389). -/
  | recipeLoad (w : Waybill)
  /-- LEG_LOAD (R390). -/
  | legLoad (w : Waybill)
  /-- MAP_SET (R172). -/
  | mapSet (w : Waybill)
  /-- SHELF_CREATE (R177). -/
  | shelfCreate (w : Waybill)
  /-- SHELF_RELEASE (R178). -/
  | shelfRelease (w : Waybill)
  /-- RANGE_PREFETCH (R195). -/
  | rangePrefetch (w : Waybill)
  /-- RANGE_FLUSH (R195). -/
  | rangeFlush (w : Waybill)
  /-- RANGE_INVALIDATE (R195). -/
  | rangeInvalidate (w : Waybill)
  /-- RANGE_DISCARD (R195). -/
  | rangeDiscard (w : Waybill)
  /-- RANGE_CLOSE (R195). -/
  | rangeClose (w : Waybill)
  /-- COPY (R389). -/
  | copyLines (w : Waybill)
  /-- TILE_MOVE (R228). -/
  | tileMove (w : Waybill)
  /-- STEP (R261). -/
  | stepWaybill (w : Waybill)
  /-- LEG (R389). -/
  | legWaybill (w : Waybill)
  /-- ROUTE_LOAD (R312). -/
  | routeLoad (w : Waybill)
  /-- ROUTE_DEFAULT (R314). -/
  | routeDefault (w : Waybill)
  /-- PORT_RETRAIN (R310). -/
  | portRetrain (w : Waybill)
  /-- EXPORT (R433). -/
  | exportWaybill (w : Waybill)
  /-- RESTORE (R438). -/
  | restore (w : Waybill) (rec : List Byte)
  /-- TAKEOVER (R429). -/
  | takeover (w : Waybill)
  /-- SETPOINT (R340). -/
  | setpoint (w : Waybill) (t : Nat)
  /-- SHED_CLEAR (R342). -/
  | shedClear (w : Waybill)
  /-- COOLANT (R368). -/
  | coolant (w : Waybill)
  /-- SELF_TEST (R416). -/
  | selfTest (w : Waybill)
  /-- HBM_RATE (R210). -/
  | hbmRate (w : Waybill)
  /-- STATUS (R401). -/
  | status (e : PrioEntry)
  /-- POWER_CAP (R340). -/
  | powerCap (e : PrioEntry) (t : Nat)
  /-- SHED_LATCH (R342). -/
  | shedLatch (e : PrioEntry) (t : Nat)
  /-- PRIORITY_SHED_CLEAR (R342). -/
  | priorityShedClear (e : PrioEntry)
  /-- RESET_CONTEXT (R452). -/
  | resetContext (e : PrioEntry)
  /-- RESET_WARM (R452). -/
  | resetWarm (e : PrioEntry) (t : Nat)
  /-- RESET_COLD (R451). -/
  | resetCold (e : PrioEntry) (t : Nat)
  /-- QUIESCE_DEPART (R323). -/
  | quiesceDepart (e : PrioEntry)
  /-- QUIESCE_REJOIN (R323). -/
  | quiesceRejoin (e : PrioEntry)
  /-- FREEZE_TILE_BOUNDARY (R88). -/
  | freezeTileBoundary (e : PrioEntry) (t : Nat)
  /-- FREEZE_IMMEDIATE (R88). -/
  | freezeImmediate (e : PrioEntry)
  /-- THAW (R401). -/
  | thaw (e : PrioEntry)
  /-- CRASH_DUMP (R401). -/
  | crashDump (e : PrioEntry)
  /-- FREEZE_COMPLETE (R401). -/
  | freezeComplete (t : Nat)
  /-- WAYBILL_FETCH (R377). -/
  | waybillFetch (hdr : BitVec 512) (buf : List Byte) (hostErr : Option DWord)
  /-- SQ_DOORBELL (R376). -/
  | sqDoorbell (ring : Nat) (v : DWord)
  /-- CQ_DOORBELL (R378). -/
  | cqDoorbell (ring : Nat) (v : DWord)
  /-- PRIORITY_DOORBELL (R399). -/
  | priorityDoorbell (v : DWord) (entries : List (BitVec 512))
  /-- RING_ENABLE (R379). -/
  | ringEnable (ring : Nat) (v : DWord)
  /-- RING_DISABLE (R379). -/
  | ringDisable (ring : Nat) (v : DWord)
  /-- RING_DRAIN_COMPLETE (R379). -/
  | ringDrainComplete (ring : Nat)
  /-- RECEIPT_WRITE_FAILURE (R380). -/
  | receiptWriteFailure (ring : Nat)
  /-- HELD_RECEIPTS_WRITE (R374). -/
  | heldReceiptsWrite
  /-- REGISTER_WRITE (R4). -/
  | registerWrite (off : Nat) (acc : Access) (v : DWord)
  /-- LEASE_S_WRITE (R341). -/
  | leaseSWrite (acc : Access) (v : DWord) (t : Nat)
  /-- RC_READ (R4). -/
  | rcRead (off : Nat)
  /-- LOW_HALF_READ (R8). -/
  | lowHalfRead (off : Nat)
  /-- HIGH_HALF_READ (R8). -/
  | highHalfRead (off : Nat)
  /-- TIER3_WINDOW_APPLY (R252). -/
  | tier3WindowApply
  /-- TILE_PRODUCT_FORWARD (R68). -/
  | tileProductForward (cl : Nat) (d : BitVec 512)
  /-- TILE_PRODUCT_DATA_GRADIENT (R110). -/
  | tileProductDataGradient (cl : Nat) (d : BitVec 512)
  /-- TILE_PRODUCT_WEIGHT_GRADIENT (R132). -/
  | tileProductWeightGradient (cl : Nat) (d : BitVec 512)
  /-- ELEMENTWISE (R80). -/
  | elementwise (cl : Nat) (d : BitVec 512)
  /-- REDUCTION (R117). -/
  | reduction (cl : Nat) (d : BitVec 512)
  /-- GATHER (R81). -/
  | gather (cl : Nat) (d : BitVec 512)
  /-- SCATTER (R81). -/
  | scatter (cl : Nat) (d : BitVec 512)
  /-- ROW_NORMALISATION_FORWARD (R144). -/
  | rowNormForward (cl : Nat) (d : BitVec 512)
  /-- ROW_NORMALISATION_BACKWARD (R145). -/
  | rowNormBackward (cl : Nat) (d : BitVec 512)
  /-- SOFT_MAXIMUM_FORWARD (R144). -/
  | softmaxForward (cl : Nat) (d : BitVec 512)
  /-- SOFT_MAXIMUM_BACKWARD (R145). -/
  | softmaxBackward (cl : Nat) (d : BitVec 512)
  /-- REDUCE_SCATTER_SEND (R267). -/
  | reduceScatterSend (cl : Nat) (d : BitVec 512)
  /-- POINT_TO_POINT_SEND (R258). -/
  | pointToPointSend (cl : Nat) (d : BitVec 512)
  /-- SHARD_FETCH (R282). -/
  | shardFetch (cl : Nat) (d : BitVec 512)
  /-- BUDDY_MIRROR (R287). -/
  | buddyMirror (cl : Nat) (d : BitVec 512)
  /-- CHECKPOINT_EXPORT (R434). -/
  | checkpointExport (cl : Nat) (d : BitVec 512)
  /-- OPTIMIZER_SWEEP_SEGMENT (R273). -/
  | sweepSegment (cl : Nat) (d : BitVec 512)
  /-- RECIPE_LAUNCH (R92). -/
  | recipeLaunch (cl : Nat) (d : BitVec 512)
  /-- DESCRIPTOR_COMPLETE (R84). -/
  | descriptorComplete (cl : Nat) (pipe : Pipe)
  /-- NOP (R96). -/
  | nop (u : StrandRef) (x : FormC)
  /-- EXIT (R96). -/
  | exit (u : StrandRef) (x : FormC)
  /-- BAR (R96). -/
  | bar (u : StrandRef) (x : FormC)
  /-- BAR_RELEASE (R96). -/
  | barRelease (core : Nat)
  /-- FENCE (R96). -/
  | fence (u : StrandRef) (x : FormA)
  /-- IF (R94). -/
  | ifMask (u : StrandRef) (x : FormC)
  /-- ELSE (R94). -/
  | elseMask (u : StrandRef) (x : FormC)
  /-- ENDIF (R94). -/
  | endIf (u : StrandRef) (x : FormC)
  /-- LOOP (R96). -/
  | loop (u : StrandRef) (x : FormC)
  /-- BRA (R96). -/
  | bra (u : StrandRef) (x : FormC)
  /-- SPR (R97). -/
  | spr (u : StrandRef) (x : FormA)
  /-- IADD (R96). -/
  | iadd (u : StrandRef) (x : FormA)
  /-- ISUB (R96). -/
  | isub (u : StrandRef) (x : FormA)
  /-- IMUL (R96). -/
  | imul (u : StrandRef) (x : FormA)
  /-- IMAD (R96). -/
  | imad (u : StrandRef) (x : FormA)
  /-- IMIN (R96). -/
  | imin (u : StrandRef) (x : FormA)
  /-- IMAX (R96). -/
  | imax (u : StrandRef) (x : FormA)
  /-- AND (R96). -/
  | andBits (u : StrandRef) (x : FormA)
  /-- OR (R96). -/
  | orBits (u : StrandRef) (x : FormA)
  /-- XOR (R96). -/
  | xorBits (u : StrandRef) (x : FormA)
  /-- SHL (R96). -/
  | shl (u : StrandRef) (x : FormA)
  /-- SHR (R96). -/
  | shr (u : StrandRef) (x : FormA)
  /-- SAR (R96). -/
  | sar (u : StrandRef) (x : FormA)
  /-- ADDI (R96). -/
  | addi (u : StrandRef) (x : FormI)
  /-- LUI (R96). -/
  | lui (u : StrandRef) (x : FormI)
  /-- ICMP (R96). -/
  | icmp (u : StrandRef) (x : FormA)
  /-- SEL (R96). -/
  | sel (u : StrandRef) (x : FormA)
  /-- FADD (R96). -/
  | fadd (u : StrandRef) (x : FormA)
  /-- FSUB (R96). -/
  | fsub (u : StrandRef) (x : FormA)
  /-- FMUL (R96). -/
  | fmul (u : StrandRef) (x : FormA)
  /-- FFMA (R96). -/
  | ffma (u : StrandRef) (x : FormA)
  /-- FMIN (R96). -/
  | fmin (u : StrandRef) (x : FormA)
  /-- FMAX (R96). -/
  | fmax (u : StrandRef) (x : FormA)
  /-- FCMP (R96). -/
  | fcmp (u : StrandRef) (x : FormA)
  /-- FN (R70). -/
  | fn (u : StrandRef) (x : FormA)
  /-- CVT (R96). -/
  | cvt (u : StrandRef) (x : FormA)
  /-- F2I (R96). -/
  | f2i (u : StrandRef) (x : FormA)
  /-- I2F (R96). -/
  | i2f (u : StrandRef) (x : FormA)
  /-- LDL (R96). -/
  | ldl (u : StrandRef) (x : FormA)
  /-- STL (R96). -/
  | stl (u : StrandRef) (x : FormA)
  /-- LDG (R96). -/
  | ldg (u : StrandRef) (x : FormA)
  /-- STG (R96). -/
  | stg (u : StrandRef) (x : FormA)
  /-- LDT (R96). -/
  | ldt (u : StrandRef) (x : FormA)
  /-- PRF (R96). -/
  | prf (u : StrandRef) (x : FormA)
  /-- ATOM (R192). -/
  | atom (u : StrandRef) (x : FormA)
  /-- RED (R187). -/
  | red (u : StrandRef) (x : FormA)
  /-- SHFL (R96). -/
  | shfl (u : StrandRef) (x : FormA)
  /-- VOTE (R96). -/
  | vote (u : StrandRef) (x : FormA)
  /-- RAND (R114). -/
  | rand (u : StrandRef) (x : FormA)
  /-- WELL_HALT_END (R240). -/
  | wellHaltEnd (core : Nat) (pipe : Pipe) (t : Nat)
  /-- WELL_HALT_TIMEOUT (R242). -/
  | wellHaltTimeout (core : Nat) (pipe : Pipe) (t : Nat)
  /-- ORDERED_CONTRIBUTION_ARRIVAL (R187). -/
  | orderedContributionArrival (c : Contribution)
  /-- CONTRIBUTION_RESEND (R188). -/
  | contributionResend (c : Contribution)
  /-- COMPLETION_NOTICE_ARRIVAL (R187). -/
  | completionNoticeArrival (nt : Notice)
  /-- IMMEDIATE_OPERATION_ARRIVAL (R192). -/
  | immediateOperationArrival (o : ImmReq)
  /-- PRESS_WAIT_TIMEOUT (R193). -/
  | pressWaitTimeout (ctx : Nat) (leg : Nat) (line : LineId) (t : Nat)
  /-- HOME_REQUEST (R184). -/
  | homeRequest (r : HomeReq)
  /-- CHANNEL_RETRIM (R165). -/
  | channelRetrim (k : Nat) (margin : Nat) (failing : List (Bool × Nat)) (t : Nat)
  /-- UNSCHEDULED_RETRIM (R166). -/
  | unscheduledRetrim (k : Nat) (before : Nat) (margin : Nat) (failing : List (Bool × Nat)) (t : Nat)
  /-- COUPLER_REMAP (R196). -/
  | couplerRemap (k : Nat) (up : Bool) (coupler : Nat)
  /-- COLUMN_EVACUATION_COMPLETE (R198). -/
  | columnEvacuationComplete (col : Nat)
  /-- LINE_CHECK_FAILURE (R167). -/
  | lineCheckFailure (k : Nat) (x : LineCheck) (up : Bool) (coupler : Nat) (t : Nat)
  /-- CELLAR_UNCORRECTABLE (R168). -/
  | cellarUncorrectable (line : LineId) (t : Nat)
  /-- CELLAR_CORRECTED (R168). -/
  | cellarCorrected (line : LineId) (t : Nat)
  /-- COLUMN_CONTROLLER_SILENT (R415). -/
  | columnControllerSilent (col : Nat) (t : Nat)
  /-- THRASH_INTERVAL_END (R179). -/
  | thrashIntervalEnd (col : Nat)
  /-- HBM_CORRECTED_ERROR (R218). -/
  | hbmCorrectedError (addr : Nat) (t : Nat)
  /-- HBM_READ_PARITY_FAILURE (R218). -/
  | hbmReadParityFailure (x : HbmAccess) (t : Nat)
  /-- HBM_WRITE_PARITY_FAILURE (R218). -/
  | hbmWriteParityFailure (x : HbmAccess) (t : Nat)
  /-- HBM_UNCORRECTABLE_ERROR (R218). -/
  | hbmUncorrectableError (x : HbmAccess) (t : Nat)
  /-- TEMPERATURE_READOUT (R216). -/
  | temperatureReadout (stackTemps : List Nat) (cellarTemps : List (Nat × Nat)) (t : Nat)
  /-- REFRESH_RATE_FALL (R216). -/
  | refreshRateFall (die : Die) (temp : Nat) (t : Nat)
  /-- OUTRIDER_FETCH_START (R238). -/
  | outriderFetchStart (ctx : Nat)
  /-- CARAVAN_FILL_COMPLETE (R238). -/
  | caravanFillComplete (ctx : Nat)
  /-- CARAVAN_FILL_ERROR (R244). -/
  | caravanFillError (ctx : Nat) (tile : Nat) (t : Nat)
  /-- TILE_REGENERATED (R246). -/
  | tileRegenerated (ctx : Nat) (layer : Nat) (tile : Nat) (src : Nat)
  /-- STASH_SPILL_FETCH (R243). -/
  | stashSpillFetch (ctx : Nat)
  /-- ADMISSION_PASS (R361). -/
  | admissionPass (t : Nat)
  /-- LEG_COMPLETE (R262). -/
  | legComplete (ctx : Nat) (leg : Nat) (t : Nat)
  /-- STEP_ADMISSION (R263). -/
  | stepAdmission (ctx : Nat) (t : Nat)
  /-- STEP_CLOSE (R292). -/
  | stepClose (ctx : Nat) (energyJ : Nat) (peakW : Nat) (t : Nat)
  /-- TRAILER_ARRIVAL (R269). -/
  | trailerArrival (ctx : Nat) (tr : Trailer)
  /-- SEAL_PUBLISH (R281). -/
  | sealPublish (ctx : Nat) (tensor : Nat)
  /-- FETCH_UNIT_ARRIVAL (R282). -/
  | fetchUnitArrival (ctx : Nat) (tensor : Nat) (rank : Nat) (unit : Nat) (bytes : List Byte) (sealv : DWord) (step : Nat)
  /-- VERIFY_REQUEST (R284). -/
  | verifyRequest (ctx : Nat) (tensor : Nat) (unit : Nat) (src : Nat) (buddy : Option Buffer)
  /-- VERIFY_REPLY (R283). -/
  | verifyReply (ctx : Nat)
  /-- MIRROR_UNIT_ARRIVAL (R287). -/
  | mirrorUnitArrival (ctx : Nat) (m : MirrorMsg)
  /-- MIRROR_ACKNOWLEDGEMENT (R288). -/
  | mirrorAcknowledgement (ctx : Nat) (step : Nat)
  /-- MASK_ARRIVAL (R321). -/
  | maskArrival (ctx : Nat) (m : MaskMsg)
  /-- RESUME_NOTICE_ARRIVAL (R321). -/
  | resumeNoticeArrival (ctx : Nat) (owner : Nat) (gen : Nat)
  /-- RESEND_NOTICE_ARRIVAL (R321). -/
  | resendNoticeArrival (ctx : Nat) (owner : Nat) (gen : Nat)
  /-- VOID_NOTICE_ARRIVAL (R320). -/
  | voidNoticeArrival (ctx : Nat) (step : Nat)
  /-- SPARE_ADMIT_REQUEST (R322). -/
  | spareAdmitRequest (ctx : Nat) (rank : Nat) (moduleId : Nat)
  /-- LOSS_NOTICE_ARRIVAL (R325). -/
  | lossNoticeArrival (moduleId : Nat)
  /-- NEIGHBOUR_LOST (R325). -/
  | neighbourLost (x : PeerPin) (t : Nat)
  /-- DEPARTURE_NOTICE_ARRIVAL (R323). -/
  | departureNoticeArrival (x : Departure)
  /-- NEIGHBOUR_DEPARTED (R324). -/
  | neighbourDeparted (port : Nat) (t : Nat)
  /-- ISOLATED (R326). -/
  | isolated (t : Nat)
  /-- FLIT_RECEIVE (R307). -/
  | flitReceive (port : Nat) (flit : BitVec 2048) (t : Nat)
  /-- CONTROL_FLIT_RECEIVE (R302). -/
  | controlFlitReceive (port : Nat) (c : CtlFlit) (t : Nat)
  /-- CONTROL_FLIT_SEND (R302). -/
  | controlFlitSend (port : Nat)
  /-- REPLAY_TIMEOUT (R307). -/
  | replayTimeout (port : Nat) (t : Nat)
  /-- LANE_DOWN (R309). -/
  | laneDown (port : Nat) (lane : Nat) (t : Nat)
  /-- WIDTH_CHANGE_COMPLETE (R310). -/
  | widthChangeComplete (port : Nat) (credits : List Nat)
  /-- PORT_TRAINING_COMPLETE (R299). -/
  | portTrainingComplete (port : Nat) (own : BitVec 8) (peer : BitVec 8) (peerId : Nat) (credits : List Nat)
  /-- PACKET_ROUTE (R313). -/
  | packetRoute (p : Packet) (t : Nat)
  /-- HELD_PACKET_TIMEOUT (R313). -/
  | heldPacketTimeout (p : Packet) (t : Nat)
  /-- PACKET_ARRIVAL (R303). -/
  | packetArrival (p : Packet)
  /-- REDUCE_SCATTER_CONTRIBUTION_ARRIVAL (R318). -/
  | reduceScatterContributionArrival (p : Packet) (c : Contribution)
  /-- PACKET_ACKNOWLEDGEMENT (R317). -/
  | packetAcknowledgement (tags : List Nat) (refused : List Nat)
  /-- LINK_TIMEOUT (R317). -/
  | linkTimeout (tag : Nat) (t : Nat)
  /-- SHED_N_ASSERT (R336). -/
  | shedNAssert (t : Nat)
  /-- SHED_N_RELEASE (R336). -/
  | shedNRelease (t : Nat)
  /-- CHATTER_CLEAR (R338). -/
  | chatterClear (t : Nat)
  /-- ENV_SET_SAMPLE (R339). -/
  | envSetSample (mv : Nat) (t : Nat)
  /-- BEAT_EDGE (R343). -/
  | beatEdge (t : Nat) (highOk : Bool)
  /-- BEAT_INVALID (R344). -/
  | beatInvalid (t : Nat)
  /-- SLOT_BOUNDARY (R345). -/
  | slotBoundary (t : Nat) (slot : Nat)
  /-- LEASE_EXPIRY (R341). -/
  | leaseExpiry (t : Nat)
  /-- INPUT_UNDERVOLTAGE (R331). -/
  | inputUndervoltage (t : Nat)
  /-- INPUT_RECOVERY (R331). -/
  | inputRecovery (t : Nat)
  /-- POWER_LOSS (R331). -/
  | powerLoss (t : Nat)
  /-- POWER_ON (R442). -/
  | powerOn (t : Nat)
  /-- BRINGUP_STEP_COMPLETE (R442). -/
  | bringupStepComplete (fails : List TestUnit) (x : Training)
  /-- GOVERNOR_TICK (R356). -/
  | governorTick (avgW : Nat) (t : Nat)
  /-- HEAT_MODEL_UPDATE (R358). -/
  | heatModelUpdate (inlet : Nat) (plate : Nat) (power : Nat) (t : Nat)
  /-- INLET_SENSOR_FAILURE (R357). -/
  | inletSensorFailure (t : Nat)
  /-- DIE_THROTTLE (R359). -/
  | dieThrottle (die : Die) (temp : Nat) (t : Nat)
  /-- THROTTLE_RELEASE (R359). -/
  | throttleRelease (die : Die) (temp : Nat) (t : Nat)
  /-- THERMAL_TRIP (R360). -/
  | thermalTrip (die : Die) (temp : Nat) (t : Nat)
  /-- RETENTION_FLOOR_REACHED (R349). -/
  | retentionFloorReached (t : Nat)
  /-- DEEP_FLOOR_ENTRY (R351). -/
  | deepFloorEntry (ok : Bool) (t : Nat)
  /-- DEEP_FLOOR_EXIT (R351). -/
  | deepFloorExit (x : Training)
  /-- RETENTION_FLOOR_EXIT (R349). -/
  | retentionFloorExit (t : Nat)
  /-- IDLE_POINT_ENTRY (R354). -/
  | idlePointEntry (t : Nat)
  /-- CLUSTER_ROTATION (R355). -/
  | clusterRotation (t : Nat)
  /-- TURN_GIVEN_UP (R355). -/
  | turnGivenUp (cl : Nat) (t : Nat)
  /-- CLOCK_STEP (R23). -/
  | clockStep (cl : Nat) (t : Nat)
  /-- RESET_N_ASSERT (R451). -/
  | resetNAssert (t : Nat)
  /-- RESET_N_RELEASE (R451). -/
  | resetNRelease (t : Nat)
  /-- WATCHDOG_EXPIRY (R451). -/
  | watchdogExpiry (t : Nat)
  /-- PERST_N_ASSERT (R373). -/
  | perstNAssert
  /-- PERST_N_RELEASE (R443). -/
  | perstNRelease
  /-- MC_CORE_WATCHDOG (R415). -/
  | mcCoreWatchdog (core : Nat) (t : Nat)
  /-- MC_CORE_RESTART_COMPLETE (R415). -/
  | mcCoreRestartComplete (core : Nat)
  /-- CORE_LOGIC_FAULT (R415). -/
  | coreLogicFault (core : Nat) (t : Nat)
  /-- TIER0_UNCORRECTABLE (R415). -/
  | tier0Uncorrectable (core : Nat) (off : Nat) (t : Nat)
  /-- TIER0_CORRECTED (R415). -/
  | tier0Corrected (core : Nat) (off : Nat) (t : Nat)
  /-- L1_PARITY (R415). -/
  | l1Parity (core : Nat) (line : LineId) (t : Nat)
  /-- POWER_STAGE_PHASE_FAULT (R415). -/
  | powerStagePhaseFault (stage : Nat) (phase : Nat) (holds : Bool) (t : Nat)
  /-- SENSOR_FAULT (R415). -/
  | sensorFault (sensor : Sensor) (t : Nat)
  /-- SELF_TEST_COMPLETE (R417). -/
  | selfTestComplete (unit : TestUnit) (pass : Bool) (t : Nat)
  /-- EXPORT_START (R433). -/
  | exportStart (ctx : Nat)
  /-- OPEN (R435). -/
  | storeOpen (ctx : Nat) (src : Nat) (srcCtx : Nat) (size : Nat)
  /-- GRANT (R434). -/
  | storeGrant (ctx : Nat) (base : Nat)
  /-- REFUSE (R434). -/
  | storeRefuse (ctx : Nat)
  /-- CLOSE (R435). -/
  | storeClose (ctx : Nat) (src : Nat) (srcCtx : Nat) (digest : BitVec 384)
  /-- DONE (R434). -/
  | storeDone (ctx : Nat) (ok : Bool)
  /-- STORE_TIMEOUT (R434). -/
  | storeTimeout (x : CtxTime)
  /-- MCTP_PRIORITY_MESSAGE (R462). -/
  | mctpPriorityMessage (vendor : BitVec 16) (subtype : Byte) (hdr : BitVec 512)
  /-- GET_VENDOR_DEFINED_MESSAGE_SUPPORT (R462). -/
  | getVendorDefined
  /-- I3C_DYNAMIC_ADDRESS (R461). -/
  | i3cDynamicAddress (addr : BitVec 7)
  /-- GET_VERSION (R459). -/
  | getVersion
  /-- GET_CAPABILITIES (R459). -/
  | getCapabilities
  /-- NEGOTIATE_ALGORITHMS (R459). -/
  | negotiateAlgorithms (p384 : Bool) (sha384 : Bool)
  /-- GET_DIGESTS (R459). -/
  | getDigests
  /-- GET_CERTIFICATE (R459). -/
  | getCertificate (slot : Nat) (off : Nat) (len : Nat)
  /-- CHALLENGE (R459). -/
  | challenge (slot : Nat) (nonce : BitVec 256)
  /-- GET_MEASUREMENTS (R460). -/
  | getMeasurements (index : Nat) (nonce : BitVec 256)
  /-- GET_SENSOR_READING (R461). -/
  | getSensorReading (sensor : PldmSensor)
  /-- DIGITAL_SETPOINT_EFFECTER (R340). -/
  | digitalSetpointEffecter (watts : Nat) (t : Nat)
  /-- DEEP_FLOOR_EFFECTER (R340). -/
  | deepFloorEffecter (deep : Bool) (t : Nat)
  /-- COOLANT_FLOW_EFFECTER (R357). -/
  | coolantFlowEffecter (flow : Nat)
  /-- PLATE_LIMIT_EFFECTER (R358). -/
  | plateLimitEffecter (limit : Nat)
  /-- FIRMWARE_UPDATE_TRANSFER (R463). -/
  | firmwareUpdateTransfer (component : Nat) (bytes : List Byte)
  /-- ACTIVATE_FIRMWARE (R463). -/
  | activateFirmware
  /-- EXTEST (R465). -/
  | extest (cells : List Bool)
  /-- SAMPLE_PRELOAD (R465). -/
  | samplePreload (pins : List Bool)
  /-- IDCODE (R465). -/
  | idcode
  /-- TESTMODE (R466). -/
  | testmode
  /-- WRAPSEL (R465). -/
  | wrapsel (stack : BitVec 4)
  /-- BYPASS (R465). -/
  | bypass
  /-- SNOOP (R231). -/
  | snoop (hostAddr : Nat) (invalidate : Bool)
  /-- IRQ_DELAY_EXPIRY (R408). -/
  | irqDelayExpiry (ring : Nat)
  /-- HOST_LINK_DOWN (R374). -/
  | hostLinkDown (width : Nat)
  /-- RETRIM_COMPLETE (R23). -/
  | retrimComplete (k : Nat) (t : Nat)
  /-- ROW_RETIREMENT_COMPLETE (R219). -/
  | rowRetirementComplete (stack : Nat) (pc : Nat) (row : Nat) (bad : List Nat)
  /-- TAKEOVER_QUERY (R429). -/
  | takeoverQuery (ctx : Nat) (src : Nat) (q : TakeoverQuery)
  /-- TAKEOVER_QUERY_REPLY (R429). -/
  | takeoverQueryReply (ctx : Nat) (r : TakeoverReply)
  /-- MIRROR_UNIT_REREQUEST (R287). -/
  | mirrorUnitRerequest (ctx : Nat) (tensor : Word) (array : Nat) (unit : Nat)
  /-- TAP_RESET (R465). -/
  | tapReset
  /-- SET_ENDPOINT_ID (R461). -/
  | setEndpointId (eid : Byte)
  /-- PLDM_EVENTS_ENABLE (R462). -/
  | pldmEventsEnable (on : Bool)
deriving DecidableEq, Repr

end Sys2Proof
end

