-- ==== Sys2Proof/WellFormed.lean ====
section
/-! DEFINITION. The ranges of the operands that a command can carry: the checks that the tables of the manual give for
unit numbers. A command outside them names no event of this module. -/

namespace Sys2Proof

/-- A number below its bound. -/
def below (n bound : Nat) : Bool := decide (n < bound)

/-- Rings 0 to 63 (11 R375). -/
def Waybill.wf (w : Waybill) : Bool := below w.ring 64

/-- Entry slots 0 to 15 of the priority ring (11 R398). -/
def PrioEntry.wf (e : PrioEntry) : Bool := below e.slot 16

/-- Global core IDs and strands (00 Table 0-4, 03 R91). -/
def StrandRef.wf (u : StrandRef) : Bool := below u.core 1536 && below u.strand 64

/-- Couplers, command couplers and the risers of layers C2 to C4 (06 R163). -/
def Sampler.wf : Sampler → Bool
  | .coupler _ n => below n 272
  | .command n => below n 24
  | .riser l => decide (2 ≤ l ∧ l ≤ 4)

/-- The runs of a training: of channels, within the trims 0 to 63 (13 R447). -/
def Training.wf (x : Training) : Bool :=
  x.runs.all fun r => below r.k 1536 && r.of.wf && decide (r.first + r.len ≤ 64)

/-- A line: a column and a line-aligned offset or address (06 R170, R173). -/
def LineId.wf : LineId → Bool
  | .scratch col off => below col 1536 && below off (79 * 65536) && decide (off % 256 = 0)
  | .window col addr => below col 1536 && below addr (2 ^ 64) && decide (addr % 256 = 0)

/-- A contribution names a context, its line, and a key within 06 R186. -/
def Contribution.wf (c : Contribution) : Bool := below c.ctx 4 && c.line.wf && below c.key.mu 256

/-- An immediate operation names one of the 64 words of its line (06 R192). -/
def ImmReq.wf (o : ImmReq) : Bool := below o.ctx 4 && o.line.wf && below o.word 64 && o.at_.wf && below o.lane 32

/-- Cores of an L1 request. -/
def HomeEvent.wf : HomeEvent → Bool
  | .l1Read core => below core 1536
  | .l1Write core => below core 1536
  | .dropCopy core => below core 1536
  | .ownerEvict core _ _ => below core 1536
  | .tileRead => true
  | .writeAtHome _ _ => true
  | .fullLineWrite _ => true
  | .victim => true

/-- A home request (06 R184). Context 4 stands for an access that no context's map resolved. -/
def HomeReq.wf (r : HomeReq) : Bool := below r.ctx 5 && r.line.wf && below r.hint 3 && r.ev.wf

/-- Dies by number (00 Table 0-4). -/
def Die.wf : Die → Bool
  | .base q => below q 4
  | .cellar c => below c 48
  | .hbm h => below h 16

/-- Sensors by number. -/
def Sensor.wf : Sensor → Bool
  | .inlet => true
  | .base q => below q 4
  | .cellarC1 c => below c 48
  | .cellarC4 c => below c 48
  | .hbm h => below h 16

/-- Units of a self-test (12 Table 12-3). -/
def TestUnit.wf : TestUnit → Bool
  | .core k => below k 1536
  | .bank k b => below k 1536 && below b 8
  | .channel k => below k 1536
  | .pc h p => below h 16 && below p 64
  | .lane p l => below p 12 && below l 8

/-- Numbered management sensors (13 Table 13-6). -/
def PldmSensor.wf : PldmSensor → Bool
  | .hottestBase q => below q 4
  | .hbmStack h => below h 16
  | .inputVoltage => true
  | .inputPower => true
  | .allowance => true
  | .coolantInlet => true
  | .coldPlate => true
  | .modelPlate => true
  | .heatCap => true
  | .hottestCellar => true
  | .tollgateState => true
  | .beatValid => true
  | .serviceCause => true

/-- Four virtual channels (09 R301). -/
def Packet.wf (p : Packet) : Bool := below p.vc 4

/-- A command names units that the module has. -/
def Instr.wf : Instr → Bool
  | .identify w => w.wf
  | .regRead w => w.wf
  | .stepRecords w => w.wf
  | .faultLog w => w.wf
  | .ctxCreate w => w.wf
  | .ctxEnd w => w.wf
  | .placement w => w.wf
  | .lscaleSet w => w.wf
  | .hparamSet w => w.wf
  | .fnLoad w => w.wf
  | .recipeLoad w => w.wf
  | .legLoad w => w.wf
  | .mapSet w => w.wf
  | .shelfCreate w => w.wf
  | .shelfRelease w => w.wf
  | .rangePrefetch w => w.wf
  | .rangeFlush w => w.wf
  | .rangeInvalidate w => w.wf
  | .rangeDiscard w => w.wf
  | .rangeClose w => w.wf
  | .copyLines w => w.wf
  | .tileMove w => w.wf
  | .stepWaybill w => w.wf
  | .legWaybill w => w.wf
  | .routeLoad w => w.wf
  | .routeDefault w => w.wf
  | .portRetrain w => w.wf
  | .exportWaybill w => w.wf
  | .restore w _ => w.wf
  | .takeover w => w.wf
  | .setpoint w _ => w.wf
  | .shedClear w => w.wf
  | .coolant w => w.wf
  | .selfTest w => w.wf
  | .hbmRate w => w.wf
  | .status e => e.wf
  | .powerCap e _ => e.wf
  | .shedLatch e _ => e.wf
  | .priorityShedClear e => e.wf
  | .resetContext e => e.wf
  | .resetWarm e _ => e.wf
  | .resetCold e _ => e.wf
  | .quiesceDepart e => e.wf
  | .quiesceRejoin e => e.wf
  | .freezeTileBoundary e _ => e.wf
  | .freezeImmediate e => e.wf
  | .thaw e => e.wf
  | .crashDump e => e.wf
  | .freezeComplete _ => true
  | .waybillFetch _ _ _ => true
  | .sqDoorbell ring _ => below ring 64
  | .cqDoorbell ring _ => below ring 64
  | .priorityDoorbell _ _ => true
  | .ringEnable ring _ => below ring 64
  | .ringDisable ring _ => below ring 64
  | .ringDrainComplete ring => below ring 64
  | .receiptWriteFailure ring => below ring 64
  | .heldReceiptsWrite => true
  | .registerWrite off _ _ => below off 0x400000
  | .leaseSWrite _ _ _ => true
  | .rcRead off => below off 0x400000
  | .lowHalfRead off => below off 0x400000
  | .highHalfRead off => below off 0x400000
  | .tier3WindowApply => true
  | .tileProductForward cl _ => below cl 48
  | .tileProductDataGradient cl _ => below cl 48
  | .tileProductWeightGradient cl _ => below cl 48
  | .elementwise cl _ => below cl 48
  | .reduction cl _ => below cl 48
  | .gather cl _ => below cl 48
  | .scatter cl _ => below cl 48
  | .rowNormForward cl _ => below cl 48
  | .rowNormBackward cl _ => below cl 48
  | .softmaxForward cl _ => below cl 48
  | .softmaxBackward cl _ => below cl 48
  | .reduceScatterSend cl _ => below cl 48
  | .pointToPointSend cl _ => below cl 48
  | .shardFetch cl _ => below cl 48
  | .buddyMirror cl _ => below cl 48
  | .checkpointExport cl _ => below cl 48
  | .sweepSegment cl _ => below cl 48
  | .recipeLaunch cl _ => below cl 48
  | .descriptorComplete cl _ => below cl 48
  | .nop u _ => u.wf
  | .exit u _ => u.wf
  | .bar u _ => u.wf
  | .barRelease core => below core 1536
  | .fence u _ => u.wf
  | .ifMask u _ => u.wf
  | .elseMask u _ => u.wf
  | .endIf u _ => u.wf
  | .loop u _ => u.wf
  | .bra u _ => u.wf
  | .spr u _ => u.wf
  | .iadd u _ => u.wf
  | .isub u _ => u.wf
  | .imul u _ => u.wf
  | .imad u _ => u.wf
  | .imin u _ => u.wf
  | .imax u _ => u.wf
  | .andBits u _ => u.wf
  | .orBits u _ => u.wf
  | .xorBits u _ => u.wf
  | .shl u _ => u.wf
  | .shr u _ => u.wf
  | .sar u _ => u.wf
  | .addi u _ => u.wf
  | .lui u _ => u.wf
  | .icmp u _ => u.wf
  | .sel u _ => u.wf
  | .fadd u _ => u.wf
  | .fsub u _ => u.wf
  | .fmul u _ => u.wf
  | .ffma u _ => u.wf
  | .fmin u _ => u.wf
  | .fmax u _ => u.wf
  | .fcmp u _ => u.wf
  | .fn u _ => u.wf
  | .cvt u _ => u.wf
  | .f2i u _ => u.wf
  | .i2f u _ => u.wf
  | .ldl u _ => u.wf
  | .stl u _ => u.wf
  | .ldg u _ => u.wf
  | .stg u _ => u.wf
  | .ldt u _ => u.wf
  | .prf u _ => u.wf
  | .atom u _ => u.wf
  | .red u _ => u.wf
  | .shfl u _ => u.wf
  | .vote u _ => u.wf
  | .rand u _ => u.wf
  | .wellHaltEnd core _ _ => below core 1536
  | .wellHaltTimeout core _ _ => below core 1536
  | .orderedContributionArrival c => c.wf
  | .contributionResend c => c.wf
  | .completionNoticeArrival nt => below nt.ctx 4
  | .immediateOperationArrival o => o.wf
  | .pressWaitTimeout ctx _ line _ => below ctx 4 && line.wf
  | .homeRequest r => r.wf
  | .channelRetrim k _ _ _ => below k 1536
  | .unscheduledRetrim k _ _ _ _ => below k 1536
  | .couplerRemap k _ coupler => below k 1536 && below coupler 256
  | .columnEvacuationComplete col => below col 1536
  | .lineCheckFailure k x _ coupler _ => below k 1536 && x.line.wf && below coupler 256
  | .cellarUncorrectable line _ => line.wf
  | .cellarCorrected line _ => line.wf
  | .columnControllerSilent col _ => below col 1536
  | .thrashIntervalEnd col => below col 1536
  | .hbmCorrectedError addr _ => below addr 0x10000000000
  | .hbmReadParityFailure _ _ => true
  | .hbmWriteParityFailure _ _ => true
  | .hbmUncorrectableError _ _ => true
  | .temperatureReadout stackTemps cellarTemps _ => decide (stackTemps.length = 16) && decide (cellarTemps.length = 48)
  | .refreshRateFall die _ _ => die.wf
  | .outriderFetchStart ctx => below ctx 4
  | .caravanFillComplete ctx => below ctx 4
  | .caravanFillError ctx _ _ => below ctx 4
  | .tileRegenerated ctx _ _ _ => below ctx 4
  | .stashSpillFetch ctx => below ctx 4
  | .admissionPass _ => true
  | .legComplete ctx _ _ => below ctx 4
  | .stepAdmission ctx _ => below ctx 4
  | .stepClose ctx _ _ _ => below ctx 4
  | .trailerArrival ctx _ => below ctx 4
  | .sealPublish ctx _ => below ctx 4
  | .fetchUnitArrival ctx _ _ _ _ _ _ => below ctx 4
  | .verifyRequest ctx _ _ _ _ => below ctx 4
  | .verifyReply ctx => below ctx 4
  | .mirrorUnitArrival ctx _ => below ctx 4
  | .mirrorAcknowledgement ctx _ => below ctx 4
  | .maskArrival ctx _ => below ctx 4
  | .resumeNoticeArrival ctx owner _ => below ctx 4 && below owner 8192
  | .resendNoticeArrival ctx owner _ => below ctx 4 && below owner 8192
  | .voidNoticeArrival ctx _ => below ctx 4
  | .spareAdmitRequest ctx _ moduleId => below ctx 4 && below moduleId 8192
  | .lossNoticeArrival moduleId => below moduleId 8192
  | .neighbourLost x _ => below x.port 12
  | .departureNoticeArrival x => below x.port 12 && x.about.all fun m => below m 8192
  | .neighbourDeparted port _ => below port 12
  | .isolated _ => true
  | .flitReceive port _ _ => below port 12
  | .controlFlitReceive port c _ => below port 12 && decide (c.credits.length = 8)
  | .controlFlitSend port => below port 12
  | .replayTimeout port _ => below port 12
  | .laneDown port lane _ => below port 12 && below lane 8
  | .widthChangeComplete port credits => below port 12 && decide (credits.length = 8)
  | .portTrainingComplete port _ _ _ credits => below port 12 && decide (credits.length = 8)
  | .packetRoute p _ => p.wf
  | .heldPacketTimeout p _ => p.wf
  | .packetArrival p => p.wf
  | .reduceScatterContributionArrival p c => p.wf && c.wf
  | .packetAcknowledgement _ _ => true
  | .linkTimeout _ _ => true
  | .shedNAssert _ => true
  | .shedNRelease _ => true
  | .chatterClear _ => true
  | .envSetSample _ _ => true
  | .beatEdge _ _ => true
  | .beatInvalid _ => true
  | .slotBoundary _ slot => below slot 64
  | .leaseExpiry _ => true
  | .inputUndervoltage _ => true
  | .inputRecovery _ => true
  | .powerLoss _ => true
  | .powerOn _ => true
  | .bringupStepComplete fails x => fails.all TestUnit.wf && x.wf
  | .governorTick _ _ => true
  | .heatModelUpdate _ _ _ _ => true
  | .inletSensorFailure _ => true
  | .dieThrottle die _ _ => die.wf
  | .throttleRelease die _ _ => die.wf
  | .thermalTrip die _ _ => die.wf
  | .retentionFloorReached _ => true
  | .deepFloorEntry _ _ => true
  | .deepFloorExit x => x.wf
  | .retentionFloorExit _ => true
  | .idlePointEntry _ => true
  | .clusterRotation _ => true
  | .turnGivenUp cl _ => below cl 48
  | .clockStep cl _ => below cl 48
  | .resetNAssert _ => true
  | .resetNRelease _ => true
  | .watchdogExpiry _ => true
  | .perstNAssert => true
  | .perstNRelease => true
  | .mcCoreWatchdog core _ => below core 3
  | .mcCoreRestartComplete core => below core 3
  | .coreLogicFault core _ => below core 1536
  | .tier0Uncorrectable core off _ => below core 1536 && below off 262144
  | .tier0Corrected core off _ => below core 1536 && below off 262144
  | .l1Parity core line _ => below core 1536 && line.wf
  | .powerStagePhaseFault stage phase _ _ => below stage 8 && below phase 6
  | .sensorFault sensor _ => sensor.wf
  | .selfTestComplete unit _ _ => unit.wf
  | .exportStart ctx => below ctx 4
  | .storeOpen ctx _ _ _ => below ctx 4
  | .storeGrant ctx _ => below ctx 4
  | .storeRefuse ctx => below ctx 4
  | .storeClose ctx _ _ _ => below ctx 4
  | .storeDone ctx _ => below ctx 4
  | .storeTimeout x => below x.ctx 4
  | .mctpPriorityMessage _ _ _ => true
  | .getVendorDefined => true
  | .i3cDynamicAddress _ => true
  | .getVersion => true
  | .getCapabilities => true
  | .negotiateAlgorithms _ _ => true
  | .getDigests => true
  | .getCertificate slot _ _ => below slot 8
  | .challenge slot _ => below slot 8
  | .getMeasurements _ _ => true
  | .getSensorReading sensor => sensor.wf
  | .digitalSetpointEffecter _ _ => true
  | .deepFloorEffecter _ _ => true
  | .coolantFlowEffecter _ => true
  | .plateLimitEffecter _ => true
  | .firmwareUpdateTransfer component _ => component == 1 || component == 2
  | .activateFirmware => true
  | .extest _ => true
  | .samplePreload _ => true
  | .idcode => true
  | .testmode => true
  | .wrapsel _ => true
  | .bypass => true
  | .snoop _ _ => true
  | .irqDelayExpiry ring => below ring 64
  | .hostLinkDown _ => true
  | .retrimComplete k _ => below k 1536
  | .rowRetirementComplete stack pc row _ => below stack 16 && below pc 64 && below row 65536
  | .takeoverQuery ctx _ _ => below ctx 4
  | .takeoverQueryReply ctx _ => below ctx 4
  | .mirrorUnitRerequest ctx _ array _ => below ctx 4 && below array 3
  | .tapReset => true
  | .setEndpointId _ => true
  | .pldmEventsEnable _ => true

end Sys2Proof
end

