-- ==== Sys2Proof/Decode.lean ====
section
/-! DEFINITION. The decoder of the table's words. No row of spec/opcode_table.json gives its command any bits: a command
reaches the module as a register access, a waybill, a message or an event (95), so no word spells one. -/

namespace Sys2Proof

/-- The command that a word spells by the opcode table's bits: none, because no row has bits. -/
def decodeTableWord (_nbits _w : Nat) : Option Instr := none

end Sys2Proof
end

