-- ==== Sys2Proof/Machine/State.lean ====
section
/-! DEFINITION. The state of the block as plain data: every register, memory, queue, counter and mode the spec gives the
module, grouped by the chapter that owns it, with the values after reset. -/

namespace Sys2Proof.Machine

open Sys2Proof

/-- No command of this block stops the machine with a fault: the manual gives each an effect. The one name is for the
interface; nothing raises it. Safe. -/
inductive Fault where
  /-- Raised by nothing. Safe. -/
  | none_
deriving DecidableEq, Repr

/-- Refusals. -/
inductive Refusal where
  /-- A command without a meaning yet; raised only by an arm of Dispatch.lean. Safe. -/
  | notModelled (mnemonic : String)
deriving DecidableEq, Repr

/-! ### What the block sends -/

/-- Messages on the management virtual channel and to stores (09 Table 9-6, 12 Table 12-6). -/
inductive Msg where
  | trailer (tr : Trailer)
  | mask (m : MaskMsg)
  | resume (gen : Nat)
  | resend (gen : Nat)
  | void (step : Nat)
  | loss (moduleId : Nat)
  | departure
  | departed (moduleId : Nat)
  | completion (nt : Notice)
  | ack (tag : Nat) (refused stale : Bool)
  | unreachable (tag : Nat)
  | verifyRequest (tensor : Word) (rank unit path : Nat)
  | verifyReply (tensor : Word) (unit : Nat)
  | mirror (m : MirrorMsg)
  | mirrorAck (step : Nat)
  | mirrorAgain (tensor : Word) (array unit : Nat)
  | storeOpen (size storeCtx : Nat)
  | storeGrant (base : Nat)
  | storeRefuse
  | storeClose (digest : BitVec 384)
  | storeDone (ok : Bool)
  | takeoverQuery (q : TakeoverQuery)
  | takeoverReply (r : TakeoverReply)
  | admitRequest (rank moduleId : Nat)
deriving DecidableEq, Repr

/-- A ring stop that refuses a request (01 R28): of a cluster with its columns, or of an HBM controller. -/
inductive RingStop where
  | cluster (c : Nat)
  | hbm (h : Nat)
deriving DecidableEq, Repr

/-- What the block drives or sends outside, besides host memory. -/
inductive Output where
  | barRead (off : Nat) (v : DWord)
  | msix (vector : Nat)
  | alive (asserted : Bool)
  | service (asserted : Bool)
  | thermtrip (asserted : Bool)
  | flit (port : Nat) (flit : BitVec 2048)
  | control (port : Nat) (c : CtlFlit)
  | packet (port : Nat) (p : Packet)
  | toRing (p : Packet)
  | send (ctx dst : Nat) (m : Msg)
  | lines (ctx dst vc : Nat) (addr : Nat) (bytes : List Byte)
  | mctpReceipt (vendor : BitVec 16) (receipt : BitVec 256)
  | mctpError
  | mctpVendor (vendor : BitVec 16)
  | spdm (bytes : List Byte)
  | spdmError
  | pldmReading (v : Option Int)
  | platformEvent (sensor : PldmSensor)
  | jtag (bits : List Bool)
  | ringRefusal (stop : RingStop)
  | snoopAnswer (hostAddr : Nat) (data : Option Line)
deriving DecidableEq, Repr

/-! ### Memories -/

/-- The byte memories (INVENTORY.md, Memories). Keys: tier0 core × 2^18 + offset; scratch column × 2^23 + offset; side
cluster × 2^19 + offset; evac as scratch; stash, for the tiles outside the saddlebag area, ((context × 256 + slot) × 256 + μ) × 2^32 + offset;
the others their own address. An unlisted byte is 0 (13 R442 step 13), but in
`host`, where it is Config.hostByte (log 3). -/
structure Mems where
  tier0   : Tbl Byte
  scratch : Tbl Byte
  side    : Tbl Byte
  tier2   : Tbl Byte
  evac    : Tbl Byte
  stash   : Tbl Byte
  host    : Tbl Byte
  bar2    : Tbl Byte
deriving DecidableEq, Repr

/-- Home states of a line (06 Table 6-6). -/
inductive LineSt where
  | np
  | v
  | s
  | e
  | rl
  | pz
deriving DecidableEq, Repr

/-- Replacement class of a line (06 R174). -/
inductive Hint where
  | normal
  | keep
  | evictFirst
deriving DecidableEq, Repr

/-- The reduction lock of a line (06 R187, R190): its context and tensor, whether it was taken in a step, the cursor
(index into the roster repeated per micro-batch), a held close, and the micro-batches and ranks whose contributions
were applied (R191, 09 R321). -/
structure Lock where
  ctx      : Nat
  tensor   : Word
  inStep   : Bool
  leg      : Nat
  cursor   : Nat
  closeHeld : Bool
  appliedMu : List Nat
  appliedRank : List Nat
deriving DecidableEq, Repr

/-- A line at its home (06 R181 to R190). `set` is its set in the column's cache part. `data` is the home copy of a cache line; a scratch line's bytes are in
`Mems.scratch`. `sharers` are the cores with an L1 copy, up to four; from the fifth on `mask` marks their clusters (R182). `direct` marks the
directory entry of a direct-window line, which takes no way. `shelf` is the shelf window that holds it (R178). `stamp` orders uses (R176),
`dirStamp` those of the directory entry. -/
structure HomeLine where
  st      : LineSt
  set     : Nat
  dirty   : Bool
  data    : Line
  sharers : List Nat
  mask    : BitVec 48
  direct  : Bool
  dirStamp : Nat
  owner   : Option Nat
  hint    : Hint
  shelf   : Option Nat
  stamp   : Nat
  lock    : Option Lock
deriving DecidableEq, Repr

/-- The state of an unlisted line: not present (a scratch line then counts as V). -/
def HomeLine.init : HomeLine :=
  { st := .np, set := 0, dirty := false, data := 0, sharers := [], mask := 0, direct := false, dirStamp := 0, owner := none, hint := .normal, shelf := none, stamp := 0, lock := none }

/-- An L1 copy (06 R181). -/
structure L1Line where
  core     : Nat
  line     : LineId
  data     : Line
  writable : Bool
  modified : Bool
deriving DecidableEq, Repr

/-- A request that waits at its home: a home request or an immediate operation (06 R184, R192, R193). -/
inductive HeldReq where
  | req (r : HomeReq)
  | imm (o : ImmReq)
deriving DecidableEq, Repr

/-- One column: its channel (06 Table 6-14), trims, thrash monitor (R179, R180), pending area (R188), refused
contributions, waiters on locked lines (R193: context, leg, line, since when), the requests held in arrival order, spare lines used per layer C1 to C4 (12 R423), and the retrim
that fell due during a clock change: its margin and failing couplers (01 R23). -/
structure Column where
  upSpares     : Nat
  downSpares   : Nat
  borrowing    : Bool
  lent         : Bool
  failed       : Bool
  leftMap      : Bool
  margin       : Nat
  crcResends   : Nat
  extraRetrims : Nat
  retrim       : Bool
  retrimDue    : Option (Nat × List (Bool × Nat))
  failing      : List (Bool × Nat)
  couplerFails : List (Bool × Nat × Nat)
  crcTries     : List (LineId × Nat)
  substitute   : Option Nat
  silent       : Bool
  evacuating   : Bool
  fills        : Nat
  evictions    : Nat
  reduction    : Nat
  quiet        : Nat
  thrashing    : Bool
  pending      : List Contribution
  refused      : List Contribution
  waiters      : List (Nat × Nat × LineId × Nat)
  held         : List HeldReq
  sparesUsed   : List Nat
  corrected    : List (LineId × Nat)
  trims        : List (Sampler × Nat)
deriving DecidableEq, Repr

/-- A column after reset: no spare in use (06 Table 6-14). -/
def Column.init : Column :=
  { upSpares := 0, downSpares := 0, borrowing := false, lent := false, failed := false, leftMap := false, margin := 0,
    crcResends := 0, extraRetrims := 0, retrim := false, retrimDue := none, failing := [], couplerFails := [], crcTries := [],
    substitute := none, silent := false, evacuating := false, fills := 0, evictions := 0, reduction := 0, quiet := 0, thrashing := false, pending := [],
    refused := [], waiters := [], held := [], sparesUsed := [0, 0, 0, 0], corrected := [], trims := [] }

/-- A shelf window (06 R177, Table 6-4). -/
structure Shelf where
  ctx   : Nat
  base  : Nat
  pages : Nat
  cls   : Nat
  quota : Nat
deriving DecidableEq, Repr

/-- The module-wide cellar state: CEL_CFG (06 Table 6-12), shelf windows by ID, home lines, L1 copies, columns, the use
stamp of R176, the ordered contributions and immediate operations on their way to a press (R187, R192), and the tiles that a tile move
has placed in scratch windows, with their dirty bits (07 R228), whether the vertical channels are trained (13 R447, R449), and the number of
the next operation sent to a press (01 R16). -/
structure Cellar where
  keepCap     : Nat
  thrashEn    : Bool
  thrashWarn  : Bool
  pressWaitMs : Nat
  shelves     : Tbl (Option Shelf)
  lines       : List (LineId × HomeLine)
  l1          : List L1Line
  columns     : Tbl Column
  stamp       : Nat
  sent        : List Contribution
  sentImm     : List ImmReq
  moved       : List (List LineId × Bool)
  trained     : Bool
  sendNo      : Nat
deriving DecidableEq, Repr

/-! ### Host interface (chapter 11) -/

/-- One submission ring with its completion ring (11 R375 to R380, R405 to R408). -/
structure Ring where
  enable    : Bool
  base      : Nat
  irqEn     : Bool
  cqBase    : Nat
  sqTail    : Nat
  sqHead    : Nat
  cqHead    : Nat
  cqTail    : Nat
  phase     : Bool
  enabled   : Bool
  halted    : Bool
  fullWait  : Bool
  outstanding : Nat
  weight    : Nat
  irqCount  : Nat
  irqDelay  : Nat
  heldEnable : Bool
  waiting   : List (BitVec 256 × Bool)
  gathered  : Nat
deriving DecidableEq, Repr

/-- A ring after reset (11 Tables 11-17 to 11-20). -/
def Ring.init : Ring :=
  { enable := false, base := 0, irqEn := false, cqBase := 0, sqTail := 0, sqHead := 0, cqHead := 0, cqTail := 0, phase := true,
    enabled := false, halted := false, fullWait := false, outstanding := 0, weight := 1, irqCount := 0, irqDelay := 0,
    heldEnable := false, waiting := [], gathered := 0 }

/-- A fetched waybill without its final receipt (11 R385): started or waiting, and, while it runs on, what it waits
for is in the owner's state. `dropped` marks receipts dropped by PERST_N (R373), `hostErr` the host address at which reading its buffer
fails (Table 11-4, code 0x0105). -/
structure WbEntry where
  wb      : Waybill
  started : Bool
  dropped : Bool
  hostErr : Option DWord
deriving DecidableEq, Repr

/-- The host interface. `latch` holds latched high halves by register offset (00 R8). -/
structure HostIf where
  rings     : Tbl Ring
  rrRing    : Nat
  rrLeft    : Nat
  prioTail  : Nat
  prioHead  : Nat
  prioBusy  : Bool
  mctpBusy  : Bool
  overrun   : Bool
  prioQ     : List PrioEntry
  mctpQ     : List PrioEntry
  barServed : Bool
  eventRing : Nat
  eventEn   : Bool
  t3Enable  : Bool
  t3Cxl     : Bool
  t3Base    : Nat
  t3Size    : Nat
  t3Pending : Option (Nat × Nat)
  linkUp    : Bool
  linkWidth : Nat
  perst     : Bool
  held      : List (Option Nat × BitVec 256 × Bool)
  latch     : Tbl (Option Word)
  wbs       : List WbEntry
deriving DecidableEq, Repr

/-- The host interface after reset. -/
def HostIf.init : HostIf :=
  { rings := [], rrRing := 0, rrLeft := 0, prioTail := 0, prioHead := 0, prioBusy := false, mctpBusy := false, overrun := false,
    prioQ := [], mctpQ := [], barServed := false, eventRing := 0, eventEn := false, t3Enable := false,
    t3Cxl := false, t3Base := 0, t3Size := 0, t3Pending := none, linkUp := false, linkWidth := 16, perst := true, held := [],
    latch := [], wbs := [] }

/-! ### Management controller, faults, flash (chapters 11 to 13) -/

/-- A fault record (12 Table 12-1). -/
structure FaultRec where
  seq     : Nat
  time    : Nat
  kind    : Nat
  outcome : Nat
  context : Nat
  unit    : Nat
  sub     : Nat
  spare   : Nat
  step    : Nat
  detail  : Nat
  service : Nat
deriving DecidableEq, Repr

/-- An entry of the repair map (12 R421). -/
inductive Repair where
  | remount (core spare : Nat)
  | remountFailed (cluster spare : Nat)
  | position (core : Nat)
  | bank (core bank : Nat)
  | coupler (k : Nat) (up : Bool) (coupler : Nat)
  | channel (k : Nat)
  | column (k : Nat)
  | line (col layer : Nat)
  | row (stack pc row : Nat)
  | lane (port lane : Nat)
  | phase (stage phase : Nat)
  | sensor (s : Sensor)
  | cause (c : Nat)
deriving DecidableEq, Repr

/-- A self-test in progress (12 R416 to R418): its unit, the fault kind that started it, the row or address of the
fault, and the waybill that asked for it, if one did. -/
structure TestRun where
  unit    : TestUnit
  kind    : Nat
  info    : Nat
  waybill : Option Waybill
deriving DecidableEq, Repr

/-- The configuration block and the images of the flash (13 R455, R458). -/
structure Flash where
  idSource  : Bool
  moduleId  : Nat
  dx        : Nat
  dy        : Nat
  dz        : Nat
  nominal60 : Bool
  hbmRate   : Bool
  active    : Bool
  attempts  : Nat
  stepping  : Nat
  firmware  : Nat
  vendorId  : BitVec 16
  minSecurity : Nat
  security  : Nat × Nat
  certs     : List Byte
  imageA    : List Byte
  imageB    : List Byte
  rejected  : Bool × Bool
deriving DecidableEq, Repr

/-- The management controller. `resetting` is the level of a reset in progress (13 R454), with the priority entries
whose receipts wait for it. `romHalt` says that both images were rejected and the module stays in its boot ROM (13 R456). -/
structure Mc where
  coreAlive  : List Bool
  image      : Bool
  resetCause : Nat
  serviceReq : Bool
  causes     : List Nat
  eventsLost : Nat
  faultSeq   : Nat
  faultLog   : List FaultRec
  flashLog   : List FaultRec
  repairMap  : List Repair
  bringup    : Nat
  zeroDone   : Bool
  tests      : List TestRun
  testHistory : List (TestUnit × Nat)
  coreRestarts : List (Nat × Nat)
  resetting  : Option Nat
  resetEntries : List PrioEntry
  testMode   : Bool
  resetNLow  : Bool
  romHalt    : Bool
  freezeReq  : Option (PrioEntry × Nat)
  flash      : Flash
  geoId      : Nat
  mgmtAddr   : Nat
deriving DecidableEq, Repr

/-! ### Contexts (chapters 2, 5, 7, 8, 9, 12) -/

/-- A cellar map entry (06 Table 6-3). -/
structure MapEntry where
  base  : Nat
  pages : Nat
  mode  : Nat
  hint  : Nat
  stash : Bool
  colOff : Nat
  home  : BitVec 48
deriving DecidableEq, Repr

/-- A trained tensor (11 Table 11-14). -/
structure Tensor where
  master  : Nat
  moment1 : Nat
  moment2 : Nat
  working : Nat
  localG  : Nat
  reduced : Nat
  seals   : Nat
  kTiles  : Nat
  nTiles  : Nat
  id      : Word
  fmt     : Nat
  hset    : Nat
  frozen  : Bool
  tied    : Bool
deriving DecidableEq, Repr

/-- A stash slot (05 Table 5-4). -/
structure StashSlot where
  layer   : Nat
  derived : Bool
  sizeKib : Nat
deriving DecidableEq, Repr

/-- A caravan entry (07 Table 7-10). -/
structure CaravanEntry where
  src      : Nat
  fmt      : Nat
  kTiles   : Nat
  nTiles   : Nat
  clusters : BitVec 48
deriving DecidableEq, Repr

/-- A tied group (05 R140, 11 Table 11-13). -/
structure TiedGroup where
  buffer   : Nat
  tensor   : Nat
  clusters : BitVec 48
deriving DecidableEq, Repr

/-- A placement (08 Table 8-2). `sections` lists the section types of its image. -/
structure Placement where
  sections : List Nat
  stages   : Nat
  stage    : Nat
  layers   : Nat
  n        : Nat
  rank     : Nat
  buddyEn  : Bool
  buddy    : Nat
  clusters : List (Nat × Nat × Nat)
  group    : List Nat
  tensors  : List Tensor
  tied     : List TiedGroup
  stash    : List StashSlot
  caravan  : List CaravanEntry
deriving DecidableEq, Repr

/-- One entry of a step's leg list (11 Table 11-13, section 0x10). -/
structure LegEntry where
  prog    : Nat
  phase   : Nat
  layer   : Nat
  caravan : Nat
deriving DecidableEq, Repr

/-- A roster (06 R187): (leg list index, seq) entries of one tensor. -/
structure Roster where
  tensor  : Word
  entries : List (Nat × Nat)
deriving DecidableEq, Repr

/-- A leg as it stands in the sequence of a step (08 R261), or a leg outside a step. -/
structure LegInst where
  idx       : Nat
  entry     : LegEntry
  mu        : Option Nat
  recompute : Bool
deriving DecidableEq, Repr

/-- A leg in flight (10 R361, 08 R291): clusters, share of the budget, the status it will report, and, of a sweep or fetch leg that
was interrupted, the descriptors to take up again with the tiles done by each core (08 R278, R291), and the segments, as (cluster, seq),
that have failed. -/
structure LegRun where
  ctx      : Nat
  id       : Nat
  inst     : LegInst
  inStep   : Bool
  clusters : List Nat
  committed : Rat
  peak     : Rat
  energy   : Rat
  status   : Nat
  detail   : Nat
  orderDep : Bool
  outRows  : Nat
  wb       : Option Waybill
  resume   : List (Nat × BitVec 512 × Tbl Nat)
  failed   : List (Nat × Nat)
deriving DecidableEq, Repr

/-- The decision of 08 R270 and 02 R59. -/
inductive Decision where
  | void_
  | skip
  | sweep
deriving DecidableEq, Repr

/-- One stash tile written (05 R151): slot, micro-batch, offset, size, whether it was spilled and is back, recompute space, and its place in
the saddlebag area, if it lies there. -/
structure StashTile where
  slot    : Nat
  mu      : Nat
  off     : Nat
  bytes   : Nat
  spilled : Bool
  fetched : Bool
  recomputed : Bool
  area    : Option Nat
deriving DecidableEq, Repr

/-- Values the MC computes once per step and per hyper-parameter set (08 R273). -/
structure SweepSet where
  hset : Nat
  bc1  : Word
  bc2  : Word
  c1   : Word
  c2   : Word
  lr   : Word
deriving DecidableEq, Repr

/-- A reduce-scatter segment of this member (09 R316, R321): tensor, owner rank, its descriptor in a cluster and leg, whether a new mask
generation has stopped it, and whether its completion notice is sent. -/
structure Segment where
  tensor  : Word
  owner   : Nat
  cl      : Nat
  desc    : BitVec 512
  leg     : Nat
  stopped : Bool
  noticed : Bool
deriving DecidableEq, Repr

/-- The shard unit being fetched (08 R282, R283): index of the trained tensor, owner rank, unit, tries on the path, path (0 first candidate
port, 1 second), whether it waits for the owner's reply to a verify request, and the addresses of the shard at the owner and here (09 R316). -/
structure Fetching where
  tensor : Nat
  rank   : Nat
  unit   : Nat
  tries  : Nat
  path   : Nat
  verify : Bool
  src    : Nat
  dst    : Nat
deriving DecidableEq, Repr

/-- The step a context runs (08 R261 to R293). `lostRank` says that a reset has cost the member its rank and the step ends void once its interrupted
sweep is complete (13 R453). `reported` lists the descriptors whose cluster has completed them, as (leg list index,
micro-batch, seq, cluster) (06 R187 step 3). -/
structure StepRun where
  wb        : Waybill
  mcount    : Nat
  lr        : Word
  advance   : DWord
  record    : Nat
  legList   : List LegEntry
  rosters   : List Roster
  todo      : List LegInst
  dropped   : List (Nat × Nat)
  applied   : List Nat
  reported  : List (Nat × Nat × Nat × Nat)
  withdrawn : Bool
  finite    : Bool
  orderDep  : Bool
  trailers  : List Trailer
  trailerSent : Bool
  voidNotice : Bool
  decision  : Option Decision
  mismatch  : Bool
  digestBad : Option Nat
  divisor   : Nat
  sets      : List SweepSet
  lean      : List (Nat × Nat)
  poisonLean : List (Nat × Nat)
  recomputes : List (Nat × Nat)
  spilled   : Tbl Nat
  leanCount : Nat
  tAdmit    : Nat
  tForward  : Nat
  tBackward : Nat
  tReduce   : Nat
  tSweep    : Nat
  wellHalts : Nat
  sealBad   : Nat
  rolledBack : Nat
  tilesSwept : Nat
  sealRepair : Bool
  recovered : Bool
  mirrorWait : Bool
  segments  : List Segment
  noticesIn : List Notice
  cursorIn  : DWord
  scaleIn   : Nat
  estEnergy : Rat
  startNs   : Nat
  minExp    : Nat
  contributors : Nat
  lostRank  : Bool
deriving DecidableEq, Repr

/-- Loss-scale state (02 Table 2-8). -/
structure LScale where
  exp       : Nat
  fixed     : Bool
  clean     : Nat
  probe     : Bool
  probeLeft : Nat
  skips     : Nat
deriving DecidableEq, Repr

/-- A caravan slot (07 R238): its layer, whether the whole layer has arrived, the tiles that have arrived before, and its last visit. -/
structure CarSlot where
  layer : Nat
  full  : Bool
  tiles : List Nat
  last  : Nat
deriving DecidableEq, Repr

/-- The caravan of a context (07 R236 to R241, Table 7-14), plus the tiles under regeneration. `inForce` is the distance of the running visit,
`fly` the step legs that read a layer, in sequence order: leg, layer, whether it is done (R237). -/
structure Caravan where
  window    : Nat
  distance  : Nat
  inForce   : Nat
  autoRaise : Bool
  haltLimit : Nat
  halts     : Nat
  stashHalts : Nat
  latchedW  : Nat
  slots     : Tbl (Option CarSlot)
  fetch     : Option (Nat × Nat × Nat)
  running   : Nat
  raised    : Option Nat
  poisoned  : List (Nat × Nat)
  fly       : List (Nat × Nat × Bool)
deriving DecidableEq, Repr

/-- The membership mask of a context (09 R320, R329). -/
structure Mask where
  step       : Nat
  gen        : Nat
  members    : List Nat
  restarting : Bool
  restartGen : Nat
deriving DecidableEq, Repr

/-- An export in progress (12 R433, R434): the record taken at the boundary, the store, and where it stands. -/
structure Export where
  wb     : Waybill
  step   : Nat
  record : List Byte
  digest : BitVec 384
  opened : Bool
  base   : Option Nat
  closed : Bool
  since  : Nat
deriving DecidableEq, Repr

/-- A takeover in progress (12 R429): rank, last swept step, buffer received, requests made again, tensors whose seals are not compared yet, and
the stage: 1 asks the leader, 2 the buddy, 3 compares seals, 4 fetches, 5 asks to be admitted, 9 is admitted and waits for its first step. -/
structure Takeover where
  wb     : Waybill
  rank   : Nat
  stage  : Nat
  swept  : Nat
  buffer : Option Buffer
  tries  : Nat
  wanted : List Word
deriving DecidableEq, Repr

/-- A grant this module has given as a store (12 R435): exporter module and context, base and size. -/
structure Grant where
  src    : Nat
  srcCtx : Nat
  base   : Nat
  size   : Nat
deriving DecidableEq, Repr

/-- Settings latched at step admission (02 R53, 04 R112, 05 R159, 08 R253). -/
structure Latched where
  tols     : List Nat
  srThresh : Nat
  srOff    : Bool
  areaMib  : Nat
  quotaMib : Nat
  hsets    : Tbl (BitVec 256)
deriving DecidableEq, Repr

/-- Registers of a context that the host sets, besides the caravan (02 Table 2-7, 04 Table 4-2, 05 Table 5-5). -/
structure CtxCfg where
  tols     : List Nat
  srThresh : Nat
  srOff    : Bool
  areaMib  : Nat
  quotaMib : Nat
deriving DecidableEq, Repr

/-- Status counters of a context (05 Table 5-6, 08 Table 8-9). -/
structure CtxCnt where
  peakMib   : Nat
  spillMib  : Nat
  leanLayers : Nat
  poisonRec : Nat
  sealMismatch : Nat
  refetches : Nat
  suspects  : Nat
  repairs   : Nat
deriving DecidableEq, Repr

/-- The last sweep that a step of the context decided on (08 R273, R284): step, the sweep before it (none after a restore or a takeover,
which leave nothing to sweep again), divisor, constants and exponent. -/
structure LastSweep where
  step    : Nat
  before  : Option Nat
  divisor : Nat
  sets    : List SweepSet
  exp     : Nat
deriving DecidableEq, Repr

/-- How the sweep converted a working copy (08 R274): saturate, block-size field, stochastic rounding. -/
structure SweepConv where
  tensor : Word
  sat    : Bool
  bsize  : Nat
  sr     : Bool
deriving DecidableEq, Repr

/-- One context (08 Table 8-1 and the registers of each chapter). `queue` holds its STEP waybills, `legQ` its LEG waybills, `boundary` the
configuration waybills that wait for the next step boundary (11 R396), `fetched` the shards fetched (index of the trained tensor, rank),
`unitSeals` the owners' seals of the units fetched (tensor index, rank, unit; 07 R245), `mirroring` the mirrored step without its
acknowledgement and the context block of its close (12 R427), `again` the mirror units asked for again (tensor, unit, times), `restore` a RESTORE that still fetches shards, `early` the trailers that came
before this member admitted their step, `earlyVoid` the steps of void notices that did (09 R320), `evac` whether columns of the context are evacuated, and whether the context stays frozen
afterwards (06 R198). -/
structure Ctx where
  live      : Bool
  seed      : DWord
  step      : Nat
  cursor    : DWord
  swept     : Nat
  lastSwept : Nat
  p1        : Tbl Word
  p2        : Tbl Word
  hsets     : Tbl (BitVec 256)
  ls        : LScale
  cfg       : CtxCfg
  latched   : Latched
  cnt       : CtxCnt
  car       : Caravan
  frozen    : Bool
  frozenAt  : Nat
  stuck     : Bool
  mirrorValid : Bool
  parked    : Bool
  parkedAt  : Nat
  place     : Option Placement
  map       : List MapEntry
  boundary  : List Waybill
  legQ      : List Waybill
  queue     : List Waybill
  run       : Option StepRun
  records   : List (List Byte)
  mask      : Mask
  lost      : List Nat
  departed  : List Nat
  notices   : List (Nat × Nat × Bool)
  stash     : List StashTile
  stashPeak : Nat
  spillPeak : Nat
  buffers   : List Buffer
  mirroring : Option (Nat × CtxBlock)
  exp       : Option Export
  grants    : List Grant
  take      : Option Takeover
  masterSeals : List (Word × List DWord)
  fetched   : List (Nat × Nat)
  unitSeals : List ((Nat × Nat × Nat) × DWord)
  fetching  : Option Fetching
  lastSweep : Option LastSweep
  convs     : List SweepConv
  again     : List (Word × Nat × Nat)
  restore   : Option Waybill
  early     : List Trailer
  earlyVoid : List Nat
  evac      : Option Bool
deriving DecidableEq, Repr

/-- A context register file after reset. -/
def CtxCfg.init : CtxCfg := { tols := [3, 6, 1, 0, 0], srThresh := 0x1000, srOff := false, areaMib := 0, quotaMib := 0 }

/-- Loss scale after reset (02 Table 2-8). -/
def LScale.init : LScale := { exp := 0, fixed := false, clean := 0, probe := false, probeLeft := 0, skips := 0 }

/-- Caravan registers after reset (07 Table 7-14). -/
def Caravan.init : Caravan :=
  { window := 3, distance := 1, inForce := 1, autoRaise := true, haltLimit := 100, halts := 0, stashHalts := 0, latchedW := 3, slots := [],
    fetch := none, running := 0, raised := none, poisoned := [], fly := [] }

/-- FP32 1.0. -/
def one32 : Word := 0x3F800000

/-- A context slot after reset: no context (08 R253). p1 and p2 read 1.0 (`one32` is the tables' default). -/
def Ctx.init : Ctx :=
  { live := false, seed := 0, step := 0, cursor := 0, swept := 0, lastSwept := 0, p1 := [], p2 := [], hsets := [], ls := LScale.init,
    cfg := CtxCfg.init,
    latched := { tols := [3, 6, 1, 0, 0], srThresh := 0x1000, srOff := false, areaMib := 0, quotaMib := 0, hsets := [] },
    cnt := { peakMib := 0, spillMib := 0, leanLayers := 0, poisonRec := 0, sealMismatch := 0, refetches := 0, suspects := 0, repairs := 0 },
    car := Caravan.init, frozen := false, frozenAt := 0, stuck := false, mirrorValid := false, parked := false, parkedAt := 0, place := none, map := [],
    boundary := [], legQ := [], queue := [], run := none, records := [],
    mask := { step := 0, gen := 0, members := [], restarting := false, restartGen := 0 },
    lost := [], departed := [], notices := [], stash := [], stashPeak := 0, spillPeak := 0, buffers := [], mirroring := none, exp := none, grants := [],
    take := none, masterSeals := [], fetched := [], unitSeals := [], fetching := none, lastSweep := none, convs := [], again := [], restore := none, early := [], earlyVoid := [], evac := none }

/-! ### Clusters and cores (chapters 3 to 5) -/

/-- A function slot (03 R69, 05 R134). -/
structure FnSlot where
  compat : Nat
  a      : FnTable
  b      : FnTable
deriving DecidableEq, Repr

/-- Why a core stands still in a descriptor: a tile that has not arrived, a caravan tile under regeneration (07 R244),
a locked line (06 R193), the mirror or export that holds the sweep (08 R288, 12 R433), or a message that a collective segment waits for
(08 R282, 09 R321). -/
inductive HaltWhy where
  | missing
  | regen
  | locked (line : LineId)
  | undoHeld
  | waits
deriving DecidableEq, Repr

/-- A core standing still: since when (ns), at which tile address, and why. -/
structure Halt where
  core  : Nat
  since : Nat
  tile  : Nat
  why   : HaltWhy
deriving DecidableEq, Repr

/-- A descriptor in a pipe (03 R64, R84): the leg it belongs to, output tiles done by each core position, and halts. For a
recipe launch `next` is the next thread index to claim (R92); for a data-gradient product `sums` is the running sum of the output tile that
travels between its cores (04 R110). -/
structure DescRun where
  desc  : BitVec 512
  pipe  : Pipe
  ctx   : Nat
  leg   : Nat
  done  : Tbl Nat
  halts : List Halt
  next  : Nat
  sums  : List Word
deriving DecidableEq, Repr

/-- One statistics block of a row engine (05 R147): key (context, micro-batch, address), rows, and the entries stored,
by row. -/
structure StatBlock where
  ctx     : Nat
  mu      : Nat
  addr    : Nat
  rows    : Nat
  entries : Tbl (Option (Word × Word))
deriving DecidableEq, Repr

/-- Counters of a cluster that clear on read (03 Tables 3-11, 3-12, 04 Table 4-7, 05 Table 5-8, 06 Table 6-15). -/
structure ClCnt where
  strandFaults : Nat
  cvtNan   : Nat
  intWrap  : Nat
  chainBreak : Nat
  overflowRows : Nat
  recomputeRows : Nat
  defers   : Nat
  refusals : Nat
  overflows : Nat
  waitTimeouts : Nat
  pendingPeak : Nat
deriving DecidableEq, Repr

/-- A strand of a recipe launch (03 R91 to R94). Registers are keyed lane × 32 + index; predicates lane × 8 + index. A register or
predicate that the batch has not written holds a free value, numbered from `fresh` (log 2). -/
structure Strand where
  base   : Nat
  live   : BitVec 32
  stack  : List (BitVec 32)
  pc     : Nat
  fresh  : Nat
  regs   : Tbl (Option Word)
  preds  : Tbl (Option Bool)
  atBar  : Option Nat
  loopAt : List (Nat × BitVec 32)
  waiting : List Nat
  reds   : Tbl Nat
deriving DecidableEq, Repr

/-- One cluster. `suspended` keeps the leg, queue and event counters of a backward leg that stands while the recompute of a poisoned
stash tile runs (05 R157; log 16). Clock in 25 MHz steps: 24 is 0.6 GHz, 76 is 1.9 GHz (01 Table 1-4). `held` is whether the power controls hold it
(10 R337, R355). -/
structure Cluster where
  active   : BitVec 32
  rem32    : Nat
  rem33    : Nat
  failed32 : Bool
  failed33 : Bool
  lastSeq  : Nat
  frozen   : Bool
  rejected : Bool
  owner    : Option Nat
  queue    : List (BitVec 512)
  leg      : Option (Nat × Nat)
  suspended : Option ((Nat × Nat) × List (BitVec 512) × Tbl Nat)
  events   : Tbl Nat
  runs     : List DescRun
  slots    : Tbl (Option FnSlot)
  recipe   : Tbl Word
  statLimit : Nat
  blocks   : List StatBlock
  cnt      : ClCnt
  scratchUnits : Nat
  clock    : Nat
  target   : Nat
  held     : Bool
  retention : Bool
  throttled : Bool
  tempC1   : Nat
  tempC4   : Nat
  refreshC : Nat
  refreshOver : Nat × Nat
deriving DecidableEq, Repr

/-- Cluster counters after reset. -/
def ClCnt.init : ClCnt :=
  { strandFaults := 0, cvtNan := 0, intWrap := 0, chainBreak := 0, overflowRows := 0, recomputeRows := 0, defers := 0, refusals := 0,
    overflows := 0, waitTimeouts := 0, pendingPeak := 0 }

/-- A cluster after reset (03 Tables 3-10, 3-11, 05 Table 5-7, 06 Table 6-16; held at 0.6 GHz, 13 R442 step 6). -/
def Cluster.init : Cluster :=
  { active := 0xFFFFFFFF, rem32 := 0x3F, rem33 := 0x3F, failed32 := false, failed33 := false, lastSeq := 0, frozen := false,
    rejected := false, owner := none, queue := [], leg := none, suspended := none, events := [], runs := [], slots := [], recipe := [],
    statLimit := 8, blocks := [], cnt := ClCnt.init, scratchUnits := 0, clock := 24, target := 24, held := true,
    retention := false, throttled := false, tempC1 := 0, tempC4 := 0, refreshC := 0, refreshOver := (0, 0) }

/-- One core: strands, tier-0 bank in use as spare (12 R419), bad words, corrected history (12 R415), tests pausing it. -/
structure Core where
  strands  : Tbl (Option Strand)
  bankMoved : Option Nat
  badWords : List Nat
  corrected : List (Nat × Nat)
deriving DecidableEq, Repr

/-- A core after reset. -/
def Core.init : Core := { strands := [], bankMoved := none, badWords := [], corrected := [] }

/-! ### HBM (chapter 7) -/

/-- One stack (07 Table 7-13, R218 to R222). `above` is when the die was last above 82 °C and above 92 °C. Rows are (pseudo-channel, row); `remap` lists retired rows in remap
entries; `moving` rows being moved; `poison` the lines entered in the poison table; `halfRate` whether its die temperature halves its rate (10 R359). -/
structure Stack where
  temp      : Nat
  mult      : Nat
  above     : Nat × Nat
  remap     : List (Nat × Nat)
  hard      : List (Nat × Nat)
  moving    : List (Nat × Nat)
  exhausted : Bool
  poison    : List Nat
  victims   : List LineId
  corrected : Nat
  uncorrectable : Nat
  retries   : Nat
  history   : List (Nat × Nat)
  tries     : List (Nat × Nat)
  failed    : Bool
  halfRate  : Bool
  selfRefresh : Bool
deriving DecidableEq, Repr

/-- A stack after reset (07 Table 7-13), in self-refresh until step 7. -/
def Stack.init : Stack :=
  { temp := 0, mult := 0, above := (0, 0), remap := [], hard := [], moving := [], exhausted := false, poison := [], victims := [],
    corrected := 0, uncorrectable := 0, retries := 0, history := [], tries := [], failed := false, halfRate := false, selfRefresh := true }

/-- HBM as a whole (07 Table 7-12). -/
structure Hbm where
  tall   : Bool
  rate   : Bool
  stk    : Tbl Stack
deriving DecidableEq, Repr

/-! ### Fabric (chapter 9) -/

/-- A port (09 R299 to R311, Table 9-11). Lists of eight count by virtual channel and hop class. `replay` holds seq, flit and the count its
credit is from; `asm` the bytes of the packet that each virtual channel receives; `got` the packets in the receive buffers, `occupied` the flits
there and `owed` the credits not yet returned (R304, R305); `rxAny` stands once a flit has been received, `lastLocal` after a flit of this
module's own (01 R25), `laneFailed` when a lane has failed the running self-test of a suspect port (R308). -/
structure Port where
  own      : BitVec 8
  peer     : BitVec 8
  width    : Nat
  suspect  : Bool
  dateline : Bool
  peerAlive : Bool
  departed : Bool
  peerId   : Nat
  replays  : Nat
  fecBad   : Nat
  training : Bool
  paused   : Bool
  txSeq    : Nat
  rxSeq    : Nat
  nakSent  : Bool
  replay   : List (Nat × BitVec 2048 × Nat)
  credits  : List Nat
  waiting  : List (Packet × Nat)
  replayTimes : List Nat
  retired  : BitVec 8
  downSince : Option Nat
  asm      : Tbl (List Byte)
  got      : List Packet
  occupied : List Nat
  owed     : List Nat
  rxAny    : Bool
  lastLocal : Bool
  laneFailed : Bool
deriving DecidableEq, Repr

/-- A port after reset: down (09 Table 9-11). -/
def Port.init : Port :=
  { own := 0, peer := 0, width := 0, suspect := false, dateline := false, peerAlive := false, departed := false, peerId := 0,
    replays := 0, fecBad := 0, training := false, paused := false, txSeq := 0, rxSeq := 0, nakSent := false, replay := [],
    credits := [0, 0, 0, 0, 0, 0, 0, 0], waiting := [], replayTimes := [], retired := 0, downSince := none, asm := [], got := [],
    occupied := [0, 0, 0, 0, 0, 0, 0, 0], owed := [0, 0, 0, 0, 0, 0, 0, 0], rxAny := false, lastLocal := false, laneFailed := false }

/-- A packet of a segment without its acknowledgement (09 R317): packet, time, context, leg, cluster and seq of its segment, the tile it
belongs to (`group`) and its part of that tile. The packet's tag names it. -/
structure Flight where
  p     : Packet
  sent  : Nat
  ctx   : Nat
  leg   : Nat
  cl    : Nat
  seq   : Nat
  group : Nat
  part  : Nat
deriving DecidableEq, Repr

/-- The fabric side of the module (09 R312 to R327). `later` holds the packets of tile parts that wait for the part before (R317). -/
structure Fabric where
  moduleId : Nat
  dx       : Nat
  dy       : Nat
  dz       : Nat
  loaded   : Bool
  table    : Tbl (BitVec 16)
  isolated : Bool
  lostSeen : Nat
  unreachable : Nat
  lost     : List Nat
  departed : List Nat
  ports    : Tbl Port
  flights  : List Flight
  nextTag  : Nat
  holding  : List (Packet × Nat)
  selfDeparted : Bool
  later    : List Flight
deriving DecidableEq, Repr

/-! ### Tollgate (chapter 10) -/

/-- A floor (10 R332): retention or deep. -/
inductive Floor where
  | retention
  | deep
deriving DecidableEq, Repr

/-- TG_CFG (10 Table 10-11). -/
structure TgCfg where
  envSrc   : Nat
  envFloor : Bool
  shedFloor : Bool
  slotEn   : Bool
  slot     : Nat
  ramp     : Nat
  lease    : Nat
  fallback : Nat
deriving DecidableEq, Repr

/-- Beat timing (10 R343 to R345, Table 10-14). Periods are in 10 ns units, times in ns. -/
structure Beat where
  valid     : Bool
  relock    : Bool
  period    : Nat
  slot      : Nat
  rejects   : Nat
  invalids  : Nat
  lastEdge  : Option Nat
  intervals : List Nat
  rejTimes  : List Nat
  good      : List Nat
  slots     : Nat
  slotAt    : Nat
deriving DecidableEq, Repr

/-- Heat model (10 R357, R358, Table 10-16). -/
structure Heat where
  inlet  : Nat
  plate  : Nat
  model  : Rat
  limit  : Nat
  flow   : Nat
  fault  : Bool
  cap    : Option Rat
  coolSince : Option Nat
  started : Bool
deriving DecidableEq, Repr

/-- The tollgate. `st` is TG_STATUS.state (10 Table 10-13); `entering` the floor an entry heads for; `governing` stands while the governor
steps down (R356); `shedWork` lists the units whose self-test a shed stopped (R352), `yielded` the
clusters that gave up their turn (R355). `bind` is the code of the lowest term when the envelope was last evaluated (R365), `leaving` the end of
the exit from a floor (R349, Table 10-6), and whether it is the exit from the deep floor to the retention floor. `leaseArmed` stands from a write that grants a lease until the lease expires. -/
structure Toll where
  cfg       : TgCfg
  digitalW  : Nat
  deep      : Bool
  samples   : List Nat
  st        : Nat
  entering  : Option Floor
  shed      : Bool
  cmdShed   : Bool
  leaseExpired : Bool
  chatter   : Bool
  allowance : Rat
  inputW    : Nat
  shedMs    : Nat
  shedSince : Nat
  sheds     : Nat
  chatterEvents : Nat
  changes   : List Nat
  setAt     : Nat
  inputTerm : Bool
  leaseArmed : Bool
  k         : Rat
  lastCtx   : Nat
  committed : Rat
  peak      : Rat
  dmaPaused : Bool
  admitStop : Bool
  lastLeg   : Nat
  governing : Bool
  shedWork  : List TestUnit
  yielded   : List Nat
  bind      : Nat
  leaving   : Option (Nat × Bool)
deriving DecidableEq, Repr

/-- Power stage states (01 Table 1-3). -/
inductive Stage where
  | off
  | up
  | retention
deriving DecidableEq, Repr

/-- Power and pins. -/
structure Power where
  switch    : Bool
  stages    : List Stage
  alive     : Bool
  trip      : Bool
  throttles : List (Die × Nat)
  stageBad  : List (Nat × Nat)
  sensorsBad : List Sensor
  baseTemps : List Nat
deriving DecidableEq, Repr

/-! ### Management and test (chapter 13) -/

/-- TAP instructions (13 Table 13-8). -/
inductive TapInstr where
  | extest
  | sample
  | idcode
  | testmode
  | wrapsel
  | bypass
deriving DecidableEq, Repr

/-- Management bus, SPDM and the TAP. `spdm` is 0 start, 1 version, 2 capabilities, 3 algorithms settled.
`update` is a component transferred and not yet activated (R463), `measured` the measurements of Table 13-4, taken at the boot (R460). -/
structure Mgmt where
  i3c      : Option (BitVec 7)
  eid      : Byte
  events   : Bool
  spdm     : Nat
  transcript : List Byte
  update   : Option (Nat × List Byte)
  measured : List (List Byte)
  pendingCfg : Option (List Byte)
  tap      : TapInstr
  stackSel : BitVec 4
  cells    : List Bool
deriving DecidableEq, Repr

/-! ### The whole block -/

/-- The state of the block. -/
structure State where
  pending : List Instr
  now     : Nat
  freeCtr : Nat
  out     : List Output
  mem     : Mems
  cel     : Cellar
  host    : HostIf
  mc      : Mc
  ctx     : Tbl Ctx
  cl      : Tbl Cluster
  cores   : Tbl Core
  legs    : List LegRun
  nextLeg : Nat
  hbm     : Hbm
  fab     : Fabric
  tg      : Toll
  beat    : Beat
  heat    : Heat
  pwr     : Power
  mgmt    : Mgmt
deriving DecidableEq, Repr

/-- The flash as it leaves the factory (13 R455, R458, R464; log 7 for what the manual leaves to each unit). -/
def Flash.init : Flash :=
  { idSource := false, moduleId := 0, dx := 16, dy := 16, dz := 32, nominal60 := false, hbmRate := false, active := false, attempts := 0,
    stepping := 1, firmware := 0, vendorId := 0, minSecurity := 0, security := (0, 0), certs := [], imageA := [], imageB := [], rejected := (false, false) }

/-- The block right after reset: trigger over, bring-up about to resume at step 4 of 13 Table 13-1 (13 R451; log 6), every
register at the Reset column of its table, every memory without an entry, the queue empty. -/
def State.reset : State :=
  { pending := []
    now := 0
    freeCtr := 0
    out := []
    mem := { tier0 := [], scratch := [], side := [], tier2 := [], evac := [], stash := [], host := [], bar2 := [] }
    cel := { keepCap := 12, thrashEn := true, thrashWarn := true, pressWaitMs := 100, shelves := [], lines := [], l1 := [], columns := [], stamp := 0, sent := [],
             sentImm := [], moved := [], trained := false, sendNo := 0 }
    host := HostIf.init
    mc := { coreAlive := [false, false, false], image := false, resetCause := 0, serviceReq := false, causes := [],
            eventsLost := 0, faultSeq := 0, faultLog := [], flashLog := [], repairMap := [], bringup := 3, zeroDone := false,
            tests := [], testHistory := [], coreRestarts := [], resetting := none, resetEntries := [], testMode := false,
            resetNLow := false, romHalt := false, freezeReq := none, flash := Flash.init, geoId := 8191, mgmtAddr := 7 }
    ctx := []
    cl := []
    cores := []
    legs := []
    nextLeg := 0
    hbm := { tall := true, rate := false, stk := [] }
    fab := { moduleId := 8191, dx := 16, dy := 16, dz := 32, loaded := false, table := [], isolated := false, lostSeen := 0, unreachable := 0,
             lost := [], departed := [], ports := [], flights := [], nextTag := 0, holding := [], selfDeparted := false, later := [] }
    tg := { cfg := { envSrc := 2, envFloor := false, shedFloor := false, slotEn := false, slot := 0, ramp := 1000, lease := 0, fallback := 380 }
            digitalW := 3300, deep := false, samples := List.replicate 100 0, st := 2, entering := none, shed := false, cmdShed := false,
            leaseExpired := false, chatter := false, allowance := 380, inputW := 0, shedMs := 0, shedSince := 0, sheds := 0,
            chatterEvents := 0, changes := [], setAt := 0, inputTerm := false, leaseArmed := true, k := 5 / 4, lastCtx := 3, committed := 0,
            peak := 0, dmaPaused := true, admitStop := true, lastLeg := 0, governing := false, shedWork := [], yielded := [], bind := 0, leaving := none }
    beat := { valid := false, relock := false, period := 2000000, slot := 0, rejects := 0, invalids := 0, lastEdge := none,
              intervals := [], rejTimes := [], good := [], slots := 0, slotAt := 0 }
    heat := { inlet := 0, plate := 0, model := 0, limit := 85, flow := 20, fault := false, cap := none, coolSince := none, started := false }
    pwr := { switch := true, stages := [.off, .off, .off, .off, .off, .off, .off, .up], alive := false, trip := false, throttles := [],
             stageBad := [], sensorsBad := [], baseTemps := [0, 0, 0, 0] }
    mgmt := { i3c := none, eid := 0, events := false, spdm := 0, transcript := [], update := none, measured := [], pendingCfg := none, tap := .idcode,
              stackSel := 0, cells := [] } }

end Sys2Proof.Machine
end

