-- ==== Sys2Proof/Machine/Bits.lean ====
section
/-! DEFINITION. Bit fields, byte order, sparse tables and byte ranges: the helpers every meaning uses. -/

namespace Sys2Proof.Machine

open Sys2Proof

/-- Bits [lo+len-1:lo] of v as a number (00 R3). -/
def fld {n : Nat} (v : BitVec n) (lo len : Nat) : Nat := (v.toNat >>> lo) % 2 ^ len

/-- Bit i of v. -/
def bitAt {n : Nat} (v : BitVec n) (i : Nat) : Bool := v.getLsbD i

/-- 1 for true. -/
def b2n (b : Bool) : Nat := if b then 1 else 0

/-- The number whose fields (lo, len, value) do not overlap; each value is taken modulo 2^len. -/
def packNat : List (Nat × Nat × Nat) → Nat
  | [] => 0
  | (lo, len, v) :: r => (v % 2 ^ len) * 2 ^ lo + packNat r

/-- Fields packed into n bits. -/
def pack (n : Nat) (fs : List (Nat × Nat × Nat)) : BitVec n := BitVec.ofNat n (packNat fs)

/-- Addition that holds at `top` (counters that "hold at 0xFFFF"). -/
def satAdd (top a b : Nat) : Nat := min top (a + b)

/-- The low n bytes of v, least significant first (00 R3). -/
def bytesOfNat : Nat → Nat → List Byte
  | 0, _ => []
  | n + 1, v => BitVec.ofNat 8 (v % 256) :: bytesOfNat n (v / 256)

/-- The number that little-endian bytes spell (00 R3). -/
def natOfBytes : List Byte → Nat
  | [] => 0
  | b :: r => b.toNat + 256 * natOfBytes r

/-- Bytes [off, off+n) of a byte list, missing ones 0. -/
def slice (bs : List Byte) (off n : Nat) : List Byte :=
  let t := (bs.drop off).take n
  t ++ List.replicate (n - t.length) 0

/-- Little-endian number at a byte offset. -/
def natAt (bs : List Byte) (off n : Nat) : Nat := natOfBytes (slice bs off n)

/-- Padding with zeros to a multiple of k bytes. -/
def padTo (k : Nat) (bs : List Byte) : List Byte := bs ++ List.replicate ((k - bs.length % k) % k) 0

/-- Every n-th chunk of a list, at most `fuel` of them. -/
def chunks {α : Type} (n : Nat) : Nat → List α → List (List α)
  | 0, _ => []
  | fuel + 1, l => if l.isEmpty then [] else l.take n :: chunks n fuel (l.drop n)

/-- Positions below n whose bit is set in v, ascending. -/
def setBits {n : Nat} (v : BitVec n) : List Nat := (List.range n).filter fun i => v.getLsbD i

/-- A mask of the given positions. -/
def maskOf (n : Nat) (l : List Nat) : BitVec n := BitVec.ofNat n (l.foldl (fun a i => a ||| 2 ^ i) 0)

/-- The value at key k, `d` when the table has no entry. -/
def tget {α : Type} (d : α) : Tbl α → Nat → α
  | [], _ => d
  | (k', v) :: r, k => if k' = k then v else tget d r k

/-- Entries below key a. -/
def tbelow {α : Type} (t : Tbl α) (a : Nat) : Tbl α := t.filter fun e => decide (e.1 < a)

/-- Entries at key a and above. -/
def tfrom {α : Type} (t : Tbl α) (a : Nat) : Tbl α := t.filter fun e => decide (a ≤ e.1)

/-- The table with key k at v; writing the default removes the entry. -/
def tset {α : Type} [DecidableEq α] (d : α) (t : Tbl α) (k : Nat) (v : α) : Tbl α :=
  tbelow t k ++ ((if v = d then [] else [(k, v)]) ++ tfrom t (k + 1))

/-- The table with f applied at key k. -/
def tmod {α : Type} [DecidableEq α] (d : α) (t : Tbl α) (k : Nat) (f : α → α) : Tbl α := tset d t k (f (tget d t k))

/-- Consecutive cells from key a. -/
def cells {α : Type} : Nat → List α → Tbl α
  | _, [] => []
  | a, v :: r => (a, v) :: cells (a + 1) r

/-- The table with consecutive values written from key a. -/
def twrite {α : Type} [DecidableEq α] (d : α) (t : Tbl α) (a : Nat) (vs : List α) : Tbl α :=
  tbelow t a ++ ((cells a vs).filter (fun e => decide (e.2 ≠ d)) ++ tfrom t (a + vs.length))

/-- n values from key a out of entries that start at or above a, in key order. -/
def tfill {α : Type} (d : α) : Nat → Nat → Tbl α → List α
  | _, 0, _ => []
  | a, n + 1, [] => d :: tfill d (a + 1) n []
  | a, n + 1, (k, v) :: r => if k = a then v :: tfill d (a + 1) n r else d :: tfill d (a + 1) n ((k, v) :: r)

/-- n consecutive values from key a. -/
def tread {α : Type} (d : α) (t : Tbl α) (a n : Nat) : List α :=
  tfill d a n (t.filter fun e => decide (a ≤ e.1 ∧ e.1 < a + n))

/-- The canonical form of a table: keys strictly rising, no entry at the default. -/
def twf {α : Type} [DecidableEq α] (d : α) : Tbl α → Bool
  | [] => true
  | [(_, v)] => decide (v ≠ d)
  | (k, v) :: (k', v') :: r => decide (v ≠ d) && decide (k < k') && twf d ((k', v') :: r)

/-- Byte i of a line. -/
def lineByte (l : Line) (i : Nat) : Byte := BitVec.ofNat 8 (l.toNat >>> (8 * i))

/-- The 256 bytes of a line. -/
def lineBytes (l : Line) : List Byte := bytesOfNat 256 l.toNat

/-- A line from bytes. -/
def lineOf (bs : List Byte) : Line := BitVec.ofNat 2048 (natOfBytes (bs.take 256))

/-- Word i of a line. -/
def lineWord (l : Line) (i : Nat) : Word := BitVec.ofNat 32 (l.toNat >>> (32 * i))

/-- The line with word i replaced. -/
def setLineWord (l : Line) (i : Nat) (w : Word) : Line :=
  let m : Line := BitVec.ofNat 2048 ((2 ^ 32 - 1) <<< (32 * i))
  (l &&& ~~~m) ||| BitVec.ofNat 2048 (w.toNat <<< (32 * i))

/-- The line with the bytes of `mask` taken from `new`. -/
def mergeLine (mask : BitVec 256) (old new : Line) : Line :=
  lineOf ((List.range 256).map fun i => if mask.getLsbD i then lineByte new i else lineByte old i)

/-- Association lists by line identity. -/
def lget {α : Type} (d : α) : List (LineId × α) → LineId → α
  | [], _ => d
  | (k', v) :: r, k => if k' = k then v else lget d r k

/-- The association with k at v (kept out when v is the default). -/
def lset {α : Type} [DecidableEq α] (d : α) (t : List (LineId × α)) (k : LineId) (v : α) : List (LineId × α) :=
  let r := t.filter fun e => decide (e.1 ≠ k)
  if v = d then r else r ++ [(k, v)]

/-- Ceiling division. -/
def ceilDiv (a b : Nat) : Nat := (a + b - 1) / b

/-- floor(log2 n), 0 for 0. -/
def ilog2 (n : Nat) : Nat := Nat.log2 n

/-- Rational floor as a natural number (0 below 0). -/
def ratNat (q : Rat) : Nat := q.floor.toNat

end Sys2Proof.Machine
end

