-- ==== Sys2Proof/Machine/Float.lean ====
section
/-! DEFINITION. Number formats, exact values, rounding and FP32 arithmetic (chapter 2; 04 R105 to R107; 05 R143). -/

namespace Sys2Proof.Machine

open Sys2Proof

/-- An exact value: NaN, an infinity, or (−1)^neg × m × 2^e. -/
inductive FVal where
  | nan
  | inf (neg : Bool)
  | fin (neg : Bool) (m : Nat) (e : Int)
deriving DecidableEq, Repr

/-- How a format spends its top exponent code (02 Table 2-2). -/
inductive TopCode where
  | ieee
  | e4m3
  | none
deriving DecidableEq, Repr

/-- Layout of a floating-point format (02 Table 2-1). `drop` low container bits are written 0 (R33). -/
structure FFmt where
  ebits : Nat
  mbits : Nat
  bias  : Nat
  drop  : Nat
  top   : TopCode
deriving DecidableEq, Repr

/-- The format of a code (02 R29, Table 2-1); codes 1 to 10. -/
def ffmt : Nat → Option FFmt
  | 1 => some ⟨8, 23, 127, 0, .ieee⟩
  | 2 => some ⟨8, 10, 127, 13, .ieee⟩
  | 3 => some ⟨8, 7, 127, 0, .ieee⟩
  | 4 => some ⟨5, 10, 15, 0, .ieee⟩
  | 5 => some ⟨5, 6, 15, 0, .ieee⟩
  | 6 => some ⟨4, 3, 7, 0, .e4m3⟩
  | 7 => some ⟨5, 2, 15, 0, .ieee⟩
  | 8 => some ⟨3, 2, 3, 0, .none⟩
  | 9 => some ⟨2, 3, 1, 0, .none⟩
  | 10 => some ⟨2, 1, 1, 0, .none⟩
  | _ => none

/-- Element width in bits by format code (02 Table 2-1); FP19 sits in 32 bits. -/
def fmtWidth : Nat → Nat
  | 1 => 32 | 2 => 32 | 3 => 16 | 4 => 16 | 5 => 12 | 6 => 8 | 7 => 8 | 8 => 6 | 9 => 6 | 10 => 4
  | 11 => 32 | 12 => 16 | 13 => 8 | 14 => 4 | 15 => 8 | _ => 0

/-- Codes of the integer formats (02 R32). -/
def isIntFmt (c : Nat) : Bool := decide (11 ≤ c ∧ c ≤ 14)

/-- Codes of the floating-point formats. -/
def isFloatFmt (c : Nat) : Bool := decide (1 ≤ c ∧ c ≤ 10)

/-- Codes that exist only inside scaled blocks (02 R44). -/
def isScaled (c : Nat) : Bool := decide (6 ≤ c ∧ c ≤ 10)

/-- The value that the low bits of `x` encode in a format (02 R30, Table 2-2). -/
def FFmt.decode (f : FFmt) (x : Nat) : FVal :=
  let y := x >>> f.drop
  let m := y % 2 ^ f.mbits
  let e := (y >>> f.mbits) % 2 ^ f.ebits
  let neg := (y >>> (f.mbits + f.ebits)) % 2 = 1
  let topE := 2 ^ f.ebits - 1
  if e = 0 then .fin neg m (1 - (f.bias : Int) - f.mbits)
  else if f.top = .ieee ∧ e = topE then (if m = 0 then .inf neg else .nan)
  else if f.top = .e4m3 ∧ e = topE ∧ m = 2 ^ f.mbits - 1 then .nan
  else .fin neg (2 ^ f.mbits + m) ((e : Int) - f.bias - f.mbits)

/-- Two's complement value of the low w bits. -/
def sintOf (w x : Nat) : Int :=
  let y := x % 2 ^ w
  if y < 2 ^ (w - 1) then (y : Int) else (y : Int) - 2 ^ w

/-- The exact value of an integer. -/
def FVal.ofInt (i : Int) : FVal := .fin (decide (i < 0)) i.natAbs 0

/-- Rounding modes: nearest even, or stochastic with the 16-bit draw u (02 R37). -/
inductive RMode where
  | near
  | stoch (u : Nat)
deriving DecidableEq, Repr

/-- m / 2^k rounded (02 R37): nearest even, or up when u is below the 16 leading discarded bits. -/
def shiftRound (mode : RMode) (m k : Nat) : Nat :=
  let q := m / 2 ^ k
  let r := m % 2 ^ k
  let up := match mode with
    | .near => decide (2 ^ k < 2 * r ∨ (2 * r = 2 ^ k ∧ q % 2 = 1))
    | .stoch u => decide (u < r * 65536 / 2 ^ k)
  if up then q + 1 else q

/-- Rounding on the grid of a format with no upper bound on the exponent (02 R41): the result is r × 2^q. -/
def FFmt.round (f : FFmt) (mode : RMode) (m : Nat) (e : Int) : Nat × Int :=
  if m = 0 then (0, 1 - (f.bias : Int) - f.mbits) else
  let q := max ((Nat.log2 m : Int) + e - f.mbits) (1 - (f.bias : Int) - f.mbits)
  let r := if q ≤ e then m * 2 ^ (e - q).toNat else shiftRound mode m (q - e).toNat
  if r = 2 ^ (f.mbits + 1) then (2 ^ f.mbits, q + 1) else (r, q)

/-- Exponent field of a rounded magnitude. -/
def FFmt.efield (f : FFmt) (r : Nat) (q : Int) : Nat :=
  if r < 2 ^ f.mbits then 0 else (q + f.mbits + f.bias).toNat

/-- Exponent and mantissa fields of the largest finite value (02 Table 2-2). -/
def FFmt.maxFields (f : FFmt) : Nat × Nat :=
  match f.top with
  | .ieee => (2 ^ f.ebits - 2, 2 ^ f.mbits - 1)
  | .e4m3 => (2 ^ f.ebits - 1, 2 ^ f.mbits - 2)
  | .none => (2 ^ f.ebits - 1, 2 ^ f.mbits - 1)

/-- A rounded magnitude above the largest finite value (02 R41). -/
def FFmt.tooBig (f : FFmt) (r : Nat) (q : Int) : Bool :=
  let e := f.efield r q
  decide (f.maxFields.1 < e ∨ (e = f.maxFields.1 ∧ f.maxFields.2 < r % 2 ^ f.mbits ∧ 2 ^ f.mbits ≤ r))

/-- Bits from sign, exponent field and mantissa. -/
def FFmt.bits (f : FFmt) (neg : Bool) (e m : Nat) : Nat :=
  ((b2n neg * 2 ^ f.ebits + e) * 2 ^ f.mbits + m) * 2 ^ f.drop

/-- Conversion of an exact value (02 R35 to R43, Table 2-4). In codes 6 to 10 a selected neighbour above the largest finite
value takes that value (R43, R51); NaN and infinity do not reach them as elements. -/
def FFmt.encode (f : FFmt) (mode : RMode) (sat : Bool) (v : FVal) : Nat :=
  match v with
  | .nan => f.bits false (2 ^ f.ebits - 1) (2 ^ (f.mbits - 1))
  | .inf neg => f.bits neg (2 ^ f.ebits - 1) 0
  | .fin neg m e =>
    let (r, q) := f.round mode m e
    if f.tooBig r q then
      if sat then f.bits neg f.maxFields.1 f.maxFields.2 else f.bits neg (2 ^ f.ebits - 1) 0
    else f.bits neg (f.efield r q) (r % 2 ^ f.mbits)

/-- FP32 layout. -/
def fp32 : FFmt := ⟨8, 23, 127, 0, .ieee⟩

/-- The value of an FP32 word. -/
def val32 (w : Word) : FVal := fp32.decode w.toNat

/-- Rounding to FP32 in a mode; overflow gives infinity (02 Table 2-4). -/
def to32m (mode : RMode) (v : FVal) : Word := BitVec.ofNat 32 (fp32.encode mode false v)

/-- Rounding to FP32, nearest even. -/
def to32 (v : FVal) : Word := to32m .near v

/-- Canonical NaN (02 Table 2-3). -/
def nan32 : Word := 0x7FC00000

/-- Negation of a value. -/
def FVal.neg : FVal → FVal
  | .nan => .nan
  | .inf s => .inf (!s)
  | .fin s m e => .fin (!s) m e

/-- Magnitude of a value. -/
def FVal.abs : FVal → FVal
  | .nan => .nan
  | .inf _ => .inf false
  | .fin _ m e => .fin false m e

/-- Signed mantissa scaled to exponent e0 ≤ e. -/
def scaleTo (neg : Bool) (m : Nat) (e e0 : Int) : Int :=
  let x : Int := (m * 2 ^ (e - e0).toNat : Nat)
  if neg then -x else x

/-- Exact sum (04 R105, R106): opposite infinities give NaN; an exact sum of opposite values is +0. -/
def FVal.add : FVal → FVal → FVal
  | .nan, _ => .nan
  | _, .nan => .nan
  | .inf a, .inf b => if a = b then .inf a else .nan
  | .inf a, _ => .inf a
  | _, .inf b => .inf b
  | .fin s1 m1 e1, .fin s2 m2 e2 =>
    if m1 = 0 ∧ m2 = 0 then .fin (s1 && s2) 0 0
    else
      let e := min e1 e2
      let x := scaleTo s1 m1 e1 e + scaleTo s2 m2 e2 e
      .fin (decide (x < 0)) x.natAbs e

/-- Exact product (04 R106): zero times infinity is NaN. -/
def FVal.mul : FVal → FVal → FVal
  | .nan, _ => .nan
  | _, .nan => .nan
  | .inf a, .inf b => .inf (a != b)
  | .inf a, .fin s m _ => if m = 0 then .nan else .inf (a != s)
  | .fin s m _, .inf a => if m = 0 then .nan else .inf (a != s)
  | .fin s1 m1 e1, .fin s2 m2 e2 => .fin (s1 != s2) (m1 * m2) (e1 + e2)

/-- A value times 2^k. -/
def FVal.scale (k : Int) : FVal → FVal
  | .nan => .nan
  | .inf s => .inf s
  | .fin s m e => .fin s m (e + k)

/-- Quotient with at least 64 significant bits and a sticky last bit, so that one later rounding to FP32 is exact. -/
def FVal.div : FVal → FVal → FVal
  | .nan, _ => .nan
  | _, .nan => .nan
  | .inf _, .inf _ => .nan
  | .inf a, .fin s _ _ => .inf (a != s)
  | .fin s _ _, .inf a => .fin (s != a) 0 0
  | .fin s1 m1 e1, .fin s2 m2 e2 =>
    if m2 = 0 then (if m1 = 0 then .nan else .inf (s1 != s2))
    else
      let k := 64 + Nat.log2 m2
      let n := m1 * 2 ^ k
      .fin (s1 != s2) (2 * (n / m2) + b2n (decide (n % m2 ≠ 0))) (e1 - e2 - k - 1)

/-- Square root with a sticky last bit; negative values give NaN, zeros keep their sign. -/
def FVal.sqrt : FVal → FVal
  | .nan => .nan
  | .inf s => if s then .nan else .inf false
  | .fin s m e =>
    if m = 0 then .fin s 0 0
    else if s then .nan
    else
      let (m', e') := if e % 2 = 0 then (m, e) else (2 * m, e - 1)
      let n := m' * 2 ^ 128
      let r := Nat.sqrt n
      .fin false (2 * r + b2n (decide (r * r ≠ n))) (e' / 2 - 64 - 1)

/-- 1/√v with a sticky last bit (05 R143): ±0 gives +infinity, negatives NaN. -/
def FVal.rsqrt : FVal → FVal
  | .nan => .nan
  | .inf s => if s then .nan else .fin false 0 0
  | .fin s m e =>
    if m = 0 then .inf false
    else if s then .nan
    else
      let (m', e') := if e % 2 = 0 then (m, e) else (2 * m, e - 1)
      let k := 64 + Nat.log2 m'
      let r := Nat.sqrt (2 ^ (2 * k) / m')
      .fin false (2 * r + b2n (decide (r * r * m' ≠ 2 ^ (2 * k)))) (-(k : Int) - 1 - e' / 2)

/-- floor(ln 2 × 2^256). -/
def ln2Bits : Nat := 0xb17217f7d1cf79abc9e3b39803f2f6af40f343267298b62d8a0d175b8baafa2b

/-- Σ x^i / i! for i from `i` on, x in units of 2^-256, `term` the current term. -/
def expSeries (x : Nat) : (fuel i term : Nat) → Nat
  | 0, _, _ => 0
  | fuel + 1, i, term => term + expSeries x fuel (i + 1) (term * x / (2 ^ 256 * (i + 1)))

/-- 2^w with a sticky last bit (05 R143). The series carries 256 fraction bits; log 14 says why one rounding of it to
FP32 is the correctly rounded result. -/
def FVal.exp2 : FVal → FVal
  | .nan => .nan
  | .inf s => if s then .fin false 0 0 else .inf false
  | .fin s m e =>
    if m = 0 then .fin false 1 0
    else if 12 ≤ (Nat.log2 m : Int) + e then (if s then .fin false 0 0 else .inf false)
    else
      -- w = x / 2^k exactly
      let k := (-e).toNat
      let x := scaleTo s m e (min e 0)
      let n := x / (2 ^ k : Int)
      let f := (x - n * 2 ^ k).toNat
      if f = 0 then .fin false 1 n
      else
        let y := expSeries (f * ln2Bits / 2 ^ k) 80 0 (2 ^ 256)
        .fin false (2 * y + 1) (n - 257)

/-- Exact comparison; `none` with a NaN. Zeros compare equal. -/
def FVal.cmp : FVal → FVal → Option Ordering
  | .nan, _ => none
  | _, .nan => none
  | .inf a, .inf b => some (if a = b then .eq else if a then .lt else .gt)
  | .inf a, .fin _ _ _ => some (if a then .lt else .gt)
  | .fin _ _ _, .inf b => some (if b then .gt else .lt)
  | .fin s1 m1 e1, .fin s2 m2 e2 =>
    let e := min e1 e2
    let x := scaleTo s1 m1 e1 e
    let y := scaleTo s2 m2 e2 e
    some (if x < y then .lt else if x = y then .eq else .gt)

/-- A value is infinite or NaN. -/
def FVal.bad : FVal → Bool
  | .fin _ _ _ => false
  | _ => true

/-- An FP32 word encodes infinity or NaN. -/
def bad32 (w : Word) : Bool := (val32 w).bad

/-- FP32 sum, one rounding to nearest even (03 R96). -/
def fadd (a b : Word) : Word := to32 ((val32 a).add (val32 b))

/-- FP32 difference. -/
def fsub (a b : Word) : Word := to32 ((val32 a).add (val32 b).neg)

/-- FP32 product. -/
def fmul (a b : Word) : Word := to32 ((val32 a).mul (val32 b))

/-- FP32 fused multiply-add a × b + c, one rounding. -/
def ffma (a b c : Word) : Word := to32 (((val32 a).mul (val32 b)).add (val32 c))

/-- FP32 quotient. -/
def fdiv (a b : Word) : Word := to32 ((val32 a).div (val32 b))

/-- A rational rounded to FP32, nearest even (00 R9). A value beyond FP32's range stays as it is: it lies above every limit either way. -/
def r32 (q : Rat) : Rat :=
  match val32 (to32 ((FVal.ofInt q.num).div (FVal.ofInt (q.den : Int)))) with
  | .fin neg m e =>
    let x : Rat := if 0 ≤ e then ((m * 2 ^ e.toNat : Nat) : Rat) else (m : Rat) / ((2 ^ (-e).toNat : Nat) : Rat)
    if neg then -x else x
  | _ => q

/-- FP32 square root. -/
def fsqrt (a : Word) : Word := to32 (val32 a).sqrt

/-- rsqrt of 05 R143. -/
def frsqrt (a : Word) : Word := to32 (val32 a).rsqrt

/-- exp2 of 05 R143. -/
def fexp2 (a : Word) : Word := to32 (val32 a).exp2

/-- Order of maximum and minimum: −0 below +0 (04 Table 4-5, 06 Table 6-8). -/
def flt (a b : Word) : Bool :=
  match (val32 a).cmp (val32 b) with
  | some .lt => true
  | some .eq => a.getLsbD 31 && !b.getLsbD 31
  | _ => false

/-- FP32 maximum; a NaN operand gives the canonical NaN. -/
def fmaxw (a b : Word) : Word :=
  if (val32 a) = .nan ∨ (val32 b) = .nan then nan32 else if flt a b then b else a

/-- FP32 minimum; a NaN operand gives the canonical NaN. -/
def fminw (a b : Word) : Word :=
  if (val32 a) = .nan ∨ (val32 b) = .nan then nan32 else if flt b a then b else a

/-- Integer to FP32, nearest even. -/
def i2f (i : Int) : Word := to32 (FVal.ofInt i)

/-- A natural number as FP32. -/
def nat32 (n : Nat) : Word := i2f n

/-- Nearest-even integer of a finite value. -/
def roundInt (neg : Bool) (m : Nat) (e : Int) : Int :=
  let q : Nat := if 0 ≤ e then m * 2 ^ e.toNat else shiftRound .near m (-e).toNat
  if neg then -(q : Int) else q

/-- Clamping to the range of a w-bit integer (02 Table 2-4). -/
def clampInt (w : Nat) (i : Int) : Int := max (-(2 ^ (w - 1) : Int)) (min (2 ^ (w - 1) - 1) i)

/-- Conversion to a w-bit integer format (02 R37, R39, Table 2-4): NaN gives 0. -/
def toIntFmt (w : Nat) : FVal → Int
  | .nan => 0
  | .inf neg => if neg then -(2 ^ (w - 1) : Int) else 2 ^ (w - 1) - 1
  | .fin neg m e => clampInt w (roundInt neg m e)

/-- Two's complement bits of an integer. -/
def intBits (w : Nat) (i : Int) : Nat := (i % (2 ^ w : Int)).toNat

/-- The value of an E8M0 byte as a power of two; `none` is NaN (02 R31). -/
def e8m0 (x : Nat) : Option Int := if x = 0xFF then none else some ((x : Int) - 127)

end Sys2Proof.Machine
end

