-- ==== Sys2Proof/Machine/Hash.lean ====
section
/-! DEFINITION. The random stream (04 R113, R114), seals (08 R280), the flit check (09 R300) and SHA-384 (12 R436). -/

namespace Sys2Proof.Machine

open Sys2Proof

/-- One round of Philox4x32 (04 R113). -/
def philoxRound (k0 k1 c0 c1 c2 c3 : Word) : Word × Word × Word × Word :=
  let p := 0xD2511F53 * c0.toNat
  let q := 0xCD9E8D57 * c2.toNat
  (BitVec.ofNat 32 (q / 2 ^ 32) ^^^ c1 ^^^ k0, BitVec.ofNat 32 q, BitVec.ofNat 32 (p / 2 ^ 32) ^^^ c3 ^^^ k1, BitVec.ofNat 32 p)

/-- n rounds with the key schedule of 04 R113. -/
def philoxLoop : Nat → Word → Word → Word × Word × Word × Word → Word × Word × Word × Word
  | 0, _, _, c => c
  | n + 1, k0, k1, (c0, c1, c2, c3) => philoxLoop n (k0 + 0x9E3779B9) (k1 + 0xBB67AE85) (philoxRound k0 k1 c0 c1 c2 c3)

/-- Philox4x32-10 (04 R113). -/
def philox (k0 k1 c0 c1 c2 c3 : Word) : Word × Word × Word × Word := philoxLoop 10 k0 k1 (c0, c1, c2, c3)

/-- What keys the stream besides the indices (04 Table 4-3). -/
structure StreamKey where
  seed   : DWord
  tensor : Word
  step   : Nat
deriving DecidableEq, Repr

/-- A block of the stream (04 Table 4-3). -/
def streamBlock (k : StreamKey) (domain e r : Nat) : Word × Word × Word × Word :=
  philox (k.seed.setWidth 32) ((k.seed >>> 32).setWidth 32) k.tensor (BitVec.ofNat 32 e) (BitVec.ofNat 32 r)
    (BitVec.ofNat 32 (2 ^ 28 * domain + k.step % 2 ^ 28))

/-- The 16-bit draw u of domains 0 and 1 (04 R114). -/
def draw16 (k : StreamKey) (domain e r : Nat) : Nat := (streamBlock k domain e r).1.toNat % 65536

/-- Word m of a block, m from 0 to 3. -/
def blockWord (b : Word × Word × Word × Word) (m : Nat) : Word :=
  match m with
  | 0 => b.1
  | 1 => b.2.1
  | 2 => b.2.2.1
  | _ => b.2.2.2

/-- One bit of a left-shifting CRC register. -/
def crcBits (w : Nat) (poly : Nat) : Nat → Nat → Nat
  | 0, r => r
  | n + 1, r =>
    let t := 2 * r
    crcBits w poly n (if t / 2 ^ w % 2 = 1 then Nat.xor (t % 2 ^ w) poly else t % 2 ^ w)

/-- The seal: CRC-64 of ECMA-182, register from 0, not reflected, no final XOR (08 R280). -/
def crc64 (bs : List Byte) : DWord :=
  BitVec.ofNat 64 (bs.foldl (fun r b => crcBits 64 0x42F0E1EBA9EA3693 8 (Nat.xor r (2 ^ 56 * b.toNat))) 0)

/-- Eight steps of the reflected CRC-32. -/
def crc32Bits : Nat → Nat → Nat
  | 0, r => r
  | n + 1, r => crc32Bits n (if r % 2 = 1 then Nat.xor (r / 2) 0xEDB88320 else r / 2)

/-- The IEEE 802.3 frame check sequence (09 R300). -/
def crc32 (bs : List Byte) : Word :=
  BitVec.ofNat 32 (Nat.xor (bs.foldl (fun r b => crc32Bits 8 (Nat.xor r b.toNat)) 0xFFFFFFFF) 0xFFFFFFFF)

/-- Round constants of SHA-384, part 0. -/
def shaK0 : List (BitVec 64) := [
  0x428A2F98D728AE22, 0x7137449123EF65CD, 0xB5C0FBCFEC4D3B2F, 0xE9B5DBA58189DBBC,
  0x3956C25BF348B538, 0x59F111F1B605D019, 0x923F82A4AF194F9B, 0xAB1C5ED5DA6D8118,
  0xD807AA98A3030242, 0x12835B0145706FBE, 0x243185BE4EE4B28C, 0x550C7DC3D5FFB4E2,
  0x72BE5D74F27B896F, 0x80DEB1FE3B1696B1, 0x9BDC06A725C71235, 0xC19BF174CF692694,
  0xE49B69C19EF14AD2, 0xEFBE4786384F25E3, 0x0FC19DC68B8CD5B5, 0x240CA1CC77AC9C65]

/-- Round constants of SHA-384, part 1. -/
def shaK1 : List (BitVec 64) := [
  0x2DE92C6F592B0275, 0x4A7484AA6EA6E483, 0x5CB0A9DCBD41FBD4, 0x76F988DA831153B5,
  0x983E5152EE66DFAB, 0xA831C66D2DB43210, 0xB00327C898FB213F, 0xBF597FC7BEEF0EE4,
  0xC6E00BF33DA88FC2, 0xD5A79147930AA725, 0x06CA6351E003826F, 0x142929670A0E6E70,
  0x27B70A8546D22FFC, 0x2E1B21385C26C926, 0x4D2C6DFC5AC42AED, 0x53380D139D95B3DF,
  0x650A73548BAF63DE, 0x766A0ABB3C77B2A8, 0x81C2C92E47EDAEE6, 0x92722C851482353B]

/-- Round constants of SHA-384, part 2. -/
def shaK2 : List (BitVec 64) := [
  0xA2BFE8A14CF10364, 0xA81A664BBC423001, 0xC24B8B70D0F89791, 0xC76C51A30654BE30,
  0xD192E819D6EF5218, 0xD69906245565A910, 0xF40E35855771202A, 0x106AA07032BBD1B8,
  0x19A4C116B8D2D0C8, 0x1E376C085141AB53, 0x2748774CDF8EEB99, 0x34B0BCB5E19B48A8,
  0x391C0CB3C5C95A63, 0x4ED8AA4AE3418ACB, 0x5B9CCA4F7763E373, 0x682E6FF3D6B2B8A3,
  0x748F82EE5DEFB2FC, 0x78A5636F43172F60, 0x84C87814A1F0AB72, 0x8CC702081A6439EC]

/-- Round constants of SHA-384, part 3. -/
def shaK3 : List (BitVec 64) := [
  0x90BEFFFA23631E28, 0xA4506CEBDE82BDE9, 0xBEF9A3F7B2C67915, 0xC67178F2E372532B,
  0xCA273ECEEA26619C, 0xD186B8C721C0C207, 0xEADA7DD6CDE0EB1E, 0xF57D4F7FEE6ED178,
  0x06F067AA72176FBA, 0x0A637DC5A2C898A6, 0x113F9804BEF90DAE, 0x1B710B35131C471B,
  0x28DB77F523047D84, 0x32CAAB7B40C72493, 0x3C9EBE0A15C9BEBC, 0x431D67C49C100D4C,
  0x4CC5D4BECB3E42B6, 0x597F299CFC657E2A, 0x5FCB6FAB3AD6FAEC, 0x6C44198C4A475817]

/-- Round constants of SHA-384. -/
def shaK : List (BitVec 64) := shaK0 ++ (shaK1 ++ (shaK2 ++ shaK3))

/-- Initial hash value of SHA-384. -/
def shaInit : List (BitVec 64) := [0xCBBB9D5DC1059ED8, 0x629A292A367CD507, 0x9159015A3070DD17, 0x152FECD8F70E5939,
  0x67332667FFC00B31, 0x8EB44A8768581511, 0xDB0C2E0D64F98FA7, 0x47B5481DBEFA4FA4]

/-- Rotation to the right. -/
def rotr (x : BitVec 64) (n : Nat) : BitVec 64 := x.rotateRight n

/-- Message schedule: the newest 16 words, newest first; n more words are made. The result is in order. -/
def shaSchedule : Nat → List (BitVec 64) → List (BitVec 64) → List (BitVec 64)
  | 0, _, acc => acc.reverse
  | n + 1, w, acc =>
    let a := w.getD 1 0
    let b := w.getD 14 0
    let s1 := rotr a 19 ^^^ rotr a 61 ^^^ (a >>> 6)
    let s0 := rotr b 1 ^^^ rotr b 8 ^^^ (b >>> 7)
    let x := s1 + w.getD 6 0 + s0 + w.getD 15 0
    shaSchedule n (x :: w.take 15) (x :: acc)

/-- One round on (a, ..., h). -/
def shaRound (v : List (BitVec 64)) (kw : BitVec 64 × BitVec 64) : List (BitVec 64) :=
  match v with
  | [a, b, c, d, e, f, g, h] =>
    let s1 := rotr e 14 ^^^ rotr e 18 ^^^ rotr e 41
    let ch := (e &&& f) ^^^ (~~~e &&& g)
    let t1 := h + s1 + ch + kw.1 + kw.2
    let s0 := rotr a 28 ^^^ rotr a 34 ^^^ rotr a 39
    let mj := (a &&& b) ^^^ (a &&& c) ^^^ (b &&& c)
    [t1 + (s0 + mj), a, b, c, d + t1, e, f, g]
  | _ => v

/-- Big-endian 64-bit word of eight bytes. -/
def beWord (bs : List Byte) : BitVec 64 := BitVec.ofNat 64 (bs.foldl (fun a b => a * 256 + b.toNat) 0)

/-- One block of 128 bytes. -/
def shaBlock (h : List (BitVec 64)) (blk : List Byte) : List (BitVec 64) :=
  let w := (chunks 8 16 blk).map beWord
  let ws := w ++ shaSchedule 64 w.reverse []
  let v := (shaK.zip ws).foldl shaRound h
  (h.zip v).map fun p => p.1 + p.2

/-- The message with its padding. -/
def shaPad (bs : List Byte) : List Byte :=
  let n := bs.length
  bs ++ ((0x80 : Byte) :: List.replicate ((239 - n % 128) % 128) 0) ++ (bytesOfNat 16 (8 * n)).reverse

/-- SHA-384 as 48 bytes (12 R436, FIPS 180-4). -/
def sha384 (bs : List Byte) : List Byte :=
  let m := shaPad bs
  let h := (chunks 128 (m.length / 128) m).foldl shaBlock shaInit
  (h.take 6).flatMap fun x => (bytesOfNat 8 x.toNat).reverse

/-- SHA-384 as a field of 384 bits whose first byte is bits [7:0]. -/
def sha384Field (bs : List Byte) : BitVec 384 := BitVec.ofNat 384 (natOfBytes (sha384 bs))

end Sys2Proof.Machine
end

