-- ==== Sys2Proof/Machine/Ops.lean ====
section
/-! DEFINITION. The shared operations over the state: access to its parts, memories, outputs, receipts, events, fault
records, free values. Taking an exception does not arise in this block; its place is taken by ending a leg with a
status (08 R291), written once here. -/

namespace Sys2Proof.Machine

open Sys2Proof

/-! ### Parts of the state -/

/-- Context c. -/
def State.cx (s : State) (c : Nat) : Ctx := tget Ctx.init s.ctx c

/-- Context c changed by f. -/
def State.modCx (s : State) (c : Nat) (f : Ctx → Ctx) : State := { s with ctx := tmod Ctx.init s.ctx c f }

/-- Cluster c. -/
def State.clu (s : State) (c : Nat) : Cluster := tget Cluster.init s.cl c

/-- Cluster c changed by f. -/
def State.modClu (s : State) (c : Nat) (f : Cluster → Cluster) : State := { s with cl := tmod Cluster.init s.cl c f }

/-- The counters of cluster c changed by f. -/
def State.modCnt (s : State) (c : Nat) (f : ClCnt → ClCnt) : State := s.modClu c fun x => { x with cnt := f x.cnt }

/-- Core k by global core ID. -/
def State.cor (s : State) (k : Nat) : Core := tget Core.init s.cores k

/-- Core k changed by f. -/
def State.modCor (s : State) (k : Nat) (f : Core → Core) : State := { s with cores := tmod Core.init s.cores k f }

/-- Column k. -/
def State.col (s : State) (k : Nat) : Column := tget Column.init s.cel.columns k

/-- Column k changed by f. -/
def State.modCol (s : State) (k : Nat) (f : Column → Column) : State :=
  { s with cel := { s.cel with columns := tmod Column.init s.cel.columns k f } }

/-- Ring n. -/
def State.ring (s : State) (n : Nat) : Ring := tget Ring.init s.host.rings n

/-- Ring n changed by f. -/
def State.modRing (s : State) (n : Nat) (f : Ring → Ring) : State :=
  { s with host := { s.host with rings := tmod Ring.init s.host.rings n f } }

/-- Stack h. -/
def State.stack (s : State) (h : Nat) : Stack := tget Stack.init s.hbm.stk h

/-- Stack h changed by f. -/
def State.modStack (s : State) (h : Nat) (f : Stack → Stack) : State :=
  { s with hbm := { s.hbm with stk := tmod Stack.init s.hbm.stk h f } }

/-- Port p. -/
def State.port (s : State) (p : Nat) : Port := tget Port.init s.fab.ports p

/-- Port p changed by f. -/
def State.modPort (s : State) (p : Nat) (f : Port → Port) : State :=
  { s with fab := { s.fab with ports := tmod Port.init s.fab.ports p f } }

/-- The step of context c changed by f, if one runs. -/
def State.modRun (s : State) (c : Nat) (f : StepRun → StepRun) : State := s.modCx c fun x => { x with run := x.run.map f }

/-- An output sent. -/
def State.emit (s : State) (o : Output) : State := { s with out := s.out ++ [o] }

/-- The module timer moved to t; it never goes back. -/
def State.tick (s : State) (t : Nat) : State := { s with now := max s.now t }

/-- Cluster of a global core ID (00 Table 0-4). -/
def clusterOf (k : Nat) : Nat := k / 32

/-! ### Memories -/

/-- The byte spaces of Mems. -/
inductive Space where
  | tier0
  | scratch
  | side
  | tier2
  | evac
  | stash
  | host
  | bar2
deriving DecidableEq, Repr

/-- A byte space. -/
def Mems.sp (m : Mems) : Space → Tbl Byte
  | .tier0 => m.tier0 | .scratch => m.scratch | .side => m.side | .tier2 => m.tier2 | .evac => m.evac
  | .stash => m.stash | .host => m.host | .bar2 => m.bar2

/-- A byte space replaced. -/
def Mems.put (m : Mems) (sp : Space) (t : Tbl Byte) : Mems :=
  match sp with
  | .tier0 => { m with tier0 := t }
  | .scratch => { m with scratch := t }
  | .side => { m with side := t }
  | .tier2 => { m with tier2 := t }
  | .evac => { m with evac := t }
  | .stash => { m with stash := t }
  | .host => { m with host := t }
  | .bar2 => { m with bar2 := t }

/-- A byte of host memory: every byte the module wrote is listed, and a byte never written is the host's (log 3). -/
def hostGet (t : Tbl Byte) (a : Nat) : Byte :=
  match t.find? fun e => e.1 == a with
  | some e => e.2
  | none => Config.hostByte a

/-- Host memory with consecutive bytes written; each stays listed. -/
def hostPut (t : Tbl Byte) (a : Nat) (vs : List Byte) : Tbl Byte := tbelow t a ++ (cells a vs ++ tfrom t (a + vs.length))

/-- One byte of a space. -/
def State.readByte (s : State) (sp : Space) (a : Nat) : Byte :=
  if sp = .host then hostGet s.mem.host a else tget 0 (s.mem.sp sp) a

/-- n bytes of a space. -/
def State.read (s : State) (sp : Space) (a n : Nat) : List Byte :=
  if sp = .host then (List.range n).map fun i => hostGet s.mem.host (a + i) else tread 0 (s.mem.sp sp) a n

/-- Bytes written to a space. -/
def State.write (s : State) (sp : Space) (a : Nat) (bs : List Byte) : State :=
  if sp = .host then { s with mem := s.mem.put .host (hostPut s.mem.host a bs) }
  else { s with mem := s.mem.put sp (twrite 0 (s.mem.sp sp) a bs) }

/-- A space with [a, a+n) at zero. -/
def State.clear (s : State) (sp : Space) (a n : Nat) : State :=
  { s with mem := s.mem.put sp (tbelow (s.mem.sp sp) a ++ tfrom (s.mem.sp sp) (a + n)) }

/-- Key of tier-0 offset (Mems). -/
def tier0Key (core off : Nat) : Nat := 2 ^ 18 * core + off

/-- Key of a column offset (Mems). -/
def colKey (col off : Nat) : Nat := 2 ^ 23 * col + off

/-- Key of a side-memory offset (Mems). -/
def sideKey (cl off : Nat) : Nat := 2 ^ 19 * cl + off

/-- Key of a stash byte (Mems). -/
def stashKey (ctx slot mu off : Nat) : Nat := 2 ^ 32 * ((ctx * 256 + slot) * 256 + mu) + off

/-- The bytes of context c's saddlebag tiles outside the area at zero: their whole key range. -/
def State.dropAreaBytes (s : State) (c : Nat) : State := s.clear .stash (stashKey c 0 0 0) (2 ^ 48)

/-! ### Free values -/

/-- A fresh free value (log 2): nothing constrains it, and the counter moves on. -/
def State.free (s : State) : DWord × State := (Config.free s.freeCtr, { s with freeCtr := s.freeCtr + 1 })

/-! ### Receipts and events (11 R378, R384 to R387) -/

/-- A receipt (11 Table 11-3), phase clear. -/
def mkReceipt (status tag opcode ctx kind ring detail time detail2 : Nat) : BitVec 256 :=
  pack 256 [(0, 16, status), (16, 16, tag), (32, 16, opcode), (48, 4, ctx), (52, 2, kind), (56, 8, ring), (64, 64, detail),
    (128, 64, time), (192, 64, detail2)]

/-- A receipt with its phase bit. -/
def withPhase (r : BitVec 256) (ph : Bool) : BitVec 256 := if ph then r ||| BitVec.ofNat 256 (2 ^ 54) else r &&& ~~~(BitVec.ofNat 256 (2 ^ 54))

/-- A receipt is an event (11 Table 11-3, kind 2). -/
def isEvent (r : BitVec 256) : Bool := fld r 52 2 == 2

/-- A completion ring has no room: the write would reach cq_head (11 R378). -/
def Ring.full (r : Ring) : Bool := (r.cqTail + 1) % 4096 == r.cqHead

/-- The interrupt of one written receipt (11 R408): events raise vector 65 (R387). -/
def State.irq (s : State) (n : Nat) (ev now : Bool) : State :=
  if ev then s.emit (.msix 65)
  else
    let g := (s.ring n).gathered + 1
    if now || decide (max 1 (s.ring n).irqCount ≤ g) then
      let s' := s.modRing n fun r => { r with gathered := 0 }
      if (s.ring n).irqEn then s'.emit (.msix n) else s'
    else s.modRing n fun r => { r with gathered := g }

/-- A receipt written to completion ring n (11 R378): the ring waits when it is full or halted. -/
def State.postReceipt (s : State) (n : Nat) (r : BitVec 256) (irqNow : Bool) : State :=
  let g := s.ring n
  if g.halted || !g.waiting.isEmpty then s.modRing n fun x => { x with waiting := x.waiting ++ [(r, irqNow)] }
  else if g.full then s.modRing n fun x => { x with fullWait := true, waiting := x.waiting ++ [(r, irqNow)] }
  else
    let a := 4096 * g.cqBase + g.cqTail * 32
    let s := s.write .host a (bytesOfNat 32 (withPhase r g.phase).toNat)
    let s := s.modRing n fun x =>
      { x with cqTail := (x.cqTail + 1) % 4096, phase := if x.cqTail + 1 = 4096 then !x.phase else x.phase }
    s.irq n (isEvent r) irqNow

/-- A receipt due on ring n: held while the link is down, and until the ring's held ones are written (11 R374). -/
def State.receiptDue (s : State) (n : Nat) (r : BitVec 256) (irqNow : Bool) : State :=
  if s.host.linkUp && !(s.host.held.any fun h => h.1 == some n) then s.postReceipt n r irqNow
  else { s with host := { s.host with held := s.host.held ++ [(some n, r, irqNow)] } }

/-- An event written, or discarded and counted (11 R387). One that would reach cq_head makes its ring wait (R378). -/
def State.postEvent (s : State) (r : BitVec 256) : State :=
  let n := s.host.eventRing
  let open_ := s.host.eventEn && (s.ring n).enabled && !(s.ring n).fullWait && !(s.ring n).halted
  if open_ && !(s.ring n).full then s.postReceipt n (r ||| BitVec.ofNat 256 (2 ^ 56 * n)) false
  else
    let s := if open_ then s.modRing n fun x => { x with fullWait := true } else s
    { s with mc := { s.mc with eventsLost := satAdd 0xFFFF s.mc.eventsLost 1 } }

/-- An event raised (11 R387, Table 11-5). -/
def State.event (s : State) (code ctx detail : Nat) : State :=
  let r := mkReceipt code 0 0 ctx 2 0 detail s.beat.slots 0
  if s.host.linkUp && !(s.host.held.any fun h => h.1 == none) then s.postEvent r else { s with host := { s.host with held := s.host.held ++ [(none, r, false)] } }

end Sys2Proof.Machine

namespace Sys2Proof

open Sys2Proof.Machine

/-- The opcode of a waybill header (11 Table 11-2). -/
def Waybill.op (w : Waybill) : Nat := fld w.hdr 0 16
/-- tag. -/
def Waybill.tag (w : Waybill) : Nat := fld w.hdr 16 16
/-- context. -/
def Waybill.context (w : Waybill) : Nat := fld w.hdr 32 4
/-- fence. -/
def Waybill.fence (w : Waybill) : Bool := bitAt w.hdr 36
/-- buf_module. -/
def Waybill.bufModule (w : Waybill) : Bool := bitAt w.hdr 37
/-- leg_receipts. -/
def Waybill.legReceipts (w : Waybill) : Bool := bitAt w.hdr 38
/-- quiet. -/
def Waybill.quiet (w : Waybill) : Bool := bitAt w.hdr 39
/-- irq. -/
def Waybill.irq (w : Waybill) : Bool := bitAt w.hdr 40
/-- length. -/
def Waybill.length (w : Waybill) : Nat := fld w.hdr 64 32
/-- buf_addr. -/
def Waybill.bufAddr (w : Waybill) : Nat := fld w.hdr 96 64
/-- Parameter bits p[lo+len-1:lo] (11 R381). -/
def Waybill.p (w : Waybill) (lo len : Nat) : Nat := fld w.hdr (160 + lo) len

end Sys2Proof

namespace Sys2Proof.Machine

open Sys2Proof

/-- The final receipt of waybill w (11 R385): the entry leaves the list, and the receipt is written unless quiet
suppresses it or PERST_N dropped it (R373). -/
def State.finish (s : State) (w : Waybill) (status detail detail2 : Nat) : State :=
  match s.host.wbs.find? fun e => e.wb == w with
  | none => s
  | some e =>
    let s := { s with host := { s.host with wbs := s.host.wbs.erase e } }
    if e.dropped then s
    else
      let s := s.modRing w.ring fun r => { r with outstanding := r.outstanding - 1 }
      if w.quiet && status == 0 then s
      else s.receiptDue w.ring (mkReceipt status w.tag w.op w.context 0 w.ring detail s.beat.slots detail2) w.irq

/-- A leg receipt of waybill w (11 R381, R385): leg list index and micro-batch in detail2. -/
def State.legReceipt (s : State) (w : Waybill) (status detail idx mu : Nat) : State :=
  match s.host.wbs.find? fun e => e.wb == w with
  | none => s
  | some e =>
    if e.dropped then s
    else s.receiptDue w.ring (mkReceipt status w.tag w.op w.context 1 w.ring detail s.beat.slots (idx % 65536 + 65536 * mu)) w.irq

/-! ### Fault records and the replacement request (12 R412 to R414, R424) -/

/-- SERVICE_N with service_req in MC_STATUS: one state (12 R424). -/
def State.setService (s : State) (b : Bool) : State :=
  if s.mc.serviceReq = b then s else { s with mc := { s.mc with serviceReq := b } }.emit (.service b)

/-- The causes of the replacement request; a change sends PlatformEventMessage when enabled (13 R462). -/
def State.setCauses (s : State) (l : List Nat) : State :=
  if s.mc.causes = l then s
  else
    let s := { s with mc := { s.mc with causes := l } }
    if s.mgmt.events then s.emit (.platformEvent .serviceCause) else s

/-- The replacement request (12 R424): SERVICE_N, service_req, event 0x800C with the cause. Causes 4, 9 and 10 also enter the
repair map (R425). -/
def State.service (s : State) (cause : Nat) : State :=
  let map := if (cause = 4 ∨ cause = 9 ∨ cause = 10) ∧ s.mc.repairMap.length < 16384 ∧ Repair.cause cause ∉ s.mc.repairMap
    then s.mc.repairMap ++ [.cause cause] else s.mc.repairMap
  let s := { s with mc := { s.mc with repairMap := map } }.setService true
  (s.setCauses (if s.mc.causes.contains cause then s.mc.causes else s.mc.causes ++ [cause])).event 0x800C 0xF cause

/-- A fault record (12 R412): written with the next number before any other effect (R414), then event 0x8001, then the
replacement request when it names a cause. The tier-2 log keeps the last 65,536, the flash log the last 4,096 whose
outcome is not 0 (R413). -/
def State.fault (s : State) (kind outcome ctx unit sub spare detail cause : Nat) : State :=
  let step := if ctx < 4 then (s.cx ctx).step else 0
  let f : FaultRec := ⟨s.mc.faultSeq, s.beat.slots, kind, outcome, ctx, unit, sub, spare, step, detail, cause⟩
  let lastN (n : Nat) (l : List FaultRec) : List FaultRec := l.drop (l.length - n)
  let s := { s with mc := { s.mc with
    faultSeq := s.mc.faultSeq + 1
    faultLog := lastN 65536 (s.mc.faultLog ++ [f])
    flashLog := if outcome = 0 then s.mc.flashLog else lastN 4096 (s.mc.flashLog ++ [f]) } }
  let s := s.event 0x8001 ctx f.seq
  if cause = 0 then s else s.service cause

/-- A fault record of the training state (12 Table 12-2, code 0x10). -/
def State.faultTraining (s : State) (outcome ctx detail : Nat) : State := s.fault 0x10 outcome ctx 0 0 0xFFFF detail 0

/-- Bits of a fault record (12 Table 12-1). -/
def FaultRec.bytes (f : FaultRec) : List Byte :=
  bytesOfNat 64 (packNat [(0, 64, f.seq), (64, 64, f.time), (128, 8, f.kind), (136, 4, f.outcome), (140, 4, f.context), (144, 16, f.unit),
    (160, 16, f.sub), (176, 16, f.spare), (192, 64, f.step), (256, 64, f.detail), (320, 8, f.service)])

/-- Retirements entered in the repair map (12 R421), as far as it has room. -/
def State.repairNote (s : State) (l : List Repair) : State :=
  { s with mc := { s.mc with repairMap := s.mc.repairMap ++ l.take (16384 - s.mc.repairMap.length) } }

/-- A fault whose outcome retires something (12 R414, R421, R422): the entries of the repair map, then the record, which names cause 11 when the map is full
and the fault has no cause of its own; with one, cause 11 follows. -/
def State.retire (s : State) (l : List Repair) (kind outcome ctx unit sub spare detail cause : Nat) : State :=
  let full := decide (16384 < s.mc.repairMap.length + l.length)
  let s := (s.repairNote l).fault kind outcome ctx unit sub spare detail (if full && cause == 0 then 11 else cause)
  if full && cause != 0 then s.service 11 else s

/-- The context that a fault in cluster cl or its columns affects (12 Table 12-1): its owner, or 0xF. -/
def State.ownerCtx (s : State) (cl : Nat) : Nat := (s.clu cl).owner.getD 0xF

/-! ### Pins and tollgate state -/

/-- ALIVE_N and the twelve ALIVEp_N (14 R469): one state. -/
def State.setAlive (s : State) (b : Bool) : State :=
  if s.pwr.alive = b then s else { s with pwr := { s.pwr with alive := b } }.emit (.alive b)

/-- TG_STATUS.state (10 Table 10-13); a change sends PlatformEventMessage when enabled (13 R462). -/
def State.setTg (s : State) (st : Nat) : State :=
  if s.tg.st = st then s
  else
    let s := { s with tg := { s.tg with st := st } }
    if s.mgmt.events then s.emit (.platformEvent .tollgateState) else s

/-! ### Legs -/

/-- Leg l of context c in flight. -/
def State.legOf (s : State) (c l : Nat) : Option LegRun := s.legs.find? fun x => x.ctx == c && x.id == l

/-- A leg in flight changed by f. -/
def State.modLeg (s : State) (c l : Nat) (f : LegRun → LegRun) : State :=
  { s with legs := s.legs.map fun x => if x.ctx == c && x.id == l then f x else x }

/-- The micro-batch of a leg in flight (05 R150). -/
def State.legMu (s : State) (c l : Nat) : Option Nat := (s.legOf c l).bind fun x => x.inst.mu

/-- Micro-batch number in a receipt. -/
def LegRun.muCode (g : LegRun) : Nat := g.inst.mu.getD 0xFFFF

/-- The leg receipt, when asked for or failed (11 R381). -/
def State.legReceiptOf (s : State) (g : LegRun) (status detail : Nat) : State :=
  match (match g.wb with | some w => some w | none => (s.cx g.ctx).run.map fun (r : StepRun) => r.wb) with
  | some w => if status ≠ 0 ∧ status ≠ 1 ∨ w.legReceipts then s.legReceipt w status detail g.inst.idx g.muCode else s
  | none => s

/-- Host DMA of bulk data and tier-3 traffic go on (10 R337; 11 R374): the link is up and no floor pauses them. -/
def State.hostDma (s : State) : Bool := s.host.linkUp && !s.tg.dmaPaused

/-- A sweep or fetch leg of a step goes on after an interruption (08 R291). -/
def LegRun.resumes (g : LegRun) : Bool := g.inStep && (g.inst.entry.phase == 3 || g.inst.entry.phase == 4)

/-- The module is at the deep floor, or on its way from it (10 R348, R351): the cellar keeps its contents and serves no access. -/
def State.inDeep (s : State) : Bool := s.tg.st == 3 || (s.tg.st == 5 && s.tg.leaving.any fun e => e.2)

/-- A unit under test now (12 R416). -/
def State.underTest (s : State) (u : TestUnit) : Bool := s.mc.tests.any fun t => t.unit == u

/-- The pair partner of a core (01 R17). -/
def pairOf (k : Nat) : Nat := if k % 2 = 0 then k + 1 else k - 1

/-- The recipe strands of cluster k are gone. -/
def State.clearStrands (s : State) (k : Nat) : State := (List.range 32).foldl (fun s i => s.modCor (k * 32 + i) fun x => { x with strands := [] }) s

/-- A module address in the stash aperture; its slot and offset. -/
def stashAddr (loc a : Nat) : Option (Nat × Nat) :=
  if loc = 0 ∧ 0xFC0000000000 ≤ a then some (a / 2 ^ 32 % 256, a % 2 ^ 32) else none

/-- A module address in the caravan aperture; its layer and offset. -/
def caravanAddr (loc a : Nat) : Option (Nat × Nat) :=
  if loc = 0 ∧ 0xF00000000000 ≤ a ∧ a < 0xF40000000000 then some (a / 2 ^ 30 % 1024, a % 2 ^ 30) else none

/-- The end of a well-halt counted, however it ends (07 R241, R243, Table 7-14): one caravan halt for each visit, which raises the distance up to the
window; every halt on a stash tile. -/
def State.countHalt (s : State) (c tile : Nat) : State :=
  s.modCx c fun x =>
    let k := x.car
    if (caravanAddr 0 tile).isSome then
      if k.raised = some k.running then x
      else { x with car := { k with
        halts := satAdd 0xFFFF k.halts 1
        distance := if k.autoRaise then max k.distance (min k.latchedW (k.distance + 1)) else k.distance
        inForce := if k.autoRaise then max k.inForce (min k.latchedW (k.inForce + 1)) else k.inForce
        raised := some k.running } }
    else if (stashAddr 0 tile).isSome then { x with car := { k with stashHalts := satAdd 0xFFFF k.stashHalts 1 } }
    else x

/-- A core stands in a well-halt (07 R240): at a tile that is missing or under regeneration. -/
def HaltWhy.isWell (w : HaltWhy) : Bool := w == .missing || w == .regen

/-- The well-halts of some descriptors end with them. -/
def State.endHalts (s : State) (l : List DescRun) : State :=
  (l.flatMap fun r => (r.halts.filter fun h => h.why.isWell).map fun h => (r.ctx, h.tile)).foldl (fun s e => s.countHalt e.1 e.2) s

/-- The part of leg l of context c in cluster k stops: its descriptors leave the pipes and the queue. With `keep`, the interrupted ones go
back to the head of the queue with the event they waited for. -/
def State.stopIn (s : State) (c l : Nat) (keep : Bool) (k : Nat) : State :=
  let x := s.clu k
  let mine (r : DescRun) : Bool := r.ctx == c && r.leg == l
  let stopped := x.runs.filter mine
  let s := s.endHalts stopped
  if x.leg = some (c, l) then
    let s := s.modClu k fun x => { x with
      queue := if keep then (stopped.map fun r => r.desc) ++ x.queue else []
      runs := x.runs.filter fun r => !mine r
      events := if keep then stopped.foldl (fun e r => if bitAt r.desc 486 then tmod 0 e (fld r.desc 480 6) (· + 1) else e) x.events else x.events }
    s.clearStrands k
  else if (x.suspended.map fun y => y.1) = some (c, l) then
    s.modClu k fun x => { x with runs := x.runs.filter fun r => !mine r, suspended := x.suspended.map fun y => (y.1, [], y.2.2) }
  else s

/-- The descriptors of leg l that stand in the pipes of its clusters: cluster, descriptor, tiles done by each core. -/
def State.inPipes (s : State) (g : LegRun) : List (Nat × BitVec 512 × Tbl Nat) :=
  g.clusters.flatMap fun k => ((s.clu k).runs.filter fun r => r.ctx == g.ctx && r.leg == g.id).map fun r => (k, r.desc, r.done)

/-- The leg stops with a fault status (08 R291): nothing more of it runs for now, and its receipt will carry the status. The first status
stands. A sweep or fetch leg keeps what is left of it. -/
def State.endLeg (s : State) (c l status detail : Nat) : State :=
  match s.legOf c l with
  | none => s
  | some g =>
    if g.status ≠ 0 then s
    else
      let cut := if g.resumes then s.inPipes g else []
      let old := g.resume.filter fun r => !(cut.any fun q => q.1 == r.1 && q.2.1 == r.2.1)
      let s := s.modLeg c l fun x => { x with status := status, detail := detail, resume := old ++ cut }
      g.clusters.foldl (fun s k => s.stopIn c l g.resumes k) s

/-- Clusters that context c owns, ascending (03 R74). -/
def State.owned (s : State) (c : Nat) : List Nat := (List.range 48).filter fun k => (s.clu k).owner == some c

/-- A context frozen at tile boundary by the module itself (03 R88): its clusters stop at their output tile. -/
def State.freeze (s : State) (c : Nat) : State :=
  let s := s.modCx c fun x => { x with evac := x.evac.map fun _ => true, frozen := true, frozenAt := if x.frozen then x.frozenAt else s.now }
  (s.owned c).foldl (fun s k => s.modClu k fun x => { x with frozen := true }) s

/-- The limits of the waits of context c do not count the time since `start` (07 R242, 10 R350). -/
def State.shiftHalts (s : State) (c start : Nat) : State :=
  let later (u : Nat) : Nat := u + (s.now - max start u)
  let s := (List.range 48).foldl (fun s k => s.modClu k fun x => { x with
    runs := x.runs.map fun r => if r.ctx = c then { r with halts := r.halts.map fun h => { h with since := later h.since } } else r }) s
  (s.cel.columns.map Prod.fst).foldl (fun s k => s.modCol k fun x => { x with
    waiters := x.waiters.map fun w => if w.1 = c then (w.1, w.2.1, w.2.2.1, later w.2.2.2) else w }) s

/-- A context parked (10 R350). -/
def State.park (s : State) (c : Nat) : State := s.modCx c fun x => if x.parked then x else { x with parked := true, parkedAt := s.now }

/-- A parked context goes on; the limits of its standing cores did not run. -/
def State.unpark (s : State) (c : Nat) : State :=
  if (s.cx c).parked then (s.shiftHalts c (s.cx c).parkedAt).modCx c fun x => { x with parked := false } else s

/-- A frozen context goes on at its next output tile. One that waits for the host's decision (07 R247, 08 R291, 13 R453) stays frozen, and one
whose columns are evacuated goes on after that (06 R198). -/
def State.thawCtx (s : State) (c : Nat) : State :=
  if !(s.cx c).frozen || (s.cx c).stuck then s
  else if (s.cx c).evac.isSome then s.modCx c fun x => { x with evac := some false }
  else
    let s := (s.shiftHalts c (s.cx c).frozenAt).modCx c fun x => { x with frozen := false }
    (s.owned c).foldl (fun s k => s.modClu k fun x => { x with frozen := false }) s

end Sys2Proof.Machine
end

