-- ==== Sys2Proof/Machine/Cellar.lean ====
section
/-! DEFINITION. The cellar: address spaces (07 Table 7-2), the cellar map (06 R172, R173), replacement (R174 to R180), the home
protocol (R181 to R184) and range operations (R195). -/

namespace Sys2Proof.Machine

open Sys2Proof

/-! ### Tier 2 and tier 3 -/

/-- Bytes of usable tier 2 (07 Table 7-2): 760 or 504 GiB. -/
def State.tier2Size (s : State) : Nat := if s.hbm.tall then 760 * 2 ^ 30 else 504 * 2 ^ 30

/-- First byte of the tier 3 window. -/
def tier3Base : Nat := 0x400000000000

/-- Host address of a tier-3 window address, when it is in the map (07 R229). -/
def State.tier3Host (s : State) (a : Nat) : Option Nat :=
  if s.host.t3Enable ∧ tier3Base ≤ a ∧ a - tier3Base < min (2 ^ 20 * s.host.t3Size) (2 ^ 44)
  then some (4096 * s.host.t3Base + (a - tier3Base)) else none

/-- Where a tier-2 or tier-3 address is stored. -/
def State.backing (s : State) (a : Nat) : Option (Space × Nat) :=
  if a < s.tier2Size then some (.tier2, a) else (s.tier3Host a).map fun h => (.host, h)

/-- Stack of a tier-2 address (07 R213). -/
def stackOf (a : Nat) : Nat := (a / 4096) % 16

/-- Pseudo-channel of a tier-2 address within its stack (07 R213). -/
def pcOf (a : Nat) : Nat := (a / 256) % 16 + 16 * ((a / 65536) % 4)

/-- Row of a tier-2 address within its pseudo-channel: four consecutive lines share one row (07 R213). -/
def rowOf (a : Nat) : Nat := a / 65536 / 4 / 4

/-- The bytes of the HBM: usable tier 2 and the MC area of 8 GiB (07 R211). -/
def State.hbmSize (s : State) : Nat := s.tier2Size + 2 ^ 33

/-- The line of a tier-2 address is delivered poisoned (07 Table 7-5): it is in the poison table, or waits to enter it. -/
def State.poisoned (s : State) (a : Nat) : Bool :=
  decide (a < s.hbmSize) && ((s.stack (stackOf a)).poison.contains (a / 256)
    || (s.stack (stackOf a)).victims.contains (.window 0 (a / 256 * 256)))

/-- A line enters its stack's poison table (07 R220); when the table is full the victim write waits. -/
def State.enterPoison (s : State) (a : Nat) : State :=
  let h := stackOf a
  let k := s.stack h
  if a ≥ s.hbmSize ∨ s.poisoned a then s
  else if k.poison.length < 65536 then s.modStack h fun x => { x with poison := x.poison ++ [a / 256] }
  else
    (s.modStack h fun x => { x with victims := x.victims ++ [.window 0 (a / 256 * 256)] }).fault 0x09 4 0xF (h * 64 + pcOf a) 0 0xFFFF a 4

/-- A full-line write removes the line's entry; the oldest waiting victim takes the entry freed (07 R220). -/
def State.leavePoison (s : State) (a : Nat) : State :=
  let h := stackOf a
  if s.poisoned a then
    s.modStack h fun x =>
      let v := x.victims.filter fun l => l != .window 0 (a / 256 * 256)
      let p := x.poison.filter fun l => l != a / 256
      match v with
      | .window _ b :: r => if p.length < 65536 then { x with poison := p ++ [b / 256], victims := r } else { x with poison := p, victims := v }
      | _ => { x with poison := p, victims := v }
  else s

/-- A line of tier 2 or tier 3, and whether it is poisoned. -/
def State.tierLine (s : State) (a : Nat) : Line × Bool :=
  match s.backing a with
  | none => (0, true)
  | some (sp, k) => (lineOf (s.read sp k 256), s.poisoned a)

/-- A whole line written to tier 2 or tier 3. -/
def State.putTier (s : State) (a : Nat) (l : Line) : State :=
  match s.backing a with
  | none => s
  | some (sp, k) => (s.leavePoison a).write sp k (lineBytes l)

/-! ### The cellar map -/

/-- Scratch units of column k: those of its cluster (06 R171). -/
def State.scratchUnits (s : State) (k : Nat) : Nat := (s.clu (clusterOf k)).scratchUnits

/-- Home clusters of an entry in context c, ascending: every cluster the context owns when the mask is 0. -/
def State.homeClusters (s : State) (c : Nat) (e : MapEntry) : List Nat := if e.home = 0 then s.owned c else setBits e.home

/-- Column number j of the home list: 32 columns a cluster (06 R173 step 1). -/
def homeAt (cls : List Nat) (j : Nat) : Nat := cls.getD (j / 32) 0 * 32 + j % 32

/-- The entry of a map that holds address a. -/
def mapAt (m : List MapEntry) (a : Nat) : Option MapEntry := m.find? fun e => decide (e.base ≤ a ∧ a < e.base + 4096 * e.pages)

/-- The entry of context c that holds address a. -/
def State.mapEntry (s : State) (c a : Nat) : Option MapEntry := mapAt (s.cx c).map a

/-- Home column of an address of an entry, and the block number within that column (06 R173 steps 2 to 4). -/
def homeOf (cls : List Nat) (e : MapEntry) (a : Nat) : Nat × Nat :=
  let n := cls.length * 32
  let b := (a - e.base) / 4096
  (homeAt cls (b % n), b / n)

/-- The column that serves a column: its substitute once it has left the map (06 R198). -/
def State.serving (s : State) (k : Nat) : Nat :=
  match (s.col k).leftMap, (s.col k).substitute with
  | true, some j => j
  | _, _ => k

/-- Where one access of an executing core lands. `hint` is the default hint of its map entry; normal where a scratch part or the saddlebag area
has no hint of its own. -/
inductive Place where
  /-- A line with a home column; `direct` marks a line of a direct window. -/
  | homed (line : LineId) (off : Nat) (direct : Bool) (set : Nat) (hint : Nat)
  /-- Storage without a home: tier 0, side memory, spilled stash, tier 2 or 3 outside every window. -/
  | flat (sp : Space) (key : Nat)
  /-- A caravan tile whose layer is in no slot. -/
  | absent
  | outside
deriving DecidableEq, Repr

/-- Sets of a column's cache part (06 R171, Table 6-16). -/
def State.setCount (s : State) (k : Nat) : Nat := 16 * (79 - s.scratchUnits k)

/-- Where an address of a map entry lies (06 R173). -/
def State.windowPlace (s : State) (c : Nat) (e : MapEntry) (a : Nat) : Place :=
  let cls := s.homeClusters c e
  if cls.isEmpty then .outside
  else
    let (k, blk) := homeOf cls e a
    if e.mode = 2 then
      let off := 65536 * e.colOff + 4096 * blk + a % 4096
      .homed (.scratch k (off / 256 * 256)) (off % 256) false 0 e.hint
    else if (s.backing a).isNone then .outside
    else
      let k := s.serving k
      let l := blk * 16 + (a / 256) % 16
      .homed (.window k (a / 256 * 256)) (a % 256) (e.mode == 0) (l % max 1 (s.setCount k)) e.hint

/-- Tile bytes by format (07 Table 7-7). -/
def leadLines (f : Nat) : Nat := if isScaled f then 2 else 1

/-- Bytes of a tile. -/
def tileBytes (f : Nat) : Nat := leadLines f * 256 + 512 * fmtWidth f

/-- Caravan slot of context c that holds a layer. -/
def State.caravanSlot (s : State) (c layer : Nat) : Option Nat :=
  (List.range 8).find? fun i => match tget none (s.cx c).car.slots i with
    | some v => v.layer == layer
    | none => false

/-! ### The caravan's tiles in the columns (07 R235, R236) -/

/-- The largest share in bytes of one core of cluster cl in a caravan layer (07 R235). -/
def State.layerShare (s : State) (cl : Nat) (e : CaravanEntry) : Nat :=
  if e.fmt = 0 ∨ !e.clusters.getLsbD cl then 0
  else
    let cls := setBits e.clusters
    let q := (cls.takeWhile fun k => k != cl).length
    let cols := e.nTiles / cls.length + b2n (decide (q < e.nTiles % cls.length))
    ceilDiv cols (max 1 (setBits (s.clu cl).active).length) * e.kTiles * tileBytes e.fmt

/-- u of 07 R236: 64 KiB units of the largest share of any core of the cluster in any layer of a caravan table. -/
def State.carUnits (s : State) (table : List CaravanEntry) (cl : Nat) : Nat := ceilDiv ((table.map fun e => s.layerShare cl e).foldl max 0) 65536

/-- The caravan table of context c. -/
def State.carTable (s : State) (c : Nat) : List CaravanEntry := ((s.cx c).place.map fun p => p.caravan).getD []

/-- The run of a caravan entry's tile column j: the place of its cluster in the ascending list, the cluster's run length, and the column's
number in the run (07 R235). -/
def carRun (clusters n j : Nat) : Nat × Nat × Nat :=
  let q := n / clusters
  let r := n % clusters
  if j < r * (q + 1) then (j / (q + 1), q + 1, j % (q + 1)) else (r + (j - r * (q + 1)) / max 1 q, q, (j - r * (q + 1)) % max 1 q)

/-- The core that holds tile number t of a caravan entry, and the tile's number in that core's share (07 R235, 03 R77). -/
def State.carTile (s : State) (e : CaravanEntry) (t : Nat) : Nat × Nat :=
  let cls := setBits e.clusters
  let (x, cols, q) := carRun (max 1 cls.length) e.nTiles (t % max 1 e.nTiles)
  let cl := cls.getD x 0
  let act := setBits (s.clu cl).active
  let m := max 1 act.length
  (cl * 32 + act.getD (q % m) 0, t / max 1 e.nTiles * ceilDiv (cols - q % m) m + q / m)

/-- Core and scratch offset of a byte of a layer in slot i: the area is the top of each column's scratch part (07 R236). -/
def State.carByte (s : State) (c i : Nat) (e : CaravanEntry) (off : Nat) : Nat × Nat :=
  let size := tileBytes e.fmt
  let (k, n) := s.carTile e (off / size)
  let u := s.carUnits (s.carTable c) (clusterOf k)
  (k, (s.scratchUnits k - (s.cx c).car.latchedW * u + i * u) * 65536 + n * size + off % size)

/-! ### The saddlebag area (05 R151) -/

/-- The scratch window of a map that holds the saddlebag area. -/
def Ctx.stashEntry (x : Ctx) : Option MapEntry := x.map.find? fun e => e.stash

/-- The stash tile of a slot and micro-batch that covers an offset. -/
def Ctx.stashTile (x : Ctx) (slot mu off : Nat) : Option StashTile :=
  x.stash.find? fun t => t.slot == slot && t.mu == mu && decide (t.off ≤ off ∧ off < t.off + t.bytes)

/-- Where a byte of a declared stash slot lies: in the saddlebag area, or outside it. -/
def State.stashPlace (s : State) (c slot mu off : Nat) : Place :=
  match (s.cx c).stashTile slot mu off, (s.cx c).stashEntry with
  | some t, some e => match t.area with
    | some at_ => s.windowPlace c e (e.base + at_ + (off - t.off))
    | none => .flat .stash (stashKey c slot mu off)
  | _, _ => .flat .stash (stashKey c slot mu off)

/-- Where a module address of context c lands for a leg with micro-batch `mu` (05 R150, 06 R172, 07 R211, R234). Context 4
and above has no map. -/
def State.resolve (s : State) (c : Nat) (mu : Option Nat) (a : Nat) : Place :=
  if 0xFC0000000000 ≤ a then
    let slot := a / 2 ^ 32 % 256
    let off := a % 2 ^ 32
    match mu, (s.cx c).place with
    | some m, some p =>
      match p.stash[slot]? with
      | some e => if a / 2 ^ 40 = 0xFC + c ∧ off < e.sizeKib * 1024 then s.stashPlace c slot m off else .outside
      | none => .outside
    | _, _ => .outside
  else if 0xF00000000000 ≤ a ∧ a < 0xF40000000000 then
    let layer := a / 2 ^ 30 % 1024
    let off := a % 2 ^ 30
    match (s.cx c).place with
    | some p =>
      match p.caravan[layer]? with
      | some e =>
        if a / 2 ^ 40 = 0xF0 + c ∧ e.fmt ≠ 0 ∧ off / tileBytes e.fmt < e.kTiles * e.nTiles then
          match s.caravanSlot c layer with
          | some i => let (k, o) := s.carByte c i e off
            .homed (.scratch k (o / 256 * 256)) (o % 256) false 0 0
          | none => .absent
        else .outside
      | none => .outside
    | none => .outside
  else
    match s.mapEntry c a with
    | some e => s.windowPlace c e a
    | none =>
      match s.backing a with
      | some (sp, k) => .flat sp k
      | none => .outside

/-- Where an operand address lands on a core (03 Table 3-4, R72; 06 R171; 05 R147). -/
def State.placeOf (s : State) (c : Nat) (mu : Option Nat) (core loc a : Nat) : Place :=
  match loc with
  | 0 => s.resolve c mu a
  | 1 => if a < 0x38000 then .flat .tier0 (tier0Key core a) else .outside
  | 2 => if a < s.scratchUnits core * 65536 then .homed (.scratch core (a / 256 * 256)) (a % 256) false 0 0 else .outside
  | _ =>
    let cl := clusterOf core
    if a < 2 ^ 19 ∧ (s.clu cl).statLimit * 65536 ≤ a then .flat .side (sideKey cl a) else .outside

/-! ### Lines at their home -/

/-- The space that stores a scratch line: the evacuation area once its column has left the map (06 R198). -/
def State.scratchSpace (s : State) (k : Nat) : Space := if (s.col k).leftMap then .evac else .scratch

/-- A scratch line whose bytes lie in the evacuation area and are cached at its column's substitute (06 R198 step 4): its column has left the map,
and answered. -/
def State.evacLine (s : State) : LineId → Bool
  | .scratch k _ => (s.col k).leftMap && !(s.col k).silent
  | .window _ _ => false

/-- The home record of a line. An unlisted scratch line is V (its storage always holds it), absent from the cache part that serves it once it is
evacuated, and reads as poisoned when its column left without answering (06 R198). -/
def State.homeLine (s : State) (id : LineId) : HomeLine :=
  let h := lget HomeLine.init s.cel.lines id
  match id with
  | .scratch k _ => if h.st = .np ∧ !s.evacLine id then { h with st := if (s.col k).silent then .pz else .v } else h
  | .window _ _ => h

/-- A home record stored; a scratch line in V at its own column needs none. -/
def State.putHome (s : State) (id : LineId) (h : HomeLine) : State :=
  let h := match id with
    | .scratch k _ => if h.st = .np ∨ (h.st = .v ∧ !s.evacLine id ∧ (s.col k).silent = false) then HomeLine.init else h
    | .window _ _ => if h.st = .np then HomeLine.init else h
  { s with cel := { s.cel with lines := lset HomeLine.init s.cel.lines id h } }

/-- An evacuated scratch line stands in a way of its substitute's cache part. -/
def State.evacHeld (s : State) (id : LineId) : Bool := s.evacLine id && (lget HomeLine.init s.cel.lines id).st != .np

/-- The data of a line at its home: a cache line's own copy, a scratch line's storage, or the tier of a direct line. -/
def State.homeData (s : State) (id : LineId) (direct : Bool) : Line :=
  match id with
  | .scratch k off => if s.evacHeld id then (lget HomeLine.init s.cel.lines id).data else lineOf (s.read (s.scratchSpace k) (colKey k off) 256)
  | .window _ a => if direct then (s.tierLine a).1 else (lget HomeLine.init s.cel.lines id).data

/-- Data stored at the home: into the scratch part (with the dirty bit of a tile that a tile move placed there, 07 R228), into the cache
line with its dirty bit, or to the tier. -/
def State.putData (s : State) (id : LineId) (direct : Bool) (l : Line) : State :=
  match id with
  | .scratch k off =>
    let s := { s with cel := { s.cel with moved := s.cel.moved.map fun (m : List LineId × Bool) => if m.1.contains id then (m.1, true) else m } }
    if s.evacHeld id then s.putHome id { lget HomeLine.init s.cel.lines id with data := l, dirty := true }
    else s.write (s.scratchSpace k) (colKey k off) (lineBytes l)
  | .window _ a =>
    if direct then s.putTier a l
    else s.putHome id { lget HomeLine.init s.cel.lines id with data := l, dirty := true }

/-- The L1 copies of a line invalidated; the owner's modified copy is written back to the home first (06 R184). -/
def State.recallAll (s : State) (id : LineId) (direct : Bool) : State :=
  let mine := s.cel.l1.filter fun x => x.line == id
  let s := mine.foldl (fun s x => if x.modified then s.putData id direct x.data else s) s
  { s with cel := { s.cel with l1 := s.cel.l1.filter fun x => x.line != id } }

/-- L1 copies dropped without write-back. -/
def State.dropAll (s : State) (id : LineId) : State :=
  { s with cel := { s.cel with l1 := s.cel.l1.filter fun x => x.line != id } }

/-- The owner writes back and keeps a read copy (06 Table 6-7, E on a read by another). -/
def State.demote (s : State) (id : LineId) (direct : Bool) : State :=
  let mine := s.cel.l1.filter fun x => x.line == id
  let s := mine.foldl (fun s x => if x.modified then s.putData id direct x.data else s) s
  { s with cel := { s.cel with l1 := s.cel.l1.map fun x => if x.line == id then { x with writable := false, modified := false } else x } }

/-! ### Replacement -/

/-- Columns that column k serves: itself while it is in the map, and those it is the substitute of (06 R198). -/
def State.served (s : State) (k : Nat) : List Nat :=
  (if s.serving k = k then [k] else []) ++ (s.cel.columns.filter fun e => e.1 != k && s.serving e.1 == k).map Prod.fst

/-- A shelf window has a block homed at column k (06 R173, R175). -/
def State.homesShelf (s : State) (w : Shelf) (k : Nat) : Bool :=
  match s.mapEntry w.ctx w.base with
  | some e =>
    let cls := s.homeClusters w.ctx e
    let n := cls.length * 32
    let first := (w.base - e.base) / 4096 % max 1 n
    (s.served k).any fun j => cls.contains (clusterOf j)
      && decide (((cls.takeWhile fun x => x != clusterOf j).length * 32 + j % 32 + n - first) % max 1 n < w.pages)
  | none => false

/-- The sum of the quotas of the shelf windows with blocks homed at column k (06 R175). -/
def State.shelfQuota (s : State) (k : Nat) : Nat :=
  ((List.range 64).filterMap fun i => tget none s.cel.shelves i).foldl (fun n w => if s.homesShelf w k then n + w.quota else n) 0

/-- The keep cap of column k (06 R175). -/
def State.keepCap (s : State) (k : Nat) : Nat := s.cel.keepCap - (s.col k).reduction - s.shelfQuota k

/-- The shelf window of a line: its number and quota. -/
def State.shelfOf (s : State) (c a : Nat) : Option (Nat × Nat) :=
  (List.range 64).findSome? fun i => match tget none s.cel.shelves i with
    | some w => if w.ctx = c ∧ w.base ≤ a ∧ a < w.base + 4096 * w.pages then some (i, w.quota) else none
    | none => none

/-- The lines of one set of column k. The directory entries of direct windows take no way (06 R172); evacuated scratch lines of the columns that
k stands in for do (R198), but poisoned ones, which keep their mark. -/
def State.setLines (s : State) (k set : Nat) : List (LineId × HomeLine) :=
  s.cel.lines.filter fun e => match e.1 with
    | .window c _ => c == k && e.2.set == set && e.2.st != .np && !e.2.direct
    | .scratch c _ => s.evacLine e.1 && s.serving c == k && e.2.set == set && e.2.st != .np && e.2.st != .pz

/-- The column of a line. -/
def colNo : LineId → Nat
  | .scratch k _ => k
  | .window k _ => k

/-- The column whose controller and press act for a line: a left column's substitute (06 R198). -/
def State.pressCol (s : State) (id : LineId) : Nat := s.serving (colNo id)

/-- The set of an evacuated scratch line in its substitute's cache part. DESIGN CHOICE (log 107): its line number in its own column. -/
def State.evacSet (s : State) (id : LineId) : Nat :=
  match id with
  | .scratch _ off => off / 256 % max 1 (s.setCount (s.pressCol id))
  | .window _ _ => 0

/-- Victim rank by class (06 R176). -/
def hintRank : Hint → Nat
  | .evictFirst => 0
  | .normal => 1
  | .keep => 2

/-- Before in the victim order of 06 R176: class first, then least recently used. -/
def victimBefore (a b : HomeLine) : Bool :=
  decide (hintRank a.hint < hintRank b.hint ∨ (hintRank a.hint = hintRank b.hint ∧ a.stamp ≤ b.stamp))

/-- Insertion into the victim order. -/
def victimInsert (x : LineId × HomeLine) : List (LineId × HomeLine) → List (LineId × HomeLine)
  | [] => [x]
  | y :: r => if victimBefore x.2 y.2 then x :: y :: r else y :: victimInsert x r

/-- The candidates of a set in the order of 06 R176; shelf-held lines are never chosen. -/
def victimOrder (l : List (LineId × HomeLine)) : List (LineId × HomeLine) :=
  (l.filter fun e => e.2.shelf.isNone).foldr victimInsert []

/-- A line leaves its column's cache part (06 Table 6-7, chosen as victim): recall, then write back if dirty; a poisoned line
leaves a poison marker in tier 2. An evacuated scratch line goes back to the evacuation area. -/
def State.evict (s : State) (id : LineId) : State :=
  match id with
  | .scratch k off =>
    if !s.evacHeld id then s
    else
      let s := s.recallAll id false
      let h := s.homeLine id
      let s := s.putHome id HomeLine.init
      if h.dirty then s.write .evac (colKey k off) (lineBytes h.data) else s
  | .window _ a =>
    let h := s.homeLine id
    let s := if h.st = .pz then (s.dropAll id).enterPoison a
      else
        let s := s.recallAll id false
        let h := s.homeLine id
        if h.dirty then s.putTier a h.data else s
    s.putHome id HomeLine.init

/-- Keep lines above the cap become normal, least recently used first (06 R175). -/
def State.trimKeeps (s : State) (k set : Nat) : State :=
  let keeps := (s.setLines k set).filter fun e => e.2.hint == .keep && e.2.shelf.isNone
  let n := keeps.length - s.keepCap k
  ((keeps.foldr victimInsert []).take n).foldl (fun s e => s.putHome e.1 { s.homeLine e.1 with hint := .normal }) s

/-- A hint code. -/
def hintOf (n : Nat) : Hint := if n = 1 then .keep else if n = 2 then .evictFirst else .normal

/-- The hint a fill or promotion takes in a set: keep only under the cap (06 R175). -/
def State.hintTaken (s : State) (k set : Nat) (h : Hint) : Hint :=
  if h = .keep ∧ s.keepCap k ≤ ((s.setLines k set).filter fun e => e.2.hint == .keep).length then .normal else h

/-- A way made free in a set for one fill (06 R176, R194): the victim leaves, each RL line passed over counts one deferral;
`none` when every way is locked or held. -/
def State.makeRoom (s : State) (k set : Nat) : Option State :=
  let ls := s.setLines k set
  if ls.length < 16 then some s
  else
    let order := victimOrder ls
    let passed := (order.takeWhile fun e => e.2.st == .rl).length
    let cl := clusterOf k
    match order.drop passed with
    | [] => none
    | (id, h) :: _ =>
      let s := s.modCnt cl fun x => { x with defers := satAdd 0xFFFF x.defers passed }
      let s := if h.hint = .normal then s.modCol k fun x => { x with evictions := x.evictions + 1 } else s
      some (s.evict id)

/-- The RL lines that a search for a way of a full set passes over count one deferral each (06 R194). -/
def State.passOver (s : State) (k set : Nat) : State :=
  s.modCnt (clusterOf k) fun x => { x with defers := satAdd 0xFFFF x.defers ((s.setLines k set).filter fun e => e.2.st == .rl).length }

/-- A set has no way for one fill: all sixteen are locked or held (06 R178, R194). -/
def State.setFull (s : State) (k set : Nat) : Bool :=
  decide (16 ≤ (s.setLines k set).length) && ((victimOrder (s.setLines k set)).all fun e => e.2.st == .rl)

/-- A line allocated at its home in a cache window, with the given state and data (06 R174, R176, R178). `fills` counts what is read from a
tier for the thrash monitor (R179). -/
def State.allocate (s : State) (c k a set hint : Nat) (st : LineSt) (fills : Nat) (dirty : Bool) (data : Line) : Option State :=
  let s := s.trimKeeps k set
  match s.makeRoom k set with
  | none => none
  | some s =>
    let held := match s.shelfOf c a with
      | some (i, q) => if ((s.setLines k set).filter fun e => e.2.shelf == some i).length < q then some i else none
      | none => none
    let h : HomeLine := { HomeLine.init with
      st := st, set := set, dirty := dirty, data := data, hint := if held.isSome then .normal else s.hintTaken k set (hintOf hint), shelf := held
      stamp := s.cel.stamp }
    let s := { s with cel := { s.cel with stamp := s.cel.stamp + 1 } }
    let s := s.modCol k fun x => { x with fills := x.fills + fills }
    some (s.putHome (.window k a) h)

/-- A fill from tier 2 or tier 3: a poisoned line leaves it PZ (07 R218). -/
def State.fill (s : State) (c k a set hint : Nat) : Option State :=
  let (d, bad) := s.tierLine a
  s.allocate c k a set hint (if bad then .pz else .v) 1 false d

/-- An evacuated scratch line allocated in its substitute's cache part (06 R198), with the data that the evacuation area holds or a full line. -/
def State.bringEvac (s : State) (id : LineId) (hint : Nat) (full : Option Line) : Option State :=
  let k := s.pressCol id
  let set := s.evacSet id
  let d := full.getD (s.homeData id false)
  ((s.trimKeeps k set).makeRoom k set).map fun s =>
    let h : HomeLine := { HomeLine.init with
      st := .v, set := set, dirty := full.isSome, data := d, hint := s.hintTaken k set (hintOf hint), stamp := s.cel.stamp }
    let s := { s with cel := { s.cel with stamp := s.cel.stamp + 1 } }
    (s.modCol k fun x => { x with fills := x.fills + b2n full.isNone }).putHome id h

/-- An absent line filled at its home; none while no way is free. -/
def State.bring (s : State) (c : Nat) (id : LineId) (set hint : Nat) : Option State :=
  match id with
  | .window k a => s.fill c k a set hint
  | .scratch _ _ => s.bringEvac id hint none

/-- The fill of a line would find no way free in its set (06 R194). -/
def State.lacksWay (s : State) (id : LineId) (direct : Bool) (set : Nat) : Bool :=
  (s.homeLine id).st == .np && (match id with
    | .window k _ => !direct && s.setFull k set
    | .scratch _ _ => s.setFull (s.pressCol id) (s.evacSet id))

/-- A hit changes the line's class and its place in the use order (06 R174). -/
def State.touch (s : State) (id : LineId) (hint : Nat) : State :=
  match (match id with | .scratch _ _ => if s.evacHeld id then some (s.pressCol id) else none | .window k _ => some k) with
  | none => s
  | some k =>
    let h := s.homeLine id
    let cls := match hintOf hint with
      | .keep => if h.hint = .keep then .keep else if s.hintTaken k h.set .keep = .keep then .keep else h.hint
      | .evictFirst => if h.hint = .normal then .evictFirst else h.hint
      | .normal => h.hint
    let s := s.putHome id { h with hint := cls, stamp := if hint = 2 then h.stamp else s.cel.stamp }
    { s with cel := { s.cel with stamp := s.cel.stamp + 1 } }

/-- A home record without L1 copies. -/
def HomeLine.alone (h : HomeLine) : HomeLine := { h with sharers := [], mask := 0, owner := none }

/-- Some L1 copy of a line is on record (06 R182). -/
def HomeLine.shared (h : HomeLine) : Bool := !h.sharers.isEmpty || h.mask != 0

/-- A line made poisoned (06 Table 6-7): L1 copies are invalidated. A direct line has no cellar copy (R183); its mark is the poison table's. -/
def State.makePz (s : State) (id : LineId) : State :=
  let s := s.dropAll id
  let h := s.homeLine id
  match id with
  | .scratch _ _ => s.putHome id { h.alone with st := .pz, lock := none, dirty := false }
  | .window _ a =>
    if h.st = .np then s.enterPoison a
    else if h.direct then (s.putHome id HomeLine.init).enterPoison a
    else s.putHome id { h.alone with st := .pz, lock := none, dirty := false }

/-! ### The home protocol (06 Table 6-7) -/

/-- What a home answers: the line, a wait for the lock's close, a wait for a free way, a refusal of a poisoned line. -/
inductive HomeAns where
  | data (l : Line)
  | locked
  | noWay
  | poisoned
deriving DecidableEq, Repr

/-- The copies of a line that are held, as the directory records them (06 R182). -/
def State.copies (s : State) (id : LineId) : List Nat := (s.cel.l1.filter fun x => x.line == id).map fun x => x.core

/-- A line of a direct window of some context's map. -/
def State.isDirect (s : State) (id : LineId) : Bool :=
  match id with
  | .scratch _ _ => false
  | .window k a => (List.range 4).any fun c => match s.mapEntry c a with
    | some e => e.mode == 0 && s.serving (homeOf (s.homeClusters c e) e a).1 == k
    | none => false

/-- What a directory entry records of some copies (06 R182): up to four sharers; a fifth turns them into a mask of clusters, which stays while
there are copies. -/
def HomeLine.record (h : HomeLine) (cs : List Nat) : HomeLine :=
  if cs.isEmpty then { h with sharers := [], mask := 0 }
  else if h.mask = 0 ∧ cs.length ≤ 4 then { h with sharers := cs }
  else { h with sharers := [], mask := h.mask ||| maskOf 48 (cs.map clusterOf) }

/-- The state after copies change: V, S or E with the directory entry; NP for a direct line without copies. -/
def State.settleCopies (s : State) (id : LineId) (direct : Bool) (hint : Nat) : State :=
  let cs := s.copies id
  let w := s.cel.l1.find? fun x => x.line == id && x.writable
  let h := s.homeLine id
  let st : LineSt := match w with
    | some _ => .e
    | none => if cs.isEmpty then (if direct then .np else .v) else .s
  let s := s.putHome id { h.record cs with st := st, direct := direct, owner := w.map fun x => x.core }
  if direct then s else s.touch id hint

/-- A line written back and kept: its owner keeps a read copy, and the home copy is clean (06 Table 6-9). -/
def State.cleanLine (s : State) (id : LineId) (direct : Bool) : State :=
  match id with
  | .scratch _ _ => s
  | .window _ a =>
    let s := s.demote id direct
    let g := s.homeLine id
    let s := if g.dirty && !direct then (s.putTier a g.data).putHome id { g with dirty := false } else s
    s.settleCopies id direct 0

/-- Directory entries of column k (06 R182). -/
def State.directory (s : State) (k : Nat) : List (LineId × HomeLine) :=
  s.cel.lines.filter fun e => colNo e.1 == k && e.2.shared

/-- The least recently used of some directory entries. -/
def oldest : List (LineId × HomeLine) → Option (LineId × HomeLine)
  | [] => none
  | x :: r => match oldest r with
    | some y => some (if x.2.dirStamp ≤ y.2.dirStamp then x else y)
    | none => some x

/-- The state after copies change, with the directory's limit of 8,192 entries (06 R182): a new entry displaces the least recently used one,
whose copies are recalled. -/
def State.settle (s : State) (id : LineId) (direct : Bool) (hint : Nat) : State :=
  let k := colNo id
  let s := s.settleCopies id direct hint
  let s := if !(s.homeLine id).shared then s
    else
      let s := s.putHome id { s.homeLine id with dirStamp := s.cel.stamp }
      { s with cel := { s.cel with stamp := s.cel.stamp + 1 } }
  let l := s.directory k
  if l.length ≤ 8192 then s
  else
    match oldest (l.filter fun e => e.1 != id) with
    | some e => (s.recallAll e.1 e.2.direct).settleCopies e.1 e.2.direct 0
    | none => s

/-- An L1 copy given to a core. -/
def State.giveL1 (s : State) (core : Nat) (id : LineId) (d : Line) (w : Bool) : State :=
  let r := s.cel.l1.filter fun x => !(x.core == core && x.line == id)
  { s with cel := { s.cel with l1 := r ++ [⟨core, id, d, w, false⟩] } }

/-- One request at a line that is present (or direct, or scratch) and neither locked nor poisoned. -/
def State.serve (s : State) (id : LineId) (direct : Bool) (hint : Nat) (ev : HomeEvent) : State × HomeAns :=
  match ev with
  | .l1Read core =>
    let s := if (s.homeLine id).st = .e ∧ (s.homeLine id).owner ≠ some core then s.demote id direct else s
    let own := s.cel.l1.find? fun x => x.line == id && x.core == core
    match own with
    | some x => (s.settle id direct hint, .data x.data)
    | none =>
      let d := s.homeData id direct
      ((s.giveL1 core id d false).settle id direct hint, .data d)
  | .l1Write core =>
    match s.cel.l1.find? fun x => x.line == id && x.core == core && x.writable with
    | some x => (s.settle id direct hint, .data x.data)
    | none =>
      let s := s.recallAll id direct
      let d := s.homeData id direct
      ((s.giveL1 core id d true).settle id direct hint, .data d)
  | .dropCopy core =>
    let s := { s with cel := { s.cel with l1 := s.cel.l1.filter fun x => !(x.core == core && x.line == id && !x.modified) } }
    (s.settle id direct 0, .data 0)
  | .ownerEvict core m d =>
    if (s.homeLine id).owner = some core then
      let s := { s with cel := { s.cel with l1 := s.cel.l1.filter fun x => !(x.core == core && x.line == id) } }
      let s := if m then s.putData id direct d else s
      (s.settle id direct 0, .data d)
    else (s, .data 0)
  | .tileRead =>
    let s := if (s.homeLine id).st = .e then s.demote id direct else s
    (s.settle id direct hint, .data (s.homeData id direct))
  | .writeAtHome mask d =>
    let s := s.recallAll id direct
    let m := mergeLine mask (s.homeData id direct) d
    ((s.putData id direct m).settle id direct hint, .data m)
  | .fullLineWrite d =>
    let s := s.recallAll id direct
    ((s.putData id direct d).settle id direct hint, .data d)
  | .victim =>
    if (s.homeLine id).shelf.isSome then (s, .data 0)
    else if direct then ((s.recallAll id true).putHome id HomeLine.init, .data 0)
    else (match id with
      | .scratch _ _ => s.evict id
      | .window k _ => (if (s.homeLine id).hint = .normal then s.modCol k fun x => { x with evictions := x.evictions + 1 } else s).evict id, .data 0)

/-- The waits at a line are over once a request at it succeeds: it is not locked, and it is present (06 R193). -/
def State.waitOver (s : State) (id : LineId) : State :=
  let k := s.pressCol id
  if (s.col k).waiters.any fun w => w.2.2.1 == id then s.modCol k fun x => { x with waiters := x.waiters.filter fun w => w.2.2.1 != id } else s

/-- One request at a line's home (06 R184, Table 6-7). `set` is the line's set in a cache window. -/
def State.homeServe (s : State) (c : Nat) (id : LineId) (direct : Bool) (set hint : Nat) (ev : HomeEvent) : State × HomeAns :=
  let h := s.homeLine id
  match h.st with
  | .rl => match ev with
    | .victim => (s.modCnt (clusterOf (colNo id)) fun x => { x with defers := satAdd 0xFFFF x.defers 1 }, .locked)
    | .dropCopy _ => (s, .data 0)
    | .ownerEvict _ _ _ => (s, .data 0)
    | _ => (s, .locked)
  | .pz => match ev with
    | .fullLineWrite d =>
      let s := s.putHome id { h with st := .v, set := if s.evacLine id then s.evacSet id else h.set }
      let s := match id with
        | .window _ a => if direct then s else s.leavePoison a
        | .scratch _ _ => s
      ((s.putData id direct d).settle id direct hint, .data d)
    | .victim => (s.evict id, .data 0)
    | .writeAtHome _ _ => (s, .data 0)
    | .dropCopy _ => (s, .data 0)
    | .ownerEvict _ _ _ => (s, .data 0)
    | _ => (s, .poisoned)
  | .np =>
    match id with
    | .scratch _ _ =>
      match ev with
      | .victim => (s, .data 0)
      | .dropCopy _ => (s, .data 0)
      | .ownerEvict _ _ _ => (s, .data 0)
      | .fullLineWrite d =>
        match s.bringEvac id hint (some d) with
        | some s => (s, .data d)
        | none => (s.passOver (s.pressCol id) (s.evacSet id), .noWay)
      | _ =>
        match s.bringEvac id hint none with
        | some s => s.serve id direct hint ev
        | none => (s.passOver (s.pressCol id) (s.evacSet id), .noWay)
    | .window k a =>
      if direct then
        match ev with
        | .fullLineWrite _ => s.serve id direct hint ev
        | .victim => (s, .data 0)
        | _ => if s.poisoned a then (s, .poisoned) else s.serve id direct hint ev
      else
        match ev with
        | .victim => (s, .data 0)
        | .dropCopy _ => (s, .data 0)
        | .ownerEvict _ _ _ => (s, .data 0)
        | .fullLineWrite d =>
          match s.allocate c k a set hint .v 0 true d with
          | some s => (s, .data d)
          | none => (s.passOver k set, .noWay)
        | _ =>
          match s.fill c k a set hint with
          | none => (s.passOver k set, .noWay)
          | some s => if (s.homeLine id).st = .pz then (match ev with | .writeAtHome _ _ => (s, .data 0) | _ => (s, .poisoned)) else s.serve id direct hint ev
  | .v => s.serve id direct hint ev
  | .s => s.serve id direct hint ev
  | .e => s.serve id direct hint ev

/-- One request at a line's home, which ends the waits at the line when it succeeds and the line is not locked (06 R184, R193). -/
def State.homeStep (s : State) (c : Nat) (id : LineId) (direct : Bool) (set hint : Nat) (ev : HomeEvent) : State × HomeAns :=
  let r := s.homeServe c id direct set hint ev
  match r.2 with
  | .data _ => if (s.homeLine id).st = .rl then r else (r.1.waitOver id, r.2)
  | _ => r

/-- The stop of cluster cl serves its columns (01 R28, Table 1-3; 06 R203): its quadrant and the cellar have power, outside the deep floor. -/
def State.stopServes (s : State) (cl : Nat) : Bool :=
  s.pwr.stages.getD (cl / 12) .off == .up && s.pwr.stages.getD 4 .off == .up && !s.inDeep

/-- The ring stop that refuses a request at a line (01 R28): its column's, or that of the stack it would be filled from. -/
def State.refusingStop (s : State) (id : LineId) : Option RingStop :=
  let k := s.pressCol id
  if !s.stopServes (clusterOf k) then some (.cluster (clusterOf k))
  else
    match id with
    | .window _ a => if (s.homeLine id).st = .np ∧ a < s.tier2Size ∧ s.pwr.stages.getD 5 .off ≠ .up then some (.hbm (stackOf a)) else none
    | .scratch _ _ => none

/-! ### Pauses (06 R165, R196; 12 Table 12-3) -/

/-- Some channel or pseudo-channel may be paused. -/
def State.anyPause (s : State) : Bool := !s.mc.tests.isEmpty || s.cel.columns.any fun e => e.2.retrim || !e.2.failing.isEmpty

/-- Column k cannot be reached for now: the vertical channel that serves it, its own or the one it borrows, is under test, in a retrim, or has a
coupler to remap. -/
def State.colPaused (s : State) (k : Nat) : Bool :=
  let p := if (s.col k).borrowing then pairOf k else k
  (s.col p).retrim || !(s.col p).failing.isEmpty || s.underTest (.channel p) || s.underTest (.channel k)

/-- A line of tier 2 lies in a pseudo-channel under test. -/
def State.pcPaused (s : State) (a : Nat) : Bool := s.underTest (.pc (stackOf a) (pcOf a))

/-- A request at a line has to queue for a pause: of its column, or of the pseudo-channel that it would be filled from. -/
def State.linePaused (s : State) (id : LineId) : Bool :=
  s.anyPause && (s.colPaused (s.pressCol id) || (match id with
    | .window _ a => (s.homeLine id).st == .np && decide (a < s.tier2Size) && s.pcPaused a
    | .scratch _ _ => false))

/-- An access to a place has to queue for a pause. -/
def State.placePaused (s : State) : Place → Bool
  | .homed id _ _ _ _ => s.linePaused id
  | .flat sp k => s.anyPause && sp == .tier2 && s.pcPaused k
  | .absent => false
  | .outside => false

/-- A request held at its home until the line's lock closes or a way is free (06 R193, R194). -/
def State.holdReq (s : State) (id : LineId) (h : HeldReq) : State := s.modCol (s.pressCol id) fun x => { x with held := x.held ++ [h] }

/-! ### Accesses of any kind of place -/

/-- The data that stand at a place, whatever its state. -/
def State.placeLine (s : State) (p : Place) : Line :=
  match p with
  | .homed id _ direct _ _ => s.homeData id direct
  | .flat sp k => lineOf (s.read sp k 256)
  | .absent => 0
  | .outside => 0

/-- One whole line read at a place: its data or why not. A descriptor gives its own hint; other accesses use the map entry's (06 R174). -/
def State.readPlace (s : State) (c : Nat) (p : Place) (hint : Option Nat) : State × HomeAns :=
  match p with
  | .homed id _ direct set dflt => s.homeStep c id direct set (hint.getD dflt) .tileRead
  | .flat sp k =>
    if sp = .tier2 ∧ s.poisoned k then (s, .poisoned)
    else if sp = .tier0 ∧ (s.cor (k / 2 ^ 18)).badWords.any (fun w => decide (k % 2 ^ 18 / 8 ≤ w ∧ w < (k % 2 ^ 18 + 256) / 8)) then (s, .poisoned)
    else (s, .data (lineOf (s.read sp k 256)))
  | .absent => (s, .data 0)
  | .outside => (s, .poisoned)

/-- One whole line written at a place. -/
def State.writePlace (s : State) (c : Nat) (p : Place) (hint : Option Nat) (l : Line) : State × HomeAns :=
  match p with
  | .homed id _ direct set dflt => s.homeStep c id direct set (hint.getD dflt) (.fullLineWrite l)
  | .flat sp k =>
    let s := if sp = .tier2 then s.leavePoison k else s
    let s := if sp = .tier0 then
        s.modCor (k / 2 ^ 18) fun x => { x with badWords := x.badWords.filter fun w => !decide (k % 2 ^ 18 / 8 ≤ w ∧ w < (k % 2 ^ 18 + 256) / 8) }
      else s
    (s.write sp k (lineBytes l), .data l)
  | .absent => (s, .data 0)
  | .outside => (s, .data 0)

/-- Lines read one after another from address a; ends at the first line that cannot be had. -/
def State.readLines (s : State) (c : Nat) (mu hint : Option Nat) : Nat → Nat → List Byte → State × Option HomeAns × List Byte
  | 0, _, acc => (s, none, acc)
  | n + 1, a, acc =>
    match s.readPlace c (s.resolve c mu a) hint with
    | (s', .data l) => State.readLines s' c mu hint n (a + 256) (acc ++ lineBytes l)
    | (s', r) => (s', some r, acc)

/-- Bytes [a, a+n) of a module address range as host DMA or firmware reads it: each line through its home (06 Table 6-7). -/
def State.dmaRead (s : State) (c : Nat) (a n : Nat) : State × Option HomeAns × List Byte :=
  let first := a / 256 * 256
  let cnt := (a + n + 255) / 256 - a / 256
  let (s', e, bs) := s.readLines c none none cnt first []
  (s', e, slice bs (a - first) n)

/-- One line of a byte range written: bytes of `bs`, which starts at address a, that fall into the line at `la`. -/
def State.dmaLine (s : State) (c : Nat) (a la : Nat) (bs : List Byte) : State :=
  let lo := max a la
  let hi := min (a + bs.length) (la + 256)
  let mask : BitVec 256 := BitVec.ofNat 256 ((2 ^ (hi - la) - 1) - (2 ^ (lo - la) - 1))
  let data := lineOf (List.replicate (lo - la) 0 ++ (bs.drop (lo - a)).take (hi - lo))
  match s.resolve c none la with
  | .homed id _ direct set hint =>
    let ev : HomeEvent := if hi - lo = 256 then .fullLineWrite data else .writeAtHome mask data
    if s.linePaused id then s.holdReq id (.req ⟨c, id, hint, ev⟩)
    else
      match s.homeStep c id direct set hint ev with
      | (t, .locked) => t.holdReq id (.req ⟨c, id, hint, ev⟩)
      | (t, .noWay) => t.holdReq id (.req ⟨c, id, hint, ev⟩)
      | (t, _) => t
  | .flat sp k => let s := if sp = .tier2 ∧ hi - lo = 256 then s.leavePoison k else s
    s.write sp (k + (lo - la)) ((bs.drop (lo - a)).take (hi - lo))
  | .absent => s
  | .outside => s

/-- Bytes written at a module address (06 Table 6-7, write at home). -/
def State.dmaWrite (s : State) (c : Nat) (a : Nat) (bs : List Byte) : State :=
  if bs.isEmpty then s
  else (List.range ((a + bs.length + 255) / 256 - a / 256)).foldl (fun s i => s.dmaLine c a (a / 256 * 256 + i * 256) bs) s

/-! ### Whole lines at module addresses -/

/-- A tier-3 address. -/
def isTier3 (a : Nat) : Bool := decide (tier3Base ≤ a ∧ a < tier3Base + 2 ^ 44)

/-- Addresses of the lines of a range. -/
def lineAddrs (a n : Nat) : List Nat := (List.range (n / 256)).map fun i => a + 256 * i

/-- A line is under a reduction lock. -/
def State.lineLocked (s : State) (c a : Nat) : Bool :=
  match s.resolve c none a with
  | .homed id _ _ _ _ => (s.homeLine id).st == .rl
  | _ => false

/-- The fill of a line would find no way free in its set (06 R194). -/
def State.noWay (s : State) (c a : Nat) : Bool :=
  match s.resolve c none a with
  | .homed id _ direct set _ => s.lacksWay id direct set
  | _ => false

/-- A line as the DMA engine reads it, once nothing makes it wait; none when it is poisoned. -/
def State.takeLine (s : State) (c a : Nat) : State × Option Line :=
  match s.readPlace c (s.resolve c none a) none with
  | (t, .data l) => (t, some l)
  | (t, _) => (t, none)

/-- A line as the DMA engine writes it, once nothing makes it wait. -/
def State.storeLine (s : State) (c a : Nat) (l : Line) : State := (s.writePlace c (s.resolve c none a) none l).1

/-- A line of a range must be waited for: locked, without a way in its set, behind a pause, or of a caravan layer that is in no slot. -/
def State.mustWait (s : State) (c a : Nat) : Bool :=
  s.lineLocked c a || s.noWay c a || s.placePaused (s.resolve c none a) || s.resolve c none a == .absent

/-- The line that stands at a module address, whatever poison is on it: at its home, or in its tier. -/
def State.storedLine (s : State) (c a : Nat) : Line :=
  match s.resolve c none a with
  | .homed (.window k b) o direct set hint =>
    if (s.homeLine (.window k b)).st = .np then (s.tierLine b).1 else s.placeLine (.homed (.window k b) o direct set hint)
  | p => s.placeLine p

end Sys2Proof.Machine
end

