-- ==== Sys2Proof/Machine/Press.lean ====
section
/-! DEFINITION. The press: ordered and immediate operations at a line's home, cursors, locks and dropped micro-batches (06 R185 to
R194; 08 R265, R266, R268). -/

namespace Sys2Proof.Machine

open Sys2Proof

/-- Effect of an ordered operation on one word (06 Table 6-8): target t, contribution c. -/
def pressWord (op : PressOp) (t c : Word) : Word :=
  match op with
  | .fadd => fadd t c
  | .fmax => fmaxw t c
  | .fmin => fminw t c
  | .sumsq => ffma c c t
  | .iadd => t + c

/-- Effect of an immediate operation on one word (06 Table 6-8). -/
def immWord (op : ImmOp) (t c cmp : Word) : Word :=
  match op with
  | .add => t + c
  | .swap => c
  | .cas => if t = cmp then c else t
  | .and => t &&& c
  | .or => t ||| c

/-- A line with an ordered operation applied to the words of its mask. -/
def pressLine (op : PressOp) (mask : BitVec 64) (t c : Line) : Line :=
  (List.range 64).foldl (fun l i => if mask.getLsbD i then setLineWord l i (pressWord op (lineWord l i) (lineWord c i)) else l) t

/-- Some touched word is infinite or NaN. -/
def lineBad (mask : BitVec 64) (l : Line) : Bool := (List.range 64).any fun i => mask.getLsbD i && bad32 (lineWord l i)

/-- The roster of a tensor in the step of context c. -/
def State.roster (s : State) (c : Nat) (tensor : Word) : Option Roster :=
  (s.cx c).run.bind fun r => r.rosters.find? fun x => x.tensor == tensor

/-- The trained tensor whose reduced gradient carries an ID: its roster has no entries (08 R264). -/
def State.isReduced (s : State) (c : Nat) (tensor : Word) : Bool :=
  match (s.cx c).place with
  | some p => p.tensors.any fun t => t.id == tensor && !t.frozen
  | none => false

/-- Micro-batch μ has been dropped from the running step. -/
def StepRun.isDropped (r : StepRun) (mu : Nat) : Bool := r.dropped.any fun d => d.1 == mu

/-- A rank has left the wait of 08 R268: its notice is in, it has withdrawn, or the mask excludes it. -/
def Ctx.rankLeft (x : Ctx) (r : StepRun) (tensor : Word) (rank : Nat) : Bool :=
  !x.mask.members.contains rank || (r.trailers.any fun t => t.rank == rank && t.withdrawn)
    || (r.noticesIn.any fun n => n.coll && n.tensor == tensor && n.r == rank)

/-- The mask of the step the context stands at is known (09 R320): before that, a reduced line's cursor stands at no rank yet. -/
def Ctx.maskNow (x : Ctx) : Bool := x.mask.step == x.step && !x.mask.members.isEmpty

/-- The rank at which a reduced line's cursor stands: the lowest that has not left the wait. -/
def Ctx.rankCursor (x : Ctx) (r : StepRun) (tensor : Word) : Option Nat :=
  (List.range 8192).find? fun k => x.mask.members.contains k && !x.rankLeft r tensor k

/-- Position of a key in a roster of n entries, repeated for each micro-batch (06 R187). -/
def keyIndex (k : PressKey) (n : Nat) : Nat := k.mu * n + k.r

/-- Sub-key order (06 R186). -/
def keyLe (a b : Contribution) : Bool := decide (a.key.s1 < b.key.s1 ∨ (a.key.s1 = b.key.s1 ∧ a.key.s2 ≤ b.key.s2))

/-- Insertion by sub-key. -/
def keyInsert (x : Contribution) : List Contribution → List Contribution
  | [] => [x]
  | y :: r => if keyLe x y then x :: y :: r else y :: keyInsert x r

/-- Contributions in ascending sub-key; arrival order where sub-keys are equal. -/
def keySort (l : List Contribution) : List Contribution := l.foldr keyInsert []

/-- The finiteness flag cleared in the step of context c (02 R57). -/
def State.notFinite (s : State) (c : Nat) : State := s.modRun c fun r => { r with finite := false }

/-- One ordered operation applied at its home line (06 R185): the data, the record of what was applied (R191), and the finiteness
flag of a gradient accumulation in a step (02 R57). -/
def State.pressApply (s : State) (c : Contribution) : State :=
  let l := pressLine c.op c.mask (s.homeData c.line false) c.data
  let s := s.putData c.line false l
  let h := s.homeLine c.line
  let s := s.putHome c.line { h with lock := h.lock.map fun k =>
    if c.key.coll then { k with appliedRank := if k.appliedRank.contains c.key.r then k.appliedRank else k.appliedRank ++ [c.key.r] }
    else { k with appliedMu := if k.appliedMu.contains c.key.mu then k.appliedMu else k.appliedMu ++ [c.key.mu] } }
  if c.inStep then
    let s := if c.key.coll then s
      else s.modRun c.ctx fun r => { r with applied := if r.applied.contains c.key.mu then r.applied else r.applied ++ [c.key.mu] }
    if c.op = .fadd ∧ lineBad c.mask l then s.notFinite c.ctx else s
  else s

/-! ### Locks and cursors -/

/-- The waiting contributions of a line. -/
def State.waitingAt (s : State) (id : LineId) : List Contribution :=
  (s.col (s.pressCol id)).pending.filter fun c => c.line == id

/-- The waiting contributions of a line kept only where p holds. -/
def State.keepWaiting (s : State) (id : LineId) (p : Contribution → Bool) : State :=
  s.modCol (s.pressCol id) fun x => { x with pending := x.pending.filter fun c => c.line != id || p c }

/-- An immediate operation at a line (06 R192, Table 6-7, write at home): the old value goes to the thread's register. A line in RL
holds it until the close; a poisoned line faults its strand elsewhere. -/
def State.immApply (s : State) (o : ImmReq) : State :=
  let s := s.recallAll o.line false
  let d := s.homeData o.line false
  let old := lineWord d o.word
  let s := s.putData o.line false (setLineWord d o.word (immWord o.op old o.c o.cmp))
  let s := s.settle o.line false 0
  let key := o.lane * 32 + o.d.toNat
  s.modCor o.at_.core fun k => { k with strands := tmod none k.strands o.at_.strand fun t => t.map fun t =>
    { t with waiting := t.waiting.filter fun l => l != o.lane, regs := if o.d = 0 then t.regs else tset none t.regs key (some old) } }

/-- The set of a window line in context c's map; 0 for a scratch line. -/
def State.setFor (s : State) (c : Nat) (id : LineId) : Nat :=
  match id with
  | .scratch _ _ => if s.evacLine id then s.evacSet id else 0
  | .window _ a => match s.resolve c none a with
    | .homed _ _ _ set _ => set
    | _ => 0

/-- One held request tried again: it is served, or goes on waiting, for a pause too. An immediate operation whose line is absent or poisoned by now arrives anew. -/
def State.tryHeld (s : State) (h : HeldReq) : State :=
  match h with
  | .req r =>
    if s.linePaused r.line then s.holdReq r.line h
    else match s.homeStep r.ctx r.line (s.isDirect r.line) (s.setFor r.ctx r.line) r.hint r.ev with
    | (t, .locked) => t.holdReq r.line h
    | (_, .noWay) => s.holdReq r.line h
    | (t, _) => t
  | .imm o =>
    if s.linePaused o.line then s.holdReq o.line h
    else match (s.homeLine o.line).st with
    | .rl => s.holdReq o.line h
    | .np => { s with cel := { s.cel with sentImm := o :: s.cel.sentImm } }
    | .pz => { s with cel := { s.cel with sentImm := o :: s.cel.sentImm } }
    | _ => s.immApply o

/-- The requests held at a column tried in arrival order (06 R193, R194). -/
def State.serveColumn (s : State) (k : Nat) : State := (s.col k).held.foldl State.tryHeld (s.modCol k fun x => { x with held := [] })

/-- A lock of the column that serves a line has closed: the waits at the line are over, and the requests held there are tried. -/
def State.serveHeld (s : State) (id : LineId) : State :=
  (s.modCol (s.pressCol id) fun x => { x with waiters := x.waiters.filter (fun w => w.2.2.1 != id) }).serveColumn (s.pressCol id)

/-- A lock closes (06 R190): contributions that still wait are discarded, the line becomes V with d set, and what waited for it goes
on. -/
def State.closeLock (s : State) (id : LineId) : State :=
  let h := s.homeLine id
  if h.st ≠ .rl then s
  else
    let s := s.keepWaiting id fun _ => false
    let s := s.putHome id { h.alone with st := .v, dirty := true, lock := none }
    s.serveHeld id

/-- A line's cursor is done (06 R190): past the last entry of the last micro-batch, or past every rank of the mask. -/
def State.cursorDone (s : State) (k : Lock) : Bool :=
  match (s.cx k.ctx).run with
  | none => true
  | some r =>
    match s.roster k.ctx k.tensor with
    | some ro =>
      if ro.entries.isEmpty then (s.cx k.ctx).maskNow && ((s.cx k.ctx).rankCursor r k.tensor).isNone
      else decide (r.mcount * ro.entries.length ≤ k.cursor)
    | none => (s.cx k.ctx).maskNow && ((s.cx k.ctx).rankCursor r k.tensor).isNone

/-- The cursor of a rostered line moved as far as notices allow (06 R187 step 4, R191): entries of a dropped micro-batch are skipped,
an entry whose notice is in has its waiting contributions applied in ascending sub-key. -/
def State.moveCursor (s : State) (id : LineId) (n : Nat) : Nat → State
  | 0 => s
  | fuel + 1 =>
    match (s.homeLine id).lock with
    | none => s
    | some k =>
      match (s.cx k.ctx).run with
      | none => s
      | some r =>
        let mu := k.cursor / n
        let bump (s : State) : State := s.putHome id { s.homeLine id with lock := (s.homeLine id).lock.map fun l => { l with cursor := l.cursor + 1 } }
        if r.mcount ≤ mu then s
        else if r.isDropped mu then
          (bump (s.keepWaiting id fun c => c.key.mu != mu || c.key.coll)).moveCursor id n fuel
        else if r.noticesIn.any fun x => !x.coll && x.tensor == k.tensor && x.mu == mu && x.r == k.cursor % n then
          let mine := keySort ((s.waitingAt id).filter fun c => !c.key.coll && keyIndex c.key n == k.cursor)
          let s := s.keepWaiting id fun c => c.key.coll || keyIndex c.key n != k.cursor
          (bump (mine.foldl (fun s c => s.pressApply c) s)).moveCursor id n fuel
        else s

/-- The rank cursor of a reduced line (08 R268): contributions of the rank at the cursor apply, in ascending rank. -/
def State.moveRanks (s : State) (id : LineId) : List Nat → State
  | [] => s
  | rank :: rest =>
    match (s.homeLine id).lock with
    | none => s
    | some k =>
      match (s.cx k.ctx).run with
      | none => s
      | some r =>
        let mine := keySort ((s.waitingAt id).filter fun c => c.key.coll && c.key.r == rank)
        let s := s.keepWaiting id fun c => !c.key.coll || c.key.r != rank
        let s := mine.foldl (fun s c => s.pressApply c) s
        if (s.cx k.ctx).rankLeft r k.tensor rank then s.moveRanks id rest else s

/-- A line's cursor brought up to date; a held close takes effect when the cursor is done (06 R190). -/
def State.advance (s : State) (id : LineId) : State :=
  match (s.homeLine id).lock with
  | none => s
  | some k =>
    if !k.inStep then s
    else
      let n := ((s.roster k.ctx k.tensor).map fun r => r.entries.length).getD 0
      let s := if n = 0 then (if (s.cx k.ctx).maskNow then s.moveRanks id (s.cx k.ctx).mask.members else s)
        else s.moveCursor id n (n * (((s.cx k.ctx).run.map fun r => r.mcount).getD 0) + 1)
      match (s.homeLine id).lock with
      | none => s
      | some k => if k.closeHeld && s.cursorDone k then s.closeLock id else s

/-- Lines under a reduction lock that satisfy p, in address order of the list. -/
def State.lockedLines (s : State) (p : Lock → Bool) : List LineId :=
  s.cel.lines.filterMap fun e => match e.2.lock with
    | some k => if e.2.st == .rl && p k then some e.1 else none
    | none => none

/-- Every locked line of context c brought up to date. -/
def State.advanceAll (s : State) (c : Nat) : State :=
  (s.lockedLines fun k => k.ctx == c).foldl (fun s id => s.advance id) s

/-- A close of a line's lock by a segment (06 R190): at once when the cursor is done, else held at the line. -/
def State.closeAtCursor (s : State) (id : LineId) : State :=
  match (s.homeLine id).lock with
  | none => s
  | some k =>
    if !k.inStep || s.cursorDone k then s.closeLock id
    else s.putHome id { s.homeLine id with lock := some { k with closeHeld := true } }

/-! ### Dropped micro-batches -/

/-- Legs that carry μ remain in the sequence or in flight (08 R265). -/
def State.muOpen (s : State) (c mu : Nat) : Bool :=
  (((s.cx c).run.map fun r => r.todo).getD []).any (fun l => l.mu == some mu) || s.legs.any fun l => l.ctx == c && l.inStep && l.inst.mu == some mu

/-- Micro-batch μ dropped from the step of context c (08 R265, R266; 06 R191): its legs leave the sequence, its stash slots and
row-engine blocks are freed, cursors skip its entries, its waiting contributions are discarded, and the member withdraws if any of
its contributions was applied. -/
def State.dropMu (s : State) (c mu cause : Nat) : State :=
  match (s.cx c).run with
  | none => s
  | some r =>
    if r.isDropped mu || !s.muOpen c mu then s
    else
      let s := s.modRun c fun r => { r with
        dropped := r.dropped ++ [(mu, cause)]
        withdrawn := r.withdrawn || r.applied.contains mu
        todo := r.todo.filter fun l => l.mu != some mu }
      let s := s.modCx c fun x => { x with stash := x.stash.filter fun t => t.mu != mu }
      let s := (List.range 48).foldl (fun s k => s.modClu k fun x => { x with blocks := x.blocks.filter fun b => !(b.ctx == c && b.mu == mu) }) s
      let keep (l : List Contribution) : List Contribution := l.filter fun x => !(x.ctx == c && x.inStep && !x.key.coll && x.key.mu == mu)
      let s := { s with cel := { s.cel with sent := keep s.cel.sent } }
      let s := (s.cel.columns.map Prod.fst).foldl (fun s k => s.modCol k fun x => { x with pending := keep x.pending, refused := keep x.refused }) s
      s.advanceAll c

/-- A leg ends with a failure that drops its micro-batch (08 R265, Table 8-5). -/
def State.failLeg (s : State) (c l status detail cause : Nat) : State :=
  let mu := s.legMu c l
  let st := (s.legOf c l).map fun g => g.inStep
  let s := s.endLeg c l status detail
  match st, mu with
  | some true, some m => s.dropMu c m cause
  | _, _ => s

/-- The legs of context c stop at the next clock (03 R88): their output tiles in flight are discarded and they are incomplete. -/
def State.stopLegs (s : State) (c : Nat) : State := (s.legs.filter fun g => g.ctx == c).foldl (fun s g => s.failLeg c g.id 0x0409 0 6) s

/-- The legs of context c stop for good. Each gives its leg receipt, and a LEG waybill outside a step ends with its leg (11 R381, R385). A sweep leg
that has failed for good gave its receipt then (08 Table 8-5). -/
def State.cutLegs (s : State) (c : Nat) : State :=
  let s := s.stopLegs c
  (s.legs.filter fun g => g.ctx == c).foldl (fun s g =>
    let s := if g.status = 0x0604 then s else s.legReceiptOf g g.status g.detail
    match g.wb with
    | some w => s.finish w g.status g.detail 0
    | none => s) s

/-! ### Arrival -/

/-- A line's lock taken by its first ordered operation (06 R190, Table 6-7): NP fills first; L1 copies are invalidated. `false` when no
way is free. -/
def State.takeLock (s : State) (c : Contribution) (set : Nat) : Option State :=
  let h := s.homeLine c.line
  if h.st = .rl then some s
  else
    let filled := if h.st = .np then s.bring c.ctx c.line set c.hint else some s
    filled.map fun s =>
      if (s.homeLine c.line).st = .pz then s
      else
        let s := s.recallAll c.line false
        let h := s.homeLine c.line
        let lk : Lock := ⟨c.ctx, c.tensor, c.inStep, c.leg, 0, false, [], []⟩
        let s := s.putHome c.line { h.alone with st := .rl, lock := some lk }
        (s.waitOver c.line).advance c.line

/-- The pending area of a column (06 R188). -/
def pendingRoom : Nat := 1024

/-- A leg waits at a line of a column (06 R193). -/
def State.addWaiter (s : State) (c l : Nat) (id : LineId) : State :=
  s.modCol (s.pressCol id) fun x => { x with
    waiters := if x.waiters.any fun w => w.1 == c && w.2.1 == l && w.2.2.1 == id then x.waiters else x.waiters ++ [(c, l, id, s.now)] }

/-- A leg waits for a way of a set (06 R194): the locked lines passed over count when the wait begins. -/
def State.waitWay (s : State) (c l : Nat) (id : LineId) (set : Nat) : State :=
  if (s.col (s.pressCol id)).waiters.any fun w => w.1 == c && w.2.1 == l && w.2.2.1 == id then s
  else (s.passOver (s.pressCol id) set).addWaiter c l id

/-- A contribution kept in the pending area, with the peak counter (06 Table 6-15). -/
def State.hold (s : State) (k : Nat) (c : Contribution) : State :=
  let s := s.modCol k fun x => { x with pending := x.pending ++ [c] }
  s.modCnt (clusterOf k) fun x => { x with pendingPeak := max x.pendingPeak (s.col k).pending.length }

/-- A contribution refused, in the counter of a cluster (06 Table 6-15): its home's, and its source's (R188; log 105). -/
def State.countRefusal (s : State) (cl : Nat) : State := s.modCnt cl fun x => { x with refusals := satAdd 0xFFFF x.refusals 1 }

/-- An ordered contribution at a locked line of a step (06 R187, R188; 09 R318): applied at the cursor, kept, refused, or an overflow. -/
def State.placeContribution (s : State) (c : Contribution) : State :=
  let k := s.pressCol c.line
  let full := decide (pendingRoom ≤ (s.col k).pending.length)
  match (s.homeLine c.line).lock, (s.cx c.ctx).run with
  | some lk, some r =>
    let n := ((s.roster c.ctx c.tensor).map fun x => x.entries.length).getD 0
    let order : Ordering :=
      if n = 0 then
        if !(s.cx c.ctx).maskNow then .gt
        else
          match (s.cx c.ctx).rankCursor r c.tensor with
          | none => .lt
          | some cur => compare c.key.r cur
      else compare (keyIndex c.key n) lk.cursor
    match order with
    | .lt => s
    | .eq =>
      if c.tile then s.pressApply c
      else if full then
        let s := s.modCnt (clusterOf k) fun x => { x with overflows := satAdd 0xFF x.overflows 1 }
        s.failLeg c.ctx c.leg 0x0403 k 3
      else s.hold k c
    | .gt =>
      if full then (s.countRefusal (clusterOf k)).modCol k fun x => { x with refused := x.refused ++ [c] }
      else s.hold k c
  | _, _ => s

/-- An ordered contribution that finds no way for its line (06 R194): it stays on its way, and its leg waits at the line. -/
def State.noRoom (s : State) (c : Contribution) (set : Nat) : State :=
  let s := { s with cel := { s.cel with sent := if s.cel.sent.contains c then s.cel.sent else s.cel.sent ++ [c] } }
  s.waitWay c.ctx c.leg c.line set

/-- An ordered contribution at its home column (06 R187 to R191). `set` is the line's set in a cache window. -/
def State.pressArrive (s : State) (c : Contribution) (set : Nat) : State :=
  let rostered := (s.roster c.ctx c.tensor).isSome || (c.key.coll && s.isReduced c.ctx c.tensor)
  if c.inStep then
    match (s.cx c.ctx).run with
    | none => s
    | some r =>
      if !rostered then s.failLeg c.ctx c.leg 0x0405 c.tensor.toNat 1
      else if !c.key.coll && r.isDropped c.key.mu then s
      else
        match s.takeLock c set with
        | none => s.noRoom c set
        | some s => if (s.homeLine c.line).st = .pz then s else s.placeContribution c
  else
    match s.takeLock c set with
    | none => s.noRoom c set
    | some s =>
      let s := s.modLeg c.ctx c.leg fun g => { g with orderDep := true }
      if (s.homeLine c.line).st = .pz then s else s.pressApply c

/-- The home line of a press target (06 R479): location 2, or a cache or scratch window of the context's map. -/
def State.pressTarget (s : State) (c core loc a : Nat) : Option LineId :=
  if (stashAddr loc a).isSome ∨ (caravanAddr loc a).isSome then none
  else
    match s.placeOf c none core loc a with
    | .homed id _ direct _ _ => if direct then none else some id
    | _ => none

end Sys2Proof.Machine
end

