-- ==== Sys2Proof/Machine/Tiles.lean ====
section
/-! DEFINITION. Tiles: format (07 R224 to R226), elements with their block scales (02 R44 to R52), conversion of a tile's values
(02 R35 to R43, R50, R51), and the tile-valid check (07 R227). A tile is taken as one little-endian number. -/

namespace Sys2Proof.Machine

open Sys2Proof

/-! ### Header fields (07 Table 7-8) -/

/-- fmt. -/
def hdrFmt (x : Nat) : Nat := x % 16
/-- bsize. -/
def hdrBsize (x : Nat) : Nat := (x >>> 4) % 4
/-- state: 3 reads as poisoned. -/
def hdrState (x : Nat) : Nat := (x >>> 6) % 4
/-- carry. -/
def hdrCarry (x : Nat) : Bool := (x >>> 8) % 2 == 1
/-- tensor_id. -/
def hdrTensor (x : Nat) : Nat := (x >>> 32) % 2 ^ 32
/-- tile_index. -/
def hdrIndex (x : Nat) : Nat := (x >>> 64) % 2 ^ 32
/-- next_k. -/
def hdrNextK (x : Nat) : Nat := (x >>> 96) % 2 ^ 32
/-- step. -/
def hdrStep (x : Nat) : Nat := (x >>> 128) % 2 ^ 64

/-- A header line (07 Table 7-8). -/
def mkHeader (fmt bsize state : Nat) (carry regen : Bool) (tensor index nextK step : Nat) : Line :=
  pack 2048 [(0, 4, fmt), (4, 2, bsize), (6, 2, state), (8, 1, b2n carry), (9, 1, b2n regen), (32, 32, tensor), (64, 32, index),
    (96, 32, nextK), (128, 64, step)]

/-- Lines of a tile. -/
def tileLines (f : Nat) : Nat := tileBytes f / 256

/-! ### Reading elements -/

/-- Elements of a block by block-size code (02 R48). -/
def blockSize (code : Nat) : Nat := 16 * 2 ^ code

/-- The scale byte of element i of a scaled tile: blocks are consecutive in row-major order for every size (02 R47). -/
def scaleByte (x i : Nat) : Nat := (x >>> (2048 + 8 * (i / blockSize (hdrBsize x)))) % 256

/-- The raw bits of element i (row × 64 + column) of a tile in format f (07 R225, 02 R34). -/
def rawElem (x f i : Nat) : Nat := (x >>> (2048 * leadLines f + i * fmtWidth f)) % 2 ^ fmtWidth f

/-- The exact value of raw bits in a format, without scale. -/
def rawValue (f raw : Nat) : FVal :=
  match ffmt f with
  | some g => g.decode raw
  | none => FVal.ofInt (sintOf (fmtWidth f) raw)

/-- The exact value of element i of a tile in format f, block scale included (02 R35, R52). -/
def elemValue (x f i : Nat) : FVal :=
  let v := rawValue f (rawElem x f i)
  if isScaled f then
    match e8m0 (scaleByte x i) with
    | some e => v.scale e
    | none => .nan
  else v

/-- Element i as FP32 (02 R46): rounded to nearest even; exact where the value is an FP32 value. -/
def elem32 (x f i : Nat) : Word := to32 (elemValue x f i)

/-- Element index with the optional transposition of the tile (03 Table 3-2). -/
def elemAt (trans : Bool) (r c : Nat) : Nat := if trans then c * 64 + r else r * 64 + c

/-! ### Writing elements -/

/-- The maximum of |v| as an exact value; `none` with an infinity or NaN. -/
def amax : List FVal → Option (Nat × Int)
  | [] => some (0, 0)
  | v :: r => match v, amax r with
    | .fin _ m e, some (m', e') =>
      some (match (FVal.fin false m e).cmp (.fin false m' e') with | some .gt => (m, e) | _ => (m', e'))
    | _, _ => none

/-- A block's scale exponent (02 R50): NAN, ZERO or a number. -/
inductive ScaleExp where
  | nan
  | zero
  | exp (e : Int)
deriving DecidableEq, Repr

/-- emax of 02 R50. -/
def emaxOf (f : Nat) : Int := match f with | 6 => 8 | 7 => 15 | 8 => 4 | _ => 2

/-- The largest finite value of a scaled format is the IEEE-style largest in the formats that keep infinities (02 Table 2-2). -/
def scaledFmt (f : Nat) : FFmt := (ffmt f).getD fp32

/-- scale_exp of 02 R50. -/
def scaleExp (f : Nat) (vs : List FVal) : ScaleExp :=
  match amax vs with
  | none => .nan
  | some (m, e) =>
    if m = 0 then .zero
    else
      let e0 := max ((Nat.log2 m : Int) + e - emaxOf f) (-127)
      let (r, q) := (scaledFmt f).round .near m (e - e0)
      .exp (if (scaledFmt f).tooBig r q then e0 + 1 else e0)

/-- block_ok of 02 R50 over the scale exponents of the 16-element sub-blocks of a block. -/
def blockOk (tol : Nat) (es : List ScaleExp) : Bool :=
  let xs : List Int := es.filterMap fun e => match e with | .exp x => some x | _ => none
  if es.contains .nan then true
  else match xs with
    | [] => true
    | x :: r => decide (r.foldl max x - r.foldl min x ≤ (tol : Int))

/-- The block-size code a tile takes (02 R49, R50). -/
def chooseBsize (field tol : Nat) (subs : List ScaleExp) : Nat :=
  if field ≠ 0 then field - 1
  else
    let ok (n : Nat) : Bool := (chunks n 256 subs).all (blockOk tol)
    if ok 8 then 3 else if ok 4 then 2 else if ok 2 then 1 else 0

/-- How an output converts: format, saturate flag (already clear for a gradient), block-size field, tolerance, and the draw of
domain 1 for element number i of the tile when stochastic rounding is selected (02 R37, R51). -/
structure Conv where
  fmt   : Nat
  sat   : Bool
  bsize : Nat
  tol   : Nat
  sr    : Option (StreamKey × (Nat → Nat))

/-- The rounding mode of element i. -/
def Conv.mode (cv : Conv) (i : Nat) : RMode :=
  match cv.sr with
  | none => .near
  | some (k, e) => .stoch (draw16 k 1 (e i) 0)

/-- A converted tile: scale bytes, element number, block-size code, NaN inputs turned to integers, and whether something
infinite or NaN was written. -/
structure OutTile where
  scales : List Nat
  elems  : Nat
  bsize  : Nat
  nans   : Nat
  bad    : Bool
deriving DecidableEq, Repr

/-- Packed elements of width w. -/
def packElems (w : Nat) : List Nat → Nat
  | [] => 0
  | x :: r => x % 2 ^ w + 2 ^ w * packElems w r

/-- Elements of one block of a scaled format, numbered from i (02 R50). -/
def scaledElems (cv : Conv) (s : ScaleExp) : Nat → List FVal → List Nat
  | _, [] => []
  | i, v :: r =>
    (match s with
      | .nan => 0
      | .zero => (scaledFmt cv.fmt).bits (match v with | .fin neg _ _ => neg | _ => false) 0 0
      | .exp e => (scaledFmt cv.fmt).encode (cv.mode i) true (v.scale (-e))) :: scaledElems cv s (i + 1) r

/-- Scale byte of a block (02 R50). -/
def scaleCode : ScaleExp → Nat
  | .nan => 0xFF
  | .zero => 0
  | .exp e => (e + 127).toNat

/-- Elements of unscaled formats, numbered from i: floating point by 02 R35 to R43, integers by R37 and Table 2-4. -/
def plainElems (cv : Conv) : Nat → List FVal → List Nat
  | _, [] => []
  | i, v :: r =>
    (match ffmt cv.fmt with
      | some g => g.encode (cv.mode i) cv.sat v
      | none => intBits (fmtWidth cv.fmt) (toIntFmt (fmtWidth cv.fmt) v)) :: plainElems cv (i + 1) r

/-- A block sequence of a scaled format from element number i. -/
def scaledBlocks (cv : Conv) (n : Nat) : Nat → List (List FVal) → List (ScaleExp × List Nat)
  | _, [] => []
  | i, b :: r => let s := scaleExp cv.fmt b; (s, scaledElems cv s i b) :: scaledBlocks cv n (i + n) r

/-- The conversion of a tile's 4,096 values, each rounded once (02 R35 to R43, R50, R51). -/
def convertTile (cv : Conv) (vs : List FVal) : OutTile :=
  if isScaled cv.fmt then
    let code := chooseBsize cv.bsize cv.tol ((chunks 16 256 vs).map (scaleExp cv.fmt))
    let n := blockSize code
    let bl := scaledBlocks cv n 0 (chunks n 256 vs)
    ⟨bl.map fun b => scaleCode b.1, packElems (fmtWidth cv.fmt) (bl.flatMap Prod.snd), code, 0, bl.any fun b => b.1 == .nan⟩
  else
    let es := plainElems cv 0 vs
    let nan := if isIntFmt cv.fmt then (vs.filter fun v => v == .nan).length else 0
    let bad := match ffmt cv.fmt with
      | some g => es.any fun e => (g.decode e).bad
      | none => false
    ⟨[], packElems (fmtWidth cv.fmt) es, 0, nan, bad⟩

/-- A whole tile as a number: header, scale line, elements. -/
def tileNum (hdr : Line) (f : Nat) (o : OutTile) : Nat :=
  hdr.toNat + 2 ^ 2048 * (packElems 8 o.scales) + o.elems * 2 ^ (2048 * leadLines f)

/-- Line n of a tile given as a number. -/
def numLine (x n : Nat) : Line := BitVec.ofNat 2048 (x >>> (2048 * n))

/-! ### The tile-valid check (07 R227) -/

/-- What a read of an input tile finds. -/
inductive TileRes where
  | ok (x : Nat)
  | missing
  | regen
  | locked (line : LineId)
  | paused
  | poisoned
  | wrongFmt
deriving DecidableEq, Repr

/-- Stash tile of a slot, micro-batch and offset that is where a core can read it (05 R151, R156). -/
def State.stashArrived (s : State) (c slot mu off : Nat) : Bool :=
  (s.cx c).stash.any fun t => t.slot == slot && t.mu == mu && t.off == off && (!t.spilled || t.fetched)

/-- The tile at an offset of a caravan layer is in a slot: the whole layer has arrived, or this tile has (07 R238). -/
def State.caravanHere (s : State) (c layer off : Nat) : Bool :=
  match (s.caravanSlot c layer).bind fun i => tget none (s.cx c).car.slots i, (s.carTable c)[layer]? with
  | some v, some e => v.full || v.tiles.contains (off / tileBytes e.fmt)
  | _, _ => false

/-- No fill of the tile into the place being read is in progress, and the place holds one (07 R227 condition 1). -/
def State.tileHere (s : State) (c : Nat) (mu : Option Nat) (loc a : Nat) : Bool :=
  match stashAddr loc a, caravanAddr loc a with
  | some (slot, off), _ => match mu with
    | some m => s.stashArrived c slot m off
    | none => false
  | none, some (layer, off) => s.caravanHere c layer off
  | none, none => true

/-- The lines of a tile from line number i on: the number they form, whether some line is poisoned, and a line found locked. -/
def State.tileScan (s : State) (c : Nat) (mu : Option Nat) (core loc a : Nat) (hint : Option Nat) : Nat → Nat → Nat → Bool → State × Nat × Bool × Option LineId
  | 0, _, x, bad => (s, x, bad, none)
  | n + 1, i, x, bad =>
    let p := s.placeOf c mu core loc (a + 256 * i)
    let q := s.readPlace c p hint
    match q.2 with
    | .data l => State.tileScan q.1 c mu core loc a hint n (i + 1) (x + l.toNat * 2 ^ (2048 * i)) bad
    | .poisoned => State.tileScan q.1 c mu core loc a hint n (i + 1) x true
    | .locked => (q.1, x, bad, some (match p with | .homed id _ _ _ _ => id | _ => .scratch core 0))
    | .noWay => (q.1, x, bad, some (match p with | .homed id _ _ _ _ => id | _ => .scratch core 0))

/-- A line of a tile's place is behind a pause (12 R416, 06 R165). -/
def State.tilePaused (s : State) (c : Nat) (mu : Option Nat) (core loc a n : Nat) : Bool :=
  s.anyPause && (List.range n).any fun i => s.placePaused (s.placeOf c mu core loc (a + 256 * i))

/-- A tile read at a place by a core, with the check of 07 R227: conditions in order, `floor` the least step. -/
def State.readTile (s : State) (c : Nat) (mu : Option Nat) (core loc a f : Nat) (hint : Option Nat) (floor : Nat) : State × TileRes :=
  if !s.tileHere c mu loc a then (s, .missing)
  else if s.tilePaused c mu core loc a (tileLines f) then (s, .paused)
  else
    let bad := if (caravanAddr loc a).isSome then TileRes.regen else .poisoned
    match s.readPlace c (s.placeOf c mu core loc a) hint with
    | (s, .poisoned) => (s, bad)
    | (s, .data h) =>
      let x := h.toNat
      if hdrStep x < floor then (s, .missing)
      else if hdrState x = 0 then (s, .missing)
      else if hdrState x ≥ 2 then (s, bad)
      else
        match s.tileScan c mu core loc a hint (tileLines f - 1) 1 x false with
        | (s, _, _, some id) => (s, .locked id)
        | (s, _, true, none) => (s, bad)
        | (s, x, false, none) => if hdrFmt x ≠ f then (s, .wrongFmt) else (s, .ok x)
    | (s, _) => (s, .locked (match s.placeOf c mu core loc a with | .homed id _ _ _ _ => id | _ => .scratch core 0))

/-- The floor of 07 R227: the context's step for stash tiles and carry tiles, 0 for every other. -/
def State.floorOf (s : State) (c loc a : Nat) (carry : Bool) : Nat := if carry || (stashAddr loc a).isSome then (s.cx c).step else 0

/-- Lines of a tile number written one after another at a place, from line i. -/
def State.putLines (s : State) (c : Nat) (mu : Option Nat) (core loc a : Nat) (hint : Option Nat) (x : Nat) : Nat → Nat → State
  | 0, _ => s
  | n + 1, i =>
    ((s.writePlace c (s.placeOf c mu core loc (a + 256 * i)) hint (numLine x i)).1).putLines c mu core loc a hint x n (i + 1)

/-- Why a write at a place has to wait: a pause, a line under a lock (06 R193), or one that is not present where no way is free (R194). -/
def State.writeWaits (s : State) (p : Place) : Option HaltWhy :=
  if s.placePaused p then some .waits
  else
    match p with
    | .homed id _ direct set _ => if (s.homeLine id).st = .rl ∨ s.lacksWay id direct set then some (.locked id) else none
    | _ => none

/-- Why the write of a tile has to wait: for the first of its lines that does. -/
def State.lockedIn (s : State) (c : Nat) (mu : Option Nat) (core loc a n : Nat) : Option HaltWhy :=
  (List.range n).findSome? fun i => s.writeWaits (s.placeOf c mu core loc (a + 256 * i))

/-- Sum of the bytes of stash tiles that satisfy p. -/
def stashSum (l : List StashTile) (p : StashTile → Bool) : Nat := ((l.filter p).map fun t => t.bytes).sum

/-- Use of the saddlebags recorded: peak and largest spill, in bytes (05 Table 5-6). -/
def Ctx.notePeak (x : Ctx) : Ctx :=
  { x with stashPeak := max x.stashPeak (stashSum x.stash fun _ => true), spillPeak := max x.spillPeak (stashSum x.stash fun t => t.spilled) }

/-- The bytes of context x's saddlebag area (05 R151): none without a window that has the stash bit. -/
def Ctx.areaSize (x : Ctx) : Nat := match x.stashEntry with
  | some e => min (2 ^ 20 * x.latched.areaMib) (4096 * e.pages)
  | none => 0

/-- A place of n bytes in the saddlebag area: the lowest that no tile holds (05 R151). DESIGN CHOICE (log 12). -/
def Ctx.areaRoom (x : Ctx) (n : Nat) : Option Nat :=
  let held := x.stash.filterMap fun t => t.area.map fun a => (a, a + t.bytes)
  let fits (a : Nat) : Bool := decide (a + n ≤ x.areaSize) && held.all fun h => decide (a + n ≤ h.1 ∨ h.2 ≤ a)
  (((0 :: held.map Prod.snd).filter fits).foldl (fun m a => some (match m with | some b => min a b | none => a)) none)

/-- A stash tile takes its space as it is written (05 R151): the area while it has room, then HBM. `recomputed` marks a tile in the
recompute space of R155. DESIGN CHOICE (log 12): a tile for which neither the area nor the quota has room is spilled past the quota. -/
def State.takeStash (s : State) (c slot mu off bytes : Nat) (recomputed : Bool) : State :=
  let x := s.cx c
  if x.stash.any fun t => t.slot == slot && t.mu == mu && t.off == off then s
  else
    let area := if recomputed then none else x.areaRoom bytes
    let spilled := !recomputed && area.isNone
    let s := s.modCx c fun x => { x with stash := x.stash ++ [⟨slot, mu, off, bytes, spilled, false, recomputed, area⟩] }
    let s := if spilled then s.modRun c fun r => { r with spilled := tmod 0 r.spilled mu (· + bytes) } else s
    s.modCx c Ctx.notePeak

/-- A tile written in the order of 07 R228 (header with state 0, lines, header): one step here, so the final header alone is stored. -/
def State.writeTile (s : State) (c : Nat) (mu : Option Nat) (core loc a : Nat) (hint : Option Nat) (f x : Nat) : State :=
  let s := match stashAddr loc a, mu with
    | some (slot, off), some m =>
      s.takeStash c slot m off (tileBytes f) false
    | _, _ => s
  s.putLines c mu core loc a hint x (tileLines f) 0

/-! ### Filling a caravan slot (07 R238, R244) -/

/-- The caravan entry of a layer. -/
def State.carEntry (s : State) (c layer : Nat) : Option CaravanEntry := ((s.carTable c)[layer]?).bind fun e => if e.fmt = 0 then none else some e

/-- The module address of a byte of a caravan layer (07 R234). -/
def apertureAt (c layer off : Nat) : Nat := 0xF00000000000 + c * 2 ^ 40 + layer * 2 ^ 30 + off

/-- A tile's header line with state 2 (07 Table 7-8). -/
def poisonedHeader (h : Line) : Line := (h &&& ~~~(BitVec.ofNat 2048 0xC0)) ||| BitVec.ofNat 2048 0x80

/-- A tile has its copy in its layer's slot, good or poisoned. -/
def State.tileFilled (s : State) (c layer t : Nat) : State :=
  s.modCx c fun x => { x with car := { x.car with slots := x.car.slots.map fun (e : Nat × Option CarSlot) =>
    (e.1, e.2.map fun v => if v.layer = layer ∧ !v.tiles.contains t then { v with tiles := v.tiles ++ [t] } else v) } }

/-- A tile's slot copy poisoned (07 R244): its header with state 2, its lines marked PZ, and the tile handed to the MC. -/
def State.poisonTile (s : State) (c layer : Nat) (e : CaravanEntry) (t : Nat) (hdr : Line) : State :=
  let at_ := apertureAt c layer (t * tileBytes e.fmt)
  let s := s.storeLine c at_ (poisonedHeader hdr)
  let s := (lineAddrs at_ (tileBytes e.fmt)).foldl (fun s a => match s.resolve c none a with
    | .homed id _ _ _ _ => s.makePz id
    | _ => s) s
  let s := s.modCx c fun x => { x with car := { x.car with
    poisoned := if x.car.poisoned.contains (layer, t) then x.car.poisoned else x.car.poisoned ++ [(layer, t)] } }
  s.tileFilled c layer t

/-- The fill of a tile has to wait: for a lock or a way, for host traffic, or for a floor. -/
def State.fillWaits (s : State) (c layer : Nat) (e : CaravanEntry) (t : Nat) : Bool :=
  let src := lineAddrs (e.src + t * tileBytes e.fmt) (tileBytes e.fmt)
  s.inDeep || (!s.hostDma && src.any isTier3) || (src ++ lineAddrs (apertureAt c layer (t * tileBytes e.fmt)) (tileBytes e.fmt)).any (s.mustWait c)

/-- One tile copied into its layer's slot (07 R228, R238): poisoned when a line of it is, or its header says so. -/
def State.fillTile (s : State) (c layer : Nat) (e : CaravanEntry) (t : Nat) : State :=
  let size := tileBytes e.fmt
  let src := e.src + t * size
  let (s, ls) := (lineAddrs src size).foldl (fun (r : State × List (Option Line)) a => let q := r.1.takeLine c a; (q.1, r.2 ++ [q.2])) (s, [])
  let hdr : Line := (ls.head?.bind id).getD (s.storedLine c src)
  if ls.any Option.isNone ∨ 2 ≤ hdrState hdr.toNat then s.poisonTile c layer e t hdr
  else
    let to_ := lineAddrs (apertureAt c layer (t * size)) size
    ((ls.zip to_).foldl (fun s (r : Option Line × Nat) => s.storeLine c r.2 (r.1.getD 0)) s).tileFilled c layer t

/-- The tiles of a layer that its fill has still to bring. -/
def State.tilesToFill (s : State) (c layer : Nat) (e : CaravanEntry) : List Nat :=
  match (s.caravanSlot c layer).bind fun i => tget none (s.cx c).car.slots i with
  | some v => if v.full then [] else (List.range (e.kTiles * e.nTiles)).filter fun t => !v.tiles.contains t
  | none => []

/-- The tile at a caravan address, when the outrider is fetching its layer and it is still to come, is fetched now unless it must wait (07 R238:
tiles become valid one by one). -/
def State.bringTile (s : State) (c a : Nat) : State :=
  match caravanAddr 0 a, (s.cx c).car.fetch with
  | some (layer, off), some (_, l, _) =>
    match s.carEntry c layer with
    | some e =>
      let t := off / tileBytes e.fmt
      if layer = l ∧ (s.tilesToFill c layer e).contains t ∧ !s.fillWaits c layer e t then s.fillTile c layer e t else s
    | none => s
  | _, _ => s

end Sys2Proof.Machine
end

