-- ==== Sys2Proof/Machine/Flags.lean ====
section
/-! DEFINITION. Counters and flags that computations leave behind: the cluster counters (03 R102, R103, 04 R129, 05 R162) and
the finiteness flag (02 R57). -/

namespace Sys2Proof.Machine

open Sys2Proof

/-- NaN inputs converted to an integer format (03 Table 3-12). -/
def State.countNan (s : State) (cl n : Nat) : State := s.modCnt cl fun x => { x with cvtNan := satAdd 0xFFFFFFFF x.cvtNan n }

/-- INT32 additions that wrapped (04 Table 4-7). -/
def State.countWrap (s : State) (cl n : Nat) : State := s.modCnt cl fun x => { x with intWrap := satAdd 0xFFFFFFFF x.intWrap n }

/-- A chain-mode carry mismatch (04 Table 4-7). -/
def State.countChain (s : State) (cl : Nat) : State := s.modCnt cl fun x => { x with chainBreak := satAdd 0xFFFF x.chainBreak 1 }

/-- A strand fault (03 Table 3-11). -/
def State.countFault (s : State) (cl : Nat) : State := s.modCnt cl fun x => { x with strandFaults := satAdd 0xFFFFFFFF x.strandFaults 1 }

/-- Path-1 forward rows without an entry (05 Table 5-8). -/
def State.countOverflowRows (s : State) (cl n : Nat) : State :=
  s.modCnt cl fun x => { x with overflowRows := satAdd 0xFFFFFFFF x.overflowRows n }

/-- Path-1 backward rows rebuilt on the core path (05 Table 5-8). -/
def State.countRecomputeRows (s : State) (cl n : Nat) : State :=
  s.modCnt cl fun x => { x with recomputeRows := satAdd 0xFFFFFFFF x.recomputeRows n }

/-- The finiteness flag after a conversion of a gradient tensor (02 R57): cleared by an infinity, a NaN or a NaN block scale. Only
a leg of a step has a flag. -/
def State.gradFlag (s : State) (c l : Nat) (bad : Bool) : State :=
  match s.legOf c l with
  | some g => if bad && g.inStep then s.notFinite c else s
  | none => s

/-- The order-dependence mark of an ATOM (03 R100): in the step record for a leg of a step. -/
def State.atomFlag (s : State) (c l : Nat) : State :=
  match s.legOf c l with
  | some g => if g.inStep then s.modRun c fun r => { r with orderDep := true } else s
  | none => s

/-- The most negative and the most positive INT32. -/
def inInt32 (x : Int) : Bool := decide (-(2 ^ 31 : Int) ≤ x ∧ x < 2 ^ 31)

/-- One INT32 addition (04 R107): the exact sum modulo 2^32, and whether it left the range. -/
def intAdd (a b : Int) : Int × Bool :=
  let x := a + b
  (sintOf 32 (intBits 32 x), !inInt32 x)

/-- A running INT32 sum over exact terms, with the count of additions that wrapped (04 R107). -/
def sumInt : Int → Nat → List Int → Int × Nat
  | s, w, [] => (s, w)
  | s, w, x :: r => let p := intAdd s x; sumInt p.1 (w + b2n p.2) r

end Sys2Proof.Machine
end

