-- ==== Sys2Proof/Machine/Operands.lean ====
section
/-! DEFINITION. Op descriptors: fields (03 Table 3-2), operand tiles and their owners (R77, R86), validation (R83) and issue (R64,
R65, R84). -/

namespace Sys2Proof.Machine

open Sys2Proof

/-- One operand of a descriptor. -/
structure Opnd where
  addr  : Nat
  fmt   : Nat
  loc   : Nat
  trans : Bool
  hint  : Nat
deriving DecidableEq, Repr

/-- A decoded descriptor (03 Table 3-2). -/
structure Desc where
  kind   : Nat
  ctx    : Nat
  seq    : Nat
  tensor : Word
  a      : Opnd
  b      : Opnd
  c      : Opnd
  d      : Opnd
  sat    : Bool
  grad   : Bool
  bsize  : Nat
  sr     : Bool
  accum  : Bool
  m      : Nat
  n      : Nat
  k      : Nat
  fnSlot : Nat
  fnTable : Bool
  fnEn   : Bool
  splitCount : Nat
  tree   : Bool
  splitIndex : Nat
  param  : Nat
  mask   : BitVec 32
  waitEvent : Nat
  waitEn : Bool
  signalEvent : Nat
  signalEn : Bool
  last   : Bool
deriving DecidableEq, Repr

/-- The fields of a descriptor's 512 bits. -/
def decodeDesc (w : BitVec 512) : Desc :=
  { kind := fld w 0 8, ctx := fld w 8 4, seq := fld w 16 16, tensor := BitVec.ofNat 32 (fld w 32 32),
    a := ⟨fld w 64 48, fld w 112 4, fld w 116 2, bitAt w 118, fld w 120 2⟩,
    b := ⟨fld w 128 48, fld w 176 4, fld w 180 2, bitAt w 182, fld w 184 2⟩,
    c := ⟨fld w 192 48, fld w 240 4, fld w 244 2, false, fld w 252 2⟩,
    d := ⟨fld w 320 48, fld w 368 4, fld w 372 2, false, 0⟩,
    sat := bitAt w 246, grad := bitAt w 247, bsize := fld w 248 3, sr := bitAt w 251, accum := bitAt w 254,
    m := fld w 256 16, n := fld w 272 16, k := fld w 288 16, fnSlot := fld w 304 4, fnTable := bitAt w 308, fnEn := bitAt w 309,
    splitCount := fld w 312 2, tree := bitAt w 314, splitIndex := fld w 315 3, param := fld w 384 64,
    mask := BitVec.ofNat 32 (fld w 448 32), waitEvent := fld w 480 6, waitEn := bitAt w 486, signalEvent := fld w 488 6,
    signalEn := bitAt w 494, last := bitAt w 496 }

/-- Bits of the parameter field. -/
def Desc.p (d : Desc) (lo len : Nat) : Nat := (d.param >>> lo) % 2 ^ len

/-- One bit of the parameter field. -/
def Desc.pb (d : Desc) (i : Nat) : Bool := (d.param >>> i) % 2 == 1

/-- The kinds of 03 Table 3-3. -/
def kindKnown (k : Nat) : Bool := [0x10, 0x11, 0x12, 0x20, 0x30, 0x40, 0x41, 0x50, 0x51, 0x52, 0x53, 0x60, 0x70, 0x80].contains k

/-- A tile matrix product. -/
def Desc.isProduct (d : Desc) : Bool := d.kind == 0x10 || d.kind == 0x11 || d.kind == 0x12

/-- The pipe of a kind (03 Table 3-3); a collective segment runs on column controllers and ports. -/
def Desc.pipe (d : Desc) : Pipe := if d.isProduct then .tensor else if d.kind = 0x60 then .ports else .vector

/-- Parts of a split reduction (04 R121). -/
def Desc.parts (d : Desc) : Nat := 2 ^ d.splitCount

/-- A part below the last (04 R122). -/
def Desc.carryPart (d : Desc) : Bool := decide (d.splitCount ≠ 0 ∧ d.splitIndex + 1 < d.parts)

/-- A part after the first in chain mode reads carries from D (04 R123). -/
def Desc.takesCarry (d : Desc) : Bool := decide (d.splitCount ≠ 0 ∧ !d.tree ∧ 0 < d.splitIndex)

/-- The last part in tree mode reads the other parts' partials from D (04 R125). -/
def Desc.takesParts (d : Desc) : Bool := decide (d.splitCount ≠ 0 ∧ d.tree ∧ d.splitIndex + 1 = d.parts)

/-- Integer inputs. -/
def Desc.intIn (d : Desc) : Bool := isIntFmt d.a.fmt

/-- Cores of the mask as positions 0, 1, ... (03 R86). -/
def Desc.positions (d : Desc) : List Nat := setBits d.mask

/-- Core count of the mask. -/
def Desc.cores (d : Desc) : Nat := d.positions.length

/-- The global core ID at position j. -/
def Desc.coreAt (d : Desc) (cl j : Nat) : Nat := cl * 32 + d.positions.getD j 0

/-- How an operand is divided among cores when it lies in space private to each core (03 R77). -/
inductive Split where
  | whole
  | cols
  | rows
deriving DecidableEq, Repr

/-- An operand as a matrix of tiles; `stack` operands of its size stand one after another (04 R125). -/
structure Grid where
  o     : Opnd
  rows  : Nat
  cols  : Nat
  split : Split
  stack : Nat
deriving DecidableEq, Repr

/-- How many of x consecutive things belong to position q of c (03 R86). -/
def shareOf (c q x : Nat) : Nat := (x - q % c + c - 1) / c

/-- Space private to each core. -/
def Opnd.ownSpace (o : Opnd) : Bool := o.loc == 1 || o.loc == 2

/-- Where tile (i, j) of an operand lies for the core at position `pos`: core position and address (03 R77). `i` counts on through a stack. -/
def Grid.tile (g : Grid) (c pos i j : Nat) : Nat × Nat :=
  let sz := tileBytes g.o.fmt
  if g.o.ownSpace then
    match g.split with
    | .whole => (pos, g.o.addr + (i * g.cols + j) * sz)
    | .cols => (j % c, g.o.addr + (i * shareOf c (j % c) g.cols + j / c) * sz)
    | .rows =>
      let r := i % max 1 g.rows
      (r % c, g.o.addr + ((i / max 1 g.rows * shareOf c (r % c) g.rows + r / c) * g.cols + j) * sz)
  else (pos, g.o.addr + (i * g.cols + j) * sz)

/-- Tiles of an operand in the space that the core at a position uses (03 R77). -/
def Grid.tilesAt (g : Grid) (c pos : Nat) : Nat :=
  if g.o.ownSpace then
    match g.split with
    | .whole => g.stack * g.rows * g.cols
    | .cols => g.stack * g.rows * shareOf c pos g.cols
    | .rows => g.stack * shareOf c pos g.rows * g.cols
  else g.stack * g.rows * g.cols

/-- Operand matrices of a descriptor: A, B, C, D (03 Table 3-3, R480). The partials of tree mode are stacked in D in part order (04 R125).
DESIGN CHOICE (log 18): the index list is an operand of m by 1 tiles; A of a gather and C of a scatter have k by n tiles, so k_tiles bounds
the rows an index may name. DESIGN CHOICE (log 92): an overwrite scatter has whole copies of A, C and D on every core, since each core reads
the whole index list and writes rows of its own (R86). -/
def Desc.grids (d : Desc) : Grid × Grid × Grid × Grid :=
  let stack := if d.takesParts then d.parts - 1 else 1
  let g (o : Opnd) (r c : Nat) (sp : Split) : Grid := ⟨o, r, c, sp, 1⟩
  match d.kind with
  | 0x10 => (g d.a d.m d.k .whole, g d.b d.k d.n .cols, g d.c d.m d.n .cols,
      if d.splitCount = 0 ∨ d.splitIndex = 0 then g d.d 1 d.n .cols else ⟨d.d, d.m, d.n, .cols, stack⟩)
  | 0x11 => (g d.a d.m d.n .cols, g d.b d.k d.n .cols, g d.c d.m d.k .whole, ⟨d.d, d.m, d.k, .whole, stack⟩)
  | 0x12 => (g d.a d.m d.k .whole, g d.b d.m d.n .cols, g d.c d.k d.n .cols, ⟨d.d, d.k, d.n, .cols, stack⟩)
  | 0x30 =>
    if d.pb 3 then (g d.a d.m d.n .rows, g d.b 0 0 .whole, g d.c 1 d.n .whole, ⟨d.d, 1, d.n, .whole, stack⟩)
    else (g d.a d.m d.n .rows, g d.b 0 0 .whole, g d.c d.m 1 .rows, ⟨d.d, d.m, 1, .rows, stack⟩)
  | 0x40 => (g d.a d.k d.n .whole, g d.b 0 0 .whole, g d.c d.m d.n .rows, g d.d d.m 1 .rows)
  | 0x41 =>
    if d.pb 16 then (g d.a d.m d.n .rows, g d.b 0 0 .whole, g d.c d.k d.n .whole, g d.d d.m 1 .rows)
    else (g d.a d.m d.n .whole, g d.b 0 0 .whole, g d.c d.k d.n .whole, g d.d d.m 1 .whole)
  | 0x50 => (g d.a d.m d.n .rows, g d.b 1 d.n .whole, g d.c d.m d.n .rows, g d.d 1 d.n .whole)
  | 0x51 => (g d.a d.m d.n .rows, g d.b 1 d.n .whole, g d.c d.m d.n .rows, g d.d d.m d.n .rows)
  | _ => (g d.a d.m d.n .rows, g d.b d.m d.n .rows, g d.c d.m d.n .rows, g d.d d.m d.n .rows)

/-- The second moments of a sweep segment, at their offset from D (08 R271). -/
def Desc.vGrid (d : Desc) : Grid := { d.grids.2.2.2 with o := { d.d with addr := d.d.addr + d.p 8 32 * 4096 } }

/-! ### Validation (03 R83) -/

/-- Formats a tile can hold (07 R224). -/
def tileFmt (f : Nat) : Bool := decide (1 ≤ f ∧ f ≤ 14)

/-- Tensor-unit inputs (03 R66, Table 3-1). -/
def tensorIn (f : Nat) : Bool := decide ((2 ≤ f ∧ f ≤ 10) ∨ f = 13 ∨ f = 14)

/-- The settings under which a kind uses D, and B (03 Table 3-13). -/
def Desc.usesD (d : Desc) : Bool :=
  match d.kind with
  | 0x10 => d.pb 0 || d.takesCarry || d.takesParts
  | 0x11 => d.pb 0 || d.takesCarry || d.takesParts
  | 0x12 => d.takesCarry || d.takesParts
  | 0x20 => d.p 0 3 == 4 || d.p 0 3 == 5
  | 0x30 => d.p 0 3 == 4 || d.takesCarry || d.takesParts
  | 0x52 => false
  | 0x60 => false
  | _ => true

/-- The settings under which a kind uses B. -/
def Desc.usesB (d : Desc) : Bool :=
  match d.kind with
  | 0x20 => d.p 0 3 == 1 || d.p 0 3 == 2 || d.p 0 3 == 3
  | 0x10 => true | 0x11 => true | 0x12 => true | 0x50 => true | 0x51 => true | 0x70 => true | 0x80 => true
  | _ => false

/-- Operand formats (03 R66, R68, R480; 04 R122, R123; 08 R271; 09 R316). A format 0 stands where the operand is optional. -/
def Desc.fmtsOk (d : Desc) : Bool :=
  let carry := if d.intIn then 11 else 1
  let dCarry := d.takesCarry || d.takesParts
  let unusedOk := (d.usesB || d.b.fmt == 0) && (d.usesD || d.d.fmt == 0)
  let body := match d.kind with
    | 0x10 => tensorIn d.a.fmt && tensorIn d.b.fmt && isIntFmt d.a.fmt == isIntFmt d.b.fmt && tileFmt d.c.fmt && (!d.usesD || d.d.fmt == carry)
    | 0x11 => tensorIn d.a.fmt && tensorIn d.b.fmt && isIntFmt d.a.fmt == isIntFmt d.b.fmt && tileFmt d.c.fmt
      && (!d.usesD || (if dCarry then d.d.fmt == carry else tileFmt d.d.fmt))
    | 0x12 => tensorIn d.a.fmt && tensorIn d.b.fmt && isIntFmt d.a.fmt == isIntFmt d.b.fmt && tileFmt d.c.fmt && (!d.usesD || d.d.fmt == carry)
    | 0x20 => tileFmt d.a.fmt && tileFmt d.c.fmt && (!d.usesB || tileFmt d.b.fmt) && (!d.usesD || tileFmt d.d.fmt)
    | 0x30 => tileFmt d.a.fmt && tileFmt d.c.fmt && (if d.p 0 3 = 4 then d.d.fmt == d.c.fmt else !dCarry || d.d.fmt == carry)
    | 0x40 => tileFmt d.a.fmt && tileFmt d.c.fmt && isIntFmt d.d.fmt
    | 0x41 => tileFmt d.a.fmt && tileFmt d.c.fmt && isIntFmt d.d.fmt
    | 0x50 => tileFmt d.a.fmt && tileFmt d.c.fmt && (d.b.fmt == 0 || tileFmt d.b.fmt) && (d.d.fmt == 0 || tileFmt d.d.fmt)
    | 0x51 => tileFmt d.a.fmt && tileFmt d.c.fmt && (d.b.fmt == 0 || tileFmt d.b.fmt) && tileFmt d.d.fmt
    | 0x52 => tileFmt d.a.fmt && tileFmt d.c.fmt
    | 0x53 => tileFmt d.a.fmt && tileFmt d.c.fmt && tileFmt d.d.fmt
    | 0x60 => tileFmt d.a.fmt && d.c.fmt == d.a.fmt && (d.p 0 4 != 0 || d.a.fmt == 1)
    | 0x70 => d.a.fmt == 1 && d.b.fmt == 1 && d.d.fmt == 1 && decide (2 ≤ d.c.fmt ∧ d.c.fmt ≤ 10)
    | _ => true
  unusedOk && body

/-- Counts that the kind uses are not 0 (03 R83). -/
def Desc.countsOk (d : Desc) : Bool :=
  match d.kind with
  | 0x10 => d.m != 0 && d.n != 0 && d.k != 0
  | 0x11 => d.m != 0 && d.n != 0 && d.k != 0
  | 0x12 => d.m != 0 && d.n != 0 && d.k != 0
  | 0x40 => d.m != 0 && d.n != 0 && d.k != 0
  | 0x41 => d.m != 0 && d.n != 0 && d.k != 0
  | 0x80 => true
  | _ => d.m != 0 && d.n != 0

/-- The strands-per-core limit (03 Table 3-9). -/
def strandLimit (regs : Nat) : Nat := match regs with | 0 => 64 | 1 => 64 | 2 => 42 | _ => 32

/-- Codes of hints, block sizes and operations that are not reserved (03 R83, Table 3-5). DESIGN CHOICE (log 18): a row_len beyond the
operand's columns is taken as all of them. -/
def Desc.codesOk (d : Desc) : Bool :=
  d.a.hint != 3 && d.b.hint != 3 && d.c.hint != 3 && decide (d.bsize ≤ 4) &&
  match d.kind with
  | 0x20 => decide (d.p 0 3 ≤ 5)
  | 0x30 => decide (d.p 0 3 ≤ 4)
  | 0x40 => decide (1 ≤ d.p 0 16 ∧ d.p 0 16 ≤ 4096)
  | 0x41 => decide (1 ≤ d.p 0 16 ∧ d.p 0 16 ≤ 4096)
  | 0x50 => decide (d.p 0 2 ≤ 1)
  | 0x51 => decide (d.p 0 2 ≤ 1)
  | 0x60 => decide (d.p 0 4 ≤ 4)
  | 0x80 => decide (1 ≤ d.p 18 7 ∧ d.p 18 7 ≤ strandLimit (d.p 16 2) ∧ d.p 32 32 ≠ 0)
  | _ => true

/-- Rules on splits (04 R120 to R122). -/
def Desc.splitOk (d : Desc) : Bool :=
  let kindOk := d.isProduct || (d.kind == 0x30 && decide (d.p 0 3 ≤ 3))
  if d.splitCount = 0 then !d.tree && d.splitIndex == 0
  else
    kindOk && decide (d.splitIndex < d.parts)
    && (d.kind == 0x12 || d.kind == 0x30 || !d.pb 0)
    && (!d.carryPart || (d.c.fmt == (if d.intIn then 11 else 1) && !d.fnEn && !d.accum && !d.sr))

/-- The function slot of a cluster. -/
def State.fnSlot (s : State) (cl n : Nat) : Option FnSlot := tget none (s.clu cl).slots n

/-- Rules on function slots (03 R83; 05 R133, R134). -/
def State.fnOk (s : State) (cl : Nat) (d : Desc) : Bool :=
  let slot := s.fnSlot cl d.fnSlot
  let compat := match slot with | some f => f.compat != 0 | none => false
  let native := (d.kind == 0x11 && d.pb 0 && !d.pb 1) || (d.kind == 0x20 && d.p 0 3 == 4)
  let compatUse := (d.kind == 0x11 && d.pb 0 && d.pb 1) || (d.kind == 0x20 && d.p 0 3 == 5)
  (!(d.fnEn || native) || slot.isSome) && (!compatUse || compat) && (!((d.kind == 0x11 || d.kind == 0x12) && d.fnEn))

/-- The accumulator buffer of a declared tied group at a module address (05 R140). -/
def State.isTied (s : State) (c a : Nat) : Bool :=
  match (s.cx c).place with
  | some p => p.tied.any fun t => t.buffer == a
  | none => false

/-- Rules of single kinds (03 R82, 04 R115, R118, 05 R132, R133, R140, 08 R271, 09 R316). -/
def State.kindOk (s : State) (cl : Nat) (d : Desc) : Bool :=
  let inStep := match (s.clu cl).leg with
    | some (c, l) => (s.legOf c l).any fun g => g.inStep
    | none => false
  let sweepLeg := match (s.clu cl).leg with
    | some (c, l) => (s.legOf c l).any fun g => g.inStep && g.inst.entry.phase == 3
    | none => false
  let g := d.grids.2.2.1
  (!d.accum || (d.c.fmt == 1 && (d.c.loc == 0 || d.c.loc == 2)))
  && (d.kind == 0x80 || decide (g.rows * g.cols ≤ 2 ^ 20))
  && match d.kind with
    | 0x11 => !(d.pb 0 && d.accum)
    | 0x12 => d.carryPart || (d.accum && d.c.fmt == 1 && d.c.loc == (if d.pb 0 then 0 else 2) && (!d.pb 0 || s.isTied d.ctx d.c.addr))
    | 0x41 => !d.pb 16 || (d.c.fmt == 1 && (d.c.loc == 0 || d.c.loc == 2))
    | 0x60 => (if d.p 0 4 = 0 then d.accum else !d.accum)
    | 0x70 => (d.a.loc == 0 || d.a.loc == 2) && d.b.loc == 0 && d.d.loc == 0 && !d.grad && !d.accum && inStep && sweepLeg
    | _ => true

/-- A line of an operand lies where the descriptor may read, write or press it (03 R72, R83; 06 R479 for press targets; 07 R234 for the
aperture, which no descriptor writes). -/
def State.lineOk (s : State) (cl : Nat) (mu : Option Nat) (d : Desc) (loc pos a : Nat) (write press : Bool) : Bool :=
  !((write || press) && (caravanAddr loc a).isSome) &&
  match s.placeOf d.ctx mu (d.coreAt cl pos) loc a with
  | .outside => false
  | .homed _ _ direct _ _ => !(press && direct)
  | .flat _ _ => !press
  | .absent => true

/-- Lines of an n-line tile that stand for all its pages: its first line, one in each further 4 KiB, its last. -/
def probeLines (n : Nat) : List Nat := (List.range (ceilDiv n 16)).map (16 * ·) ++ [n - 1]

/-- One operand's address, and every tile it names on the cores of the mask, are ones the descriptor may use (03 R72, R78, R83). -/
def State.gridOk (s : State) (cl : Nat) (mu : Option Nat) (d : Desc) (g : Grid) (write press : Bool) : Bool :=
  decide (g.o.addr % 256 = 0) &&
  (List.range d.cores).all fun pos => (List.range (g.stack * g.rows)).all fun i => (List.range g.cols).all fun j =>
    let (p, a) := g.tile d.cores pos i j
    (probeLines (tileLines g.o.fmt)).all fun l => s.lineOk cl mu d g.o.loc p (a + 256 * l) write press

/-- An operand of a recipe launch names an address without tiles: it is checked itself, on every core of the mask. -/
def State.baseOk (s : State) (cl : Nat) (mu : Option Nat) (d : Desc) (o : Opnd) : Bool :=
  o.fmt == 0 || (decide (o.addr % 256 = 0) && (List.range d.cores).all fun pos => s.lineOk cl mu d o.loc pos o.addr false false)

/-- Operand addresses (03 R83). A fetch reads its source at the owner, and other collectives write theirs at the destination. -/
def State.addrsOk (s : State) (cl : Nat) (mu : Option Nat) (d : Desc) : Bool :=
  let (a, b, c, e) := d.grids
  let press := d.accum || (d.kind == 0x41 && d.pb 16)
  if d.kind = 0x80 then [d.a, d.b, d.c, d.d].all (s.baseOk cl mu d)
  else if d.kind = 0x60 then
    if d.p 0 4 = 2 then decide (d.a.addr % 256 = 0) && s.gridOk cl mu d c true false
    else decide (d.c.addr % 256 = 0) && s.gridOk cl mu d a false false
  else
    s.gridOk cl mu d a false false && (d.b.fmt == 0 || s.gridOk cl mu d b (d.kind == 0x70) false) && s.gridOk cl mu d c true press
      && (d.d.fmt == 0 || s.gridOk cl mu d e (d.kind == 0x70 || (d.kind == 0x30 && d.p 0 3 == 4)) false)
      && (d.kind != 0x70 || s.gridOk cl mu d d.vGrid true false)

/-- The whole check of 03 R83. -/
def State.descOk (s : State) (cl : Nat) (mu : Option Nat) (d : Desc) : Bool :=
  kindKnown d.kind && decide (d.ctx < 4) && (s.clu cl).owner == some d.ctx && d.fmtsOk && d.countsOk
    && d.mask != 0 && (d.mask &&& ~~~(s.clu cl).active) == 0 && d.codesOk && d.splitOk && s.fnOk cl d && s.kindOk cl d
    && s.addrsOk cl mu d

/-! ### Issue (03 R64, R65, R84) -/

/-- Byte range of an operand for the hazard rule, on the core at a position: location, first byte, end of its last tile there (03 R65). -/
def Grid.rangeAt (g : Grid) (c pos : Nat) : Option (Nat × Nat × Nat) :=
  if g.o.fmt = 0 then none else some (g.o.loc, g.o.addr, g.o.addr + g.tilesAt c pos * tileBytes g.o.fmt)

/-- Module addresses [a, b) name some byte of [o, e) in the scratch part of a core's own column: through a scratch window (06 R173). -/
def State.scratchMeets (s : State) (c core a b o e : Nat) : Bool :=
  (s.cx c).map.any fun w =>
    let cls := s.homeClusters c w
    let n := cls.length * 32
    let j := (cls.takeWhile fun k => k != clusterOf core).length * 32 + core % 32
    w.mode == 2 && cls.contains (clusterOf core) && (List.range (ceilDiv (w.pages - j) (max 1 n))).any fun t =>
      let pa := w.base + 4096 * (j + n * t)
      let po := 65536 * w.colOff + 4096 * t
      let lo := max a pa
      let hi := min b (pa + 4096)
      decide (lo < hi ∧ po + (lo - pa) < e ∧ o < po + (hi - pa))

/-- Two operand ranges on one core meet. -/
def State.rangesMeet (s : State) (c core : Nat) (x y : Option (Nat × Nat × Nat)) : Bool :=
  match x, y with
  | some (l, a, b), some (l', a', b') =>
    if l = l' then decide (a < b' ∧ a' < b)
    else if l = 0 ∧ l' = 2 then s.scratchMeets c core a b a' b'
    else if l = 2 ∧ l' = 0 then s.scratchMeets c core a' b' a b
    else false
  | _, _ => false

/-- Operands a descriptor reads, and operands it writes. -/
def Desc.accesses (d : Desc) : List Grid × List Grid :=
  let (a, b, c, e) := d.grids
  let dOut := d.kind == 0x30 && d.p 0 3 == 4
  if d.kind = 0x70 then ([a, b, e, d.vGrid], [b, c, e, d.vGrid])
  else ([a, b] ++ (if dOut then [] else [e]), [c] ++ (if dOut then [e] else []))

/-- A hazard between an earlier descriptor and a later one on a core of both masks (03 R65). -/
def State.hazard (s : State) (cl : Nat) (earlier later : Desc) : Bool :=
  (setBits (earlier.mask &&& later.mask)).any fun i =>
    let rng (d : Desc) (g : Grid) := g.rangeAt d.cores ((d.positions.takeWhile fun j => j != i).length)
    let meet (x y : Grid) : Bool := s.rangesMeet later.ctx (cl * 32 + i) (rng earlier x) (rng later y)
    let (er, ew) := earlier.accesses
    let (lr, lw) := later.accesses
    (ew.any fun x => (lr ++ lw).any (meet x)) || (er.any fun x => lw.any (meet x))

/-- A unit under test pauses the cores of a mask in cluster cl (12 Table 12-3). -/
def State.coresPaused (s : State) (cl : Nat) (mask : BitVec 32) : Bool :=
  s.mc.tests.any fun t => match t.unit with
    | .core k => clusterOf k == cl && mask.getLsbD (k % 32)
    | .bank k _ => clusterOf k == cl && mask.getLsbD (k % 32)
    | _ => false

/-- Cluster cl can run descriptors now: not frozen, not held, with no pause by a test (03 R88, 10 R337, 12 R416). -/
def State.clusterRuns (s : State) (cl : Nat) (mask : BitVec 32) : Bool :=
  !(s.clu cl).frozen && !(s.clu cl).held && !s.coresPaused cl mask

/-- Descriptor w stands at the head of the queue of cluster cl, whose controller works on its leg (03 R83). -/
def State.atHead (s : State) (cl : Nat) (w : BitVec 512) : Bool :=
  let x := s.clu cl
  (x.leg.any fun q => (s.legOf q.1 q.2).any fun g => g.status == 0) && x.queue.head? == some w && !x.frozen && !x.held && !x.rejected

/-- The descriptor at the head of the queue may start (03 R64, R65, R84): its cores run, its pipe is free on every core of its mask, no hazard
stands, and its event counter allows it. -/
def State.mayStart (s : State) (cl : Nat) (d : Desc) : Bool :=
  let x := s.clu cl
  s.clusterRuns cl d.mask
    && (x.runs.all fun r => some (r.ctx, r.leg) != x.leg || (r.desc &&& (d.mask.setWidth 512 <<< 448)) == 0
      || (r.pipe != d.pipe && !s.hazard cl (decodeDesc r.desc) d))
    && (!d.waitEn || decide (1 ≤ tget 0 x.events d.waitEvent))

/-- A run changed. -/
def State.modRunOn (s : State) (cl : Nat) (w : BitVec 512) (f : DescRun → DescRun) : State :=
  s.modClu cl fun x => { x with runs := x.runs.map fun r => if r.desc = w then f r else r }

end Sys2Proof.Machine
end

