-- ==== Sys2Proof/Machine/Units.lean ====
section
/-! DEFINITION. What a core does with one unit of a descriptor: input tiles under the tile-valid check (03 R87), output tiles (R68), press
contributions (06 R186), and the driver that runs the units of every core (R84, R86). -/

namespace Sys2Proof.Machine

open Sys2Proof

/-- How a unit ends: done, standing at a tile, or its leg ended. -/
inductive UnitRes where
  | done
  | halt (why : HaltWhy) (tile : Nat)
  | ended
deriving DecidableEq, Repr

/-- Where a unit runs: cluster, descriptor, leg, and the descriptor's bits. -/
structure Where where
  cl  : Nat
  d   : Desc
  ctx : Nat
  leg : Nat
  w   : BitVec 512
deriving DecidableEq, Repr

/-! ### The leg around a descriptor -/

/-- The micro-batch of the leg. -/
def State.muOf (s : State) (p : Where) : Option Nat := s.legMu p.ctx p.leg

/-- The leg is a recompute leg (05 R155). -/
def State.isRecompute (s : State) (p : Where) : Bool := (s.legOf p.ctx p.leg).any fun g => g.inst.recompute

/-- First lean layer of a micro-batch (05 R153); 0xFFFF if none. -/
def StepRun.firstLean (r : StepRun) (mu : Nat) : Nat := ((r.lean.find? fun e => e.1 == mu).map Prod.snd).getD 0xFFFF

/-- Layer l is lean for micro-batch mu (05 R153, R157). -/
def StepRun.isLean (r : StepRun) (mu l : Nat) : Bool := decide (r.firstLean mu ≤ l) || r.poisonLean.contains (mu, l)

/-- The leg is a forward leg of a lean layer (05 R154). -/
def State.isLeanForward (s : State) (p : Where) : Bool :=
  match s.legOf p.ctx p.leg, (s.cx p.ctx).run with
  | some g, some r => g.inStep && g.inst.entry.phase == 0 && !g.inst.recompute && (match g.inst.mu with
    | some mu => r.isLean mu g.inst.entry.layer
    | none => false)
  | _, _ => false

/-- A stash slot of the context's placement. -/
def State.stashSlot (s : State) (c slot : Nat) : Option StashSlot := (s.cx c).place.bind fun p => p.stash[slot]?

/-- A write to an operand takes effect (05 R154, R155): a lean forward discards derived slots, a recompute leg writes derived slots
alone. -/
def State.writeCounts (s : State) (p : Where) (loc a : Nat) : Bool :=
  let derived := match stashAddr loc a with
    | some (slot, _) => (s.stashSlot p.ctx slot).map fun e => e.derived
    | none => none
  if s.isRecompute p then derived == some true
  else if s.isLeanForward p then derived != some true
  else true

/-! ### Input tiles -/

/-- Backward legs of a layer of micro-batch μ have not all completed. -/
def State.layerOpen (s : State) (c mu layer : Nat) : Bool :=
  (((s.cx c).run.map fun r => r.todo).getD []).any (fun l => l.mu == some mu && l.entry.layer == layer)
    || s.legs.any fun l => l.ctx == c && l.inst.mu == some mu && l.inst.entry.layer == layer

/-- The recompute legs of a layer for micro-batch μ (05 R155): the forward legs that the step names for it. -/
def StepRun.recomputeLegs (r : StepRun) (mu layer : Nat) : List LegInst :=
  (r.legList.zipIdx.filter fun e => e.1.phase == 0 && e.1.layer == layer).map fun e => ⟨e.2, e.1, some mu, true⟩

/-- A poisoned stash tile (05 R157): a derived slot makes its layer lean and has it recomputed; an input slot drops the micro-batch. -/
def State.stashPoison (s : State) (p : Where) (slot tile : Nat) : State × UnitRes :=
  match s.stashSlot p.ctx slot, s.muOf p, (s.cx p.ctx).run with
  | some e, some mu, some _ =>
    if e.derived then
      let s := s.modRun p.ctx fun r => { r with poisonLean := r.poisonLean ++ [(mu, e.layer)], todo := r.recomputeLegs mu e.layer ++ r.todo }
      let s := s.modCx p.ctx fun x => { x with
        stash := x.stash.filter fun t => !(t.mu == mu && t.slot == slot && decide (0xFC0000000000 + 2 ^ 40 * p.ctx + 2 ^ 32 * slot + t.off = tile))
        cnt := { x.cnt with poisonRec := satAdd 0xFF x.cnt.poisonRec 1 } }
      (s, .halt .missing tile)
    else
      let s := s.dropMu p.ctx mu 2
      (s.endLeg p.ctx p.leg 0x040B tile, .ended)
  | _, _, _ => (s.endLeg p.ctx p.leg 0x040B tile, .ended)

/-- An input tile of a unit (03 R87, 07 R227): its number, or how the unit stands or ends. -/
def State.inputTile (s : State) (p : Where) (g : Grid) (pos i j : Nat) (carry : Bool) : State × Except UnitRes Nat :=
  let (own, a) := g.tile p.d.cores pos i j
  match s.readTile p.ctx (s.muOf p) (p.d.coreAt p.cl own) g.o.loc a g.o.fmt (some g.o.hint) (s.floorOf p.ctx g.o.loc a carry) with
  | (s, .ok x) => (s, .ok x)
  | (s, .missing) => (s, .error (.halt .missing a))
  | (s, .regen) => (s, .error (.halt .regen a))
  | (s, .locked id) => (s.addWaiter p.ctx p.leg id, .error (.halt (.locked id) a))
  | (s, .paused) => (s, .error (.halt .waits a))
  | (s, .wrongFmt) => (s.failLeg p.ctx p.leg 0x0406 a 1, .error .ended)
  | (s, .poisoned) =>
    match stashAddr g.o.loc a with
    | some (slot, _) => let r := s.stashPoison p slot a; (r.1, .error r.2)
    | none => ((s.faultTraining 4 p.ctx a).failLeg p.ctx p.leg 0x040B a 1, .error .ended)

/-- Input tiles one after another: operand, row, column, and whether it is a carry. -/
def State.inputTiles (s : State) (p : Where) (pos : Nat) : List (Grid × Nat × Nat × Bool) → List Nat → State × Except UnitRes (List Nat)
  | [], acc => (s, .ok acc.reverse)
  | (g, i, j, c) :: r, acc =>
    match s.inputTile p g pos i j c with
    | (s', .ok x) => State.inputTiles s' p pos r (x :: acc)
    | (s', .error e) => (s', .error e)

/-! ### Output tiles -/

/-- The key of the random stream (04 Table 4-3). -/
def State.streamKey (s : State) (c : Nat) (tensor : Word) : StreamKey := ⟨(s.cx c).seed, tensor, (s.cx c).step⟩

/-- Output element index (04 R115) of element number q of tile (i, j) in an output of w tile columns. -/
def outIndex (w i j q : Nat) : Nat := (i * 64 + q / 64) * (w * 64) + j * 64 + q % 64

/-- The settings that a step admitted now latches (02 R53, 04 R112, 05 R159, 08 R253). -/
def Ctx.toLatch (x : Ctx) : Latched :=
  { tols := x.cfg.tols, srThresh := x.cfg.srThresh, srOff := x.cfg.srOff, areaMib := x.cfg.areaMib, quotaMib := x.cfg.quotaMib, hsets := x.hsets }

/-- Settings in force: those that the running step latched, and with no step those of the registers (log 31). -/
def Ctx.settings (x : Ctx) : Latched := if x.run.isSome then x.latched else x.toLatch

/-- Spread tolerance of a format (02 R53). -/
def State.tolOf (s : State) (c f : Nat) : Nat := (s.cx c).settings.tols.getD (f - 6) 0

/-- How output tile (i, j) converts (02 R37, R42, R49, R51). -/
def State.convOf (s : State) (p : Where) (g : Grid) (tensor : Word) (i j : Nat) : Conv :=
  ⟨g.o.fmt, p.d.sat && !p.d.grad, p.d.bsize, s.tolOf p.ctx g.o.fmt,
    if p.d.sr then some (s.streamKey p.ctx tensor, outIndex g.cols i j) else none⟩

/-- A stash tile at an address takes its space (05 R151); elsewhere nothing changes. -/
def State.takeSpace (s : State) (p : Where) (g : Grid) (a : Nat) : State :=
  match stashAddr g.o.loc a, s.muOf p with
  | some (slot, off), some m => s.takeStash p.ctx slot m off (tileBytes g.o.fmt) (s.isRecompute p)
  | _, _ => s

/-- Why the write of output tile (i, j) has to wait (06 R193, R194; 12 R416), with the tile's address. -/
def State.outWait (s : State) (p : Where) (pos : Nat) (o : Grid × Nat × Nat) : Option (HaltWhy × Nat) :=
  let (own, a) := o.1.tile p.d.cores pos o.2.1 o.2.2
  if !s.writeCounts p o.1.o.loc a then none
  else ((s.takeSpace p o.1 a).lockedIn p.ctx (s.muOf p) (p.d.coreAt p.cl own) o.1.o.loc a (tileLines o.1.o.fmt)).map fun w => (w, a)

/-- The first of some output tiles whose write has to wait. -/
def State.outsWait (s : State) (p : Where) (pos : Nat) (l : List (Grid × Nat × Nat)) : Option (HaltWhy × Nat) := l.findSome? (s.outWait p pos)

/-- A core stands at a tile: its leg waits at a line (06 R193), or for the end of a pause. -/
def State.standAt (s : State) (p : Where) (w : HaltWhy × Nat) : State × UnitRes :=
  (match w.1 with
    | .locked id => s.addWaiter p.ctx p.leg id
    | _ => s, .halt w.1 w.2)

/-- An output tile converted and written with its header (03 R68 step 4; 07 R226, R228). `carry` gives the next reduction index of a
carry tile. Nothing is counted before the write can be done. -/
def State.outputTile (s : State) (p : Where) (g : Grid) (pos : Nat) (tensor : Word) (i j : Nat) (carry : Option Nat) (vs : List FVal) :
    State × UnitRes :=
  match s.outWait p pos (g, i, j) with
  | some w => s.standAt p w
  | none =>
    let (own, a) := g.tile p.d.cores pos i j
    let o := convertTile (s.convOf p g tensor i j) vs
    let s := s.countNan p.cl o.nans
    let s := s.gradFlag p.ctx p.leg (p.d.grad && o.bad)
    if !s.writeCounts p g.o.loc a then (s, .done)
    else
      let hdr := mkHeader g.o.fmt o.bsize 1 carry.isSome false tensor.toNat (i * g.cols + j) (carry.getD 0) (s.cx p.ctx).step
      ((s.takeSpace p g a).writeTile p.ctx (s.muOf p) (p.d.coreAt p.cl own) g.o.loc a (some g.o.hint) g.o.fmt (tileNum hdr g.o.fmt o), .done)

/-- Roster position of a descriptor (06 R186): its place among the (leg, seq) entries of its tensor. -/
def State.rosterPos (s : State) (p : Where) (tensor : Word) : Option Nat :=
  match s.legOf p.ctx p.leg, s.roster p.ctx tensor with
  | some g, some r => r.entries.findIdx? fun e => e == (g.inst.idx, p.d.seq)
  | _, _ => none

/-- Words of an FP32 line. -/
def wordsLine (ws : List Word) : Line := BitVec.ofNat 2048 (packElems 32 (ws.map fun w => w.toNat))

/-- Something sent to a press: it takes the next number (01 R16). -/
def State.sendPress (s : State) (f : Nat → Contribution) : State :=
  { s with cel := { s.cel with sent := s.cel.sent ++ [f s.cel.sendNo], sendNo := s.cel.sendNo + 1 } }

/-- One ordered contribution sent to the home of a line (06 R186, R187, R189, R479), with the hint of its line (R174). `s1`, `s2` are the
sub-key. A step leg that has no place in a roster of the tensor ends with 0x0405. -/
def State.sendContribution (s : State) (p : Where) (tensor : Word) (op : PressOp) (id : LineId) (hint : Nat) (mask : BitVec 64) (data : Line)
    (s1 s2 : Nat) (tile : Bool) : State × UnitRes :=
  if s.isRecompute p then (s, .done)
  else
    match s.legOf p.ctx p.leg with
    | none => (s, .ended)
    | some g =>
      let mk (r no : Nat) : Contribution :=
        ⟨p.ctx, g.inStep, tensor, id, op, mask, data, ⟨false, g.inst.mu.getD 0, r, s1, s2⟩, tile, 0, 0, p.leg, hint, p.cl, no⟩
      if g.inStep then
        match s.rosterPos p tensor with
        | none => (s.failLeg p.ctx p.leg 0x0405 tensor.toNat 1, .ended)
        | some r => (s.sendPress (mk r), .done)
      else (s.sendPress (mk 0), .done)

/-- The rows of an output tile sent to the press, one line each, from row r on (03 R82). Those of a tile product apply at the cursor (06
R187). -/
def State.sendRows (s : State) (p : Where) (core loc a : Nat) : Nat → List (List Word) → State × UnitRes
  | _, [] => (s, .done)
  | r, ws :: rest =>
    match s.pressTarget p.ctx core loc (a + 256 + 256 * r) with
    | none => (s, .done)
    | some id =>
      match s.sendContribution p p.d.tensor .fadd id p.d.c.hint (BitVec.allOnes 64) (wordsLine ws) 0 0 p.d.isProduct with
      | (s, .done) => State.sendRows s p core loc a (r + 1) rest
      | (s, e) => (s, e)

/-- The result of an output tile: to the press when c_accum is set, else converted and written (03 R68 step 4). -/
def State.finishTile (s : State) (p : Where) (g : Grid) (pos i j : Nat) (carry : Option Nat) (vs : List FVal) : State × UnitRes :=
  if p.d.accum then
    let (own, a) := g.tile p.d.cores pos i j
    s.sendRows p (p.d.coreAt p.cl own) g.o.loc a 0 (chunks 64 64 (vs.map to32))
  else s.outputTile p g pos p.d.tensor i j carry vs

/-- Output tiles (i, 0) to (i, n − 1) of a tile row finished one after another. -/
def State.finishRow (s : State) (p : Where) (g : Grid) (pos i n : Nat) (col : Nat → List FVal) : State × UnitRes :=
  (List.range n).foldl (fun r j => match r with
    | (s, .done) => s.finishTile p g pos i j none (col j)
    | r => r) (s, .done)

/-! ### The driver -/

/-- Units of the core at a position (03 R86): output tiles of the tensor kinds, of kind 0x11 the reduction slices of each output tile, and
tile rows of the others. -/
def Desc.unitsAt (d : Desc) (pos : Nat) : Nat :=
  let mine (x : Nat) : Nat := shareOf d.cores pos x
  match d.kind with
  | 0x10 => d.m * mine d.n
  | 0x12 => d.k * mine d.n
  | 0x11 => d.m * d.k * mine d.n
  | 0x30 => if d.pb 3 then (if pos = 0 then d.n else 0) else mine d.m
  | 0x41 => if d.pb 16 then mine d.m else d.m
  | 0x20 => mine d.m * d.n
  | 0x60 => if d.p 0 4 = 2 then (if pos = 0 then 1 else 0) else mine d.m * d.n
  | 0x70 => mine d.m * d.n
  | 0x80 => 0
  | _ => mine d.m

/-- The meaning of one unit: position and unit number. -/
abbrev UnitStep := Where → (pos unit : Nat) → State → State × UnitRes

/-- A core's halt recorded (07 R240), with the count of well-halts in the step record. -/
def State.haltCore (s : State) (p : Where) (w : BitVec 512) (pos : Nat) (why : HaltWhy) (tile : Nat) : State :=
  let s := s.modRunOn p.cl w fun r => { r with halts := r.halts ++ [⟨p.d.coreAt p.cl pos, s.now, tile, why⟩] }
  match why, s.legOf p.ctx p.leg with
  | .missing, some g => if g.inStep then s.modRun p.ctx fun r => { r with wellHalts := r.wellHalts + 1 } else s
  | .regen, some g => if g.inStep then s.modRun p.ctx fun r => { r with wellHalts := r.wellHalts + 1 } else s
  | _, _ => s

/-- The units of one core from number u on, until it stands or its leg ends; `true` while the leg goes on. -/
def State.runUnits (f : UnitStep) (p : Where) (w : BitVec 512) (pos : Nat) : Nat → Nat → State → State × Bool
  | 0, _, s => (s, true)
  | n + 1, u, s =>
    match f p pos u s with
    | (s, .done) => State.runUnits f p w pos n (u + 1) (s.modRunOn p.cl w fun r => { r with done := tset 0 r.done pos (u + 1) })
    | (s, .halt why tile) => (s.haltCore p w pos why tile, true)
    | (s, .ended) => (s, false)

/-- The cores at the given positions run on from their first unit not done. -/
def State.runCores (f : UnitStep) (p : Where) (w : BitVec 512) : List Nat → State → State
  | [], s => s
  | pos :: rest, s =>
    match (s.clu p.cl).runs.find? fun r => r.desc == w with
    | none => s
    | some r =>
      let u := tget 0 r.done pos
      match s.runUnits f p w pos (p.d.unitsAt pos - u) u with
      | (s, true) => State.runCores f p w rest s
      | (s, false) => s

/-- A data-gradient product goes on (03 R86, 04 R110): reduction slice after reduction slice of each output tile, each by the core that owns
it, until a core stands. -/
def State.runChain (f : UnitStep) (p : Where) (w : BitVec 512) : Nat → State → State
  | 0, s => s
  | n + 1, s =>
    match (s.clu p.cl).runs.find? fun r => r.desc == w with
    | none => s
    | some r =>
      let g := (r.done.map Prod.snd).sum
      let pos := g % p.d.n % p.d.cores
      if p.d.m * p.d.k * p.d.n ≤ g || r.halts.any fun h => h.core == p.d.coreAt p.cl pos then s
      else
        let u := tget 0 r.done pos
        match f p pos u s with
        | (s, .done) => State.runChain f p w n (s.modRunOn p.cl w fun r => { r with done := tset 0 r.done pos (u + 1) })
        | (s, .halt why tile) => s.haltCore p w pos why tile
        | (s, .ended) => s

/-- A descriptor runs on the cores of its mask until they are done or stand. -/
def State.runDesc (f : UnitStep) (p : Where) (w : BitVec 512) (s : State) : State :=
  if p.d.kind = 0x11 then s.runChain f p w (p.d.m * p.d.k * p.d.n) else s.runCores f p w (List.range p.d.cores)

/-- A descriptor that fails validation (03 R83): nothing starts, the leg stops with 0x0106, seq and cluster in detail. A sweep or fetch leg
keeps it among the segments to take up again (08 R291). -/
def State.rejectDesc (s : State) (p : Where) : State :=
  let s := s.modClu p.cl fun x => { x with rejected := true }
  let s := s.failLeg p.ctx p.leg 0x0106 (p.d.seq + 2 ^ 16 * p.cl) 1
  s.modLeg p.ctx p.leg fun x =>
    if x.resumes && !(x.resume.any fun r => r.1 == p.cl && r.2.1 == p.w) then { x with resume := x.resume ++ [(p.cl, p.w, [])] } else x

/-- Leg l takes up descriptor w of cluster cl again after an interruption (08 R278, R291): the tiles done by then. -/
def State.resumed (s : State) (p : Where) (w : BitVec 512) : Option (Tbl Nat) :=
  (s.legOf p.ctx p.leg).bind fun g => (g.resume.find? fun r => r.1 == p.cl && r.2.1 == w).map fun r => r.2.2

/-- Tiles that count as done when a descriptor starts: none for a sweep segment, which R278 goes through again, nor for a chain of running
sums. -/
def State.doneBefore (s : State) (p : Where) (w : BitVec 512) : Tbl Nat :=
  if p.d.kind = 0x70 ∨ p.d.kind = 0x11 then [] else (s.resumed p w).getD []

/-- The issue of a descriptor (03 R84): it leaves the queue, its event counter falls by 1, and a run begins. -/
def State.startRun (s : State) (p : Where) (w : BitVec 512) : State :=
  s.modClu p.cl fun x => { x with
    queue := x.queue.drop 1
    events := if p.d.waitEn then tmod 0 x.events p.d.waitEvent (· - 1) else x.events
    runs := x.runs ++ [⟨w, p.d.pipe, p.ctx, p.leg, s.doneBefore p w, [], 0, []⟩] }

/-- One descriptor command: the descriptor at the head of the queue, if its kind is one of `kinds` (or is reserved, which every row
rejects), is rejected, or starts where it may and runs on every core of its mask (03 R83 to R86). -/
def State.descriptor (s : State) (f : UnitStep) (prep : Where → State → State) (kinds : Desc → Bool) (cl : Nat) (w : BitVec 512) : State :=
  let d := decodeDesc w
  match (s.clu cl).leg with
  | none => s
  | some (c, l) =>
    let p : Where := ⟨cl, d, c, l, w⟩
    if !(kinds d || !kindKnown d.kind) || !s.atHead cl w then s
    else if !s.descOk cl (s.legMu c l) d then s.rejectDesc p
    else if !s.mayStart cl d then s
    else (prep p (s.startRun p w)).runDesc f p w

end Sys2Proof.Machine
end

