-- ==== Sys2Proof/Machine/Images.lean ====
section
/-! DEFINITION. The images that waybill buffers carry: placement and step images (11 R391, R392), leg programs (R390), function slots and
recipes (Table 11-7), cellar maps (06 Table 6-3), and the placement digest (08 R257). -/

namespace Sys2Proof.Machine

open Sys2Proof

/-- Why an image is refused (11 R388): a layout error at a byte offset of the buffer (0x0103), or section type and entry index (0x0308). -/
inductive ImgErr where
  | buffer (off : Nat)
  | image (type idx : Nat)
deriving DecidableEq, Repr

/-- Status and detail of an image error (11 Table 11-4). -/
def ImgErr.status : ImgErr → Nat × Nat
  | .buffer off => (0x0103, off)
  | .image type idx => (0x0308, type + 2 ^ 16 * idx)

/-- A section (11 R391). -/
structure Section where
  type  : Nat
  key   : Nat
  count : Nat
  body  : List Byte
deriving DecidableEq, Repr

/-- Entry size of a section type in a placement or step image (11 Table 11-13). -/
def sectionSize (placement : Bool) (type : Nat) : Option Nat :=
  if placement then
    match type with
    | 1 => some 32 | 2 => some 8 | 3 => some 2 | 4 => some 96 | 5 => some 16 | 6 => some 8 | 7 => some 32
    | _ => none
  else
    match type with
    | 0x10 => some 16 | 0x11 => some 4
    | _ => none

/-- Sections from byte `off` on. An unknown type, a wrong entry size or a section listed twice gives 0x0308; an image that the buffer cuts
short gives 0x0103 at the section. -/
def parseSections (placement : Bool) (buf : List Byte) : Nat → Nat → List Section → Except ImgErr (List Section)
  | 0, off, _ => .error (.buffer off)
  | fuel + 1, off, acc =>
    if buf.length < off + 16 then .error (.buffer off)
    else
      let type := natAt buf off 2
      let count := natAt buf (off + 4) 4
      let size := natAt buf (off + 8) 4
      let key := natAt buf (off + 12) 4
      if type = 0 then .ok acc.reverse
      else
        match sectionSize placement type with
        | none => .error (.image type 0)
        | some n =>
          if size ≠ n then .error (.image type 0)
          else if acc.any fun x => x.type == type && (type != 0x11 || x.key == key) then .error (.image type 0)
          else if buf.length < off + 16 + count * n then .error (.buffer off)
          else
            parseSections placement buf fuel (off + 16 + ceilDiv (count * n) 16 * 16)
              (⟨type, key, count, slice buf (off + 16) (count * n)⟩ :: acc)

/-- The sections of an image. -/
def sectionsOf (placement : Bool) (buf : List Byte) : Except ImgErr (List Section) := parseSections placement buf (buf.length / 16 + 1) 0 []

/-- Entry i of a section of entries of n bytes, as a number. -/
def Section.entry (x : Section) (n i : Nat) : Nat := natAt x.body (i * n) n

/-- Bits [lo+len-1:lo] of a number. -/
def bitsOf (v lo len : Nat) : Nat := (v >>> lo) % 2 ^ len

/-- One bit of a number. -/
def bit (v i : Nat) : Bool := bitsOf v i 1 == 1

/-- The entries of the section of a type, as numbers; none when it is absent. -/
def entriesOf (l : List Section) (type n : Nat) : List Nat :=
  match l.find? fun x => x.type == type with
  | some x => (List.range x.count).map (x.entry n)
  | none => []

/-- The first index whose entry fails. -/
def badIndex {α : Type} (l : List α) (ok : α → Bool) : Option Nat := l.findIdx? fun x => !ok x

/-! ### Placements -/

/-- Bits of a cluster mask. -/
def cmask (v : Nat) : BitVec 48 := BitVec.ofNat 48 v

/-- A trained tensor entry (11 Table 11-14). -/
def tensorOf (v : Nat) : Tensor :=
  { master := bitsOf v 0 48, moment1 := bitsOf v 64 48, moment2 := bitsOf v 128 48, working := bitsOf v 192 48, localG := bitsOf v 256 48,
    reduced := bitsOf v 320 48, seals := bitsOf v 384 48, kTiles := bitsOf v 448 16, nTiles := bitsOf v 464 16,
    id := BitVec.ofNat 32 (bitsOf v 480 32), fmt := bitsOf v 512 4, hset := bitsOf v 516 4, frozen := bit v 520, tied := bit v 521 }

/-- A trained tensor entry keeps the rules of 11 R392. -/
def tensorOk (t : Tensor) : Bool :=
  [t.master, t.moment1, t.moment2, t.working, t.localG, t.reduced, t.seals].all (fun a => a % 256 == 0)
    && t.kTiles != 0 && t.nTiles != 0 && decide (2 ≤ t.fmt ∧ t.fmt ≤ 10)

/-- A caravan entry (07 Table 7-10). -/
def caravanOf (v : Nat) : CaravanEntry :=
  { src := bitsOf v 0 48, fmt := bitsOf v 48 4, kTiles := bitsOf v 64 16, nTiles := bitsOf v 80 16, clusters := cmask (bitsOf v 96 48) }

/-- A placement image (11 Table 11-13), with the checks that give 0x0308: 05 R149, R161, 06 R171, 11 R392. -/
def parsePlacement (buf : List Byte) : Except ImgErr Placement :=
  match sectionsOf true buf with
  | .error e => .error e
  | .ok l =>
    match entriesOf l 1 32 with
    | [st] =>
      let layers := bitsOf st 16 16
      let n := bitsOf st 32 13 + 1
      let rank := bitsOf st 48 13
      let buddyEn := bit st 63
      let buddy := bitsOf st 64 13
      let cls := (entriesOf l 2 8).map fun e => (bitsOf e 0 6, bitsOf e 8 7, bitsOf e 16 4)
      let group := (entriesOf l 3 2).map fun e => bitsOf e 0 13
      let tensors := (entriesOf l 4 96).map tensorOf
      let tied := (entriesOf l 5 16).map fun e => (⟨bitsOf e 0 48, bitsOf e 48 16, cmask (bitsOf e 64 48)⟩ : TiedGroup)
      let stash := entriesOf l 6 8
      let caravan := (entriesOf l 7 32).map caravanOf
      if n ≤ rank ∨ bitsOf st 0 6 < bitsOf st 8 6 ∨ (buddyEn ∧ n ≤ buddy) then .error (.image 1 0)
      else
        match badIndex (cls.zipIdx) (fun e => decide (e.1.1 < 48 ∧ e.1.2.1 ≤ 79 ∧ e.1.2.2 ≤ 8) && !((cls.take e.2).any fun x => x.1 == e.1.1)) with
        | some i => .error (.image 2 i)
        | none =>
          if group.length ≠ n then .error (.image 3 group.length)
          else
            match badIndex tensors tensorOk with
            | some i => .error (.image 4 i)
            | none =>
              match badIndex tied (fun t => decide (t.tensor < tensors.length)) with
              | some i => .error (.image 5 i)
              | none =>
                if 256 < stash.length then .error (.image 6 256)
                else
                  match badIndex stash (fun e => decide (bitsOf e 16 2 ≤ 1 ∧ bitsOf e 32 22 ≠ 0 ∧ bitsOf e 0 16 < layers)) with
                  | some i => .error (.image 6 i)
                  | none =>
                    if 1024 < caravan.length then .error (.image 7 1024)
                    else .ok
                      { sections := l.map fun x => x.type, stages := bitsOf st 0 6 + 1, stage := bitsOf st 8 6, layers := layers, n := n, rank := rank,
                        buddyEn := buddyEn, buddy := buddy, clusters := cls, group := group, tensors := tensors, tied := tied,
                        stash := stash.map fun e => ⟨bitsOf e 0 16, bit e 16, bitsOf e 32 22⟩, caravan := caravan }
    | es => .error (.image 1 es.length)

/-- A section in the canonical form (08 R257): header, entries, padding. -/
def canonSection (type size : Nat) (es : List Nat) : List Byte :=
  bytesOfNat 16 (packNat [(0, 16, type), (32, 32, es.length), (64, 32, size)]) ++ padTo 16 (es.flatMap (bytesOfNat size))

/-- A cluster mask as a number. -/
def maskNat (m : BitVec 48) : Nat := m.toNat

/-- The canonical form of a placement (08 R257): own rank and buddy rank read 0, the replica group is the member's current list. -/
def Placement.canon (p : Placement) : List Byte :=
  let sec (type size : Nat) (es : List Nat) : List Byte := if p.sections.contains type then canonSection type size es else []
  sec 1 32 [packNat [(0, 6, p.stages - 1), (8, 6, p.stage), (16, 16, p.layers), (32, 13, p.n - 1), (63, 1, b2n p.buddyEn)]]
    ++ sec 2 8 (p.clusters.map fun c => packNat [(0, 6, c.1), (8, 7, c.2.1), (16, 4, c.2.2)])
    ++ sec 3 2 p.group
    ++ sec 4 96 (p.tensors.map fun t => packNat [(0, 48, t.master), (64, 48, t.moment1), (128, 48, t.moment2), (192, 48, t.working),
        (256, 48, t.localG), (320, 48, t.reduced), (384, 48, t.seals), (448, 16, t.kTiles), (464, 16, t.nTiles), (480, 32, t.id.toNat),
        (512, 4, t.fmt), (516, 4, t.hset), (520, 1, b2n t.frozen), (521, 1, b2n t.tied)])
    ++ sec 5 16 (p.tied.map fun t => packNat [(0, 48, t.buffer), (48, 16, t.tensor), (64, 48, maskNat t.clusters)])
    ++ sec 6 8 (p.stash.map fun e => packNat [(0, 16, e.layer), (16, 2, b2n e.derived), (32, 22, e.sizeKib)])
    ++ sec 7 32 (p.caravan.map fun e => packNat [(0, 48, e.src), (48, 4, e.fmt), (64, 16, e.kTiles), (80, 16, e.nTiles), (96, 48, maskNat e.clusters)])
    ++ bytesOfNat 16 0

/-- The placement digest (08 R257): the seal function over the canonical form. -/
def Placement.digest (p : Placement) : DWord := crc64 p.canon

/-- Shard of rank r in a tensor of k rows among n members (08 R259): first row and rows. -/
def shardRows (k n r : Nat) : Nat × Nat :=
  let q := k / n
  let m := k % n
  (r * q + min r m, q + b2n (decide (r < m)))

/-! ### Step images -/

/-- A step image: its leg list and rosters, with the checks of 11 R391 that need no context: phases, layer order within a phase. A roster
names legs of the list, in leg order (08 R264), or gives 0x0309 with its tensor. -/
def parseStep (buf : List Byte) : Except (Nat × Nat) (List LegEntry × List Roster) :=
  match sectionsOf false buf with
  | .error e => .error e.status
  | .ok l =>
    let raw := entriesOf l 0x10 16
    let legs : List LegEntry := raw.map fun e => ⟨bitsOf e 0 48, bitsOf e 48 3, bitsOf e 64 16, bitsOf e 80 16⟩
    let rosters := (l.filter fun x => x.type == 0x11).map fun x =>
      (⟨BitVec.ofNat 32 x.key, (List.range x.count).map fun i => (bitsOf (x.entry 4 i) 0 16, bitsOf (x.entry 4 i) 16 16)⟩ : Roster)
    let inOrder (e : LegEntry × Nat) : Bool :=
      (legs.take e.2).all fun b => b.phase != e.1.phase || (match e.1.phase with
        | 0 => decide (b.layer ≤ e.1.layer)
        | 1 => decide (e.1.layer ≤ b.layer)
        | _ => true)
    match badIndex legs.zipIdx (fun e => decide (e.1.phase ≤ 4) && inOrder e) with
    | some i => .error (ImgErr.image 0x10 i).status
    | none =>
      let key (e : Nat × Nat) : Nat × Nat × Nat := (((legs[e.1]?).map fun x => x.phase).getD 0, e.1, e.2)
      let le (a b : Nat × Nat × Nat) : Bool := decide (a.1 < b.1 ∨ (a.1 = b.1 ∧ (a.2.1 < b.2.1 ∨ (a.2.1 = b.2.1 ∧ a.2.2 ≤ b.2.2))))
      let ordered (es : List (Nat × Nat)) : Bool := (es.zip (es.drop 1)).all fun p => le (key p.1) (key p.2)
      match rosters.find? fun r => !(r.entries.all (fun e => decide (e.1 < legs.length)) && ordered r.entries) with
      | some r => .error (0x0309, r.tensor.toNat)
      | none => .ok (legs, rosters)

/-! ### Leg programs (11 R390, Table 11-12) -/

/-- A leg program. -/
structure LegProg where
  clusters : List Nat
  energy   : Nat
  time     : Nat
  peak     : Nat
  lists    : List (Nat × List (BitVec 512))
deriving DecidableEq, Repr

/-- The descriptor lists in cluster order; each ends with the one descriptor that has last set. An error is its byte offset. -/
def parseLists (buf : List Byte) : Nat → Nat → List (Nat × Nat) → Except Nat (List (Nat × List (BitVec 512)))
  | _, _, [] => .ok []
  | i, off, (c, n) :: r =>
    if n = 0 then .error (64 + 4 * i)
    else if buf.length < off + 64 * n then .error off
    else
      let ds := (List.range n).map fun j => BitVec.ofNat 512 (natAt buf (off + 64 * j) 64)
      match ds.zipIdx.find? fun e => bitAt e.1 496 != (e.2 + 1 == n) with
      | some e => .error (off + 64 * e.2)
      | none =>
        match parseLists buf (i + 1) (off + 64 * n) r with
        | .error e => .error e
        | .ok l => .ok ((c, ds) :: l)

/-- Bytes of a leg program header and counts. -/
def legHead (clusters : Nat) : Nat := 64 + ceilDiv (4 * clusters) 64 * 64

/-- A leg program image, or the byte offset of its first breach (11 R390). -/
def parseLeg (buf : List Byte) : Except Nat LegProg :=
  if buf.length < 64 then .error buf.length
  else
    let h := natAt buf 0 64
    let cls := setBits (cmask (bitsOf h 0 48))
    if cls.isEmpty then .error 0
    else if buf.length < legHead cls.length then .error buf.length
    else
      let counts := cls.zipIdx.map fun (e : Nat × Nat) => (e.1, natAt buf (64 + 4 * e.2) 4)
      match parseLists buf 0 (legHead cls.length) counts with
      | .error e => .error e
      | .ok l => .ok ⟨cls, bitsOf h 64 32, bitsOf h 96 32, bitsOf h 128 16, l⟩

/-- Bytes of a leg program by its header and counts, before its lists are known to be whole. -/
def legBytes (head : List Byte) : Nat :=
  let cls := setBits (cmask (bitsOf (natAt head 0 64) 0 48))
  legHead cls.length + 64 * ((List.range cls.length).map fun i => natAt head (64 + 4 * i) 4).sum

/-- A leg program read from module memory by the MC (11 R390): header and counts first, then the lists. `none` for a broken layout or an
address that is not readable; a list is bounded by the queue's reach of 2^16 descriptors for each cluster. -/
def State.fetchLeg (s : State) (c a : Nat) : State × Option LegProg :=
  match s.dmaRead c a 64 with
  | (s, none, h) =>
    let n := (setBits (cmask (bitsOf (natAt h 0 64) 0 48))).length
    match s.dmaRead c a (legHead n) with
    | (s, none, head) =>
      if legHead n + 64 * (65536 * n) < legBytes head then (s, none)
      else
        match s.dmaRead c a (legBytes head) with
        | (s, none, bs) => (s, (parseLeg bs).toOption)
        | (s, some _, _) => (s, none)
    | (s, some _, _) => (s, none)
  | (s, some _, _) => (s, none)

/-! ### Function slots, recipes, cellar maps -/

/-- A function table of 3,096 bytes (11 Table 11-7). -/
def fnTableOf (bs : List Byte) (off : Nat) : FnTable :=
  let w (i : Nat) : Word := BitVec.ofNat 32 (natAt bs (off + 4 * i) 4)
  { lo := w 0, w := w 1, a0 := w 2, a1 := w 3, b0 := w 4, b1 := w 5,
    c := (List.range 256).map fun i => (w (6 + 3 * i), w (7 + 3 * i), w (8 + 3 * i)) }

/-- A cellar map entry (06 Table 6-3), with the number it was read from. -/
def mapEntryOf (v : Nat) : MapEntry :=
  { base := bitsOf v 0 48, pages := bitsOf v 64 32, mode := bitsOf v 96 2, hint := bitsOf v 98 2, stash := bit v 100, colOff := bitsOf v 104 7,
    home := cmask (bitsOf v 128 48) }

/-- Reserved fields of a map entry are 0 (06 R172). -/
def mapRsvdOk (v : Nat) : Bool := bitsOf v 48 16 == 0 && bitsOf v 101 3 == 0 && bitsOf v 111 17 == 0 && bitsOf v 176 80 == 0

/-- An entry of a new map of context c keeps the rules of 06 R172; `before` are the entries listed ahead of it. -/
def State.mapEntryOk (s : State) (c : Nat) (before : List MapEntry) (e : MapEntry) : Bool :=
  let stop := e.base + 4096 * e.pages
  let cls := s.homeClusters c e
  let smin := (cls.map fun k => (s.clu k).scratchUnits).foldl min 79
  let inTier := decide (stop ≤ s.tier2Size) || decide (tier3Base ≤ e.base ∧ stop ≤ tier3Base + 2 ^ 44)
  !(before.any fun b => decide (e.base < b.base + 4096 * b.pages ∧ b.base < stop))
    && ((setBits e.home).all fun k => (s.clu k).owner == some c)
    && e.base % 4096 == 0 && e.pages != 0 && decide (e.colOff ≤ 78) && e.mode != 3 && e.hint != 3
    && (!e.stash || (e.mode == 2 && !(before.any fun b => b.stash)))
    && (if e.mode = 2 then decide (0xF80000000000 ≤ e.base ∧ stop ≤ 0xFC0000000000)
          && decide (e.pages ≤ cls.length * 32 * (smin - e.colOff) * 16)
        else inTier)

/-- The index of the first bad entry of a map given as numbers. -/
def State.mapBad (s : State) (c : Nat) : List MapEntry → List Nat → Nat → Option Nat
  | _, [], _ => none
  | before, v :: r, i =>
    let e := mapEntryOf v
    if mapRsvdOk v && s.mapEntryOk c before e then State.mapBad s c (before ++ [e]) r (i + 1) else some i

end Sys2Proof.Machine
end

