-- ==== Sys2Proof/Machine/Gate.lean ====
section
/-! DEFINITION. The tollgate's shared operations: envelope and allowance (10 R332, R333), the hardware shed path (R337), operating points and
levers (R354, R355), step windows (R346, R347), and the widths of ports (09 R310, R311). -/

namespace Sys2Proof.Machine

open Sys2Proof

/-! ### Port widths -/

/-- Healthy-lane mask H of a port (09 R310). -/
def Port.lanes (p : Port) : BitVec 8 := p.own &&& p.peer

/-- Width code of a healthy-lane mask (09 R310, Table 9-11): 4 eight lanes, 3 four, 2 two, 1 one, 0 down. -/
def widthOf (h : BitVec 8) : Nat :=
  if h = 0xFF then 4
  else if h &&& 0x0F = 0x0F ∨ h &&& 0xF0 = 0xF0 then 3
  else if h &&& 0x03 = 0x03 ∨ h &&& 0x0C = 0x0C ∨ h &&& 0x30 = 0x30 ∨ h &&& 0xC0 = 0xC0 then 2
  else if h ≠ 0 then 1
  else 0

/-- The module is at a floor, entering one, or on its way from the deep floor to the retention floor: ports run at width 2 at most (09 R311). -/
def State.atFloor (s : State) : Bool := s.tg.st == 2 || s.tg.st == 3 || s.tg.st == 4 || (s.tg.st == 5 && s.tg.leaving.any fun e => e.2)

/-- The exit from a floor ends (10 R349, Table 10-6): the retention floor stands from then on
where it was the deep floor, else the idle point. -/
def State.settleFloor (s : State) : State :=
  match s.tg.leaving with
  | some (until_, deep) =>
    if s.tg.st = 5 ∧ until_ ≤ s.now then
      let s := { s with tg := { s.tg with leaving := none } }
      if deep then s.setTg 2 else s.setTg 1
    else s
  | none => s

/-- A draw in mW fits the allowance. -/
def State.fits (s : State) (mw : Nat) : Bool := decide ((mw : Rat) ≤ s.tg.allowance * 1000)

/-- The widest code that ports may run at: at a floor 2 (09 R311), else what the link lever leaves (10 Table 10-7). -/
def State.portCap (s : State) : Nat :=
  if s.atFloor then 2
  else if s.fits (Config.basePower 24 0 false 4) then 4
  else if s.fits (Config.basePower 24 0 false 3) then 3
  else 2

/-- The width a port takes now from its mask. -/
def State.widthNow (s : State) (h : BitVec 8) : Nat := min s.portCap (widthOf h)

/-- A port's width set anew; a change pauses the port (09 R310). -/
def State.setWidth (s : State) (p w : Nat) : State :=
  if (s.port p).width = w then s else s.modPort p fun x => { x with width := w, paused := decide (w ≠ 0) && decide (x.width ≠ 0) }

/-- Ports that are up, in ascending order. -/
def State.upPorts (s : State) : List Nat := (List.range 12).filter fun p => (s.port p).width != 0

/-- Every port that is up narrowed to the width it may have now, at a floor 2, or 1 where no pair is healthy (09 R311). -/
def State.narrowPorts (s : State) : State := s.upPorts.foldl (fun s p => s.setWidth p (min (s.port p).width (s.widthNow (s.port p).lanes))) s

/-- Every port that is up at the width it may have now (09 R310). -/
def State.widenPorts (s : State) : State := s.upPorts.foldl (fun s p => s.setWidth p (s.widthNow (s.port p).lanes)) s

/-- Every lane in electrical idle (09 R323, 10 R360): every port down. -/
def State.idleLanes (s : State) : State :=
  (List.range 12).foldl (fun s p => s.modPort p fun x => { x with width := 0, paused := false, training := false }) s

/-! ### The envelope -/

/-- A term of the envelope: a floor or a power in W (10 R332). -/
inductive Term where
  | floor (f : Floor)
  | power (w : Rat)
deriving DecidableEq, Repr

/-- Rank of a term: the deep floor lowest, then the retention floor, then powers by value. -/
def Term.rank : Term → Rat
  | .floor .deep => -2
  | .floor .retention => -1
  | .power w => w

/-- The filtered ENV_SET in mV: the mean of the last 100 samples (10 R339). -/
def State.envMv (s : State) : Rat := (s.tg.samples.sum : Rat) / 100

/-- The filtered value lies in the floor region (10 Table 10-4). -/
def State.envFloor (s : State) : Bool := decide (s.envMv ≤ 500) || decide (2600 < s.envMv)

/-- The ENV_SET term (10 Table 10-4). -/
def State.envTerm (s : State) : Term :=
  if s.envFloor then .floor (if s.tg.cfg.envFloor then .deep else .retention)
  else if s.envMv < 2500 then .power (380 + (s.envMv - 500) * 1460 / 1000)
  else .power 3300

/-- The digital term (10 R340). -/
def State.digitalTerm (s : State) : Term :=
  if s.tg.deep then .floor .deep else if s.tg.digitalW < 380 then .floor .retention else .power s.tg.digitalW

/-- The terms in force, with their codes of TG_STATUS.bind (10 Tables 10-3 and 10-13). -/
def State.terms (s : State) : List (Nat × Term) :=
  [(0, .power 3300)]
    ++ (if s.tg.cfg.envSrc = 0 ∨ s.tg.cfg.envSrc = 2 then [(1, s.envTerm)] else [])
    ++ (if s.tg.cfg.envSrc = 1 ∨ s.tg.cfg.envSrc = 2 then [(2, s.digitalTerm)] else [])
    ++ (if s.tg.shed || s.tg.cmdShed then [(3, .floor (if s.tg.cfg.shedFloor then .deep else .retention))] else [])
    ++ (match s.heat.cap with
        | some w => [(4, if w ≤ 380 then .floor .retention else .power w)]
        | none => [])
    ++ (if s.tg.inputTerm then [(5, .floor .retention)] else [])

/-- The lower of two terms; the earlier code where they are equal. -/
def lowerTerm (a b : Nat × Term) : Nat × Term := if b.2.rank < a.2.rank then b else a

/-- The envelope and the code of its lowest term (10 R332). -/
def State.envelope (s : State) : Nat × Term := s.terms.foldl lowerTerm (0, .power 3300)

/-- A floor's power in W (10 Table 10-1). -/
def floorPower : Floor → Rat
  | .retention => 380
  | .deep => 150

/-! ### Operating points -/

/-- Operating points from the highest down: lever 1 steps the clock, lever 2 parks clusters (10 Table 10-7). -/
def opList : List (Nat × Nat) := ((List.range 53).map fun i => (76 - i, 48)) ++ (List.range 48).map fun i => (24, 47 - i)

/-- Estimated draw in mW of a clock and a count of running clusters, at their full power (10 R354, R362; log 8). -/
def opDraw (clock clusters : Nat) : Nat := Config.basePower clock clusters true 4 + Config.estPower 0 0 clusters clock

/-- The operating point of the allowance: clock in 25 MHz steps and running clusters (10 R354). -/
def State.opPoint (s : State) : Nat × Nat := (opList.find? fun o => s.fits (opDraw o.1 o.2)).getD (24, 0)

/-- Clusters held (10 R337). -/
def State.holdCluster (s : State) (k : Nat) : State := s.modClu k fun x => { x with held := true }

/-- A cluster released. -/
def State.releaseCluster (s : State) (k : Nat) : State := s.modClu k fun x => { x with held := false }

/-- Every cluster held. -/
def State.holdAll (s : State) : State := (List.range 48).foldl State.holdCluster s

/-- Clusters that run, ascending. -/
def State.running (s : State) : List Nat := (List.range 48).filter fun k => !(s.clu k).held

/-- Clusters with a leg, ascending. -/
def State.workClusters (s : State) : List Nat := (List.range 48).filter fun k => (s.clu k).leg.isSome

/-- Every stack into or out of self-refresh. -/
def State.selfRefresh (s : State) (on : Bool) : State := (List.range 16).foldl (fun s h => s.modStack h fun x => { x with selfRefresh := on }) s

/-- Levers of a decrease (10 R354): clocks first, then clusters held in descending order, then HBM and links where the idle draw does not
fit. -/
def State.applyDown (s : State) : State :=
  let (ck, n) := s.opPoint
  let s := (List.range 48).foldl (fun s k => s.modClu k fun x => { x with target := min x.target ck }) s
  let s := (s.running.drop n).foldl State.holdCluster s
  (if s.fits (Config.basePower 24 0 true 4) then s else s.selfRefresh true).narrowPorts

/-- Clusters with work run, `turn` of them, and of those without work at most as many as leave no more than n running (10 R354, R355). -/
def State.runWork (s : State) (turn : List Nat) (n : Nat) : State :=
  let idle := s.running.filter fun k => (s.clu k).leg.isNone
  let s := (idle.drop (n - turn.length)).foldl State.holdCluster s
  turn.foldl State.releaseCluster s

/-- Levers of an increase, at the start of an owned slot (10 R347, R354): links and HBM, then clusters with work released in ascending order,
then clocks. At a floor ports alone widen, within their width there. A throttled cluster keeps its clock. -/
def State.applyUp (s : State) : State :=
  let s := s.widenPorts
  if s.tg.st ≠ 0 ∧ s.tg.st ≠ 1 then s
  else
    let (ck, n) := s.opPoint
    let s := if s.fits (Config.basePower 24 0 true 4) then s.selfRefresh false else s
    let work := s.workClusters
    if work.isEmpty then s
    else
      let s := if n = 0 then s else s.setTg 0
      let ran := work.filter fun k => !(s.clu k).held
      let more := (work.filter fun k => (s.clu k).held).take (n - ran.length)
      let s := if more.isEmpty then s else s.runWork (ran ++ more) n
      (List.range 48).foldl (fun s k => s.modClu k fun x => if x.throttled then x else { x with target := ck }) s

/-! ### Floors -/

/-- The hardware shed path (10 R337): admission stops, clusters are held, stacks go to self-refresh, ports narrow, host DMA pauses; a
self-test in progress stops (R352). -/
def State.shedPath (s : State) (f : Floor) : State :=
  let s := { s with tg := { s.tg with admitStop := true, dmaPaused := true, entering := some f, shedWork := s.mc.tests.map fun (t : TestRun) => t.unit } }
  let s := (List.range 4).foldl (fun s c => if (s.cx c).live then s.park c else s) s
  ((s.setTg 4).holdAll.selfRefresh true).narrowPorts

/-- Bring-up is complete (13 Table 13-1, step 14). -/
def State.bringupDone (s : State) : Bool := s.mc.bringup == 14 && s.mc.resetting.isNone

/-- The allowance and the floors after a change of a term (10 R333, R349): a fall of E takes effect at once, a floor sets A to its power,
150 W at the deep floor alone, and starts the shed path; a floor already reached or being entered stands. A floor asked for during bring-up waits for
step 14 (13 R446). -/
def State.react (s : State) : State :=
  let s := { s with tg := { s.tg with bind := s.envelope.1 } }
  match s.envelope.2 with
  | .power w =>
    if w < s.tg.allowance then { s with tg := { s.tg with allowance := w } }.applyDown else s
  | .floor f =>
    if !s.bringupDone then s else
    let s := if s.tg.st = 3 then (if f = .deep then { s with tg := { s.tg with allowance := floorPower .deep } } else s)
      else { s with tg := { s.tg with allowance := floorPower .retention } }
    let fromDeep := decide (s.tg.st = 5) && s.tg.leaving.any fun e => e.2
    if s.tg.st = 0 ∨ s.tg.st = 1 ∨ (s.tg.st = 5 ∧ !fromDeep) then { s with tg := { s.tg with leaving := none } }.shedPath f
    else if (s.tg.st = 2 ∨ s.tg.st = 4 ∨ fromDeep) ∧ f = .deep then { s with tg := { s.tg with entering := some .deep } }
    else s

/-- The digital setpoint written (10 R340, R341): the lease restarts. -/
def State.writeSetpoint (s : State) (w : Nat) (deep : Bool) (t : Nat) : State :=
  { s with tg := { s.tg with digitalW := w, deep := deep, setAt := t, leaseArmed := true, leaseExpired := false } }.react

/-- The owned beat slot (10 R346). -/
def State.ownedSlot (s : State) : Nat := if s.tg.cfg.slotEn then s.tg.cfg.slot else s.fab.moduleId % 64

/-- Time t lies in the step window: the first 100 µs of the owned slot (10 R347). -/
def State.inWindow (s : State) (t : Nat) : Bool := s.beat.slot == s.ownedSlot && decide (s.beat.slotAt ≤ t ∧ t < s.beat.slotAt + 100000)

/-- A port may widen now: during bring-up, or in a step window (10 R347). -/
def State.mayWiden (s : State) : Bool := !s.bringupDone || s.inWindow s.now

end Sys2Proof.Machine
end

