-- ==== Sys2Proof/Machine/Links.lean ====
section
/-! DEFINITION. Ports and routing (09 R300 to R315): flits, credits, replay, routes, and the start of a targeted self-test (12 R416), which
links need as well. -/

namespace Sys2Proof

open Sys2Proof.Machine

/-- Destination module of a route header (09 Table 9-5). -/
def Packet.dst (p : Packet) : Nat := fld p.hdr 0 13
/-- Source module. -/
def Packet.src (p : Packet) : Nat := fld p.hdr 13 13
/-- Destination context. -/
def Packet.ctx (p : Packet) : Nat := fld p.hdr 26 2
/-- type. -/
def Packet.type (p : Packet) : Nat := fld p.hdr 28 4
/-- alt. -/
def Packet.alt (p : Packet) : Bool := p.hdr.getLsbD 36
/-- hclass. -/
def Packet.hclass (p : Packet) : Bool := p.hdr.getLsbD 37
/-- addr. -/
def Packet.addr (p : Packet) : Nat := fld p.hdr 40 48
/-- hops. -/
def Packet.hops (p : Packet) : Nat := fld p.hdr 88 8
/-- gen. -/
def Packet.gen (p : Packet) : Nat := fld p.hdr 96 8
/-- step8. -/
def Packet.step8 (p : Packet) : Nat := fld p.hdr 104 8
/-- tag. -/
def Packet.tag (p : Packet) : Nat := fld p.hdr 112 16

end Sys2Proof

namespace Sys2Proof.Machine

open Sys2Proof

/-! ### Targeted self-tests (12 R416, R418) -/

/-- A lane leaves its port's width. -/
def State.laneOut (s : State) (p l : Nat) : State :=
  let s := s.modPort p fun x => { x with own := x.own &&& ~~~(BitVec.ofNat 8 (2 ^ l)) }
  if (s.port p).width = 0 then s else s.setWidth p (min (s.port p).width (s.widthNow (s.port p).lanes))

/-- A targeted self-test starts (12 R416): a unit has at most one, and an error in a unit under test joins it (R418). A lane under test
leaves its port's width; the lanes of a suspect port (`info` 1) are tested one after another, and the port stays up (09 R308), until one of them
goes down by itself (09 R309). -/
def State.startTest (s : State) (u : TestUnit) (kind info : Nat) (w : Option Waybill) : State :=
  if s.underTest u then
    match u with
    | .lane p l => if info = 1 then s else
        ({ s with mc := { s.mc with tests := s.mc.tests.map fun (t : TestRun) => if t.unit = u then { t with info := 0 } else t } }).laneOut p l
    | _ => s
  else
    let s := { s with mc := { s.mc with tests := s.mc.tests ++ [⟨u, kind, info, w⟩] } }
    match u with
    | .lane p l => if info = 1 then s else s.laneOut p l
    | _ => s

/-! ### Flits -/

/-- A route header with its hop count and class (09 R306, R313). -/
def hopPacket (p : Packet) (hops : Nat) (cls : Bool) : Packet :=
  { p with hdr := BitVec.ofNat 128 (p.hdr.toNat - 2 ^ 88 * (fld p.hdr 88 8) - 2 ^ 37 * (fld p.hdr 37 1) + 2 ^ 88 * (hops % 256) + b2n cls * 2 ^ 37) }

/-- A packet of this module (09 Table 9-5). -/
def mkPacket (dst src ctx type vc addr gen step8 tag : Nat) (data : List Line) : Packet :=
  ⟨pack 128 [(0, 13, dst), (13, 13, src), (26, 2, ctx), (28, 4, type), (32, 4, data.length - 1), (40, 48, addr), (96, 8, gen), (104, 8, step8),
    (112, 16, tag)], vc, data⟩

/-- Flit bodies of a packet (09 R303): header and lines without gaps. -/
def packetBodies (p : Packet) : List (List Byte) := chunks 248 18 (bytesOfNat 16 p.hdr.toNat ++ p.data.flatMap lineBytes)

/-- A data flit (09 Tables 9-3 and 9-4): `ack` the acknowledged seq, once there is one, `back` the virtual channel and the number of eights of
the credits it returns. -/
def mkFlit (seq vc : Nat) (ack : Option Nat) (back : Nat × Nat) (head tail : Bool) (body : List Byte) : BitVec 2048 :=
  let bs := bytesOfNat 4 (packNat [(0, 11, seq), (11, 2, vc), (13, 1, b2n head), (14, 1, b2n tail), (16, 11, ack.getD 0), (27, 1, b2n ack.isSome),
    (28, 2, back.1), (30, 2, back.2)]) ++ slice body 0 248
  lineOf (bs ++ bytesOfNat 4 (crc32 bs).toNat)

/-- Position of a virtual channel and hop class among a port's credit counts. -/
def creditAt (p : Packet) : Nat := p.vc * 2 + b2n p.hclass

/-- A port sends flits: it is up, not paused and not training (09 R305, R310). -/
def Port.sends (x : Port) : Bool := x.width != 0 && !x.paused && !x.training

/-- Flits of the own receive buffers, by virtual channel and hop class (09 Table 9-6). -/
def ownCredits : List Nat := [192, 192, 128, 128, 16, 16, 64, 64]

/-- Receive buffers with nothing in them. -/
def noFlits : List Nat := List.replicate 8 0

/-- Flits of each receive buffer that the packets in it hold (09 R304). -/
def flitsOf (l : List Packet) : List Nat :=
  l.foldl (fun c p => c.set (creditAt p) (c.getD (creditAt p) 0 + (packetBodies p).length)) noFlits

/-- Flits that leave a receive buffer: their credits are to be returned (09 R305). -/
def Port.freed (x : Port) (i k : Nat) : Port :=
  { x with occupied := x.occupied.set i (x.occupied.getD i 0 - k), owed := x.owed.set i (x.owed.getD i 0 + k) }

/-- Acknowledged seq of a port: the highest received in order, once a flit has been (09 Table 9-4). -/
def Port.ackSeq (x : Port) : Option Nat := if x.rxAny then some ((x.rxSeq + 2047) % 2048) else none

/-- Credits that the next flit returns: a position with eight or more owed, and how many eights, at most three (09 Table 9-4). -/
def Port.giveBack (x : Port) : Nat × Nat :=
  match (List.range 8).find? fun i => decide (8 ≤ x.owed.getD i 0) with
  | some i => (i, min 3 (x.owed.getD i 0 / 8))
  | none => (0, 0)

/-- A credit for the next flit of a packet. Of virtual channel 1, 64 flits are for read responses only, half in each class (09 Table 9-6). -/
def Port.hasCredit (x : Port) (p : Packet) : Bool :=
  let n := x.credits.getD (creditAt p) 0
  if p.vc = 1 ∧ p.type ≠ 3 then decide (32 < n) else decide (0 < n)

/-- A packet may send its next flit: no packet of its virtual channel is under way, and no earlier one of its class and origin waits (09 R303,
R313). -/
def mayFollow (me : Nat) (l : List (Packet × Nat)) (e : Packet × Nat) (i : Nat) : Bool :=
  e.2 != 0 || !(l.zipIdx.any fun q => q.1.1.vc == e.1.vc
    && (q.1.2 != 0 || (decide (q.2 < i) && q.1.1.hclass == e.1.hclass && (q.1.1.src == me) == (e.1.src == me))))

/-- The packet of the queue `l` that sends the next flit (01 Table 1-5): virtual channel 2 first, then transit and local flits in turn. Among
those of one kind the first in the queue goes (DESIGN CHOICE, log 101). -/
def Port.nextFlit (x : Port) (me : Nat) (l : List (Packet × Nat)) : Option Nat :=
  let ready := l.zipIdx.filter fun e => x.hasCredit e.1.1 && mayFollow me l e.1 e.2
  let pick (f : Packet → Bool) : Option Nat := (ready.find? fun e => f e.1.1).map Prod.snd
  match pick fun p => p.vc == 2 with
  | some i => some i
  | none =>
    match pick fun p => (p.src == me) != x.lastLocal with
    | some i => some i
    | none => pick fun _ => true

/-! ### Routes (09 R312 to R314) -/

/-- Dimensions of the fabric. -/
def Fabric.dims (f : Fabric) : List Nat := [f.dx, f.dy, f.dz]

/-- Coordinates of a module ID (09 R314). -/
def Fabric.coords (f : Fabric) (id : Nat) : List Nat := [id % f.dx, id / f.dx % f.dy, id / (f.dx * f.dy)]

/-- Default output of a destination: dimension and direction (`true` for +); none for an ID outside the torus or this module's own. -/
def Fabric.defaultHop (f : Fabric) (dst : Nat) : Option (Nat × Bool) :=
  if f.dx * f.dy * f.dz ≤ dst then none
  else
    (List.range 3).findSome? fun i =>
      let d := f.dims.getD i 1
      let me := (f.coords f.moduleId).getD i 0
      let dest := (f.coords dst).getD i 0
      if me = dest then none else some (i, decide (2 * ((dest + d - me % d) % d) ≤ d))

/-- Candidates A and B of a destination and the spread bit; none when it is unreachable. -/
def Fabric.candidates (f : Fabric) (dst : Nat) : Option (List Nat × Bool) :=
  if f.loaded then
    let e := tget 0 f.table dst
    if bitAt e 9 then some ([fld e 0 4, fld e 4 4], bitAt e 8) else none
  else (f.defaultHop dst).map fun h => let p := 2 * h.1 + b2n (!h.2); ([p, p + 6], true)

/-- Port n crosses the dateline of its dimension: marked by the loaded table, or by the default rule (09 R306, R314). -/
def State.isDateline (s : State) (n : Nat) : Bool :=
  if s.fab.loaded then (s.port n).dateline
  else
    let d := s.fab.dims.getD (n % 6 / 2) 1
    let me := (s.fab.coords s.fab.moduleId).getD (n % 6 / 2) 0
    decide (1 < d) && (if n % 2 = 0 then me + 1 == d else me == 0)

/-- The hop class a packet leaves port n with (09 R306). Under default routing a packet changes dimension where it has made no hop in the
new one: this module's coordinate is still the source's. -/
def State.outClass (s : State) (p : Packet) (n : Nat) : Bool :=
  let i := n % 6 / 2
  let fresh := !s.fab.loaded && (s.fab.coords s.fab.moduleId).getD i 0 == (s.fab.coords p.src).getD i 0
  s.isDateline n || (p.hclass && !fresh)

/-- The queue of port n as it leaves: a packet not yet begun with its next hop (09 R306, R313). -/
def State.leaving (s : State) (n : Nat) : List (Packet × Nat) :=
  (s.port n).waiting.map fun e => if e.2 = 0 then (hopPacket e.1 (e.1.hops + 1) (s.outClass e.1 n), 0) else e

/-- One data flit of a queue sent: it takes a credit and a seq, returns credits, and stays for replay until it is acknowledged (09 R305, R307). -/
def State.sendFlit (s : State) (n i : Nat) : State :=
  let x := s.port n
  match (s.leaving n)[i]? with
  | none => s
  | some (p, k) =>
    let bs := packetBodies p
    let (j, eights) := x.giveBack
    let f := mkFlit x.txSeq p.vc x.ackSeq (j / 2, eights) (k == 0) (k + 1 == bs.length) (bs.getD k [])
    let s := s.modPort n fun x => { x with
      txSeq := (x.txSeq + 1) % 2048
      replay := x.replay ++ [(x.txSeq, f, creditAt p)]
      credits := x.credits.set (creditAt p) (x.credits.getD (creditAt p) 0 - 1)
      owed := x.owed.set j (x.owed.getD j 0 - 8 * eights)
      lastLocal := if p.vc = 2 then x.lastLocal else p.src == s.fab.moduleId
      waiting := if k + 1 < bs.length then x.waiting.set i (p, k + 1) else x.waiting.eraseIdx i }
    s.emit (.flit n f)

/-- Flits sent while credits and replay room last (09 R305, R307). -/
def State.pump (s : State) (n : Nat) : Nat → State
  | 0 => s
  | fuel + 1 =>
    let x := s.port n
    if !x.sends || decide (1024 ≤ x.replay.length) then s
    else
      match x.nextFlit s.fab.moduleId (s.leaving n) with
      | none => s
      | some i => (s.sendFlit n i).pump n fuel

/-- Every flit that port n can send now. -/
def State.pumpAll (s : State) (n : Nat) : State := s.pump n ((s.port n).waiting.length * 18)

/-- A packet discarded as unreachable (09 R313): counted, and a read request is answered. -/
def State.discard (s : State) (p : Packet) : State :=
  let s := { s with fab := { s.fab with unreachable := satAdd 0xFFFF s.fab.unreachable 1 } }
  if p.type = 2 then s.emit (.send p.ctx p.src (.unreachable p.tag)) else s

/-- The output port of a packet (09 R313): `none` holds it. -/
def State.outPort (s : State) (p : Packet) (cands : List Nat) (spread : Bool) : Option Nat :=
  let order := if p.alt then cands.reverse else cands
  let usable := order.filter fun n => decide (n < 12) && (s.port n).width != 0
  let clean := usable.filter fun n => !(s.port n).suspect
  let prefer := if clean.isEmpty then usable else clean
  match prefer with
  | [] => none
  | a :: r =>
    match r with
    | b :: _ => some (if spread && (p.vc == 0 || p.vc == 3) && (p.addr / 4096 ^^^ p.src) % 2 == 1 then b else a)
    | [] => some a

/-- One hop of a packet (09 R313, R325). -/
def State.route (s : State) (p : Packet) : State :=
  if p.dst = s.fab.moduleId then s.emit (.toRing p)
  else if s.fab.lost.contains p.dst || s.fab.departed.contains p.dst then s.discard p
  else
    match s.fab.candidates p.dst with
    | none => s.discard p
    | some (cands, spread) =>
      if p.hops = 64 then s.discard p
      else
        match s.outPort p cands spread with
        | none => { s with fab := { s.fab with holding := s.fab.holding ++ [(p, s.now)] } }
        | some n => (s.modPort n fun x => { x with waiting := x.waiting ++ [(p, 0)] }).pumpAll n

/-- Held packets tried again once a port is up. -/
def State.routeHeld (s : State) : State :=
  let l := s.fab.holding
  l.foldl (fun s e =>
    match s.fab.candidates e.1.dst with
    | some (cands, spread) => if (s.outPort e.1 cands spread).isSome
        then { s with fab := { s.fab with holding := s.fab.holding.erase e } }.route e.1 else s
    | none => s) s

/-- The packets of port n that have not begun to leave find their way anew (09 R310, R312). -/
def State.requeue (s : State) (n : Nat) : State :=
  let l := (s.port n).waiting.filterMap fun e => if e.2 = 0 then some e.1 else none
  l.foldl State.route (s.modPort n fun x => { x with waiting := x.waiting.filter fun e => e.2 != 0 })

/-- Every packet that has not begun to leave takes the routes as they are now (09 R312, R325). -/
def State.requeueAll (s : State) : State := ((List.range 12).foldl State.requeue s).routeHeld

/-- A packet that a port has received leaves its buffer (09 R305). -/
def State.takeBuffered (s : State) (p : Packet) : State :=
  match (List.range 12).find? fun n => (s.port n).got.contains p with
  | none => s
  | some n => s.modPort n fun x => ({ x with got := x.got.erase p }).freed (creditAt p) (packetBodies p).length

/-! ### Replay and suspicion (09 R307, R308) -/

/-- A lane of port p is under the self-test of a suspect port (09 R308). -/
def State.suspectTest (s : State) (p : Nat) : Bool :=
  s.mc.tests.any fun t => t.info == 1 && (match t.unit with | .lane q _ => q == p | _ => false)

/-- A port marked suspect, with the self-test of its lanes (09 R308); one that runs already goes on. -/
def State.markSuspect (s : State) (n : Nat) : State :=
  if (s.port n).suspect && s.suspectTest n then s
  else
    let s := s.modPort n fun x => { x with suspect := true, laneFailed := false }
    (setBits (s.port n).own).foldl (fun s l => s.startTest (.lane n l) 0x0A 1 none) s

/-- One replay counted; the seventeenth within 1 ms marks the port. -/
def State.noteReplay (s : State) (n : Nat) : State :=
  let s := s.modPort n fun x => { x with
    replays := satAdd 0xFFFF x.replays 1
    replayTimes := (x.replayTimes.filter fun u => decide (s.now < u + 1000000)) ++ [s.now] }
  if 16 < (s.port n).replayTimes.length then s.markSuspect n else s

/-- Unacknowledged flits sent again in order, once the port sends. -/
def State.resendFlits (s : State) (n : Nat) : State :=
  if (s.port n).sends then (s.port n).replay.foldl (fun s e => s.emit (.flit n e.2.1)) s else s

/-- Flits up to the acknowledged seq leave the replay buffer. -/
def Port.acked (x : Port) (a : Nat) : Port :=
  match x.replay.findIdx? fun e => e.1 == a with
  | some i => { x with replay := x.replay.drop (i + 1) }
  | none => x

/-- Room left in the receive buffers of a port (09 R304). -/
def Port.room (x : Port) : List Nat := (List.range 8).map fun i => ownCredits.getD i 0 - x.occupied.getD i 0

/-- A control flit of port n (09 R302), with the credit counts as they stand. A paused port sends none (R310). -/
def State.controlFlit (s : State) (n : Nat) : State :=
  let x := s.port n
  if !x.sends then s
  else (s.modPort n fun x => { x with owed := noFlits }).emit (.control n ⟨x.ackSeq, if x.nakSent then some x.rxSeq else none, x.room⟩)

/-- Credits of a port from the counts at the next hop: flits not yet acknowledged are not in them (09 R302, R305). -/
def Port.creditsFrom (x : Port) (counts : List Nat) : List Nat :=
  (List.range 8).map fun i => counts.getD i 0 - (x.replay.filter fun e => e.2.2 == i).length

/-- A NAK asked for (09 R307 rule 2). -/
def State.sendNak (s : State) (n : Nat) : State := ((s.modPort n fun x => { x with nakSent := true }).controlFlit n).noteReplay n

/-- The packet whose flit bodies are `bs` (09 R303, Table 9-5); one flit has no room for a data line. -/
def packetOf (vc : Nat) (bs : List Byte) : Packet :=
  let hdr := BitVec.ofNat 128 (natAt bs 0 16)
  let n := fld hdr 32 4 + 1
  ⟨hdr, vc, if bs.length < 16 + 256 * n then [] else (List.range n).map fun i => lineOf (slice bs (16 + 256 * i) 256)⟩

/-- An accepted flit enters the receive buffer of its virtual channel, and with its tail the packet is there (09 R303, R304). A management packet
for this module goes to the ring at once: its sink always accepts (R305). -/
def State.storeFlit (s : State) (n : Nat) (flit : BitVec 2048) : State :=
  let vc := fld flit 11 2
  let before := if bitAt flit 13 then [] else tget [] (s.port n).asm vc
  let bs := before ++ slice (lineBytes flit) 4 248
  let p := packetOf vc bs
  let i := creditAt p
  let s := s.modPort n fun x => { x with asm := tset [] x.asm vc bs, occupied := x.occupied.set i (x.occupied.getD i 0 + 1) }
  if !bitAt flit 14 then s
  else
    let s := s.modPort n fun x => { x with asm := tset [] x.asm vc [], got := x.got ++ [p] }
    if vc = 2 ∧ p.dst = s.fab.moduleId then (s.takeBuffered p).emit (.toRing p) else s

/-- FLIT_RECEIVE (09 R307): a flit in sequence is accepted, with its acknowledgement, its credits and its part of a packet; a failed CRC or a gap
sends a NAK. The link word does not name the hop class of its credits: a free value chooses it (log 2). -/
def execFlitReceive (port : Nat) (flit : BitVec 2048) (t : Nat) (s : State) : Host.Outcome State Fault Refusal :=
  let s := s.tick t
  let x := s.port port
  let bs := lineBytes flit
  .next (
    if x.width = 0 ∨ 12 ≤ port then s
    else if crc32 (slice bs 0 252) ≠ BitVec.ofNat 32 (natAt bs 252 4) then
      (s.modPort port fun x => { x with fecBad := satAdd 0xFFFF x.fecBad 1 }).sendNak port
    else if bitAt flit 15 then s
    else if fld flit 0 11 = x.rxSeq then
      let (v, s) := s.free
      let i := fld flit 28 2 * 2 + fld v 0 1
      let s := s.modPort port fun x =>
        let x := { x with rxSeq := (x.rxSeq + 1) % 2048, nakSent := false, rxAny := true,
                          credits := x.credits.set i (x.credits.getD i 0 + 8 * fld flit 30 2) }
        if bitAt flit 27 then x.acked (fld flit 16 11) else x
      (s.storeFlit port flit).pumpAll port
    else if x.nakSent || decide ((fld flit 0 11 + 2048 - x.rxSeq) % 2048 ≥ 1024) then s
    else s.sendNak port)

/-- CONTROL_FLIT_RECEIVE (09 R302, R307): acknowledgement, NAK and credit counts. -/
def execControlFlitReceive (port : Nat) (c : CtlFlit) (t : Nat) (s : State) : Host.Outcome State Fault Refusal :=
  let s := s.tick t
  .next (
    if (s.port port).width = 0 ∨ 12 ≤ port then s
    else
      let s := match c.ack with
        | some a => s.modPort port fun x => x.acked a
        | none => s
      let s := match c.nak with
        | some e => ((s.modPort port fun x => x.acked ((e + 2047) % 2048)).resendFlits port).noteReplay port
        | none => s
      let s := s.modPort port fun x => { x with credits := x.creditsFrom c.credits }
      s.pumpAll port)

/-- CONTROL_FLIT_SEND (09 R302). -/
def execControlFlitSend (port : Nat) (s : State) : Host.Outcome State Fault Refusal :=
  .next (if (s.port port).sends ∧ port < 12 then s.controlFlit port else s)

/-- REPLAY_TIMEOUT (09 R307 rule 4). -/
def execReplayTimeout (port : Nat) (t : Nat) (s : State) : Host.Outcome State Fault Refusal :=
  let s := s.tick t
  .next (if (s.port port).replay.isEmpty || !(s.port port).sends then s else (s.resendFlits port).noteReplay port)

/-! ### Widths (09 R309 to R311) -/

/-- A port whose link is gone: what was in flight on it is lost; whole packets stay in its receive buffers. -/
def Port.linkLost (x : Port) : Port :=
  { x with waiting := x.waiting.filter fun e => e.2 == 0, replay := [], nakSent := false, rxAny := false, asm := [], occupied := flitsOf x.got, owed := noFlits }

/-- A port goes down: packets not yet begun find another way, and what was in flight on it is lost. -/
def State.portDown (s : State) (n : Nat) : State :=
  (s.modPort n fun x => { x.linkLost with width := 0, paused := false, downSince := some s.now }).requeue n

/-- LANE_DOWN (09 R309): the lane leaves the width and is self-tested; with its last lane the port is down. -/
def execLaneDown (port : Nat) (lane : Nat) (t : Nat) (s : State) : Host.Outcome State Fault Refusal :=
  let s := s.tick t
  .next (
    if 12 ≤ port ∨ 8 ≤ lane ∨ !bitAt (s.port port).own lane then s
    else
      let up := (s.port port).width != 0
      let s := s.startTest (.lane port lane) 0x0A 0 none
      if up && (s.port port).width == 0 then s.portDown port else s)

/-- WIDTH_CHANGE_COMPLETE (09 R310): the pause ends, credits are set and flits in flight are replayed. -/
def execWidthChangeComplete (port : Nat) (credits : List Nat) (s : State) : Host.Outcome State Fault Refusal :=
  .next (
    if !(s.port port).paused then s
    else
      let s := s.modPort port fun x => { x with paused := false, credits := x.creditsFrom credits }
      let s := if (s.port port).nakSent then s.controlFlit port else s
      (s.resendFlits port).pumpAll port)

/-- PORT_RETRAIN waybills of a port end with its training (11 Table 11-10). -/
def State.endRetrain (s : State) (n : Nat) : State :=
  (s.host.wbs.filter fun e => e.started && e.wb.op == 0x4003 && e.wb.p 0 4 == n).foldl (fun s e => s.finish e.wb 0 0 0) s

/-- PORT_TRAINING_COMPLETE (09 R299, R310): IDs, lane masks and credits are exchanged and the width is set; the neighbour is back if it had
departed or been lost (09 R326). A lane that has failed its training is self-tested (R309). A port of a module past step 8 trains only while it is down
or in training; one that was up keeps its flits in flight, and widens in a step window only (10 R347). -/
def execPortTrainingComplete (port : Nat) (own : BitVec 8) (peer : BitVec 8) (peerId : Nat) (credits : List Nat) (s : State) :
    Host.Outcome State Fault Refusal :=
  let x := s.port port
  .next (
    if 12 ≤ port ∨ !(x.training || x.width == 0) ∨ s.tg.st = 3 ∨ s.fab.selfDeparted then s
    else
      let kept := x.training && x.width != 0
      let s := s.modPort port fun x => { x with
        own := own &&& ~~~x.retired, peer := peer, peerId := peerId % 8192, peerAlive := true, departed := false, training := false, paused := false,
        txSeq := if kept then x.txSeq else 0, rxSeq := if kept then x.rxSeq else 0, nakSent := false, downSince := none }
      let s := if kept then s else s.modPort port Port.linkLost
      let s := s.modPort port fun x => { x with credits := x.creditsFrom credits, owed := noFlits }
      let s := s.modPort port fun x => { x with
        width := if kept && !s.mayWiden then min x.width (s.widthNow x.lanes) else s.widthNow x.lanes }
      let s := ((List.range 8).filter fun l => !bitAt (own ||| x.retired) l && !s.underTest (.lane port l)).foldl
        (fun s l => s.startTest (.lane port l) 0x0A 0 none) s
      let s :=
        if (s.port port).width = 0 then s.modPort port fun x => { x with downSince := some s.now }
        else
          let m := peerId % 8192
          let back := s.fab.departed.contains m
          let s := { s with fab := { s.fab with
            departed := s.fab.departed.filter fun d => d != m, lost := s.fab.lost.filter fun d => d != m, isolated := false } }
          let s := if back then (List.range 4).foldl (fun s c => s.modCx c fun x => { x with
              departed := x.departed.filter fun r => (x.place.map fun p => p.group.getD r 8192) != some m }) s
            else s
          ((s.resendFlits port).pumpAll port).routeHeld
      s.endRetrain port)

/-- PACKET_ROUTE (09 R313): a packet received leaves its buffer. -/
def execPacketRoute (p : Packet) (t : Nat) (s : State) : Host.Outcome State Fault Refusal := .next (((s.tick t).takeBuffered p).route p)

/-- HELD_PACKET_TIMEOUT (09 R313): a packet held 100 µs is discarded and counted. -/
def execHeldPacketTimeout (p : Packet) (t : Nat) (s : State) : Host.Outcome State Fault Refusal :=
  let s := s.tick t
  .next (match s.fab.holding.find? fun e => e.1 == p && decide (e.2 + 100000 ≤ t) with
    | some e => { s with fab := { s.fab with holding := s.fab.holding.erase e } }.discard p
    | none => s)

end Sys2Proof.Machine
end

