-- ==== Sys2Proof/Machine/Products.lean ====
section
/-! DEFINITION. Tile products (03 R66 to R68, 04 R104 to R111, R120 to R125; 05 R130 to R137), and function tables (03 R70). -/

namespace Sys2Proof.Machine

open Sys2Proof

/-- FP32 −0, the additive identity of 04 R109. -/
def negZero : Word := 0x80000000

/-- A function table evaluated (03 R70). -/
def fnEval (t : FnTable) (x : Word) : Word :=
  if val32 x = .nan then nan32
  else
    let y := fmul (fsub x t.lo) t.w
    match val32 y with
    | .nan => nan32
    | .inf true => fadd t.a0 (fmul t.a1 y)
    | .inf false => fadd t.b0 (fmul t.b1 (fsub y (nat32 256)))
    | .fin neg m e =>
      if neg && m != 0 then fadd t.a0 (fmul t.a1 y)
      else
        let i : Nat := if 0 ≤ e then m * 2 ^ e.toNat else m / 2 ^ (-e).toNat
        if 256 ≤ i then fadd t.b0 (fmul t.b1 (fsub y (nat32 256)))
        else
          let u := fsub y (nat32 i)
          let c := t.c.getD i (0, 0, 0)
          fadd c.1 (fmul u (fadd c.2.1 (fmul u c.2.2)))

/-- Table A or B of a function slot; an empty slot holds no table (03 R83 keeps it from being read). -/
def FnSlot.table (f : FnSlot) (b : Bool) : FnTable := if b then f.b else f.a

/-- Table A or B of slot n of a cluster evaluated at x. -/
def State.fnAt (s : State) (cl n : Nat) (b : Bool) (x : Word) : Word :=
  match s.fnSlot cl n with
  | some f => fnEval (f.table b) x
  | none => nan32

/-- The compatibility derivative from a saved output (05 Table 5-2). The T5 table keeps the bound of 05 R137, which T5Table states (log 9). -/
def compatDeriv (code : Nat) (y : Word) : Word :=
  if val32 y = .nan then nan32
  else match code with
    | 1 => fmul y (fsub one32 y)
    | 2 => fsub one32 (fmul y y)
    | 3 => if (val32 y).cmp (.fin false 0 0) = some .gt then one32 else 0
    | _ => fnEval Config.t5Gelu y

/-- f′ at a saved value, by the native or the compatibility route (05 R135, R136). -/
def State.derivAt (s : State) (cl n : Nat) (compat : Bool) (y : Word) : Word :=
  if compat then compatDeriv (((s.fnSlot cl n).map fun f => f.compat).getD 0) y else s.fnAt cl n true y

/-- Rounding of running-sum addition k of output element e (04 R111). -/
def State.sumMode (s : State) (c : Nat) (key : StreamKey) (e k : Nat) : RMode :=
  if k < (s.cx c).settings.srThresh || (s.cx c).settings.srOff then .near else .stoch (draw16 key 0 e k)

/-- The running sum of 04 R109 from reduction index k on. -/
def sumFloat (mode : Nat → RMode) : Nat → Word → List FVal → Word
  | _, s, [] => s
  | k, s, x :: r => sumFloat mode (k + 1) (to32m (mode k) ((val32 s).add x)) r

/-- The integer an element of an integer format holds. -/
def elemInt (x f i : Nat) : Int := sintOf (fmtWidth f) (rawElem x f i)

/-- The signed value of an FP32 container that holds an INT32. -/
def wordInt (w : Word) : Int := w.toInt

/-- One sum's outcome: the FP32 word or the INT32 value. -/
inductive AccVal where
  | f (w : Word)
  | i (x : Int)
deriving DecidableEq, Repr

/-- As an exact value. -/
def AccVal.val : AccVal → FVal
  | .f w => val32 w
  | .i x => .ofInt x

/-- As FP32, an INT32 rounding to nearest even (03 R68 step 3). -/
def AccVal.word : AccVal → Word
  | .f w => w
  | .i x => i2f x

/-- The shape of a tile product: reduction tiles, tile coordinates of A and B for reduction tile t of output (i, j), and element numbers
of A and B for reduction element q of output element (r, c), after transposition (04 Table 4-1). -/
structure Shape where
  t  : Nat
  aT : (i j t : Nat) → Nat × Nat
  bT : (i j t : Nat) → Nat × Nat
  aE : (r c q : Nat) → Nat
  bE : (r c q : Nat) → Nat

/-- The shapes of kinds 0x10, 0x11 and 0x12 (04 Table 4-1). -/
def Desc.shape (d : Desc) : Shape :=
  match d.kind with
  | 0x10 => ⟨d.k, fun i _ t => (i, t), fun _ j t => (t, j), fun r _ q => elemAt d.a.trans r q, fun _ c q => elemAt d.b.trans q c⟩
  | 0x11 => ⟨d.n, fun i _ t => (i, t), fun _ j t => (j, t), fun r _ q => elemAt d.a.trans r q, fun _ c q => elemAt d.b.trans c q⟩
  | _ => ⟨d.m, fun i _ t => (t, i), fun _ j t => (t, j), fun r _ q => elemAt d.a.trans q r, fun _ c q => elemAt d.b.trans q c⟩

/-- Exact terms of output element (r, c) over the reduction tiles, ascending (04 R105, R108). -/
def floatTerms (sh : Shape) (fa fb : Nat) (tiles : List (Nat × Nat)) (r c : Nat) : List FVal :=
  tiles.flatMap fun p => (List.range 64).map fun q => (elemValue p.1 fa (sh.aE r c q)).mul (elemValue p.2 fb (sh.bE r c q))

/-- Integer terms, exact. -/
def intTerms (sh : Shape) (fa fb : Nat) (tiles : List (Nat × Nat)) (r c : Nat) : List Int :=
  tiles.flatMap fun p => (List.range 64).map fun q => elemInt p.1 fa (sh.aE r c q) * elemInt p.2 fb (sh.bE r c q)

/-- Combination of tree partials (04 R125). -/
def combineAdd (int : Bool) : AccVal → List AccVal → AccVal × Nat
  | t, [] => (t, 0)
  | t, x :: r =>
    match int, t, x with
    | true, .i a, .i b => let p := intAdd a b; let q := combineAdd int (.i p.1) r; (q.1, q.2 + b2n p.2)
    | _, a, b => combineAdd int (.f (fadd a.word b.word)) r

/-- An element of a carry or partial tile. -/
def carryElem (int : Bool) (x q : Nat) : AccVal :=
  if int then .i (elemInt x 11 q) else .f (elem32 x 1 q)

/-- What the running sum of element number q starts from: the carry of the part before, or −0, or 0 (04 R109, R123). -/
def sumStart (int : Bool) (carry : Option Nat) (q : Nat) : AccVal :=
  if int then .i ((carry.map fun x => elemInt x 11 q).getD 0) else .f ((carry.map fun x => elem32 x 1 q).getD negZero)

/-- The running sum of output element number q of tile (i, j) after the reduction tiles from number t0 of this part (04 R109), with the
count of wrapped additions. -/
def State.accElem (s : State) (p : Where) (sh : Shape) (w i j t0 : Nat) (tiles : List (Nat × Nat)) (start : AccVal) (q : Nat) : AccVal × Nat :=
  let d := p.d
  match start with
  | .i x => let r := sumInt x 0 (intTerms sh d.a.fmt d.b.fmt tiles (q / 64) (q % 64)); (.i r.1, r.2)
  | .f x =>
    (.f (sumFloat (s.sumMode p.ctx (s.streamKey p.ctx d.tensor) (outIndex w i j q)) ((d.splitIndex * sh.t + t0) * 64) x
      (floatTerms sh d.a.fmt d.b.fmt tiles (q / 64) (q % 64))), 0)

/-- The parts' partials, in part order, combined with this part's own sum (04 R125). -/
def joinParts (int : Bool) (parts : List Nat) (q : Nat) (own : AccVal) : AccVal × Nat :=
  match parts with
  | [] => (own, 0)
  | p0 :: rest => combineAdd int (carryElem int p0 q) ((rest.map fun x => carryElem int x q) ++ [own])

/-- The finish of one element (03 R68 steps 2 and 3, 05 R133): bias or derivative, then the function; with the wraps of an integer bias.
DESIGN CHOICE (log 99): the wrap of an integer bias addition counts in int_wrap like that of the sum (04 R107). -/
def State.finishElem (s : State) (p : Where) (bias deriv : Option Nat) (q : Nat) (a : AccVal) : AccVal × Nat :=
  let d := p.d
  let b : AccVal × Nat := match bias with
    | none => (a, 0)
    | some x => match a with
      | .i y => let z := intAdd y (elemInt x 11 (q % 64)); (.i z.1, b2n z.2)
      | .f y => (.f (fadd y (elem32 x 1 (q % 64))), 0)
  let b : AccVal × Nat := match deriv with
    | none => b
    | some x => (.f (fmul b.1.word (s.derivAt p.cl d.fnSlot (d.pb 1) (elem32 x d.d.fmt q))), b.2)
  if d.fnEn then (.f (s.fnAt p.cl d.fnSlot d.fnTable b.1.word), b.2) else b

/-- A carry tile's header agrees with this part (04 R123). -/
def carryOk (d : Desc) (lp : Nat) (x : Nat) : Bool := hdrTensor x == d.tensor.toNat && hdrNextK x == d.splitIndex * lp % 2 ^ 32

/-- A carry mismatch (04 R123): counted, and the leg ends with 0x0402. -/
def State.chainBreak (s : State) (p : Where) : State × UnitRes :=
  ((s.countChain p.cl).failLeg p.ctx p.leg 0x0402 (p.d.seq + 2 ^ 16 * p.cl) 1, .ended)

/-- The end of an output tile (03 R68): partials joined, bias or derivative, function, conversion or press. `ex` are the extra tiles read
with it, `acc` the running sums with the wraps to count. -/
def State.endProduct (s : State) (p : Where) (pos i j : Nat) (ex : List Nat) (acc : List (AccVal × Nat)) : State × UnitRes :=
  let d := p.d
  let gc := d.grids.2.2.1
  let one := if d.splitCount = 0 then ex.head? else none
  match if d.accum then none else s.outWait p pos (gc, i, j) with
  | some w => s.standAt p w
  | none =>
    let all := (List.range 4096).zip acc |>.map fun qa =>
      let x := joinParts d.intIn (if d.takesParts then ex else []) qa.1 qa.2.1
      let y := if d.carryPart then (x.1, 0) else s.finishElem p (if d.kind = 0x10 ∧ d.pb 0 then one else none) (if d.kind = 0x11 ∧ d.pb 0 then one else none) qa.1 x.1
      (y.1, qa.2.2 + x.2 + y.2)
    let s := s.countWrap p.cl (all.map Prod.snd).sum
    s.finishTile p gc pos i j (if d.carryPart then some ((d.splitIndex + 1) * (d.shape.t * 64)) else none) (all.map fun a => a.1.val)

/-- The operands that an output tile needs beyond its reduction tiles and a carry: the other parts' partials, the bias, or the saved
operand (04 R125, 03 R68, 05 R133). -/
def Desc.extras (d : Desc) (i j : Nat) : List (Grid × Nat × Nat × Bool) :=
  let (_, _, gc, gd) := d.grids
  if d.takesParts then (List.range (d.parts - 1)).map fun t => (gd, t * gc.rows + i, j, true)
  else if d.takesCarry then []
  else if d.kind = 0x10 ∧ d.pb 0 then [(gd, 0, j, false)]
  else if d.kind = 0x11 ∧ d.pb 0 then [(gd, i, j, false)]
  else []

/-- The carry tile of an output tile. -/
def Desc.carryIn (d : Desc) (i j : Nat) : List (Grid × Nat × Nat × Bool) := if d.takesCarry then [(d.grids.2.2.2, i, j, true)] else []

/-- A carry tile that was read does not belong here (04 R123). -/
def Desc.carryBad (d : Desc) (x : Option Nat) : Bool := match x with
  | some x => d.takesCarry && !carryOk d (d.shape.t * 64) x
  | none => false

/-- One output tile of kind 0x10 or 0x12: position, output tile (i, j). -/
def State.productTile (s : State) (p : Where) (pos i j : Nat) : State × UnitRes :=
  let d := p.d
  let sh := d.shape
  let (ga, gb, gc, _) := d.grids
  let ins := (List.range sh.t).flatMap fun t => [(ga, (sh.aT i j t).1, (sh.aT i j t).2, false), (gb, (sh.bT i j t).1, (sh.bT i j t).2, false)]
  match s.inputTiles p pos (ins ++ d.carryIn i j ++ d.extras i j) [] with
  | (s, .error e) => (s, e)
  | (s, .ok xs) =>
    let pairs := (List.range sh.t).map fun t => (xs.getD (2 * t) 0, xs.getD (2 * t + 1) 0)
    let ex := xs.drop (2 * sh.t)
    let carry := if d.takesCarry then ex.head? else none
    if d.carryBad carry then s.chainBreak p
    else s.endProduct p pos i j (if d.takesCarry then [] else ex)
      ((List.range 4096).map fun q => s.accElem p sh gc.cols i j 0 pairs (sumStart d.intIn carry q) q)

/-- A running sum in the word that passes it between cores. -/
def AccVal.pass : AccVal → Word
  | .f w => w
  | .i x => BitVec.ofInt 32 x

/-- The running sums that a data-gradient product passes on. -/
def State.passed (s : State) (p : Where) : List Word := (((s.clu p.cl).runs.find? fun r => r.desc == p.w).map fun r => r.sums).getD []

/-- One reduction slice of a data-gradient product (03 R86, 04 R110): reduction tile t of output tile (i, j) added to the running sum, by its
owner; the owner of the last one finishes the tile. -/
def State.productSlice (s : State) (p : Where) (pos i j t : Nat) : State × UnitRes :=
  let d := p.d
  let sh := d.shape
  let (ga, gb, gc, _) := d.grids
  let last := t + 1 == sh.t
  let ins := [(ga, (sh.aT i j t).1, (sh.aT i j t).2, false), (gb, (sh.bT i j t).1, (sh.bT i j t).2, false)]
  match s.inputTiles p pos (ins ++ (if t = 0 then d.carryIn i j else []) ++ (if last then d.extras i j else [])) [] with
  | (s, .error e) => (s, e)
  | (s, .ok xs) =>
    let carry := if t = 0 ∧ d.takesCarry then xs[2]? else none
    if d.carryBad carry then s.chainBreak p
    else
      let had := s.passed p
      let start (q : Nat) : AccVal :=
        if t = 0 then sumStart d.intIn carry q else if d.intIn then .i (wordInt (had.getD q 0)) else .f (had.getD q 0)
      let acc := (List.range 4096).map fun q => s.accElem p sh gc.cols i j t [(xs.getD 0 0, xs.getD 1 0)] (start q) q
      if last then s.endProduct p pos i j (if d.takesCarry then [] else xs.drop 2) acc
      else ((s.countWrap p.cl (acc.map Prod.snd).sum).modRunOn p.cl p.w fun r => { r with sums := acc.map fun a => a.1.pass }, .done)

/-- Units of kinds 0x10 to 0x12: the output tiles a core owns, row by row (03 R86); for 0x11 its slices of the chain of 04 R110. -/
def productUnit : UnitStep := fun p pos u s =>
  let d := p.d
  let c := d.cores
  let nl := max 1 (shareOf c pos d.n)
  if d.kind = 0x11 then s.productSlice p pos (u / nl / max 1 d.k) (u / nl % max 1 d.k) (pos + c * (u % nl))
  else s.productTile p pos (u / nl) (pos + c * (u % nl))

/-- Nothing to prepare at issue. -/
def noPrep : Where → State → State := fun _ s => s

/-- TILE_PRODUCT_FORWARD (03 R68). -/
def execTileProductForward (cl : Nat) (d : BitVec 512) (s : State) : Host.Outcome State Fault Refusal :=
  .next (s.descriptor productUnit noPrep (fun x => x.kind == 0x10) cl d)

/-- TILE_PRODUCT_DATA_GRADIENT (04 R110, 05 R131, R133). -/
def execTileProductDataGradient (cl : Nat) (d : BitVec 512) (s : State) : Host.Outcome State Fault Refusal :=
  .next (s.descriptor productUnit noPrep (fun x => x.kind == 0x11) cl d)

/-- TILE_PRODUCT_WEIGHT_GRADIENT (05 R132). -/
def execTileProductWeightGradient (cl : Nat) (d : BitVec 512) (s : State) : Host.Outcome State Fault Refusal :=
  .next (s.descriptor productUnit noPrep (fun x => x.kind == 0x12) cl d)

end Sys2Proof.Machine
end

