-- ==== Sys2Proof/Machine/Vector.lean ====
section
/-! DEFINITION. The vector-pipe kinds: elementwise (03 R80), reductions (04 R117 to R119), gather and scatter (03 R81), row normalisation
and soft maximum with the row engine (05 R143 to R148). -/

namespace Sys2Proof.Machine

open Sys2Proof

/-! ### Elementwise -/

/-- One element of kind 0x20 (03 Table 3-5). -/
def State.elementwiseAt (s : State) (p : Where) (a b y : Word) : Word :=
  let d := p.d
  let alpha : Word := if d.p 32 32 = 0 then one32 else BitVec.ofNat 32 (d.p 32 32)
  let x := fmul alpha a
  let f (v : Word) : Word := if d.fnEn then s.fnAt p.cl d.fnSlot d.fnTable v else v
  match d.p 0 3 with
  | 0 => f x
  | 1 => fmul (f x) b
  | 2 => f (fadd x b)
  | 3 => fmul x b
  | 4 => fmul x (s.fnAt p.cl d.fnSlot true y)
  | _ => fmul x (s.derivAt p.cl d.fnSlot true y)

/-- Units of kind 0x20: output tiles of the owned rows. -/
def elementwiseUnit : UnitStep := fun p pos u s =>
  let d := p.d
  let i := pos + d.cores * (u / d.n)
  let j := u % d.n
  let (ga, gb, gc, gd) := d.grids
  let ins := [(ga, i, j, false)] ++ (if d.usesB then [(gb, i, j, false)] else []) ++ (if d.usesD then [(gd, i, j, false)] else [])
  match s.inputTiles p pos ins [] with
  | (s, .error e) => (s, e)
  | (s, .ok xs) =>
    let xa := xs.getD 0 0
    let xb := xs.getD 1 0
    let vs := (List.range 4096).map fun q =>
      let b := if d.usesB then elem32 xb d.b.fmt (elemAt d.b.trans (q / 64) (q % 64)) else 0
      let y := if d.usesD then elem32 xb d.d.fmt q else 0
      s.elementwiseAt p (elem32 xa d.a.fmt (elemAt d.a.trans (q / 64) (q % 64))) b y
    s.finishTile p gc pos i j none (vs.map val32)

/-! ### Reductions -/

/-- Mean and population variance (04 R118), state (count, mean, m2). -/
def meanVarLoop : Nat → Word → Word → List Word → Word × Word
  | n, mean, m2, [] => (mean, fdiv m2 (nat32 n))
  | n, mean, m2, x :: r =>
    let n := n + 1
    let dl := fsub x mean
    let mean := fadd mean (fdiv dl (nat32 n))
    let e := fsub x mean
    meanVarLoop n mean (ffma dl e m2) r

/-- Mean and population variance of a list (04 R118). -/
def meanVar (xs : List Word) : Word × Word := meanVarLoop 0 0 0 xs

/-- Maximum or minimum of a list of FP32 words (04 Table 4-5); a list of one keeps its value, a NaN canonical. -/
def foldExt (max : Bool) : List Word → Word
  | [] => nan32
  | [x] => if val32 x = .nan then nan32 else x
  | x :: r => if max then fmaxw x (foldExt max r) else fminw x (foldExt max r)

/-- Maximum or minimum of integers. -/
def foldExtInt (max : Bool) : List Int → Int
  | [] => 0
  | [x] => x
  | x :: r => let y := foldExtInt max r; if max then Max.max x y else Min.min x y

/-- One reduction (ops 0 to 3) of a part over its elements (04 R109, R117, R125): element number q of output tile (i, j). -/
def State.reduceElem (s : State) (p : Where) (w i j q t : Nat) (fl : List FVal) (il : List Int) (carry : Option Nat) (parts : List Nat) :
    AccVal × Nat :=
  let d := p.d
  let op := d.p 0 3
  let k0 := d.splitIndex * (t * 64)
  let c : Option AccVal := carry.map fun x => carryElem d.intIn x q
  let own : AccVal × Nat :=
    if op = 0 ∨ op = 3 then
      if d.intIn then
        let r := sumInt (match c with | some (.i x) => x | _ => 0) 0 (if op = 3 then il.map fun x => x * x else il)
        (.i r.1, r.2)
      else
        let r := sumFloat (s.sumMode p.ctx (s.streamKey p.ctx d.tensor) (outIndex w i j q)) k0 (match c with | some (.f x) => x | _ => negZero)
          (if op = 3 then fl.map fun x => x.mul x else fl)
        (.f r, 0)
    else if d.intIn then (.i (foldExtInt (op == 1) ((match c with | some (.i x) => [x] | _ => []) ++ il)), 0)
    else (.f (foldExt (op == 1) ((match c with | some (.f x) => [x] | _ => []) ++ fl.map to32)), 0)
  match parts with
  | [] => own
  | p0 :: rest =>
    let all := (p0 :: rest).map fun x => carryElem d.intIn x q
    if op = 0 ∨ op = 3 then
      let r := combineAdd d.intIn (carryElem d.intIn p0 q) ((rest.map fun x => carryElem d.intIn x q) ++ [own.1])
      (r.1, own.2 + r.2)
    else if d.intIn then (.i (foldExtInt (op == 1) ((all ++ [own.1]).map fun x => match x with | .i y => y | .f _ => 0)), own.2)
    else (.f (foldExt (op == 1) ((all ++ [own.1]).map fun x => x.word)), own.2)

/-- The elements that result element `r` of an output tile reduces: a row of the tiles, or a column (03 Table 3-5). -/
def reduceSrc (axis trans : Bool) (r q : Nat) : Nat := if axis then elemAt trans q r else elemAt trans r q

/-- The element number in an output tile where result r stands (03 Table 3-5). -/
def resultAt (axis : Bool) (r : Nat) : Nat := if axis then r else r * 64

/-- The result number that element q of an output tile holds, if it holds one. -/
def resultOf (axis : Bool) (q : Nat) : Option Nat := if axis then (if q < 64 then some q else none) else if q % 64 = 0 then some (q / 64) else none

/-- Units of kind 0x30: an output tile of the result. The vector unit takes elements into FP32 first (02 R46). DESIGN CHOICE (log 99): op 4
takes no function; with c_accum set its mean goes to the press and its variance is written. -/
def reductionUnit : UnitStep := fun p pos u s =>
  let d := p.d
  let axis := d.pb 3
  let (ga, _, gc, gd) := d.grids
  let i := if axis then 0 else pos + d.cores * u
  let j := if axis then u else 0
  let t := if axis then d.m else d.n
  let ins := (List.range t).map fun x => if axis then (ga, x, j, false) else (ga, i, x, false)
  let extra :=
    if d.takesCarry then [(gd, i, j, true)]
    else if d.takesParts then (List.range (d.parts - 1)).map fun x => (gd, x * gc.rows + i, j, true)
    else []
  match s.inputTiles p pos (ins ++ extra) [] with
  | (s, .error e) => (s, e)
  | (s, .ok xs) =>
    let tiles := xs.take t
    let ex := xs.drop t
    let carry := if d.takesCarry then ex.head? else none
    let parts := if d.takesParts then ex else []
    let lp := t * 64
    if (match carry with | some x => !carryOk d lp x | none => false) then s.chainBreak p
    else match s.outsWait p pos ((if d.accum then [] else [(gc, i, j)]) ++ (if d.p 0 3 = 4 then [(gd, i, j)] else [])) with
    | some w => s.standAt p w
    | none =>
    if d.p 0 3 = 4 then
      let rs := (List.range 64).map fun r =>
        meanVar (tiles.flatMap fun x => (List.range 64).map fun q => elem32 x d.a.fmt (reduceSrc axis d.a.trans r q))
      let place (f : Word × Word → Word) : List FVal := (List.range 4096).map fun q => match resultOf axis q with
        | some r => val32 (f (rs.getD r (0, 0)))
        | none => .fin false 0 0
      match s.finishTile p gc pos i j none (place Prod.fst) with
      | (s, .done) => s.outputTile p gd pos (d.tensor + 1) i j none (place Prod.snd)
      | r => r
    else
      let acc := (List.range 64).map fun r =>
        let idx := (List.range 64).map fun q => reduceSrc axis d.a.trans r q
        s.reduceElem p gc.cols i j (resultAt axis r) t
          (if d.intIn then [] else tiles.flatMap fun x => idx.map fun q => val32 (elem32 x d.a.fmt q))
          (if d.intIn then tiles.flatMap fun x => idx.map fun q => elemInt x d.a.fmt q else []) carry parts
      let s := s.countWrap p.cl (acc.map Prod.snd).sum
      let fin (v : AccVal) : FVal := if d.carryPart || !d.fnEn then v.val else val32 (s.fnAt p.cl d.fnSlot d.fnTable v.word)
      let vs := (List.range 4096).map fun q => match resultOf axis q with
        | some r => fin (acc.getD r (.i 0, 0)).1
        | none => .fin false 0 0
      s.finishTile p gc pos i j (if d.carryPart then some ((d.splitIndex + 1) * lp) else none) vs

/-! ### Gather and scatter -/

/-- An element for a move: exact for an integer format, FP32 else (02 R46). -/
def moveElem (x f q : Nat) : FVal := if isIntFmt f then .ofInt (elemInt x f q) else val32 (elem32 x f q)

/-- A row outside its target counts in the leg's receipt detail (03 R81). -/
def State.countRows (s : State) (p : Where) (n : Nat) : State := s.modLeg p.ctx p.leg fun g => { g with outRows := g.outRows + n }

/-- The index that row r of an index tile holds (log 18: column 0). -/
def indexAt (x f r : Nat) : Int := elemInt x f (r * 64)

/-- Tile columns that a row of len elements touches. -/
def rowTiles (len : Nat) : Nat := ceilDiv len 64

/-- Units of kind 0x40: one tile row of the index list, all its output tiles. DESIGN CHOICE (log 99): columns at or beyond row_len hold +0. -/
def gatherUnit : UnitStep := fun p pos u s =>
  let d := p.d
  let i := pos + d.cores * u
  let len := d.p 0 16
  let (ga, _, gc, gd) := d.grids
  match s.inputTile p gd pos i 0 false with
  | (s, .error e) => (s, e)
  | (s, .ok xd) =>
    let idx := (List.range 64).map fun r => indexAt xd d.d.fmt r
    let inside := fun (x : Int) => decide (0 ≤ x ∧ x < d.k * 64)
    let need := (List.range d.k).filter fun t => idx.any fun x => inside x && x.toNat / 64 == t
    match s.inputTiles p pos (need.flatMap fun t => (List.range d.n).map fun j => (ga, t, j, false)) [] with
    | (s, .error e) => (s, e)
    | (s, .ok xs) =>
      let src (t j : Nat) : Nat := xs.getD ((need.findIdx fun y => y == t) * d.n + j) 0
      let col (j : Nat) : List FVal := (List.range 4096).map fun q =>
        let x := idx.getD (q / 64) (-1)
        if inside x && decide (j * 64 + q % 64 < len) then moveElem (src (x.toNat / 64) j) d.a.fmt (elemAt d.a.trans (x.toNat % 64) (q % 64))
        else .fin false 0 0
      match s.outsWait p pos (if d.accum then [] else (List.range d.n).map fun j => (gc, i, j)) with
      | some w => s.standAt p w
      | none => (s.countRows p (idx.filter fun x => !inside x).length).finishRow p gc pos i d.n col

/-- One row of A written over a row of C (03 R81): every tile it touches is read, the row replaced, and the tile written back. A tile that
holds no valid data counts as zeros in its other rows. -/
def State.scatterRow (s : State) (p : Where) (pos : Nat) (row : Nat) (vals : List FVal) : Nat → Nat → State × UnitRes
  | 0, _ => (s, .done)
  | n + 1, j =>
    let d := p.d
    let gc := d.grids.2.2.1
    let (own, a) := gc.tile d.cores pos (row / 64) j
    let (s, old) := match s.readTile p.ctx (s.muOf p) (d.coreAt p.cl own) gc.o.loc a gc.o.fmt (some gc.o.hint) 0 with
      | (s, .ok x) => (s, some x)
      | (s, _) => (s, none)
    let vs := (List.range 4096).map fun q =>
      if q / 64 = row % 64 ∧ j * 64 + q % 64 < vals.length then vals.getD (j * 64 + q % 64) (.fin false 0 0)
      else match old with
        | some x => moveElem x gc.o.fmt q
        | none => .fin false 0 0
    match s.outputTile p gc pos d.tensor (row / 64) j none vs with
    | (s, .done) => s.scatterRow p pos row vals n (j + 1)
    | r => r

/-- One row of A added to a row of C in the press: sub-key is the index position (06 R186). -/
def State.scatterAdd (s : State) (p : Where) (pos row at_ : Nat) (vals : List FVal) : Nat → Nat → State × UnitRes
  | 0, _ => (s, .done)
  | n + 1, j =>
    let d := p.d
    let gc := d.grids.2.2.1
    let (own, a) := gc.tile d.cores pos (row / 64) j
    match s.pressTarget p.ctx (d.coreAt p.cl own) gc.o.loc (a + 256 + 256 * (row % 64)) with
    | none => (s, .done)
    | some id =>
      let ws := (List.range 64).map fun q => to32 (vals.getD (j * 64 + q) (.fin false 0 0))
      let mask := maskOf 64 ((List.range 64).filter fun q => j * 64 + q < vals.length)
      match s.sendContribution p d.tensor .fadd id d.c.hint mask (wordsLine ws) at_ 0 false with
      | (s, .done) => s.scatterAdd p pos row at_ vals n (j + 1)
      | r => r

/-- Row index x of an index list lies inside C. -/
def Desc.rowInside (d : Desc) (x : Int) : Bool := decide (0 ≤ x ∧ x < d.k * 64)

/-- The core at a position takes the row of index x: every row of its own index rows in add mode, in overwrite mode the rows of C that are
its own (03 R86). -/
def Desc.rowMine (d : Desc) (pos : Nat) (x : Int) : Bool := d.rowInside x && (d.pb 16 || x.toNat % d.cores == pos)

/-- Rows of one index tile scattered in ascending index position. DESIGN CHOICE (log 99): overwrite mode with c_accum set adds in the press,
by the split of overwrite mode. -/
def State.scatterRows (s : State) (p : Where) (pos i : Nat) (rows : List (Nat × Int × List FVal)) : State × UnitRes :=
  match rows with
  | [] => (s, .done)
  | (r, x, vals) :: rest =>
    let d := p.d
    let res : State × UnitRes :=
      if !d.rowInside x then (if d.pb 16 || pos == 0 then s.countRows p 1 else s, .done)
      else if !d.rowMine pos x then (s, .done)
      else if d.pb 16 || d.accum then s.scatterAdd p pos x.toNat (i * 64 + r) vals (rowTiles vals.length) 0
      else s.scatterRow p pos x.toNat vals (rowTiles vals.length) 0
    match res with
    | (s, .done) => s.scatterRows p pos i rest
    | r => r

/-- Units of kind 0x41: one tile row of the index list. In overwrite mode every core reads the whole list and writes its own rows (03 R86). -/
def scatterUnit : UnitStep := fun p pos u s =>
  let d := p.d
  let i := if d.pb 16 then pos + d.cores * u else u
  let len := min (d.p 0 16) (d.n * 64)
  let (ga, _, gc, gd) := d.grids
  match s.inputTiles p pos ((gd, i, 0, false) :: (List.range d.n).map fun j => (ga, i, j, false)) [] with
  | (s, .error e) => (s, e)
  | (s, .ok xs) =>
    let rows := (List.range 64).map fun r => (r, indexAt (xs.getD 0 0) d.d.fmt r,
      (List.range len).map fun q => moveElem (xs.getD (1 + q / 64) 0) d.a.fmt (elemAt d.a.trans r (q % 64)))
    let outs := if d.pb 16 || d.accum then [] else rows.flatMap fun r =>
      if d.rowMine pos r.2.1 then (List.range (rowTiles len)).map fun j => (gc, r.2.1.toNat / 64, j) else []
    match s.outsWait p pos outs with
    | some w => s.standAt p w
    | none => s.scatterRows p pos i rows

/-! ### Row kinds (05 R143 to R148) -/

/-- LOG2E. -/
def log2e : Word := 0x3FB8AA3B

/-- Statistics of a row by the forward procedures of 05 R144: (mu, r), or (M, S). -/
def rowStats (soft : Bool) (variant : Nat) (eps scale : Word) (x : List Word) : Word × Word :=
  if soft then
    let z := x.map fun v => fmul scale v
    let m := foldExt true z
    (m, z.foldl (fun a v => fadd a (fexp2 (fmul (fsub v m) log2e))) negZero)
  else if variant = 0 then
    let mv := meanVar x
    (mv.1, frsqrt (fadd mv.2 eps))
  else
    let q := x.foldl (fun a v => ffma v v a) negZero
    (0, frsqrt (fadd (fdiv q (nat32 x.length)) eps))

/-- h of a normalised row. -/
def rowH (variant : Nat) (st : Word × Word) (x : List Word) : List Word :=
  x.map fun v => if variant = 0 then fmul (fsub v st.1) st.2 else fmul v st.2

/-- y of a soft-maximum row. -/
def softY (scale : Word) (st : Word × Word) (x : List Word) : List Word :=
  x.map fun v => fdiv (fexp2 (fmul (fsub (fmul scale v) st.1) log2e)) st.2

/-- One row of a forward kind (05 R144). -/
def rowForward (soft : Bool) (variant : Nat) (scale : Word) (st : Word × Word) (x : List Word) (gamma beta : Option (List Word)) : List Word :=
  if soft then softY scale st x
  else
    let h := rowH variant st x
    (List.range h.length).map fun i => ffma (h.getD i 0) ((gamma.map fun g => g.getD i 0).getD one32) ((beta.map fun b => b.getD i 0).getD negZero)

/-- One row of a backward kind (05 R145). -/
def rowBackward (soft : Bool) (variant : Nat) (scale : Word) (st : Word × Word) (g x : List Word) (gamma : Option (List Word)) : List Word :=
  let n := nat32 x.length
  if soft then
    let y := softY scale st x
    let delta := (g.zip y).foldl (fun a (p : Word × Word) => ffma p.1 p.2 a) negZero
    (g.zip y).map fun (p : Word × Word) => fmul scale (fmul p.2 (fsub p.1 delta))
  else
    let h := rowH variant st x
    let gh := match gamma with
      | none => g
      | some ga => (g.zip ga).map fun (p : Word × Word) => fmul p.1 p.2
    let a := if variant = 0 then gh.foldl (fun a v => fadd a v) negZero else negZero
    let b := (gh.zip h).foldl (fun a (p : Word × Word) => ffma p.1 p.2 a) negZero
    let a := fdiv a n
    let b := fdiv b n
    (gh.zip h).map fun (p : Word × Word) => fmul st.2 (fsub p.1 (ffma p.2 b a))

/-- The key of a leg's blocks: its micro-batch. DESIGN CHOICE (log 99): 0xFFFF for a leg that carries none. -/
def State.blockMu (s : State) (p : Where) : Nat := (s.muOf p).getD 0xFFFF

/-- Entries free in a cluster's statistics area (05 R147). -/
def Cluster.freeEntries (x : Cluster) : Nat := x.statLimit * 8192 - (x.blocks.map fun b => b.rows).sum

/-- A path-1 forward takes its block at issue (05 R147); rows without an entry count in overflow_rows (R162). In a recompute leg it takes
none (R155). -/
def rowPrep : Where → State → State := fun p s =>
  let d := p.d
  if !d.pb 2 || !(d.kind == 0x50 || d.kind == 0x52) then s
  else
    let x := s.clu p.cl
    let rows := d.m * 64
    if 32 ≤ x.blocks.length || s.isRecompute p then s.countOverflowRows p.cl rows
    else
      let got := min rows x.freeEntries
      let s := s.modClu p.cl fun x => { x with blocks := x.blocks ++ [⟨p.ctx, s.blockMu p, d.a.addr, got, []⟩] }
      s.countOverflowRows p.cl (rows - got)

/-- The block of a key in a cluster. DESIGN CHOICE (log 99): of two blocks with one key the first allocated. -/
def State.block (s : State) (cl c mu a : Nat) : Option StatBlock := (s.clu cl).blocks.find? fun b => b.ctx == c && b.mu == mu && b.addr == a

/-- An entry of a row written once (05 R147). -/
def State.putEntry (s : State) (p : Where) (row : Nat) (st : Word × Word) : State :=
  s.modClu p.cl fun x => { x with blocks := x.blocks.map fun b =>
    if b.ctx == p.ctx && b.mu == s.blockMu p && b.addr == p.d.a.addr && decide (row < b.rows) && (tget none b.entries row).isNone
    then { b with entries := tset none b.entries row (some st) } else b }

/-- Row r of tile row tiles as FP32 words. -/
def rowWords (tiles : List Nat) (o : Opnd) (r : Nat) : List Word :=
  tiles.flatMap fun x => (List.range 64).map fun c => elem32 x o.fmt (elemAt o.trans r c)

/-- Units of kinds 0x50 to 0x53: one tile row. -/
def rowUnit : UnitStep := fun p pos u s =>
  let d := p.d
  let i := pos + d.cores * u
  let soft := d.kind == 0x52 || d.kind == 0x53
  let back := d.kind == 0x51 || d.kind == 0x53
  let variant := d.p 0 2
  let eps : Word := BitVec.ofNat 32 (d.p 32 32)
  let scale : Word := if d.p 32 32 = 0 then one32 else BitVec.ofNat 32 (d.p 32 32)
  let (ga, gb, gc, gd) := d.grids
  let row (g : Grid) (i : Nat) := (List.range d.n).map fun j => (g, i, j, false)
  let hasB := !soft && d.b.fmt != 0
  let hasBeta := d.kind == 0x50 && d.d.fmt != 0
  match s.inputTiles p pos (row ga i ++ (if back then row gd i else []) ++ (if hasB then row gb 0 else []) ++ (if hasBeta then row gd 0 else [])) [] with
  | (s, .error e) => (s, e)
  | (s, .ok xs) =>
    let ta := xs.take d.n
    let td := if back then (xs.drop d.n).take d.n else []
    let rest := xs.drop (if back then 2 * d.n else d.n)
    let gamma := if hasB then some (rowWords (rest.take d.n) d.b 0) else none
    let beta := if hasBeta then some (rowWords (rest.drop (if hasB then d.n else 0)) d.d 0) else none
    let blk := if back && d.pb 2 then s.block p.cl p.ctx (s.blockMu p) d.d.addr else none
    let rows : List (List Word × (Word × Word) × Bool) := (List.range 64).map fun r =>
      let x := rowWords (if back then td else ta) (if back then d.d else d.a) r
      let stored := blk.bind fun b => tget none b.entries (i * 64 + r)
      let st := stored.getD (rowStats soft variant eps scale x)
      let y := if back then rowBackward soft variant scale st (rowWords ta d.a r) x gamma else rowForward soft variant scale st x gamma beta
      (y, st, stored.isSome)
    match s.outsWait p pos (if d.accum then [] else (List.range d.n).map fun j => (gc, i, j)) with
    | some w => s.standAt p w
    | none =>
    let s := if back then (if d.pb 2 then s.countRecomputeRows p.cl (rows.filter fun x => !x.2.2).length else s)
      else if d.pb 2 && !s.isRecompute p then (List.range 64).foldl (fun s r => s.putEntry p (i * 64 + r) (rows.getD r ([], (0, 0), false)).2.1) s
      else s
    let col (j : Nat) : List FVal := (List.range 4096).map fun q => val32 ((rows.getD (q / 64) ([], (0, 0), false)).1.getD (j * 64 + q % 64) 0)
    s.finishRow p gc pos i d.n col

/-- ELEMENTWISE (03 R80). -/
def execElementwise (cl : Nat) (d : BitVec 512) (s : State) : Host.Outcome State Fault Refusal :=
  .next (s.descriptor elementwiseUnit noPrep (fun x => x.kind == 0x20) cl d)

/-- REDUCTION (04 R117). -/
def execReduction (cl : Nat) (d : BitVec 512) (s : State) : Host.Outcome State Fault Refusal :=
  .next (s.descriptor reductionUnit noPrep (fun x => x.kind == 0x30) cl d)

/-- GATHER (03 R81). -/
def execGather (cl : Nat) (d : BitVec 512) (s : State) : Host.Outcome State Fault Refusal :=
  .next (s.descriptor gatherUnit noPrep (fun x => x.kind == 0x40) cl d)

/-- SCATTER (03 R81). -/
def execScatter (cl : Nat) (d : BitVec 512) (s : State) : Host.Outcome State Fault Refusal :=
  .next (s.descriptor scatterUnit noPrep (fun x => x.kind == 0x41) cl d)

/-- ROW_NORMALISATION_FORWARD (05 R144). -/
def execRowNormForward (cl : Nat) (d : BitVec 512) (s : State) : Host.Outcome State Fault Refusal :=
  .next (s.descriptor rowUnit rowPrep (fun x => x.kind == 0x50) cl d)

/-- ROW_NORMALISATION_BACKWARD (05 R145). -/
def execRowNormBackward (cl : Nat) (d : BitVec 512) (s : State) : Host.Outcome State Fault Refusal :=
  .next (s.descriptor rowUnit rowPrep (fun x => x.kind == 0x51) cl d)

/-- SOFT_MAXIMUM_FORWARD (05 R144). -/
def execSoftmaxForward (cl : Nat) (d : BitVec 512) (s : State) : Host.Outcome State Fault Refusal :=
  .next (s.descriptor rowUnit rowPrep (fun x => x.kind == 0x52) cl d)

/-- SOFT_MAXIMUM_BACKWARD (05 R145). -/
def execSoftmaxBackward (cl : Nat) (d : BitVec 512) (s : State) : Host.Outcome State Fault Refusal :=
  .next (s.descriptor rowUnit rowPrep (fun x => x.kind == 0x53) cl d)

end Sys2Proof.Machine
end

