-- ==== Sys2Proof/Machine/Recipes.lean ====
section
/-! DEFINITION. Recipes (03 R90 to R100): launch, strands, instruction words, and every recipe instruction. An instruction command takes
effect when its strand can run and the word at the strand's pc is the one that its fields spell. -/

namespace Sys2Proof.Machine

open Sys2Proof

/-! ### Instruction words (03 Table 3-6) -/

/-- Form A. -/
def encA (op : Nat) (x : FormA) : Word :=
  pack 32 [(26, 6, op), (21, 5, x.d.toNat), (16, 5, x.a.toNat), (11, 5, x.b.toNat), (8, 3, x.p.toNat), (7, 1, b2n x.pn), (3, 4, x.f.toNat),
    (0, 3, x.m.toNat)]

/-- Form I. -/
def encI (op : Nat) (x : FormI) : Word := pack 32 [(26, 6, op), (21, 5, x.d.toNat), (16, 5, x.a.toNat), (0, 16, x.imm.toNat)]

/-- Form C. -/
def encC (op : Nat) (x : FormC) : Word :=
  pack 32 [(26, 6, op), (21, 5, x.d.toNat), (18, 3, x.p.toNat), (17, 1, b2n x.pn), (0, 17, x.imm.toNat)]

/-! ### Strands -/

/-- The strand a command names. -/
def State.strandAt (s : State) (u : StrandRef) : Option Strand := tget none (s.cor u.core).strands u.strand

/-- A strand changed. -/
def State.modStrand (s : State) (u : StrandRef) (f : Strand → Strand) : State :=
  s.modCor u.core fun k => { k with strands := tmod none k.strands u.strand fun t => t.map f }

/-- The launch that runs on a core. -/
def State.launchOn (s : State) (core : Nat) : Option (Where × DescRun) :=
  let cl := clusterOf core
  ((s.clu cl).runs.find? fun r => (decodeDesc r.desc).kind == 0x80 && (decodeDesc r.desc).mask.getLsbD (core % 32)).map fun r =>
    (⟨cl, decodeDesc r.desc, r.ctx, r.leg, r.desc⟩, r)

/-- Registers per thread of a launch (03 Table 3-5). -/
def Desc.regCount (d : Desc) : Nat := 8 * (d.p 16 2 + 1)

/-- Thread count of a launch. -/
def Desc.threads (d : Desc) : Nat := d.p 32 32

/-- A register of a lane; g0 reads 0 (03 R91). -/
def Strand.reg (t : Strand) (lane idx : Nat) : Word :=
  if idx = 0 then 0
  else match tget none t.regs (lane * 32 + idx) with
    | some w => w
    | none => (Config.free (t.fresh + lane * 32 + idx)).setWidth 32

/-- A register written; g0 discards (03 R91). -/
def Strand.setReg (t : Strand) (lane idx : Nat) (w : Word) : Strand :=
  if idx = 0 then t else { t with regs := tset none t.regs (lane * 32 + idx) (some w) }

/-- A predicate of a lane; p0 reads true (03 R91). -/
def Strand.pred (t : Strand) (lane idx : Nat) : Bool :=
  if idx = 0 then true
  else match tget none t.preds (lane * 8 + idx) with
    | some b => b
    | none => (Config.free (t.fresh + 1024 + lane * 8 + idx)).getLsbD 0

/-- A predicate written; p0 discards (03 R91). -/
def Strand.setPred (t : Strand) (lane idx : Nat) (b : Bool) : Strand :=
  if idx = 0 then t else { t with preds := tset none t.preds (lane * 8 + idx) (some b) }

/-- p XOR pn for a lane. -/
def Strand.guard (t : Strand) (lane : Nat) (p : BitVec 3) (pn : Bool) : Bool := t.pred lane p.toNat != pn

/-- Lanes waiting at the instruction after a LOOP. -/
def Strand.loopWait (t : Strand) : BitVec 32 := t.loopAt.foldl (fun m e => m ||| e.2) 0

/-- The active lanes: live, in every mask of the stack, and not waiting for a loop (03 R94). -/
def Strand.active (t : Strand) : BitVec 32 := (t.stack.foldl (fun m e => m &&& e) t.live) &&& ~~~t.loopWait

/-- Active lanes, ascending. -/
def Strand.lanes (t : Strand) : List Nat := setBits t.active

/-- Depth of the mask stack in use (03 R94). -/
def Strand.depth (t : Strand) : Nat := t.stack.length + t.loopAt.length

/-- A batch of 32 thread indices claimed by a strand (03 R92). -/
def State.claim (s : State) (p : Where) (w : BitVec 512) (u : StrandRef) : State :=
  match (s.clu p.cl).runs.find? fun r => r.desc == w with
  | none => s
  | some r =>
    let n := p.d.threads
    if n ≤ r.next then { s with cores := tmod Core.init s.cores u.core fun k => { k with strands := tset none k.strands u.strand none } }
    else
      let live := maskOf 32 (List.range (min 32 (n - r.next)))
      let t : Strand := ⟨r.next, live, [], p.d.p 0 13, s.freeCtr, [], [], none, [], [], []⟩
      let s := s.modRunOn p.cl w fun x => { x with next := x.next + 32 }
      let s := { s with freeCtr := s.freeCtr + 2048 }
      s.modCor u.core fun k => { k with strands := tset none k.strands u.strand (some t) }

/-- The launch's strands take their first batches, core by core. -/
def launchPrep (w : BitVec 512) : Where → State → State := fun p s =>
  (List.range p.d.cores).foldl (fun s pos =>
    (List.range (p.d.p 18 7)).foldl (fun s i => s.claim p w ⟨p.d.coreAt p.cl pos, i⟩) s) s

/-- A unit step for kinds without units. -/
def noUnit : UnitStep := fun _ _ _ s => (s, .done)

/-- RECIPE_LAUNCH (03 R92). -/
def execRecipeLaunch (cl : Nat) (d : BitVec 512) (s : State) : Host.Outcome State Fault Refusal :=
  .next (s.descriptor noUnit (launchPrep d) (fun x => x.kind == 0x80) cl d)

/-- The strand of a command, when it can issue an instruction now: its launch runs, nothing pauses it, and it waits for nothing
(03 R88, R93, R96). -/
def State.runnable (s : State) (u : StrandRef) : Option (Strand × Where) :=
  match s.strandAt u, s.launchOn u.core with
  | some t, some (p, _) =>
    if s.clusterRuns p.cl (BitVec.ofNat 32 (2 ^ (u.core % 32))) && t.atBar.isNone && t.waiting.isEmpty then some (t, p) else none
  | _, _ => none

/-- As `runnable`, with the instruction word at the pc given. -/
def State.ready (s : State) (u : StrandRef) (w : Word) : Option (Strand × Where) :=
  match s.runnable u with
  | some (t, p) => if tget 0 (s.clu p.cl).recipe t.pc = w then some (t, p) else none
  | none => none

/-- A strand fault (03 R98): counted, every strand of the launch stops, and the leg ends with 0x0401. -/
def State.strandFault (s : State) (p : Where) (u : StrandRef) (pc : Nat) : State :=
  (s.countFault p.cl).failLeg p.ctx p.leg 0x0401 (pc + 2 ^ 32 * u.core) 1

/-- Registers at or beyond the launch's count (03 R98). -/
def regsBad (p : Where) (l : List (BitVec 5)) : Bool := l.any fun r => decide (p.d.regCount ≤ r.toNat)

/-- The next instruction. -/
def nextPc (pc : Nat) : Nat := (pc + 1) % 8192

/-- Branch target: a signed offset from the next instruction (03 R95); modulo the store (log 19). -/
def branchPc (pc : Nat) (imm : BitVec 17) : Nat := ((pc + 1 + imm.toInt) % 8192).toNat

/-- Lanes for which a form A instruction runs. -/
def Strand.guarded (t : Strand) (x : FormA) : List Nat := t.lanes.filter fun l => t.guard l x.p x.pn

/-- A register-to-register instruction of form A: reads before writes, one result per lane. -/
def State.regOp (s : State) (u : StrandRef) (op : Nat) (x : FormA) (regs : List (BitVec 5)) (bad : Bool) (f : Strand → Where → Nat → Word) : State :=
  match s.ready u (encA op x) with
  | none => s
  | some (t, p) =>
    if bad || regsBad p (x.d :: regs) then s.strandFault p u t.pc
    else s.modStrand u fun t0 => { ((t.guarded x).foldl (fun t' l => t'.setReg l x.d.toNat (f t p l)) t0) with pc := nextPc t0.pc }

/-- Two-operand form. -/
def State.binOp (s : State) (u : StrandRef) (op : Nat) (x : FormA) (f : Word → Word → Word) : State :=
  s.regOp u op x [x.a, x.b] false fun t _ l => f (t.reg l x.a.toNat) (t.reg l x.b.toNat)

/-- A form C instruction. -/
def State.ctlOp (s : State) (u : StrandRef) (op : Nat) (x : FormC) (f : State → Strand → Where → State) : State :=
  match s.ready u (encC op x) with
  | none => s
  | some (t, p) => f s t p

/-! ### Control -/

/-- NOP (03 R96). A word with a reserved opcode, 0x30 to 0x3F, faults its strand when this command spells its other bits (R98). -/
def execNop (u : StrandRef) (x : FormC) (s : State) : Host.Outcome State Fault Refusal :=
  .next (match s.runnable u with
    | none => s
    | some (t, p) =>
      let w := tget 0 (s.clu p.cl).recipe t.pc
      if w = encC 0x00 x then s.modStrand u fun t => { t with pc := nextPc t.pc }
      else if 0x30 ≤ fld w 26 6 ∧ w.setWidth 26 = (encC 0 x).setWidth 26 then s.strandFault p u t.pc
      else s)

/-- A strand whose threads have all ended claims its next batch, or ends (03 R92, R96). -/
def State.strandDone (s : State) (p : Where) (u : StrandRef) : State :=
  match s.launchOn u.core with
  | some (_, r) => s.claim p r.desc u
  | none => s

/-- EXIT (03 R96). -/
def execExit (u : StrandRef) (x : FormC) (s : State) : Host.Outcome State Fault Refusal :=
  .next (s.ctlOp u 0x01 x fun s t p =>
    let out := maskOf 32 (t.lanes.filter fun l => t.guard l x.p x.pn)
    let live := t.live &&& ~~~out
    if live = 0 then s.strandDone p u else s.modStrand u fun t => { t with live := live, pc := nextPc t.pc })

/-- BAR (03 R96): the strand waits for the release. -/
def execBar (u : StrandRef) (x : FormC) (s : State) : Host.Outcome State Fault Refusal :=
  .next (s.ctlOp u 0x02 x fun s _ _ => s.modStrand u fun t => { t with atBar := some t.pc })

/-- BAR_RELEASE (03 R96): every strand of the launch on the core stands at the same BAR. -/
def execBarRelease (core : Nat) (s : State) : Host.Outcome State Fault Refusal :=
  let l := (s.cor core).strands.filterMap fun e => e.2
  .next (match l with
    | [] => s
    | t :: _ =>
      if t.atBar.isSome && l.all fun x => x.atBar == t.atBar then
        s.modCor core fun k => { k with strands := k.strands.map fun e => (e.1, e.2.map fun t => { t with atBar := none, pc := nextPc t.pc }) }
      else s)

/-- FENCE (03 R96): memory operations take effect in program order here, so nothing is left to order. Scopes 3 to 7 are reserved. -/
def execFence (u : StrandRef) (x : FormA) (s : State) : Host.Outcome State Fault Refusal :=
  .next (match s.ready u (encA 0x03 x) with
    | none => s
    | some (t, p) => if 2 < x.m.toNat then s.strandFault p u t.pc else s.modStrand u fun t => { t with pc := nextPc t.pc })

/-- IF (03 R94). -/
def execIfMask (u : StrandRef) (x : FormC) (s : State) : Host.Outcome State Fault Refusal :=
  .next (s.ctlOp u 0x04 x fun s t p =>
    if 16 ≤ t.depth then s.strandFault p u t.pc
    else s.modStrand u fun t => { t with
      stack := maskOf 32 ((List.range 32).filter fun l => t.guard l x.p x.pn) :: t.stack, pc := nextPc t.pc })

/-- ELSE (03 R94). -/
def execElseMask (u : StrandRef) (x : FormC) (s : State) : Host.Outcome State Fault Refusal :=
  .next (s.ctlOp u 0x05 x fun s t p =>
    match t.stack with
    | [] => s.strandFault p u t.pc
    | m :: r => s.modStrand u fun t => { t with stack := (~~~m &&& (r.head?.getD (BitVec.allOnes 32))) :: r, pc := nextPc t.pc })

/-- ENDIF (03 R94). -/
def execEndIf (u : StrandRef) (x : FormC) (s : State) : Host.Outcome State Fault Refusal :=
  .next (s.ctlOp u 0x06 x fun s t p =>
    match t.stack with
    | [] => s.strandFault p u t.pc
    | _ :: r => s.modStrand u fun t => { t with stack := r, pc := nextPc t.pc })

/-- LOOP (03 R96): active threads decrement g[d]; those not at 0 branch, the others wait at the next instruction until none branches. -/
def execLoop (u : StrandRef) (x : FormC) (s : State) : Host.Outcome State Fault Refusal :=
  .next (s.ctlOp u 0x07 x fun s t p =>
    if regsBad p [x.d] then s.strandFault p u t.pc
    else
      let v (l : Nat) : Word := t.reg l x.d.toNat - 1
      let go := t.lanes.filter fun l => (if x.d = 0 then (0 : Word) else v l) != 0
      let stay := t.lanes.filter fun l => (if x.d = 0 then (0 : Word) else v l) == 0
      let nx := nextPc t.pc
      let known := t.loopAt.any fun e => e.1 == nx
      if !go.isEmpty && !known && !stay.isEmpty && decide (16 ≤ t.depth) then s.strandFault p u t.pc
      else s.modStrand u fun t0 =>
        let t1 := t.lanes.foldl (fun t' l => t'.setReg l x.d.toNat (v l)) t0
        if go.isEmpty then { t1 with loopAt := t1.loopAt.filter fun e => e.1 != nx, pc := nx }
        else
          let m := maskOf 32 stay
          let la := if stay.isEmpty then t1.loopAt
            else if known then t1.loopAt.map fun e => if e.1 = nx then (e.1, e.2 ||| m) else e
            else (nx, m) :: t1.loopAt
          { t1 with loopAt := la, pc := branchPc t1.pc x.imm })

/-- BRA (03 R96): active threads must agree. -/
def execBra (u : StrandRef) (x : FormC) (s : State) : Host.Outcome State Fault Refusal :=
  .next (s.ctlOp u 0x08 x fun s t p =>
    let yes := t.lanes.filter fun l => t.guard l x.p x.pn
    if yes.isEmpty then s.modStrand u fun t => { t with pc := nextPc t.pc }
    else if yes.length = t.lanes.length then s.modStrand u fun t => { t with pc := branchPc t.pc x.imm }
    else s.strandFault p u t.pc)

/-- The special values (03 Table 3-8). -/
def State.special (s : State) (p : Where) (u : StrandRef) (t : Strand) (lane idx : Nat) : Word :=
  let d := p.d
  BitVec.ofNat 32 (match idx with
    | 0 => t.base + lane
    | 1 => lane
    | 2 => u.strand
    | 3 => u.core
    | 4 => p.ctx
    | 5 => d.tensor.toNat
    | 6 => (s.cx p.ctx).step
    | 7 => d.threads
    | 8 => d.a.addr
    | 9 => d.a.addr / 2 ^ 32
    | 10 => d.b.addr
    | 11 => d.b.addr / 2 ^ 32
    | 12 => d.c.addr
    | 13 => d.c.addr / 2 ^ 32
    | 14 => d.d.addr
    | _ => d.d.addr / 2 ^ 32)

/-- SPR (03 R97). -/
def execSpr (u : StrandRef) (x : FormA) (s : State) : Host.Outcome State Fault Refusal :=
  .next (s.regOp u 0x09 x [] (decide (16 ≤ x.a.toNat)) fun t p l => s.special p u t l x.a.toNat)

/-! ### Integer instructions -/

/-- IADD. DESIGN CHOICE (log 99): a wrapping sum of IADD, IMAD or an integer RED does not count in int_wrap (04 R107). -/
def execIadd (u : StrandRef) (x : FormA) (s : State) : Host.Outcome State Fault Refusal := .next (s.binOp u 0x0A x fun a b => a + b)

/-- ISUB. -/
def execIsub (u : StrandRef) (x : FormA) (s : State) : Host.Outcome State Fault Refusal := .next (s.binOp u 0x0B x fun a b => a - b)

/-- IMUL. -/
def execImul (u : StrandRef) (x : FormA) (s : State) : Host.Outcome State Fault Refusal := .next (s.binOp u 0x0C x fun a b => a * b)

/-- IMAD. -/
def execImad (u : StrandRef) (x : FormA) (s : State) : Host.Outcome State Fault Refusal :=
  .next (s.regOp u 0x0D x [x.a, x.b] false fun t _ l => t.reg l x.a.toNat * t.reg l x.b.toNat + t.reg l x.d.toNat)

/-- IMIN. -/
def execImin (u : StrandRef) (x : FormA) (s : State) : Host.Outcome State Fault Refusal :=
  .next (s.binOp u 0x0E x fun a b => if a.toInt ≤ b.toInt then a else b)

/-- IMAX. -/
def execImax (u : StrandRef) (x : FormA) (s : State) : Host.Outcome State Fault Refusal :=
  .next (s.binOp u 0x0F x fun a b => if a.toInt ≤ b.toInt then b else a)

/-- AND. -/
def execAndBits (u : StrandRef) (x : FormA) (s : State) : Host.Outcome State Fault Refusal := .next (s.binOp u 0x10 x fun a b => a &&& b)

/-- OR. -/
def execOrBits (u : StrandRef) (x : FormA) (s : State) : Host.Outcome State Fault Refusal := .next (s.binOp u 0x11 x fun a b => a ||| b)

/-- XOR. -/
def execXorBits (u : StrandRef) (x : FormA) (s : State) : Host.Outcome State Fault Refusal := .next (s.binOp u 0x12 x fun a b => a ^^^ b)

/-- SHL. -/
def execShl (u : StrandRef) (x : FormA) (s : State) : Host.Outcome State Fault Refusal :=
  .next (s.binOp u 0x13 x fun a b => a <<< (b.toNat % 32))

/-- SHR. -/
def execShr (u : StrandRef) (x : FormA) (s : State) : Host.Outcome State Fault Refusal :=
  .next (s.binOp u 0x14 x fun a b => a >>> (b.toNat % 32))

/-- SAR. -/
def execSar (u : StrandRef) (x : FormA) (s : State) : Host.Outcome State Fault Refusal :=
  .next (s.binOp u 0x15 x fun a b => a.sshiftRight (b.toNat % 32))

/-- A form I instruction: it runs for every active thread (03 R95). -/
def State.immOp (s : State) (u : StrandRef) (op : Nat) (x : FormI) (bad : Bool) (f : Word → Word) : State :=
  match s.ready u (encI op x) with
  | none => s
  | some (t, p) =>
    if bad || regsBad p [x.d, x.a] then s.strandFault p u t.pc
    else s.modStrand u fun t0 => { (t.lanes.foldl (fun t' l => t'.setReg l x.d.toNat (f (t.reg l x.a.toNat))) t0) with pc := nextPc t0.pc }

/-- ADDI. -/
def execAddi (u : StrandRef) (x : FormI) (s : State) : Host.Outcome State Fault Refusal :=
  .next (s.immOp u 0x16 x false fun a => a + x.imm.signExtend 32)

/-- LUI. -/
def execLui (u : StrandRef) (x : FormI) (s : State) : Host.Outcome State Fault Refusal :=
  .next (s.immOp u 0x17 x (x.a != 0) fun _ => x.imm.setWidth 32 <<< 16)

/-- A predicate-writing instruction. -/
def State.predOp (s : State) (u : StrandRef) (op : Nat) (x : FormA) (bad : Bool) (f : Word → Word → Bool) : State :=
  match s.ready u (encA op x) with
  | none => s
  | some (t, p) =>
    if bad || regsBad p [x.a, x.b] then s.strandFault p u t.pc
    else s.modStrand u fun t0 =>
      { ((t.guarded x).foldl (fun t' l => t'.setPred l (x.d.toNat % 8) (f (t.reg l x.a.toNat) (t.reg l x.b.toNat))) t0) with pc := nextPc t0.pc }

/-- Integer comparison by code (03 Table 3-7). -/
def icmpBy (f : Nat) (a b : Word) : Bool :=
  match f with
  | 0 => a == b
  | 1 => a != b
  | 2 => decide (a.toInt < b.toInt)
  | 3 => decide (a.toInt ≤ b.toInt)
  | 4 => decide (b.toInt < a.toInt)
  | 5 => decide (b.toInt ≤ a.toInt)
  | 6 => decide (a.toNat < b.toNat)
  | _ => decide (b.toNat ≤ a.toNat)

/-- ICMP. -/
def execIcmp (u : StrandRef) (x : FormA) (s : State) : Host.Outcome State Fault Refusal :=
  .next (s.predOp u 0x18 x (decide (7 < x.f.toNat)) (icmpBy x.f.toNat))

/-- SEL (03 Table 3-7): p selects and does not guard. -/
def execSel (u : StrandRef) (x : FormA) (s : State) : Host.Outcome State Fault Refusal :=
  .next (match s.ready u (encA 0x19 x) with
    | none => s
    | some (t, p) =>
      if regsBad p [x.d, x.a, x.b] then s.strandFault p u t.pc
      else s.modStrand u fun t0 => { (t.lanes.foldl (fun t' l => t'.setReg l x.d.toNat
        (if t.guard l x.p x.pn then t.reg l x.a.toNat else t.reg l x.b.toNat)) t0) with pc := nextPc t0.pc })

/-! ### FP32 instructions -/

/-- Modifiers of operand a: m[1] absolute value, then m[0] negation (03 R96). -/
def modA (m : BitVec 3) (a : Word) : Word :=
  let a := if m.getLsbD 1 then a &&& 0x7FFFFFFF else a
  if m.getLsbD 0 then a ^^^ 0x80000000 else a

/-- Modifier of operand b: m[2] negation. -/
def modB (m : BitVec 3) (b : Word) : Word := if m.getLsbD 2 then b ^^^ 0x80000000 else b

/-- FADD. -/
def execFadd (u : StrandRef) (x : FormA) (s : State) : Host.Outcome State Fault Refusal :=
  .next (s.binOp u 0x1A x fun a b => fadd (modA x.m a) (modB x.m b))

/-- FSUB. -/
def execFsub (u : StrandRef) (x : FormA) (s : State) : Host.Outcome State Fault Refusal :=
  .next (s.binOp u 0x1B x fun a b => fsub (modA x.m a) (modB x.m b))

/-- FMUL. -/
def execFmul (u : StrandRef) (x : FormA) (s : State) : Host.Outcome State Fault Refusal :=
  .next (s.binOp u 0x1C x fun a b => fmul (modA x.m a) (modB x.m b))

/-- FFMA. -/
def execFfma (u : StrandRef) (x : FormA) (s : State) : Host.Outcome State Fault Refusal :=
  .next (s.regOp u 0x1D x [x.a, x.b] false fun t _ l =>
    ffma (modA x.m (t.reg l x.a.toNat)) (modB x.m (t.reg l x.b.toNat)) (t.reg l x.d.toNat))

/-- FMIN. -/
def execFmin (u : StrandRef) (x : FormA) (s : State) : Host.Outcome State Fault Refusal :=
  .next (s.binOp u 0x1E x fun a b => fminw (modA x.m a) (modB x.m b))

/-- FMAX. -/
def execFmax (u : StrandRef) (x : FormA) (s : State) : Host.Outcome State Fault Refusal :=
  .next (s.binOp u 0x1F x fun a b => fmaxw (modA x.m a) (modB x.m b))

/-- FP32 comparison by code; with a NaN operand only ne is true (03 Table 3-7). -/
def fcmpBy (f : Nat) (a b : Word) : Bool :=
  match (val32 a).cmp (val32 b) with
  | none => f == 1
  | some o => match f with
    | 0 => o == .eq
    | 1 => o != .eq
    | 2 => o == .lt
    | 3 => o != .gt
    | 4 => o == .gt
    | _ => o != .lt

/-- FCMP. -/
def execFcmp (u : StrandRef) (x : FormA) (s : State) : Host.Outcome State Fault Refusal :=
  .next (s.predOp u 0x20 x (decide (5 < x.f.toNat)) (fcmpBy x.f.toNat))

/-- FN (03 R70). A slot that holds no table gives a free value (log 2). -/
def execFn (u : StrandRef) (x : FormA) (s : State) : Host.Outcome State Fault Refusal :=
  .next (
    let s' := if (s.ready u (encA 0x21 x)).isSome then { s with freeCtr := s.freeCtr + 32 } else s
    s'.regOp u 0x21 x [x.a] false fun t p l =>
      match s.fnSlot p.cl x.f.toNat with
      | some g => fnEval (g.table (x.m.getLsbD 0)) (t.reg l x.a.toNat)
      | none => (Config.free (s.freeCtr + l)).setWidth 32)

/-- CVT (03 Table 3-7): formats 2 to 5. -/
def execCvt (u : StrandRef) (x : FormA) (s : State) : Host.Outcome State Fault Refusal :=
  .next (s.regOp u 0x22 x [x.a] (decide (x.f.toNat < 2 ∨ 5 < x.f.toNat)) fun t _ l =>
    let a := t.reg l x.a.toNat
    match ffmt x.f.toNat with
    | none => a
    | some g => if x.m.getLsbD 0 then to32 (g.decode a.toNat) else BitVec.ofNat 32 (g.encode .near (x.m.getLsbD 1) (val32 a)))

/-- F2I (03 Table 3-7, 02 Table 2-4): NaN gives 0 and counts in CL_CVT_NAN_CNT (03 R103). -/
def execF2i (u : StrandRef) (x : FormA) (s : State) : Host.Outcome State Fault Refusal :=
  .next (
    let n := match s.ready u (encA 0x23 x) with
      | some (t, p) => if regsBad p [x.d, x.a] then 0 else ((t.guarded x).filter fun l => val32 (t.reg l x.a.toNat) == .nan).length
      | none => 0
    (s.countNan (clusterOf u.core) n).regOp u 0x23 x [x.a] false fun t _ l => BitVec.ofNat 32 (intBits 32 (toIntFmt 32 (val32 (t.reg l x.a.toNat)))))

/-- I2F. -/
def execI2f (u : StrandRef) (x : FormA) (s : State) : Host.Outcome State Fault Refusal :=
  .next (s.regOp u 0x24 x [x.a] false fun t _ l => i2f (t.reg l x.a.toNat).toInt)

/-! ### Memory instructions -/

/-- Bytes of an access size code (03 Table 3-7). -/
def sizeBytes (m : BitVec 3) : Nat := 2 ^ m.toNat

/-- How one lane's memory access ends: done, a fault, a wait of the whole instruction with what it leaves on record, or the end of the leg. -/
inductive LaneRes where
  | done (s : State)
  | fault
  | wait (f : State → State)
  | ended (s : State)

/-- Lanes one after another, ascending. -/
def laneFold (f : State → Nat → LaneRes) : State → List Nat → LaneRes
  | s, [] => .done s
  | s, l :: r => match f s l with
    | .done s' => laneFold f s' r
    | x => x

/-- A memory instruction: every guarded lane in order. A fault stops the launch. Where a lane has to wait, the whole instruction waits and
has done nothing yet. -/
def State.memOp (s : State) (u : StrandRef) (op : Nat) (x : FormA) (regs : List (BitVec 5)) (bad : Bool) (f : Strand → Where → State → Nat → LaneRes) :
    State :=
  match s.ready u (encA op x) with
  | none => s
  | some (t, p) =>
    if bad || regsBad p regs then s.strandFault p u t.pc
    else match laneFold (f t p) s (t.guarded x) with
      | .done s' => s'.modStrand u fun t => { t with pc := nextPc t.pc }
      | .fault => s.strandFault p u t.pc
      | .wait g => g s
      | .ended s' => s'

/-- A register of a lane written. -/
def State.setLane (s : State) (u : StrandRef) (l idx : Nat) (w : Word) : State := s.modStrand u fun t => t.setReg l idx w

/-- LDL (03 Table 3-7). -/
def execLdl (u : StrandRef) (x : FormA) (s : State) : Host.Outcome State Fault Refusal :=
  .next (s.memOp u 0x25 x [x.d, x.a, x.b] (decide (2 < x.m.toNat)) fun t _ s l =>
    let off := (t.reg l x.a.toNat + t.reg l x.b.toNat).toNat
    let n := sizeBytes x.m
    if off % n ≠ 0 ∨ 0x38000 ≤ off then .fault
    else if (s.cor u.core).badWords.contains (off / 8) then .fault
    else .done (s.setLane u l x.d.toNat (BitVec.ofNat 32 (natOfBytes (s.read .tier0 (tier0Key u.core off) n)))))

/-- STL (03 Table 3-7). -/
def execStl (u : StrandRef) (x : FormA) (s : State) : Host.Outcome State Fault Refusal :=
  .next (s.memOp u 0x26 x [x.d, x.a, x.b] (decide (2 < x.m.toNat)) fun t p s l =>
    let off := (t.reg l x.a.toNat + t.reg l x.b.toNat).toNat
    let n := sizeBytes x.m
    if off % n ≠ 0 ∨ 0x38000 ≤ off then .fault
    else if !s.writeCounts p 1 off then .done s
    else
      let s := s.modCor u.core fun k => { k with badWords := k.badWords.filter fun w => w != off / 8 }
      .done (s.write .tier0 (tier0Key u.core off) (bytesOfNat n (t.reg l x.d.toNat).toNat)))

/-- A tile of a caravan layer at an address has not arrived: the access waits as a core would (07 R238). -/
def State.carWaits (s : State) (c a : Nat) : Bool := match caravanAddr 0 a with
  | some (layer, off) => !s.caravanHere c layer off
  | none => false

/-- Bytes of one line loaded through the L1 of a core (06 R181). -/
def State.loadBytes (s : State) (p : Where) (u : StrandRef) (a n : Nat) : LaneRes × List Byte :=
  match s.resolve p.ctx (s.muOf p) a with
  | .outside => (.fault, [])
  | .absent => (.wait id, [])
  | .flat sp k =>
    if s.placePaused (.flat sp k) then (.wait id, [])
    else if sp = .tier2 ∧ s.poisoned k then (.fault, [])
    else (.done s, s.read sp k n)
  | .homed line off direct set hint =>
    if s.carWaits p.ctx a || s.linePaused line then (.wait id, [])
    else
      let q := s.homeStep p.ctx line direct set hint (.l1Read u.core)
      match q.2 with
      | .data d => (.done q.1, slice (lineBytes d) off n)
      | .poisoned => (.fault, [])
      | .locked => (.wait fun s => s.addWaiter p.ctx p.leg line, [])
      | .noWay => (.wait fun s => s.waitWay p.ctx p.leg line set, [])

/-- LDG (03 Table 3-7). The address is the exact sum (log 19). -/
def execLdg (u : StrandRef) (x : FormA) (s : State) : Host.Outcome State Fault Refusal :=
  .next (s.memOp u 0x27 x [x.d, x.a, x.b] (decide (2 < x.m.toNat ∨ 3 < x.f.toNat)) fun t p s l =>
    let a := (t.reg l x.a.toNat).toNat + (t.reg l x.b.toNat).toNat * 2 ^ x.f.toNat
    let n := sizeBytes x.m
    if a % n ≠ 0 then .fault
    else match s.loadBytes p u a n with
      | (.done s', bs) => .done (s'.setLane u l x.d.toNat (BitVec.ofNat 32 (natOfBytes bs)))
      | (r, _) => r)

/-- Bytes of one line stored through the L1 of a core: the core takes the line writable and changes its copy. -/
def State.storeBytes (s : State) (p : Where) (u : StrandRef) (a : Nat) (bs : List Byte) : LaneRes :=
  if caravanAddr 0 a |>.isSome then .fault
  else match s.resolve p.ctx (s.muOf p) a with
  | .outside => .fault
  | .absent => .fault
  | .flat sp k =>
    if !s.writeCounts p 0 a then .done s
    else if s.placePaused (.flat sp k) then .wait fun s => s
    else .done (s.write sp k bs)
  | .homed id off direct set hint =>
    if !s.writeCounts p 0 a then .done s
    else if s.linePaused id then .wait fun s => s
    else
      let q := s.homeStep p.ctx id direct set hint (.l1Write u.core)
      match q.2 with
      | .data d =>
        let s' := q.1
        let d' := lineOf (slice (lineBytes d) 0 off ++ bs ++ slice (lineBytes d) (off + bs.length) (256 - off - bs.length))
        .done { s' with cel := { s'.cel with l1 := s'.cel.l1.map fun y =>
          if y.core == u.core && y.line == id then { y with data := d', modified := true } else y } }
      | .poisoned => .fault
      | .locked => .wait fun s => s.addWaiter p.ctx p.leg id
      | .noWay => .wait fun s => s.waitWay p.ctx p.leg id set

/-- STG (03 Table 3-7). -/
def execStg (u : StrandRef) (x : FormA) (s : State) : Host.Outcome State Fault Refusal :=
  .next (s.memOp u 0x28 x [x.d, x.a, x.b] (decide (2 < x.m.toNat ∨ 3 < x.f.toNat)) fun t p s l =>
    let a := (t.reg l x.a.toNat).toNat + (t.reg l x.b.toNat).toNat * 2 ^ x.f.toNat
    let n := sizeBytes x.m
    if a % n ≠ 0 then .fault else s.storeBytes p u a (bytesOfNat n (t.reg l x.d.toNat).toNat))

/-- Line numbers of a tile that element i needs: header and scale line for the scale, and the lines of its bits. -/
def elemLines (f i : Nat) : List Nat :=
  let lo := (2048 * leadLines f + i * fmtWidth f) / 2048
  let hi := (2048 * leadLines f + i * fmtWidth f + fmtWidth f - 1) / 2048
  (if isScaled f then [0, 1] else []) ++ (if lo = hi then [lo] else [lo, hi])

/-- Tile lines read for LDT. -/
def State.ldtLines (s : State) (p : Where) (a : Nat) : List Nat → Nat → LaneRes × Nat
  | [], x => (.done s, x)
  | i :: r, x =>
    let pl := s.resolve p.ctx (s.muOf p) (a + 256 * i)
    let q := s.readPlace p.ctx pl none
    match q.2 with
    | .data l => q.1.ldtLines p a r (x + l.toNat * 2 ^ (2048 * i))
    | .poisoned => (.fault, 0)
    | .locked => (.wait fun s => match pl with | .homed id _ _ _ _ => s.addWaiter p.ctx p.leg id | _ => s, 0)
    | .noWay => (.wait fun s => match pl with | .homed id _ _ set _ => s.waitWay p.ctx p.leg id set | _ => s, 0)

/-- LDT (03 Table 3-7): formats 1 to 14. An element number at 4,096 or above has no stated result: a free value (log 2). -/
def execLdt (u : StrandRef) (x : FormA) (s : State) : Host.Outcome State Fault Refusal :=
  .next (s.memOp u 0x29 x [x.d, x.a, x.b] (!tileFmt x.f.toNat) fun t p s l =>
    let a := (t.reg l x.a.toNat).toNat
    let i := (t.reg l x.b.toNat).toNat
    let f := x.f.toNat
    if a % 256 ≠ 0 then .fault
    else if 4096 ≤ i then let (v, s) := s.free; .done (s.setLane u l x.d.toNat (v.setWidth 32))
    else match s.resolve p.ctx (s.muOf p) a, s.carWaits p.ctx a with
      | .absent, _ => .wait id
      | .homed _ _ _ _ _, true => .wait id
      | _, _ => if (elemLines f i).any fun n => s.placePaused (s.resolve p.ctx (s.muOf p) (a + 256 * n)) then .wait id else match s.ldtLines p a (elemLines f i) 0 with
        | (.done s', y) => .done (s'.setLane u l x.d.toNat (if isIntFmt f then BitVec.ofInt 32 (elemInt y f i) else elem32 y f i))
        | (r, _) => r)

/-- PRF (03 Table 3-7): no fault on a bad address. -/
def execPrf (u : StrandRef) (x : FormA) (s : State) : Host.Outcome State Fault Refusal :=
  .next (s.memOp u 0x2A x [x.a, x.b] false fun t p s l =>
    let a := (t.reg l x.a.toNat).toNat + (t.reg l x.b.toNat).toNat
    match s.resolve p.ctx (s.muOf p) a with
    | .homed line _ direct set hint =>
      if s.linePaused line then .wait id
      else match s.homeStep p.ctx line direct set hint (.l1Read u.core) with
      | (s', .data _) => .done s'
      | (_, _) => .done s
    | _ => .done s)

/-- The immediate operation of ATOM's m code. -/
def atomOp (m : Nat) : ImmOp := match m with | 0 => .add | 1 => .swap | 2 => .cas | 3 => .and | _ => .or

/-- ATOM (06 R192, R479): the operation leaves for the home column, and the thread waits for the old value. In a recompute leg, whose
writes are suppressed (05 R155), the value returned is free. -/
def execAtom (u : StrandRef) (x : FormA) (s : State) : Host.Outcome State Fault Refusal :=
  .next (s.memOp u 0x2B x [x.d, x.a, x.b] (decide (4 < x.m.toNat)) fun t p s l =>
    let a := (t.reg l x.a.toNat).toNat
    if a % 4 ≠ 0 then .fault
    else match s.pressTarget p.ctx u.core 0 a with
      | none => .fault
      | some id =>
        let s := s.atomFlag p.ctx p.leg
        if s.isRecompute p then let (v, s) := s.free; .done (s.setLane u l x.d.toNat (v.setWidth 32))
        else
          let off := match s.resolve p.ctx none a with | .homed _ off _ _ _ => off | _ => 0
          let o : ImmReq := ⟨p.ctx, id, off / 4, atomOp x.m.toNat, t.reg l x.b.toNat, t.reg l x.d.toNat, u, l, x.d, s.cel.sendNo⟩
          let s := { s with cel := { s.cel with sentImm := s.cel.sentImm ++ [o], sendNo := s.cel.sendNo + 1 } }
          .done (s.modStrand u fun t => { t with waiting := t.waiting ++ [l] }))

/-- The ordered operation of RED's m code (06 Table 6-8). -/
def redOp (m : Nat) : PressOp := match m with | 0 => .fadd | 1 => .fmax | 2 => .fmin | 3 => .sumsq | _ => .iadd

/-- RED (06 R185 to R187, R479): sub-key (thread index, count of earlier REDs by that thread). -/
def execRed (u : StrandRef) (x : FormA) (s : State) : Host.Outcome State Fault Refusal :=
  .next (
    let r := s.memOp u 0x2C x [x.a, x.b] (decide (4 < x.m.toNat)) fun t p s l =>
      let a := (t.reg l x.a.toNat).toNat
      if a % 4 ≠ 0 then .fault
      else match s.pressTarget p.ctx u.core 0 a with
        | none => .fault
        | some id =>
          let (off, hint) := match s.resolve p.ctx none a with | .homed _ off _ _ hint => (off, hint) | _ => (0, 0)
          let n := tget 0 t.reds l
          let d := setLineWord 0 (off / 4) (t.reg l x.b.toNat)
          match s.sendContribution p p.d.tensor (redOp x.m.toNat) id hint (maskOf 64 [off / 4]) d (t.base + l) n false with
          | (s, .done) => .done (s.modStrand u fun t => { t with reds := tset 0 t.reds l (n + 1) })
          | (s, _) => .ended s
    r)

/-! ### Lane exchange and random numbers -/

/-- SHFL: the source lane is read whether it is active or not. -/
def execShfl (u : StrandRef) (x : FormA) (s : State) : Host.Outcome State Fault Refusal :=
  .next (s.regOp u 0x2D x [x.a, x.b] false fun t _ l => t.reg ((t.reg l x.b.toNat).toNat % 32) x.a.toNat)

/-- VOTE: p selects and does not guard. -/
def execVote (u : StrandRef) (x : FormA) (s : State) : Host.Outcome State Fault Refusal :=
  .next (match s.ready u (encA 0x2E x) with
    | none => s
    | some (t, p) =>
      if regsBad p [x.d] then s.strandFault p u t.pc
      else
        let m := maskOf 32 (t.lanes.filter fun l => t.guard l x.p x.pn)
        s.modStrand u fun t0 => { (t.lanes.foldl (fun t' l => t'.setReg l x.d.toNat m) t0) with pc := nextPc t0.pc })

/-- RAND (04 R114): domain 2, word m of the block; 4 to 7 are reserved. -/
def execRand (u : StrandRef) (x : FormA) (s : State) : Host.Outcome State Fault Refusal :=
  .next (s.regOp u 0x2F x [x.a, x.b] (decide (3 < x.m.toNat)) fun t p l =>
    blockWord (streamBlock (s.streamKey p.ctx p.d.tensor) 2 (t.reg l x.a.toNat).toNat (t.reg l x.b.toNat).toNat) x.m.toNat)

end Sys2Proof.Machine
end

