-- ==== Sys2Proof/Machine/Sweep.lean ====
section
/-! DEFINITION. The optimizer sweep (08 R271 to R278, R288, R290): descriptor kind 0x70, its undo areas and commit maps, and recovery. -/

namespace Sys2Proof.Machine

open Sys2Proof

/-! ### Areas of a column (08 R276) -/

/-- First byte of the undo area in the columns of cluster cl (08 R276). -/
def State.undoBase (s : State) (c cl : Nat) : Nat :=
  ((s.clu cl).scratchUnits - (s.cx c).car.latchedW * s.carUnits (s.carTable c) cl - 4) * 65536

/-- Bytes of an undo slot. -/
def undoSlot : Nat := 49408

/-- Offset of the commit map behind the four slots. -/
def commitMap : Nat := 4 * undoSlot

/-- The header of an undo slot (08 Table 8-10). -/
def undoHeader (tensor : Word) (tile step valid : Nat) : List Byte :=
  bytesOfNat 256 (packNat [(0, 32, tensor.toNat), (32, 16, tile), (64, 64, step), (128, 1, valid)])

/-- The header of a commit map (08 Table 8-11). -/
def commitHeader (tensor : Word) (seq step valid : Nat) : List Byte :=
  bytesOfNat 64 (packNat [(0, 32, tensor.toNat), (32, 16, seq), (64, 64, step), (128, 1, valid)])

/-- Bytes of the undo area of a core. -/
def State.undoRead (s : State) (p : Where) (core off n : Nat) : List Byte :=
  s.read (s.scratchSpace core) (colKey core (s.undoBase p.ctx p.cl + off)) n

/-- Bytes written to the undo area of a core. -/
def State.undoWrite (s : State) (p : Where) (core off : Nat) (bs : List Byte) : State :=
  s.write (s.scratchSpace core) (colKey core (s.undoBase p.ctx p.cl + off)) bs

/-- Commit bit j of a core. -/
def State.commitBit (s : State) (p : Where) (core j : Nat) : Bool :=
  ((s.undoRead p core (commitMap + 64 + j / 8) 1).getD 0 0).getLsbD (j % 8)

/-- Commit bit j set. -/
def State.setCommit (s : State) (p : Where) (core j : Nat) : State :=
  let b := (s.undoRead p core (commitMap + 64 + j / 8) 1).getD 0 0
  s.undoWrite p core (commitMap + 64 + j / 8) [b ||| BitVec.ofNat 8 (2 ^ (j % 8))]

/-- The commit map begun for a segment (08 R277): header with valid 0, the cleared map, header with valid 1. -/
def State.startMap (s : State) (p : Where) (core tiles : Nat) : State :=
  let step := (s.cx p.ctx).step
  let s := s.undoWrite p core commitMap (commitHeader p.d.tensor p.d.seq step 0)
  let s := s.undoWrite p core (commitMap + 64) (List.replicate (ceilDiv tiles 8) 0)
  s.undoWrite p core commitMap (commitHeader p.d.tensor p.d.seq step 1)

/-! ### One element (08 R273) -/

/-- What the sweep of a set of elements needs: the set's constants, the divisor as FP32, and the loss-scale exponent. -/
structure SweepCtx where
  set   : SweepSet
  beta1 : Word
  beta2 : Word
  eps   : Word
  wd    : Word
  n     : Word
  exp   : Nat
deriving DecidableEq, Repr

/-- Word i of a hyper-parameter set (08 Table 8-4). -/
def hsetWord (h : BitVec 256) (i : Nat) : Word := BitVec.ofNat 32 (fld h (32 * i) 32)

/-- FP32 1.0 less x. -/
def oneLess (x : Word) : Word := fsub one32 x

/-- New moments and master of one element (08 R273): gradient, moments and master in. -/
def sweepElem (k : SweepCtx) (G m v w : Word) : Word × Word × Word :=
  let g := fdiv (to32 ((val32 G).scale (-(k.exp : Int)))) k.n
  let m' := ffma k.beta1 m (fmul k.set.c1 g)
  let v' := ffma k.beta2 v (fmul k.set.c2 (fmul g g))
  let u := fdiv (fdiv m' k.set.bc1) (fadd (fsqrt (fdiv v' k.set.bc2)) k.eps)
  (m', v', fsub w (fmul k.set.lr (ffma k.wd w u)))

/-- The constants of a segment's hyper-parameter set in the step. -/
def State.sweepCtx (s : State) (c h : Nat) (r : StepRun) : SweepCtx :=
  let hs := tget 0 (s.cx c).latched.hsets h
  let z : Word := 0
  let set := (r.sets.find? fun x => x.hset == h).getD ⟨h, z, z, z, z, z⟩
  ⟨set, hsetWord hs 0, hsetWord hs 1, hsetWord hs 2, hsetWord hs 3, nat32 r.divisor, (s.cx c).ls.exp⟩

/-! ### One tile -/

/-- The 4,096 words of an FP32 tile. -/
def tileWords (x : Nat) : List Word := (List.range 4096).map fun q => BitVec.ofNat 32 (x >>> (2048 + 32 * q))

/-- An FP32 tile from a header and its words. -/
def wordsTile (hdr : Line) (ws : List Word) : Nat := hdr.toNat + packElems 32 (ws.map fun w => w.toNat) * 2 ^ 2048

/-- The trained tensor with an ID. -/
def State.trained (s : State) (c : Nat) (id : Word) : Option Tensor := (s.cx c).place.bind fun p => p.tensors.find? fun t => t.id == id

/-- Tile number within the whole working copy, and the tile columns it counts in (08 R274). -/
def State.globalTile (s : State) (p : Where) (num : Nat) : Nat × Nat :=
  match s.trained p.ctx p.d.tensor with
  | some t => if p.d.c.loc = 0 ∧ t.working ≤ p.d.c.addr then ((p.d.c.addr - t.working) / tileBytes p.d.c.fmt + num, t.nTiles) else (num, p.d.n)
  | none => (num, p.d.n)

/-- A tile of an operand written by the sweep, under R228. -/
def State.putSwept (s : State) (p : Where) (g : Grid) (pos i j x : Nat) : State :=
  let (own, a) := g.tile p.d.cores pos i j
  s.writeTile p.ctx none (p.d.coreAt p.cl own) g.o.loc a g.o.hint g.o.fmt x

/-- The places of the lines of an output tile. -/
def State.tilePlaces (s : State) (p : Where) (g : Grid) (pos i j : Nat) : List Place :=
  let (own, a) := g.tile p.d.cores pos i j
  (List.range (tileLines g.o.fmt)).map fun l => s.placeOf p.ctx none (p.d.coreAt p.cl own) g.o.loc (a + 256 * l)

/-- Master and moments, which may lie in host memory (08 R289). -/
def Desc.stateGrids (d : Desc) : List Grid := [d.grids.2.2.2, d.vGrid, d.grids.2.1]

/-- A tile of an operand lies in the tier 3 window. -/
def State.onHost (s : State) (p : Where) (pos i j : Nat) (g : Grid) : Bool :=
  g.o.loc == 0 && (s.tier3Host (g.tile p.d.cores pos i j).2).isSome

/-- The lines of a tile reach the host (08 R290): what a cache window still holds is written back. -/
def State.postTile (s : State) (p : Where) (pos i j : Nat) (g : Grid) : State :=
  if s.onHost p pos i j g then
    (s.tilePlaces p g pos i j).foldl (fun s x => match x with | .homed id _ direct _ _ => s.cleanLine id direct | _ => s) s
  else s

/-- Why the write of a tile's outputs has to wait. -/
def State.sweptLocked (s : State) (p : Where) (pos i j : Nat) : Option HaltWhy :=
  [p.d.grids.2.1, p.d.grids.2.2.1, p.d.grids.2.2.2, p.d.vGrid].findSome? fun g =>
    let (own, a) := g.tile p.d.cores pos i j
    s.lockedIn p.ctx none (p.d.coreAt p.cl own) g.o.loc a (tileLines g.o.fmt)

/-- Undo records may be written (08 R288, 12 R433): the buddy has acknowledged the last mirror, and no export still reads. -/
def State.undoHeldBy (s : State) (c : Nat) : Bool := (s.cx c).mirroring.isSome || ((s.cx c).exp.any fun e => !e.closed)

/-- Moments and master put back from an undo record (08 R278). -/
def State.rollBack (s : State) (p : Where) (pos i j gidx : Nat) (saved : List Byte) : State :=
  let hdr := mkHeader 1 0 1 false false p.d.tensor.toNat gidx 0 (s.cx p.ctx).step
  let tile (k : Nat) : Nat := hdr.toNat + natOfBytes (slice saved (256 + 16384 * k) 16384) * 2 ^ 2048
  let s := s.putSwept p p.d.grids.2.2.2 pos i j (tile 0)
  let s := s.putSwept p p.d.vGrid pos i j (tile 1)
  s.putSwept p p.d.grids.2.1 pos i j (tile 2)

/-- The undo record of tile j of a core (08 R276): both moments and the master, `old` 0, 1 and 2, before their sweep. -/
def State.undoTile (s : State) (p : Where) (core j : Nat) (old : Nat → List Word) : State :=
  let step := (s.cx p.ctx).step
  let at_ := j % 4 * undoSlot
  let s := s.undoWrite p core at_ (undoHeader p.d.tensor j step 0)
  let s := s.undoWrite p core (at_ + 256) (((List.range 3).flatMap old).flatMap fun e => bytesOfNat 4 e.toNat)
  s.undoWrite p core at_ (undoHeader p.d.tensor j step 1)

/-- A tile swept from its first write (08 R273 to R277): undo record, first moment, second moment, master, working copy, commit bit; what lies in
host memory has reached it before the commit (R290). -/
def State.sweepTile (s : State) (p : Where) (pos i j lj gidx w : Nat) (k : SweepCtx) (xs : List Nat) : State :=
  let core := p.d.coreAt p.cl pos
  let step := (s.cx p.ctx).step
  let x (n : Nat) : List Word := tileWords (xs.getD n 0)
  let new := ((x 0).zip ((x 1).zip ((x 2).zip (x 3)))).map fun (e : Word × Word × Word × Word) => sweepElem k e.1 e.2.2.1 e.2.2.2 e.2.1
  let s := s.undoTile p core lj fun a => x (if a = 2 then 1 else a + 2)
  let hdr := mkHeader 1 0 1 false false p.d.tensor.toNat gidx 0 step
  let s := s.putSwept p p.d.grids.2.2.2 pos i j (wordsTile hdr (new.map fun e => e.1))
  let s := s.putSwept p p.d.vGrid pos i j (wordsTile hdr (new.map fun e => e.2.1))
  let s := s.putSwept p p.d.grids.2.1 pos i j (wordsTile hdr (new.map fun e => e.2.2))
  let gc := p.d.grids.2.2.1
  let cv : Conv := ⟨gc.o.fmt, p.d.sat, p.d.bsize, s.tolOf p.ctx gc.o.fmt,
    if p.d.sr then some (s.streamKey p.ctx p.d.tensor, outIndex w (gidx / max 1 w) (gidx % max 1 w)) else none⟩
  let o := convertTile cv (new.map fun e => val32 e.2.2)
  let s := s.countNan p.cl o.nans
  let s := s.putSwept p gc pos i j (tileNum (mkHeader gc.o.fmt o.bsize 1 false false p.d.tensor.toNat gidx 0 step) gc.o.fmt o)
  let s := (p.d.stateGrids.foldl (fun s g => s.postTile p pos i j g) s).setCommit p core lj
  let s := s.modCx p.ctx fun x => { x with
    convs := (x.convs.filter fun e => e.tensor != p.d.tensor) ++ [⟨p.d.tensor, p.d.sat, p.d.bsize, p.d.sr⟩] }
  s.modRun p.ctx fun r => { r with tilesSwept := r.tilesSwept + 1 }

/-- The start of a core's share: a fresh commit map, or in recovery the one it left if its header matches (08 R277, R278). -/
def State.openMap (s : State) (p : Where) (core tiles : Nat) (recover : Bool) : State :=
  let h := natOfBytes (s.undoRead p core commitMap 64)
  let mine := bit h 128 && bitsOf h 0 32 == p.d.tensor.toNat && bitsOf h 32 16 == p.d.seq && bitsOf h 64 64 == (s.cx p.ctx).step
  let s := if recover then s.modRun p.ctx fun r => { r with recovered := true } else s
  if recover && mine then s else s.startMap p core tiles

/-- One tile of a sweep segment on a core (08 R271 to R278). -/
def sweepUnit : UnitStep := fun p pos u s =>
  let n := p.d.n
  let i := pos + u / n * p.d.cores
  let j := u % n
  let core := p.d.coreAt p.cl pos
  match (s.cx p.ctx).run with
  | none => (s, .ended)
  | some r =>
    if (s.trained p.ctx p.d.tensor).any fun t => t.frozen then (s, .done)
    else
      let recover := ((s.legOf p.ctx p.leg).any fun g => g.resume.any fun q => q.1 == p.cl && decodeDesc q.2.1 == p.d)
      let (gidx, w) := s.globalTile p (i * n + j)
      let s := if u = 0 then s.openMap p core (p.d.unitsAt pos) recover else s
      if recover && s.commitBit p core u then (s, .done)
      else
        let saved := s.undoRead p core (u % 4 * undoSlot) undoSlot
        let h := natOfBytes (saved.take 256)
        let hit := recover && bit h 128 && bitsOf h 0 32 == p.d.tensor.toNat && bitsOf h 32 16 == u && bitsOf h 64 64 == (s.cx p.ctx).step
        if s.undoHeldBy p.ctx then
          let s := if (s.cx p.ctx).mirroring.isSome then s.modRun p.ctx fun r => { r with mirrorWait := true } else s
          (s, .halt .undoHeld 0)
        else if !s.host.linkUp && p.d.stateGrids.any (s.onHost p pos i j) then (s, .halt .waits 0)
        else
          let (ga, gb, _, gd) := p.d.grids
          let s := if hit then s.rollBack p pos i j gidx saved else s
          match s.inputTiles p pos [(ga, i, j, false), (gb, i, j, false), (gd, i, j, false), (p.d.vGrid, i, j, false)] [] with
          | (s, .error e) => (s, e)
          | (s, .ok xs) =>
            match s.sweptLocked p pos i j with
            | some w => s.standAt p (w, 0)
            | none => 
              let s := if hit then s.modRun p.ctx fun r => { r with rolledBack := r.rolledBack + 1 } else s
              (s.sweepTile p pos i j u gidx w (s.sweepCtx p.ctx (p.d.p 0 4) r) xs, .done)

/-- Every line of an operand on every core of the mask. -/
def State.operandLines (s : State) (p : Where) (g : Grid) : List LineId :=
  (List.range p.d.cores).flatMap fun pos => (List.range g.rows).flatMap fun i =>
    if i % p.d.cores ≠ pos then []
    else (List.range g.cols).flatMap fun j =>
      let (own, a) := g.tile p.d.cores pos i j
      (List.range (tileLines g.o.fmt)).filterMap fun l => match s.placeOf p.ctx none (p.d.coreAt p.cl own) g.o.loc (a + 256 * l) with
        | .homed id _ _ _ _ => some id
        | _ => none

/-- The close bit of a sweep or collective segment (06 R190; 08 Table 8-3; 09 Table 9-8): the locks of A's lines close before the first
read, or are held until their cursor is done. -/
def closePrep : Where → State → State := fun p s =>
  if p.d.pb 4 then (s.operandLines p p.d.grids.1).foldl (fun s id => s.closeAtCursor id) s else s

/-- OPTIMIZER_SWEEP_SEGMENT (08 R273). -/
def execSweepSegment (cl : Nat) (d : BitVec 512) (s : State) : Host.Outcome State Fault Refusal :=
  .next (s.descriptor sweepUnit closePrep (fun x => x.kind == 0x70) cl d)

end Sys2Proof.Machine
end

