-- ==== Sys2Proof/Machine/Collectives.lean ====
section
/-! DEFINITION. Collective segments (08 R258, R267, R269, R282; 09 R316, R317, R319; 12 R434): packets in flight, trailers, and descriptor
kind 0x60. -/

namespace Sys2Proof.Machine

open Sys2Proof

/-- A message to a module. -/
def State.tell (s : State) (c dst : Nat) (m : Msg) : State := s.emit (.send c dst m)

/-- The module that holds a rank of context c's replica group (08 Table 8-2). -/
def State.groupModule (s : State) (c r : Nat) : Option Nat := (s.cx c).place.bind fun p => p.group[r]?

/-- The rank a module holds in context c's replica group. -/
def State.rankAt (s : State) (c m : Nat) : Option Nat := (s.cx c).place.bind fun p => p.group.findIdx? fun g => g == m

/-- Own rank of context c. -/
def State.ownRank (s : State) (c : Nat) : Nat := ((s.cx c).place.map fun p => p.rank).getD 0

/-- A message to every rank of a list but this module's own. -/
def State.tellRanks (s : State) (c : Nat) (l : List Nat) (m : Msg) : State :=
  l.foldl (fun s r => if r = s.ownRank c then s else match s.groupModule c r with
    | some d => s.tell c d m
    | none => s) s

/-! ### Trailers (08 R269, 09 R319) -/

/-- The member's count: M less its dropped micro-batches, 0 once it has withdrawn (08 R266). -/
def StepRun.count (r : StepRun) : Nat := if r.withdrawn then 0 else r.mcount - r.dropped.length

/-- The trailer of this member. -/
def State.ownTrailer (s : State) (c : Nat) (r : StepRun) : Trailer :=
  { rank := s.ownRank c, step8 := (s.cx c).step % 256, finite := r.finite, scaleExp := (s.cx c).ls.exp, count := r.count, withdrawn := r.withdrawn,
    digest := ((s.cx c).place.map fun p => p.digest).getD 0 }

/-- A trailer kept: the latest of its rank. -/
def StepRun.keepTrailer (r : StepRun) (t : Trailer) : StepRun := { r with trailers := (r.trailers.filter fun x => x.rank != t.rank) ++ [t] }

/-- The trailer sent to every member of the mask (09 R319); the own one counts at once. -/
def State.sendTrailer (s : State) (c : Nat) : State :=
  match (s.cx c).run with
  | none => s
  | some r =>
    let t := s.ownTrailer c r
    let s := s.modRun c fun r => { r.keepTrailer t with trailerSent := true }
    (s.tellRanks c (s.cx c).mask.members (.trailer t)).advanceAll c

/-- The member withdraws (08 R266): a trailer already sent is sent again with the withdrawn bit. -/
def State.withdraw (s : State) (c : Nat) : State :=
  match (s.cx c).run with
  | none => s
  | some r =>
    let s := s.modRun c fun r => { r with withdrawn := true }
    if r.trailerSent && !r.withdrawn then s.sendTrailer c else s

/-! ### Packets in flight (09 R317) -/

/-- The packet with its tag. -/
def withTag (p : Packet) (tag : Nat) : Packet := { p with hdr := BitVec.ofNat 128 (p.hdr.toNat % 2 ^ 112 + tag % 65536 * 2 ^ 112) }

/-- A packet sent: it waits for its acknowledgement. -/
def State.launchFlight (s : State) (f : Flight) : State :=
  { s with fab := { s.fab with flights := s.fab.flights ++ [{ f with sent := s.now }] } }.route f.p

/-- The parts of one tile sent: each part only after every packet of the part before is acknowledged. -/
def State.sendParts (s : State) (p : Where) (parts : List (List Packet)) : State :=
  let group := s.fab.nextTag
  let numbered := (parts.zipIdx.flatMap fun (e : List Packet × Nat) => e.1.map fun q => (q, e.2)).zipIdx
  let fs := numbered.map fun (e : (Packet × Nat) × Nat) =>
    (⟨withTag e.1.1 (group + e.2), s.now, p.ctx, p.leg, p.cl, p.d.seq, group, e.1.2⟩ : Flight)
  let s := { s with fab := { s.fab with nextTag := (group + fs.length) % 65536, later := s.fab.later ++ fs.filter fun f => f.part != 0 } }
  (fs.filter fun f => f.part == 0).foldl State.launchFlight s

/-- The next part of a tile sent once nothing of it is in flight. -/
def State.nextPart (s : State) (group : Nat) : State :=
  if s.fab.flights.any fun f => f.group == group then s
  else
    match s.fab.later.find? fun f => f.group == group with
    | none => s
    | some f =>
      let now := s.fab.later.filter fun g => g.group == group && g.part == f.part
      let s := { s with fab := { s.fab with later := s.fab.later.filter fun g => !(g.group == group && g.part == f.part) } }
      now.foldl State.launchFlight s

/-- Packets of a segment that are not accepted yet, local ones on the ring included. -/
def State.segmentOpen (s : State) (c l cl seq : Nat) (tensor : Word) : Bool :=
  (s.fab.flights ++ s.fab.later).any (fun f => f.ctx == c && f.leg == l && f.cl == cl && f.seq == seq)
    || s.cel.sent.any (fun x => x.ctx == c && x.leg == l && x.key.coll && x.tensor == tensor)
    || (s.cel.columns.any fun k => k.2.refused.any fun x => x.ctx == c && x.leg == l && x.key.coll && x.tensor == tensor)

/-! ### Units of kind 0x60 -/

/-- Row and column of unit u of the core at a position. -/
def unitTile (d : Desc) (pos u : Nat) : Nat × Nat := (pos + u / d.n * d.cores, u % d.n)

/-- Destination field and context of a segment (09 Table 9-8). -/
def Desc.dst (d : Desc) : Nat := d.p 8 13
/-- dst_ctx. -/
def Desc.dstCtx (d : Desc) : Nat := d.p 21 2

/-- The element lines of a local gradient tile sent to the owner of the shard (08 R267, 09 R318): over the ring to this module's own press,
or as packets of ordered adds. -/
def State.sendGradient (s : State) (p : Where) (i j x : Nat) : State :=
  let a := p.d.c.addr + (i * p.d.n + j) * tileBytes 1 + 256
  let lines := (List.range 64).map fun r => numLine x (r + 1)
  let own := s.ownRank p.ctx
  let step := (s.cx p.ctx).step
  let gen := (s.cx p.ctx).mask.gen
  if p.d.dst = own then
    lines.zipIdx.foldl (fun s (e : Line × Nat) =>
      match s.pressTarget p.d.dstCtx (p.cl * 32) 0 (a + 256 * e.2) with
      | none => s
      | some id => s.sendPress fun no =>
          ⟨p.d.dstCtx, true, p.d.tensor, id, .fadd, BitVec.allOnes 64, e.1, ⟨true, 0, own, 0, 0⟩, true, gen, step % 256, p.leg, p.d.c.hint, p.cl, no⟩) s
  else
    match s.groupModule p.ctx p.d.dst with
    | none => s
    | some m =>
      s.sendParts p [(chunks 16 4 lines).zipIdx.map fun (e : List Line × Nat) =>
        mkPacket m s.fab.moduleId p.d.dstCtx 1 0 (a + 4096 * e.2) gen (step % 256) 0 e.1]

/-- The segment of a descriptor in the step. -/
def State.segmentOf (s : State) (p : Where) : Option Segment :=
  (s.cx p.ctx).run.bind fun r => r.segments.find? fun g => g.cl == p.cl && decodeDesc g.desc == p.d

/-- One tile of a reduce-scatter segment (08 R266, R267, 09 R321, 12 R426): a withdrawn member sends nothing; a segment stands while its owner is
not in the mask or has not answered a new generation. -/
def reduceUnit : UnitStep := fun p pos u s =>
  let (i, j) := unitTile p.d pos u
  let withdrawn := ((s.cx p.ctx).run.map fun r => r.withdrawn).getD false
  if withdrawn then (s, .done)
  else if !(s.cx p.ctx).mask.members.contains p.d.dst || (s.segmentOf p).any fun g => g.stopped then (s, .halt .waits 0)
  else
    match s.inputTile p p.d.grids.1 pos i j false with
    | (s, .error e) => (s, e)
    | (s, .ok x) => (s.sendGradient p i j x, .done)

/-- One tile sent in three parts (09 R317): header with state 0, scale and element lines, header with its final state. -/
def State.sendTile (s : State) (p : Where) (m vc a f x : Nat) : State :=
  let pk (a : Nat) (ls : List Line) : Packet := mkPacket m s.fab.moduleId p.d.dstCtx 0 vc a (s.cx p.ctx).mask.gen ((s.cx p.ctx).step % 256) 0 ls
  let head := numLine x 0
  let body := (List.range (tileLines f - 1)).map fun n => numLine x (n + 1)
  s.sendParts p [[pk a [head &&& ~~~(BitVec.ofNat 2048 0xC0)]],
    (chunks 16 (tileLines f) body).zipIdx.map fun (e : List Line × Nat) => pk (a + 256 + 4096 * e.2) e.1, [pk a [head]]]

/-- One tile of a point-to-point, mirror or export segment (08 R258, 09 R316). -/
def sendUnit : UnitStep := fun p pos u s =>
  let (i, j) := unitTile p.d pos u
  match s.inputTile p p.d.grids.1 pos i j false with
  | (s, .error e) => (s, e)
  | (s, .ok x) =>
    let m := if p.d.p 0 4 = 3 then s.groupModule p.ctx p.d.dst else some p.d.dst
    match m with
    | none => (s, .done)
    | some m => (s.sendTile p m (if p.d.p 0 4 = 1 then 1 else 3) (p.d.c.addr + (i * p.d.n + j) * tileBytes p.d.a.fmt) p.d.a.fmt x, .done)

/-! ### Shard fetch (08 R282, R283, R285) -/

/-- Bytes of a seal unit (08 R280). -/
def sealUnit : Nat := 65536

/-- Bytes of unit u of an area of n bytes. -/
def unitBytes (n u : Nat) : Nat := min sealUnit (n - u * sealUnit)

/-- A trained tensor's shard of rank r: first tile, tiles. -/
def shardTiles (t : Tensor) (n r : Nat) : Nat × Nat := let q := shardRows t.kTiles n r; (q.1 * t.nTiles, q.2 * t.nTiles)

/-- Address and bytes of a shard's working copy. -/
def workingArea (t : Tensor) (n r : Nat) : Nat × Nat :=
  let q := shardTiles t n r
  (t.working + q.1 * tileBytes t.fmt, q.2 * tileBytes t.fmt)

/-- A read request for some lines (09 Table 9-5), which tries candidate B first with `alt`. -/
def mkRequest (dst src ctx addr lines gen step8 tag : Nat) (alt : Bool) : Packet :=
  ⟨pack 128 [(0, 13, dst), (13, 13, src), (26, 2, ctx), (28, 4, 2), (32, 4, lines - 1), (36, 1, b2n alt), (40, 48, addr), (96, 8, gen), (104, 8, step8),
    (112, 16, tag)], 1, []⟩

/-- The unit being fetched asked for on the point-to-point channel (08 R282, R283): a read request for each 16 lines. -/
def State.askUnit (s : State) (c : Nat) (f : Fetching) : State :=
  match (s.cx c).place with
  | none => s
  | some pl =>
    match pl.tensors[f.tensor]?, pl.group[f.rank]? with
    | some t, some m =>
      let n := unitBytes (workingArea t pl.n f.rank).2 f.unit / 256
      (List.range (ceilDiv n 16)).foldl (fun s k =>
        let p := mkRequest m s.fab.moduleId c (f.src + f.unit * sealUnit + 4096 * k) (min 16 (n - 16 * k)) (s.cx c).mask.gen ((s.cx c).step % 256)
          s.fab.nextTag (f.path != 0)
        ({ s with fab := { s.fab with nextTag := (s.fab.nextTag + 1) % 65536 } }).route p) s
    | _, _ => s

/-- The fetch of a shard begins: from address `src` at its owner to `dst` here. -/
def State.startFetch (s : State) (c tensor rank src dst : Nat) : State :=
  let f : Fetching := ⟨tensor, rank, 0, 0, 0, false, src, dst⟩
  (s.modCx c fun x => { x with fetching := some f }).askUnit c f

/-- Fetch segments of context c that have been issued and whose shard is not here yet: tensor index and owner rank. -/
def State.fetchesOpen (s : State) (c : Nat) : List (Nat × Nat) :=
  let ids := (((s.cx c).place.map fun p => p.tensors).getD []).map fun t => t.id
  (List.range 48).flatMap fun k => (s.clu k).runs.filterMap fun r =>
    let d := decodeDesc r.desc
    if r.ctx = c ∧ d.kind = 0x60 ∧ d.p 0 4 = 2 then
      (ids.findIdx? fun i => i == d.tensor).bind fun i => if (s.cx c).fetched.contains (i, d.dst) then none else some (i, d.dst)
    else none

/-- Tensor and rank of one shard come before those of another (08 R282). -/
def shardBefore (a b : Nat × Nat) : Bool := decide (a.1 < b.1) || (a.1 == b.1 && decide (a.2 < b.2))

/-- A module can answer: it is neither lost nor departed. -/
def State.reachable (s : State) (m : Nat) : Bool := !(s.fab.lost.contains m || s.fab.departed.contains m)

/-- The one unit of a fetch segment: it stands until its shard is fetched, one shard at a time and of the segments issued the lowest tensor and rank
first (08 R282), and waits for a lost owner's successor (R285). -/
def fetchUnit : UnitStep := fun p _ _ s =>
  match (s.cx p.ctx).place with
  | none => (s, .done)
  | some pl =>
    match pl.tensors.findIdx? fun t => t.id == p.d.tensor with
    | none => (s, .done)
    | some i =>
      let t := pl.tensors.getD i (tensorOf 0)
      let r := p.d.dst
      if r = pl.rank ∨ (shardRows t.kTiles pl.n r).2 = 0 ∨ (s.cx p.ctx).fetched.contains (i, r) then (s, .done)
      else if (s.cx p.ctx).fetching.isSome || !((s.groupModule p.ctx r).any s.reachable) || (s.fetchesOpen p.ctx).any fun e => shardBefore e (i, r) then
        (s, .halt .waits 0)
      else (s.startFetch p.ctx i r p.d.a.addr p.d.c.addr, .halt .waits 0)

/-- The unit of a collective segment by its op. -/
def collectiveUnit : UnitStep := fun p pos u s =>
  if p.d.p 0 4 = 0 then reduceUnit p pos u s
  else if p.d.p 0 4 = 2 then fetchUnit p pos u s
  else sendUnit p pos u s

/-- The start of a reduce-scatter segment (09 R319): the first of a step sends the trailer; the segment is listed, and locks of A close. -/
def reducePrep (w : BitVec 512) : Where → State → State := fun p s =>
  let sent := ((s.cx p.ctx).run.map fun r => r.trailerSent).getD true
  let s := if sent then s else s.sendTrailer p.ctx
  let s := s.modRun p.ctx fun r =>
    if r.segments.any fun g => g.cl == p.cl && g.desc == w then r
    else { r with segments := r.segments ++ [⟨p.d.tensor, p.d.dst, p.cl, w, p.leg, false, false⟩] }
  closePrep p s

/-- REDUCE_SCATTER_SEND (08 R267). The reserved ops of 09 Table 9-8 are rejected here. -/
def execReduceScatterSend (cl : Nat) (d : BitVec 512) (s : State) : Host.Outcome State Fault Refusal :=
  .next (s.descriptor collectiveUnit (reducePrep d) (fun x => x.kind == 0x60 && (x.p 0 4 == 0 || decide (4 < x.p 0 4))) cl d)

/-- POINT_TO_POINT_SEND (08 R258). -/
def execPointToPointSend (cl : Nat) (d : BitVec 512) (s : State) : Host.Outcome State Fault Refusal :=
  .next (s.descriptor collectiveUnit closePrep (fun x => x.kind == 0x60 && x.p 0 4 == 1) cl d)

/-- SHARD_FETCH (08 R282). A names lines at the owner, so there is no lock of this module's for its close bit to close (DESIGN CHOICE, log 101). -/
def execShardFetch (cl : Nat) (d : BitVec 512) (s : State) : Host.Outcome State Fault Refusal :=
  .next (s.descriptor collectiveUnit noPrep (fun x => x.kind == 0x60 && x.p 0 4 == 2) cl d)

/-- BUDDY_MIRROR (08 R287): lines to the buddy's rank on the checkpoint virtual channel. -/
def execBuddyMirror (cl : Nat) (d : BitVec 512) (s : State) : Host.Outcome State Fault Refusal :=
  .next (s.descriptor collectiveUnit closePrep (fun x => x.kind == 0x60 && x.p 0 4 == 3) cl d)

/-- CHECKPOINT_EXPORT (12 R434): lines to the store's module on the checkpoint virtual channel. -/
def execCheckpointExport (cl : Nat) (d : BitVec 512) (s : State) : Host.Outcome State Fault Refusal :=
  .next (s.descriptor collectiveUnit closePrep (fun x => x.kind == 0x60 && x.p 0 4 == 4) cl d)

end Sys2Proof.Machine
end

