-- ==== Sys2Proof/Machine/Resume.lean ====
section
/-! DEFINITION. Cores that stand go on (07 R240 to R242, 06 R193), descriptors complete (03 R84, R85), and packets are acknowledged or time
out (09 R317). -/

namespace Sys2Proof.Machine

open Sys2Proof

/-- The units of a descriptor kind (03 Table 3-3). -/
def unitFor (d : Desc) : UnitStep :=
  match d.kind with
  | 0x20 => elementwiseUnit
  | 0x30 => reductionUnit
  | 0x40 => gatherUnit
  | 0x41 => scatterUnit
  | 0x50 => rowUnit
  | 0x51 => rowUnit
  | 0x52 => rowUnit
  | 0x53 => rowUnit
  | 0x60 => collectiveUnit
  | 0x70 => sweepUnit
  | 0x80 => noUnit
  | _ => productUnit

/-- Where a run stands. -/
def runWhere (cl : Nat) (r : DescRun) : Where := ⟨cl, decodeDesc r.desc, r.ctx, r.leg, r.desc⟩

/-- The position of a core among the set bits of a descriptor's mask. -/
def Desc.posOf (d : Desc) (core : Nat) : Nat := (d.positions.takeWhile fun i => i != core % 32).length

/-- A core's share of a run goes on from its first unit not done; the slices of a data-gradient product go on in their order (04 R110). -/
def State.runShare (s : State) (cl : Nat) (r : DescRun) (pos : Nat) : State :=
  let p := runWhere cl r
  let u := tget 0 r.done pos
  if p.d.kind = 0x11 then s.runDesc (unitFor p.d) p r.desc else (s.runUnits (unitFor p.d) p r.desc pos (p.d.unitsAt pos - u) u).1

/-- A core that stands tries again (07 R240): it goes on, or, where what it waits for is not there yet, nothing changes. -/
def State.retry (s : State) (cl : Nat) (w : BitVec 512) (core : Nat) : State :=
  match (s.clu cl).runs.find? fun r => r.desc == w && r.halts.any fun h => h.core == core with
  | none => s
  | some r =>
    if !s.clusterRuns cl (BitVec.ofNat 32 (2 ^ (core % 32))) || some (r.ctx, r.leg) != (s.clu cl).leg then s
    else
      let pos := (decodeDesc w).posOf core
      let old := r.halts.find? fun h => h.core == core
      let t := (s.modRunOn cl w fun x => { x with halts := x.halts.filter fun h => h.core != core }).runShare cl r pos
      match (t.clu cl).runs.find? fun r => r.desc == w with
      | none => t
      | some q =>
        let new := q.halts.find? fun h => h.core == core
        if tget 0 q.done pos = tget 0 r.done pos ∧ (new.map fun h => (h.tile, h.why)) = (old.map fun h => (h.tile, h.why)) ∧ new.isSome then s else t

/-- Every core of context c that stands for a reason in `p` tries again. -/
def State.retryAll (s : State) (c : Nat) (p : HaltWhy → Bool) : State :=
  let l := (List.range 48).flatMap fun k => ((s.clu k).runs.filter fun r => r.ctx == c).flatMap fun r =>
    (r.halts.filter fun h => p h.why).map fun h => (k, r.desc, h.core)
  l.foldl (fun s e => s.retry e.1 e.2.1 e.2.2) s

/-- The run of a pipe in which a core stands. -/
def State.haltedRun (s : State) (core : Nat) (pipe : Pipe) : Option (DescRun × Halt) :=
  (s.clu (clusterOf core)).runs.findSome? fun r =>
    if r.pipe = pipe then (r.halts.find? fun h => h.core == core).map fun h => (r, h) else none

/-- A core still stands at the tile where it stood: for the same reason, or still in a well-halt. -/
def Halt.goesOn (h g : Halt) : Bool := g.core == h.core && g.tile == h.tile && (g.why == h.why || (g.why.isWell && h.why.isWell))

/-- A core that stands tries again: it goes on, a well-halt counted at its end (07 R240, R241), or it stands on, for the reason found now. -/
def State.tryHalt (s : State) (cl : Nat) (r : DescRun) (h : Halt) : State × Option Halt :=
  let u := s.retry cl r.desc h.core
  match ((u.clu cl).runs.find? fun q => q.desc == r.desc).bind fun q => q.halts.find? h.goesOn with
  | some g =>
    let why (x : Halt) : Halt := if x = h then { x with why := g.why } else x
    (s.modRunOn cl r.desc fun q => { q with halts := q.halts.map why }, some { h with why := g.why })
  | none => (if h.why.isWell then u.countHalt r.ctx h.tile else u, none)

/-- WELL_HALT_END (07 R238, R240): the awaited tile arrives, if it is its turn to, and the core goes on. -/
def execWellHaltEnd (core : Nat) (pipe : Pipe) (t : Nat) (s : State) : Host.Outcome State Fault Refusal :=
  let s := s.tick t
  .next (match s.haltedRun core pipe with
    | none => s
    | some (r, h) => ((s.bringTile r.ctx h.tile).tryHalt (clusterOf core) r h).1)

/-- WELL_HALT_TIMEOUT (07 R242): not while the tile is regenerated or the cluster is frozen. -/
def execWellHaltTimeout (core : Nat) (pipe : Pipe) (t : Nat) (s : State) : Host.Outcome State Fault Refusal :=
  let s := s.tick t
  .next (match s.haltedRun core pipe with
    | none => s
    | some (r, h) =>
      if (s.clu (clusterOf core)).frozen ∨ (s.cx r.ctx).parked ∨ t ≤ h.since + (s.cx r.ctx).car.haltLimit * 1000000 ∨ !h.why.isWell then s
      else
        match s.tryHalt (clusterOf core) r h with
        | (s, some g) => if g.why = .missing then (s.faultTraining 4 r.ctx h.tile).failLeg r.ctx r.leg 0x0407 h.tile 5 else s
        | (s, none) => s)

/-- PRESS_WAIT_TIMEOUT (06 R193). -/
def execPressWaitTimeout (ctx : Nat) (leg : Nat) (line : LineId) (t : Nat) (s : State) : Host.Outcome State Fault Refusal :=
  let s := s.tick t
  let k := s.pressCol line
  let mine (w : Nat × Nat × LineId × Nat) : Bool := w.1 == ctx && w.2.1 == leg && w.2.2.1 == line
  .next (
    if !(s.cx ctx).parked && (s.col k).waiters.any fun w => mine w && decide (w.2.2.2 + 1000000 * s.cel.pressWaitMs < t) then
      let s := s.modCol k fun x => { x with waiters := x.waiters.filter fun w => !mine w }
      let s := s.modCnt (clusterOf k) fun x => { x with waitTimeouts := satAdd 0xFF x.waitTimeouts 1 }
      (s.faultTraining 4 ctx k).failLeg ctx leg 0x0404 k 1
    else s)

/-! ### Completion (03 R84, R85) -/

/-- The strands of a launch have ended, and no index is left. -/
def State.launchEnded (s : State) (cl : Nat) (r : DescRun) : Bool :=
  let d := decodeDesc r.desc
  decide (d.threads ≤ r.next) && (List.range d.cores).all fun pos => (s.cor (d.coreAt cl pos)).strands.all fun e => e.2.isNone

/-- Every core has finished its share. -/
def State.sharesDone (s : State) (cl : Nat) (r : DescRun) : Bool :=
  let d := decodeDesc r.desc
  r.halts.isEmpty &&
    (if d.kind = 0x80 then s.launchEnded cl r
     else (List.range d.cores).all fun pos => decide (d.unitsAt pos ≤ tget 0 r.done pos))
    && !(d.kind == 0x60 && s.segmentOpen r.ctx r.leg cl d.seq d.tensor)

/-- The first descriptor of the current leg on a pipe of cluster cl whose cores have all finished; descriptors on other cores may be ahead of it
(03 R64). -/
def State.doneRun (s : State) (cl : Nat) (pipe : Pipe) : Option DescRun :=
  (s.clu cl).runs.find? fun r => r.pipe == pipe && some (r.ctx, r.leg) == (s.clu cl).leg && s.sharesDone cl r

/-- The completion notice of a reduce-scatter segment (09 R317), to its owner. -/
def State.noticeSegment (s : State) (c : Nat) (g : Segment) : State :=
  let s := s.modRun c fun r => { r with segments := r.segments.map fun x => if x == g then { x with noticed := true } else x }
  if g.owner = s.ownRank c then s
  else match s.groupModule c g.owner with
    | some m => s.tell c m (.completion ⟨(decodeDesc g.desc).dstCtx, g.tensor, true, 0, s.ownRank c⟩)
    | none => s

/-- Segments whose descriptor has left its pipe and of which everything is accepted send their notice (after a resend, 09 R321). -/
def State.settleSegments (s : State) (c : Nat) : State :=
  (((s.cx c).run.map fun r => r.segments).getD []).foldl (fun s g =>
    let running := (s.clu g.cl).runs.any fun r => r.desc == g.desc && r.ctx == c
    let queued := (s.clu g.cl).queue.contains g.desc && (s.clu g.cl).leg == some (c, g.leg)
    if g.noticed || g.stopped || running || queued || s.segmentOpen c g.leg g.cl (decodeDesc g.desc).seq g.tensor then s else s.noticeSegment c g) s

/-- DESCRIPTOR_COMPLETE (03 R84, R85): the signal, the report of 06 R187 step 3, and the row-engine block of a backward (05 R147). -/
def execDescriptorComplete (cl : Nat) (pipe : Pipe) (s : State) : Host.Outcome State Fault Refusal :=
  .next (match s.doneRun cl pipe with
    | none => s
    | some r =>
      if !s.clusterRuns cl 0 then s
      else
        let d := decodeDesc r.desc
        let p := runWhere cl r
        let full := d.signalEn && tget 0 (s.clu cl).events d.signalEvent == 0xFFFF
        let s := if full then s.faultTraining 4 r.ctx d.signalEvent else s
        let back := (d.kind == 0x51 || d.kind == 0x53) && d.pb 2
        let mu := s.blockMu p
        let s := s.modClu cl fun x => { x with
          events := if d.signalEn then tmod 0 x.events d.signalEvent (satAdd 0xFFFF · 1) else x.events
          lastSeq := d.seq
          runs := x.runs.filter fun q => !(q.desc == r.desc && q.ctx == r.ctx && q.leg == r.leg)
          blocks := if back then x.blocks.filter fun b => !(b.ctx == r.ctx && b.mu == mu && b.addr == d.d.addr) else x.blocks }
        let s := match s.legOf r.ctx r.leg with
          | some g =>
            let s := s.modLeg r.ctx r.leg fun g => { g with resume := g.resume.filter fun q => !(q.1 == cl && q.2.1 == r.desc) }
            if g.inStep then s.modRun r.ctx fun x => { x with reported := x.reported ++ [(g.inst.idx, g.inst.mu.getD 0, d.seq, cl)] } else s
          | none => s
        if d.kind = 0x60 ∧ d.p 0 4 = 0 then s.settleSegments r.ctx else s)

/-! ### Acknowledgements (09 R317) -/

/-- The segment that sent a packet. -/
def State.flightSegment (s : State) (f : Flight) : Option Segment :=
  (s.cx f.ctx).run.bind fun r => r.segments.find? fun g => g.cl == f.cl && (decodeDesc g.desc).seq == f.seq && g.leg == f.leg

/-- The packet's segment has stopped for a new mask generation, or its owner is not in the mask (09 R321, 12 R426). -/
def State.flightStopped (s : State) (f : Flight) : Bool :=
  f.p.type == 1 && (s.flightSegment f).any fun g => g.stopped || !(s.cx f.ctx).mask.members.contains g.owner

/-- PACKET_ACKNOWLEDGEMENT (09 R317): accepted packets end their wait and release the next part of their tile; a refused contribution is
counted and sent again (06 R188), a stopped segment's once it goes on (R321). -/
def execPacketAcknowledgement (tags : List Nat) (refused : List Nat) (s : State) : Host.Outcome State Fault Refusal :=
  let one (s : State) (tag : Nat) : State :=
    match s.fab.flights.find? fun f => f.p.tag == tag with
    | none => s
    | some f =>
      let s := { s with fab := { s.fab with flights := s.fab.flights.erase f } }
      if refused.contains tag then
        let s := s.modCnt f.cl fun x => { x with refusals := satAdd 0xFFFF x.refusals 1 }
        if s.flightStopped f then { s with fab := { s.fab with later := s.fab.later ++ [f] } } else s.launchFlight f
      else (s.nextPart f.group).settleSegments f.ctx
  .next (tags.foldl one s)

/-- LINK_TIMEOUT (09 R317): no acknowledgement after 100 µs ends the segment's leg. A segment run again after its leg completed withdraws the
member. -/
def execLinkTimeout (tag : Nat) (t : Nat) (s : State) : Host.Outcome State Fault Refusal :=
  let s := s.tick t
  .next (match s.fab.flights.find? fun f => f.p.tag == tag && decide (f.sent + 100000 ≤ t) with
    | none => s
    | some f =>
      if s.flightStopped f then s
      else
        let keep (x : Flight) : Bool := !(x.ctx == f.ctx && x.leg == f.leg)
        let s := { s with fab := { s.fab with flights := s.fab.flights.filter keep, later := s.fab.later.filter keep } }
        if (s.legOf f.ctx f.leg).isSome then s.failLeg f.ctx f.leg 0x0501 f.p.dst 1 else s.withdraw f.ctx)

end Sys2Proof.Machine
end

