-- ==== Sys2Proof/Machine/Shards.lean ====
section
/-! DEFINITION. Shards: seals and seal tables (08 R280, R281), replica fetch (R282, R283), verification and repair by the owner (R284),
regeneration of working tiles (07 R245), and buddy mirrors (08 R286 to R288, 12 R427, R432). -/

namespace Sys2Proof.Machine

open Sys2Proof

/-! ### Geometry (08 R259, R260, R280) -/

/-- Seal units of n bytes. -/
def units (n : Nat) : Nat := ceilDiv n sealUnit

/-- The seal of bytes that start at offset `start` of an array of tiles of `tile` bytes (08 R280): header lines read as 0. -/
def sealOf (tile start : Nat) (bs : List Byte) : DWord :=
  crc64 (bs.zipIdx.map fun (e : Byte × Nat) => if (start + e.2) % tile < 256 then 0 else e.1)

/-- Seals of whole bytes, unit by unit. -/
def sealsOf (tile : Nat) (bs : List Byte) : List DWord :=
  (List.range (units bs.length)).map fun u => sealOf tile (u * sealUnit) ((bs.drop (u * sealUnit)).take sealUnit)

/-- Module memory as firmware reads it; none when a line is locked or poisoned. -/
def State.readAll (s : State) (c a n : Nat) : State × Option (List Byte) :=
  match s.dmaRead c a n with
  | (s, none, bs) => (s, some bs)
  | (s, some _, _) => (s, none)

/-- Bytes of a shard's master. -/
def masterBytes (t : Tensor) (n r : Nat) : Nat := if t.frozen then 0 else (shardTiles t n r).2 * tileBytes 1

/-- Trained tensors of the placement, with their index. -/
def State.tensorsOf (s : State) (c : Nat) : List (Tensor × Nat) := (((s.cx c).place.map fun p => p.tensors).getD []).zipIdx

/-- Group size of context c. -/
def State.groupSize (s : State) (c : Nat) : Nat := ((s.cx c).place.map fun p => p.n).getD 1

/-- This member owns a shard of the tensor that the sweep updates (08 R259, R275). -/
def State.sweptShard (s : State) (c : Nat) (t : Tensor) : Bool := !t.frozen && (shardTiles t (s.groupSize c) (s.ownRank c)).2 != 0

/-! ### Seal tables (08 R281, Table 8-12) -/

/-- A seal-table header. -/
def sealHeader (t : Tensor) (rank step w m valid : Nat) : List Byte :=
  bytesOfNat 64 (packNat [(0, 32, t.id.toNat), (32, 13, rank), (64, 64, step), (128, 32, w), (160, 32, m), (192, 1, valid)])

/-- Bytes of seals. -/
def sealBytes (l : List DWord) : List Byte := l.flatMap fun d => bytesOfNat 8 d.toNat

/-- The published working-copy seals of the own shard of tensor t; none without a published table. -/
def State.published (s : State) (c : Nat) (t : Tensor) : State × Option (List DWord) :=
  match s.readAll c t.seals 64 with
  | (s, none) => (s, none)
  | (s, some h) =>
    let v := natOfBytes h
    if bit v 192 && bitsOf v 0 32 == t.id.toNat then
      let n := bitsOf v 128 32
      match s.readAll c (t.seals + 64) (8 * n) with
      | (s, some bs) => (s, some ((List.range n).map fun i => BitVec.ofNat 64 (natAt bs (8 * i) 8)))
      | (s, none) => (s, none)
    else (s, none)

/-- The seal table of the own shard computed and published (08 R281): header with valid 0, seals, header with valid 1. The master seals are
kept. -/
def State.publish (s : State) (c : Nat) (t : Tensor) (step : Nat) : State :=
  let n := s.groupSize c
  let r := s.ownRank c
  let (wa, wn) := workingArea t n r
  match s.readAll c wa wn with
  | (s, none) => s
  | (s, some w) =>
    match s.readAll c t.master (masterBytes t n r) with
    | (s, none) => s
    | (s, some m) =>
      let ws := sealsOf (tileBytes t.fmt) w
      let ms := sealsOf (tileBytes 1) m
      let s := s.dmaWrite c t.seals (sealHeader t r step ws.length ms.length 0)
      let s := s.dmaWrite c (t.seals + 64) (sealBytes (ws ++ ms))
      let s := s.dmaWrite c t.seals (sealHeader t r step ws.length ms.length 1)
      s.modCx c fun x => { x with masterSeals := (x.masterSeals.filter fun e => e.1 != t.id) ++ [(t.id, ms)] }

/-- The step whose sweep a seal table publishes: the running step once its sweep legs are done, else the last swept one. -/
def State.sealStep (s : State) (c : Nat) : Option Nat :=
  match (s.cx c).run with
  | some r =>
    let open_ := (r.todo.any fun l => l.entry.phase == 3) || s.legs.any fun l => l.ctx == c && l.inStep && l.inst.entry.phase == 3
    if r.decision = some .sweep ∧ !open_ then some (s.cx c).step else none
  | none => (s.cx c).lastSweep.map fun l => l.step

/-- SEAL_PUBLISH (08 R281). -/
def execSealPublish (ctx : Nat) (tensor : Nat) (s : State) : Host.Outcome State Fault Refusal :=
  .next (match s.sealStep ctx, (s.tensorsOf ctx)[tensor]? with
    | some step, some (t, _) => if s.sweptShard ctx t then s.publish ctx t step else s
    | _, _ => s)

/-! ### Fetched units (08 R282, R283) -/

/-- The next unit of a fetch, or its end. -/
def State.fetchNext (s : State) (c : Nat) (f : Fetching) (count : Nat) : State :=
  if f.unit + 1 < count then
    let g : Fetching := { f with unit := f.unit + 1, tries := 0, path := 0 }
    (s.modCx c fun x => { x with fetching := some g }).askUnit c g
  else (s.modCx c fun x => { x with fetching := none, fetched := x.fetched ++ [(f.tensor, f.rank)] }).retryAll c (· == .waits)

/-- The port a path starts at: candidate `path` of the owner's module (08 R283). -/
def State.pathPort (s : State) (c : Nat) (f : Fetching) : Option Nat :=
  (s.groupModule c f.rank).bind fun m => (s.fab.candidates m).bind fun e => (e.1.filter fun n => decide (n < 12))[f.path]?

/-- The tiles that a unit of the working copy touches, by tile number of the shard. -/
def unitTiles (size n u : Nat) : List Nat :=
  let a := u * sealUnit / size
  (List.range ((u * sealUnit + unitBytes n u + size - 1) / size - a)).map fun i => a + i

/-- A tile's header with state 2 (07 Table 7-8). -/
def State.markTile (s : State) (c a : Nat) : State :=
  match s.readAll c a 256 with
  | (s, some h) => s.dmaWrite c a (bytesOfNat 256 (((lineOf h) &&& ~~~(BitVec.ofNat 2048 0xC0)) ||| BitVec.ofNat 2048 0x80).toNat)
  | (s, none) => s.dmaWrite c a (bytesOfNat 256 0x80)

/-- A unit that failed its seal (08 R283): fetched again, then over the second path after a verify request, at last the context freezes. -/
def State.sealMismatch (s : State) (c : Nat) (f : Fetching) (t : Tensor) : State :=
  let s := s.modCx c fun x => { x with cnt := { x.cnt with sealMismatch := satAdd 0xFFFF x.cnt.sealMismatch 1 } }
  let s := s.modRun c fun r => { r with sealBad := r.sealBad + 1 }
  if f.tries + 1 < 3 then
    let g : Fetching := { f with tries := f.tries + 1 }
    (s.modCx c fun x => { x with fetching := some g, cnt := { x.cnt with refetches := satAdd 0xFFFF x.cnt.refetches 1 } }).askUnit c g
  else if f.path = 0 then
    let s := match s.pathPort c f with
      | some n => s.markSuspect n
      | none => s
    let s := s.modCx c fun x => { x with fetching := some { f with verify := true }, cnt := { x.cnt with suspects := satAdd 0xFF x.cnt.suspects 1 } }
    match s.groupModule c f.rank with
    | some m => s.tell c m (.verifyRequest t.id f.rank f.unit 1)
    | none => s
  else
    let wn := (workingArea t (s.groupSize c) f.rank).2
    let s := (unitTiles (tileBytes t.fmt) wn f.unit).foldl (fun s k => s.markTile c (f.dst + k * tileBytes t.fmt)) s
    let s := s.faultTraining 5 c f.unit
    ((s.modCx c fun x => { x with fetching := none, stuck := true }).freeze c).event 0x8008 c f.rank

/-- A fetched unit checked and written (08 R282). -/
def State.takeUnit (s : State) (c : Nat) (f : Fetching) (t : Tensor) (bytes : List Byte) (sealv : DWord) : State :=
  let wn := (workingArea t (s.groupSize c) f.rank).2
  if sealOf (tileBytes t.fmt) (f.unit * sealUnit) bytes = sealv then
    let s := s.dmaWrite c (f.dst + f.unit * sealUnit) bytes
    let s := s.modCx c fun x => { x with
      unitSeals := (x.unitSeals.filter fun e => e.1 != (f.tensor, f.rank, f.unit)) ++ [((f.tensor, f.rank, f.unit), sealv)] }
    let s := if f.tries = 0 ∧ f.path = 0 then s else s.modRun c fun r => { r with sealRepair := true }
    s.fetchNext c f (units wn)
  else s.sealMismatch c f t

/-- VERIFY_REPLY (08 R283): the unit is fetched again over the second candidate port. -/
def execVerifyReply (ctx : Nat) (s : State) : Host.Outcome State Fault Refusal :=
  .next (match (s.cx ctx).fetching with
    | some f =>
      if f.verify then
        let g : Fetching := { f with verify := false, path := 1, tries := 0 }
        (s.modCx ctx fun x => { x with fetching := some g, cnt := { x.cnt with refetches := satAdd 0xFFFF x.cnt.refetches 1 } }).askUnit ctx g
      else s
    | none => s)

/-! ### Regeneration (07 R245) -/

/-- The conversion of a working copy, as its last sweep made it; a module that has not swept it takes the automatic block size and rounds to
nearest. -/
def State.convFor (s : State) (c : Nat) (t : Tensor) (step gidx : Nat) : Conv :=
  let k := ((s.cx c).convs.find? fun e => e.tensor == t.id).getD ⟨t.id, false, 0, false⟩
  ⟨t.fmt, k.sat, k.bsize, (s.cx c).latched.tols.getD (t.fmt - 6) 0,
    if k.sr then some (⟨(s.cx c).seed, t.id, step⟩, outIndex t.nTiles (gidx / max 1 t.nTiles) (gidx % max 1 t.nTiles)) else none⟩

/-- The working tile that a master tile gives (07 R245): tile number `gidx` of the whole tensor, keyed with the step of its sweep. -/
def State.workTile (s : State) (c : Nat) (t : Tensor) (step gidx : Nat) (regen : Bool) (master : List Byte) : List Byte :=
  let ws := tileWords (natOfBytes master)
  let o := convertTile (s.convFor c t step gidx) (ws.map val32)
  bytesOfNat (tileBytes t.fmt) (tileNum (mkHeader t.fmt o.bsize 1 false regen t.id.toNat gidx 0 step) t.fmt o)

/-- The own shard's working copy regenerated from its master (08 R284, 12 R429, R438). -/
def State.regenShard (s : State) (c : Nat) (t : Tensor) (step : Nat) : State :=
  let n := s.groupSize c
  let r := s.ownRank c
  let (first, count) := shardTiles t n r
  (List.range count).foldl (fun s k =>
    match s.readAll c (t.master + k * tileBytes 1) (tileBytes 1) with
    | (s, some m) => s.dmaWrite c (t.working + (first + k) * tileBytes t.fmt) (s.workTile c t step (first + k) true m)
    | (s, none) => s) s

/-! ### Verification by the owner (08 R284) -/

/-- The array of a buffer's shard copy. -/
def ShardCopy.array (h : ShardCopy) (a : Nat) : List Byte := if a = 0 then h.master else if a = 1 then h.moment1 else h.moment2

/-- The buffer of the buddy holds a shard that passes its master seals. -/
def bufferShard (b : Buffer) (t : Tensor) : Option ShardCopy :=
  (b.shards.find? fun h => h.tensor == t.id).bind fun h => if sealsOf (tileBytes 1) h.master = h.seals then some h else none

/-- Where the repair sweep of a tensor keeps its undo records and commit maps: on the active cores of the context's lowest cluster, as a segment
with seq 0xFFFF (DESIGN CHOICE, log 44). -/
def State.repairAt (s : State) (c : Nat) (t : Tensor) : Where :=
  let cl := (s.owned c).headD 0
  ⟨cl, { decodeDesc 0 with tensor := t.id, seq := 0xFFFF, mask := (s.clu cl).active }, c, 0, 0⟩

/-- One tile of the repair sweep: state of the tile in the buffer, reduced gradient in place (08 R284), with its undo record before and its commit
bit after (R277). Tiles go to the cores in turn. -/
def State.repairTile (s : State) (c : Nat) (t : Tensor) (l : LastSweep) (h : ShardCopy) (first k : Nat) : State :=
  let sz := tileBytes 1
  match s.readAll c (t.reduced + k * sz) sz with
  | (s, none) => s
  | (s, some g) =>
    let hs := tget 0 (s.cx c).latched.hsets t.hset
    let z : Word := 0
    let k' : SweepCtx := ⟨(l.sets.find? fun x => x.hset == t.hset).getD ⟨t.hset, z, z, z, z, z⟩, hsetWord hs 0, hsetWord hs 1, hsetWord hs 2, hsetWord hs 3,
      nat32 l.divisor, l.exp⟩
    let old (a : Nat) : List Word := tileWords (natOfBytes (slice (ShardCopy.array h a) (k * sz) sz))
    let new := ((tileWords (natOfBytes g)).zip ((old 1).zip ((old 2).zip (old 0)))).map fun (e : Word × Word × Word × Word) =>
      sweepElem k' e.1 e.2.1 e.2.2.1 e.2.2.2
    let hdr := mkHeader 1 0 1 false false t.id.toNat (first + k) 0 l.step
    let put (s : State) (a : Nat) (ws : List Word) : State := s.dmaWrite c (a + k * sz) (bytesOfNat sz (wordsTile hdr ws))
    let p := s.repairAt c t
    let n := max 1 p.d.cores
    let core := p.d.coreAt p.cl (k % n)
    let s := s.undoTile p core (k / n) (fun a => old ((a + 1) % 3))
    let s := put s t.moment1 (new.map fun e => e.1)
    let s := put s t.moment2 (new.map fun e => e.2.1)
    (put s t.master (new.map fun e => e.2.2)).setCommit p core (k / n)

/-- A repair counted (08 Tables 8-6 and 8-9), the table published again, and the reply. -/
def State.repaired (s : State) (c src : Nat) (t : Tensor) (step unit : Nat) : State :=
  let s := s.modCx c fun x => { x with cnt := { x.cnt with repairs := satAdd 0xFF x.cnt.repairs 1 } }
  let s := s.modRun c fun r => { r with sealRepair := true }
  (s.publish c t step).tell c src (.verifyReply t.id unit)

/-- The owner cannot give the shard (08 R284): the context freezes. -/
def State.shardLost (s : State) (c : Nat) : State :=
  let s := s.faultTraining 5 c (s.ownRank c)
  ((s.modCx c fun x => { x with stuck := true }).freeze c).event 0x8009 c (s.ownRank c)

/-- VERIFY_REQUEST (08 R284): `buddy` is the buffer that the own buddy answers with, where one is asked. -/
def execVerifyRequest (ctx : Nat) (tensor : Nat) (unit : Nat) (src : Nat) (buddy : Option Buffer) (s : State) : Host.Outcome State Fault Refusal :=
  .next (match (s.tensorsOf ctx)[tensor]?, (s.cx ctx).lastSweep with
    | some (t, _), some l =>
      let n := s.groupSize ctx
      let r := s.ownRank ctx
      let (wa, wn) := workingArea t n r
      let (first, count) := shardTiles t n r
      match s.published ctx t with
      | (s, none) => s
      | (s, some seals) =>
        let (s, w) := s.readAll ctx (wa + unit * sealUnit) (unitBytes wn unit)
        if (w.map fun bs => sealOf (tileBytes t.fmt) (unit * sealUnit) bs) = seals[unit]? ∧ w.isSome then s.tell ctx src (.verifyReply t.id unit)
        else
          let (s, m) := s.readAll ctx t.master (masterBytes t n r)
          let kept := ((s.cx ctx).masterSeals.find? fun e => e.1 == t.id).map fun e => e.2
          if (m.map fun bs => sealsOf (tileBytes 1) bs) = kept ∧ m.isSome then (s.regenShard ctx t l.step).repaired ctx src t l.step unit
          else
            match buddy with
            | none => s.shardLost ctx
            | some b =>
              match (if b.complete ∧ b.owner = r ∧ some b.step = l.before then bufferShard b t else none) with
              | none => s.shardLost ctx
              | some h =>
                let p := s.repairAt ctx t
                let s := (List.range p.d.cores).foldl (fun s i => s.startMap p (p.d.coreAt p.cl i) (shareOf p.d.cores i count)) s
                let s := (List.range count).foldl (fun s k => s.repairTile ctx t l h first k) s
                (s.regenShard ctx t l.step).repaired ctx src t l.step unit
    | _, _ => s)

/-! ### Buddy mirrors (08 R286 to R288, 12 R427, R432) -/

/-- The context block of a mirror (12 R427), as the context stands. -/
def State.ctxBlock (s : State) (c : Nat) : CtxBlock :=
  let x := s.cx c
  { step := x.step, seed := x.seed, scaleExp := x.ls.exp, fixed := x.ls.fixed, clean := x.ls.clean, probe := x.ls.probe, probeLeft := x.ls.probeLeft,
    cursor := x.cursor, swept := x.swept, p1 := (List.range 16).map (tget one32 x.p1), p2 := (List.range 16).map (tget one32 x.p2),
    hsets := (List.range 16).map (tget 0 x.hsets), digest := (x.place.map fun p => p.digest).getD 0 }

/-- The module of the own buddy (08 R286). -/
def State.buddyModule (s : State) (c : Nat) : Option Nat :=
  (s.cx c).place.bind fun p => if p.buddyEn then p.group[p.buddy]? else none

/-- Address of an array of the own shard: 0 master, 1 first moment, 2 second moment. -/
def arrayAddr (t : Tensor) (a : Nat) : Nat := if a = 0 then t.master else if a = 1 then t.moment1 else t.moment2

/-- One unit of a mirror sent (08 R287), a master unit with the seal that was kept when its sweep was sealed (R281). -/
def State.mirrorUnit (s : State) (c m step : Nat) (t : Tensor) (array u : Nat) : State :=
  let n := masterBytes t (s.groupSize c) (s.ownRank c)
  match s.readAll c (arrayAddr t array + u * sealUnit) (unitBytes n u) with
  | (s, none) => s
  | (s, some bs) =>
    let kept := if array = 0 then ((s.cx c).masterSeals.find? fun e => e.1 == t.id).bind fun e => e.2[u]? else none
    s.tell c m (.mirror (.unit (s.ownRank c) step t.id array u bs (kept.getD (sealOf (tileBytes 1) (u * sealUnit) bs))))

/-- The mirror of step t sent to the buddy (08 R287): start, every unit of every array, and the context block. -/
def State.sendMirror (s : State) (c step : Nat) (block : CtxBlock) : State :=
  match s.buddyModule c with
  | none => s
  | some m =>
    let s := s.modCx c fun x => { x with mirroring := some (step, block), mirrorValid := false }
    let r := s.ownRank c
    let s := s.tell c m (.mirror (.start r step))
    let s := (s.tensorsOf c).foldl (fun s (e : Tensor × Nat) =>
      if s.sweptShard c e.1 then
        (List.range 3).foldl (fun s a =>
          (List.range (units (masterBytes e.1 (s.groupSize c) r))).foldl (fun s u => s.mirrorUnit c m step e.1 a u) s) s
      else s) s
    s.tell c m (.mirror (.finish r step block))

/-- Bytes put into an array at an offset. -/
def spliceBytes (old : List Byte) (off : Nat) (bs : List Byte) : List Byte := slice old 0 off ++ bs ++ old.drop (off + bs.length)

/-- A unit stored in a shard copy. -/
def ShardCopy.put (h : ShardCopy) (array u : Nat) (bs : List Byte) (sealv : DWord) : ShardCopy :=
  let at_ := u * sealUnit
  if array = 0 then { h with master := spliceBytes h.master at_ bs, seals := (h.seals ++ List.replicate (u + 1 - h.seals.length) 0).set u sealv }
  else if array = 1 then { h with moment1 := spliceBytes h.moment1 at_ bs }
  else { h with moment2 := spliceBytes h.moment2 at_ bs }

/-- A buffer with a unit stored. -/
def Buffer.put (b : Buffer) (tensor : Word) (array u : Nat) (bs : List Byte) (sealv : DWord) : Buffer :=
  let h := (b.shards.find? fun x => x.tensor == tensor).getD ⟨tensor, [], [], [], []⟩
  { b with shards := (b.shards.filter fun x => x.tensor != tensor) ++ [ShardCopy.put h array u bs sealv] }

/-- The buffer of an owner and step (08 R287): t mod 2. -/
def sameSlot (owner step : Nat) (b : Buffer) : Bool := b.owner == owner && b.step % 2 == step % 2

/-- A buffer changed. -/
def State.modBuffer (s : State) (c owner step : Nat) (f : Buffer → Buffer) : State :=
  s.modCx c fun x => { x with buffers := x.buffers.map fun b => if sameSlot owner step b && b.step == step then f b else b }

/-- The complete bit set last, and the acknowledgement (08 R287): once the context block is in and no unit is still asked for. -/
def State.settleBuffer (s : State) (c owner step : Nat) : State :=
  match (s.cx c).buffers.find? fun b => sameSlot owner step b && b.step == step with
  | some b =>
    if b.block.isSome && !b.complete && (s.cx c).again.isEmpty then
      let s := s.modBuffer c owner step fun b => { b with complete := true }
      match s.groupModule c owner with
      | some m => s.tell c m (.mirrorAck step)
      | none => s
    else s
  | none => s

/-- MIRROR_UNIT_ARRIVAL (08 R287): the complete bit clears before writing; a master unit that fails its seal is asked for again, up to twice. -/
def execMirrorUnitArrival (ctx : Nat) (m : MirrorMsg) (s : State) : Host.Outcome State Fault Refusal :=
  .next (match m with
    | .start owner step =>
      s.modCx ctx fun x => { x with
        buffers := (x.buffers.filter fun b => !sameSlot owner step b) ++ [⟨owner, step, false, [], none⟩], again := [] }
    | .unit owner step tensor array u bs sealv =>
      let ok := array != 0 || sealOf (tileBytes 1) (u * sealUnit) bs == sealv
      let asked := (((s.cx ctx).again.find? fun e => e.1 == tensor && e.2.1 == u).map fun e => e.2.2).getD 0
      if ok then
        let s := s.modBuffer ctx owner step fun b => Buffer.put b tensor array u bs sealv
        let s := if array = 0 then s.modCx ctx fun x => { x with again := x.again.filter fun e => !(e.1 == tensor && e.2.1 == u) } else s
        s.settleBuffer ctx owner step
      else
        let s := s.modCx ctx fun x => { x with again := (x.again.filter fun e => !(e.1 == tensor && e.2.1 == u)) ++ [(tensor, u, asked + 1)] }
        if asked < 2 then
          match s.groupModule ctx owner with
          | some d => s.tell ctx d (.mirrorAgain tensor array u)
          | none => s
        else s
    | .finish owner step block => (s.modBuffer ctx owner step fun b => { b with block := some block }).settleBuffer ctx owner step)

/-- MIRROR_ACKNOWLEDGEMENT (08 R288): the sweep that stood for it goes on. -/
def execMirrorAcknowledgement (ctx : Nat) (step : Nat) (s : State) : Host.Outcome State Fault Refusal :=
  .next (if ((s.cx ctx).mirroring.map Prod.fst) = some step then
      (s.modCx ctx fun x => { x with mirroring := none, mirrorValid := true }).retryAll ctx (· == .undoHeld)
    else s)

/-- MIRROR_UNIT_REREQUEST (08 R287): the unit is sent again. -/
def execMirrorUnitRerequest (ctx : Nat) (tensor : Word) (array : Nat) (unit : Nat) (s : State) : Host.Outcome State Fault Refusal :=
  .next (match (s.cx ctx).mirroring, s.buddyModule ctx, s.trained ctx tensor with
    | some (step, _), some m, some t => s.mirrorUnit ctx m step t array unit
    | _, _, _ => s)

end Sys2Proof.Machine
end

