-- ==== Sys2Proof/Machine/Group.lean ====
section
/-! DEFINITION. Replica groups: membership masks and their generations (09 R320 to R322, 12 R431, R432), trailers (08 R269), and the loss or
departure of modules (09 R323 to R326). -/

namespace Sys2Proof.Machine

open Sys2Proof

/-! ### Clearing gradients (08 R263) -/

/-- A cleared tile: FP32, state 1, every element +0. -/
def zeroTile (tensor index step : Nat) : Nat := (mkHeader 1 0 1 false false tensor index 0 step).toNat

/-- A cleared tile written at a place. -/
def State.clearTile (s : State) (c core loc a tensor index : Nat) : State :=
  s.putLines c none core loc a none (zeroTile tensor index (s.cx c).step) (tileLines 1) 0

/-- The own reduced gradients of context c: tensor, address and tile number of each tile. -/
def State.reducedTiles (s : State) (c : Nat) : List (Tensor × Nat × Nat) :=
  (s.tensorsOf c).flatMap fun (e : Tensor × Nat) =>
    if e.1.frozen then []
    else
      let (first, count) := shardTiles e.1 (s.groupSize c) (s.ownRank c)
      (List.range count).map fun k => (e.1, e.1.reduced + k * tileBytes 1, first + k)

/-- The own reduced gradients cleared. -/
def State.clearReduced (s : State) (c : Nat) : State :=
  (s.reducedTiles c).foldl (fun s (e : Tensor × Nat × Nat) => s.clearTile c 0 0 e.2.1 e.1.id.toNat e.2.2) s

/-- The home lines of the own reduced gradients. -/
def State.reducedLines (s : State) (c : Nat) : List LineId :=
  (s.reducedTiles c).flatMap fun (e : Tensor × Nat × Nat) => (List.range (tileLines 1)).filterMap fun l =>
    match s.resolve c none (e.2.1 + 256 * l) with
    | .homed id _ _ _ _ => some id
    | _ => none

/-! ### Segments of this member (09 R321) -/

/-- The segments of context c in its step. -/
def State.segments (s : State) (c : Nat) : List Segment := ((s.cx c).run.map fun r => r.segments).getD []

/-- The segments changed. -/
def State.modSegments (s : State) (c : Nat) (f : Segment → Segment) : State := s.modRun c fun r => { r with segments := r.segments.map f }

/-- Every unit of a segment sent again. -/
def State.sendAll (s : State) (p : Where) : State :=
  (List.range p.d.cores).foldl (fun s pos => (List.range (p.d.unitsAt pos)).foldl (fun s u => (reduceUnit p pos u s).1) s) s

/-- Packets of a segment that wait to be sent again, or for the part before, forgotten. -/
def State.dropLater (s : State) (c : Nat) (g : Segment) : State :=
  { s with fab := { s.fab with later := s.fab.later.filter fun f => !(f.ctx == c && s.flightSegment f == some g) } }

/-- A segment goes on from its first unacknowledged packet (09 R321): the time it stood does not count toward the link timeout, and what was refused
meanwhile is sent again. -/
def State.resumeSegment (s : State) (c : Nat) (g : Segment) : State :=
  let mine (f : Flight) : Bool := f.ctx == c && s.flightSegment f == some g
  let groups := ((s.fab.later.filter mine).map fun f => f.group).dedup
  let s := { s with fab := { s.fab with flights := s.fab.flights.map fun f => if mine f then { f with sent := s.now } else f } }
  let s := s.modSegments c fun x => if x == g then { x with stopped := false } else x
  groups.foldl State.nextPart s

/-- A segment run again from its start: in its pipe, in its queue, or, once its descriptor has completed, by the column controllers alone. -/
def State.rerunSegment (s : State) (c : Nat) (g : Segment) : State :=
  let d := decodeDesc g.desc
  let p : Where := ⟨g.cl, d, c, g.leg, g.desc⟩
  let s := s.dropLater c g
  let s := s.modSegments c fun x => if x.cl == g.cl && x.desc == g.desc then { x with stopped := false, noticed := false } else x
  if (s.clu g.cl).runs.any fun r => r.desc == g.desc && r.ctx == c then
    (s.modRunOn g.cl g.desc fun r => { r with done := [], halts := [] }).runCores collectiveUnit p g.desc (List.range d.cores)
  else if (s.clu g.cl).queue.contains g.desc && (s.clu g.cl).leg == some (c, g.leg) then s
  else s.sendAll p

/-- An owner's notice of the generation held: its segments go on, or run again from the start. -/
def State.takeNotice (s : State) (c owner : Nat) (resend : Bool) : State :=
  let mine := (s.segments c).filter fun g => g.owner == owner
  let s := if resend then mine.foldl (fun s g => s.rerunSegment c g) s
    else (mine.filter fun g => g.stopped).foldl (fun s g => s.resumeSegment c g) s
  (s.retryAll c (· == .waits)).settleSegments c

/-- A notice for a generation: a higher one is kept, a lower one ignored. -/
def State.notice (s : State) (c owner gen : Nat) (resend : Bool) : State :=
  if (s.cx c).mask.gen < gen then s.modCx c fun x => { x with notices := x.notices ++ [(owner, gen, resend)] }
  else if gen < (s.cx c).mask.gen then s
  else s.takeNotice c owner resend

/-! ### New generations -/

/-- A contribution of a rank in `l` to context c's reduced gradients. -/
def ofRanks (c : Nat) (l : List Nat) (x : Contribution) : Bool := x.ctx == c && x.key.coll && l.contains x.key.r

/-- Waiting contributions of some ranks discarded. -/
def State.discardRanks (s : State) (c : Nat) (l : List Nat) : State :=
  let keep (y : List Contribution) : List Contribution := y.filter fun x => !ofRanks c l x
  (s.cel.columns.map Prod.fst).foldl (fun s k => s.modCol k fun x => { x with pending := keep x.pending, refused := keep x.refused }) s

/-- Some line of the own reduced gradients has applied a contribution of a rank in `l`. -/
def State.hasApplied (s : State) (c : Nat) (l : List Nat) : Bool :=
  (s.reducedLines c).any fun id => (s.homeLine id).lock.any fun k => l.any k.appliedRank.contains

/-- The own reduced gradients started again under a generation (09 R321 case 2). -/
def State.restartReduced (s : State) (c gen : Nat) : State :=
  let s := s.discardRanks c (List.range (s.groupSize c))
  let s := (s.reducedLines c).foldl (fun s id =>
    let h := s.homeLine id
    if h.st = .rl then s.putHome id { h with st := .v, dirty := true, lock := none, sharers := [], owner := none } else s) s
  let s := s.clearReduced c
  let s := s.modRun c fun r => { r with noticesIn := r.noticesIn.filter fun n => !n.coll }
  s.modCx c fun x => { x with mask := { x.mask with restarting := true, restartGen := gen } }

/-- A member as owner at a new generation of its step (09 R321). A member that has decided the step keeps its reduced gradients. -/
def State.ownerTurn (s : State) (c gen : Nat) (excluded : List Nat) : State :=
  let s := s.discardRanks c excluded
  let decided := ((s.cx c).run.bind fun r => r.decision).isSome
  let again := !decided && s.hasApplied c excluded
  let s := if again then s.restartReduced c gen else s
  let s := s.tellRanks c (s.cx c).mask.members (if again then .resend gen else .resume gen)
  s.takeNotice c (s.ownRank c) again

/-- The spare's module at rank ρ in the own group list (12 R431). -/
def State.seatSpare (s : State) (c rank m : Nat) : State :=
  s.modCx c fun x => { x with
    place := x.place.map fun p => { p with group := p.group.set rank m }
    lost := x.lost.filter fun r => r != rank, departed := x.departed.filter fun r => r != rank }

/-- A module is back in the fabric (09 R326). -/
def State.moduleBack (s : State) (m : Nat) : State :=
  { s with fab := { s.fab with lost := s.fab.lost.filter fun d => d != m, departed := s.fab.departed.filter fun d => d != m } }

/-- What waited for the rank that a spare has taken over goes on: segments from the start (09 R322), the mirror (12 R432), a fetch (08 R285). -/
def State.welcome (s : State) (c rank : Nat) : State :=
  let s := ((s.segments c).filter fun g => g.owner == rank).foldl (fun s g => s.rerunSegment c g) s
  let s := match (s.cx c).mirroring, (s.cx c).place with
    | some (step, block), some p => if p.buddyEn && p.buddy == rank then s.sendMirror c step block else s
    | _, _ => s
  match (s.cx c).fetching with
  | some f => if f.rank = rank then s.askUnit c f else s
  | none => s

/-- A mask accepted (09 R320, R321). -/
def State.acceptMask (s : State) (c : Nat) (m : MaskMsg) : State :=
  let old := (s.cx c).mask
  if !(decide (old.step < m.step) || (old.step == m.step && decide (old.gen < m.gen)) || old.members.isEmpty) then s
  else
    let same := old.step == m.step && !old.members.isEmpty
    let s := s.modCx c fun x => { x with mask :=
      { step := m.step, gen := m.gen, members := m.members, restarting := same && old.restarting, restartGen := if same then old.restartGen else 0 } }
    let s := match m.admits with
      | some (rank, d) => (s.seatSpare c rank d).moduleBack d
      | none => s
    let s := if same && m.step == (s.cx c).step && (s.cx c).run.isSome then
        let s := s.modSegments c fun g => { g with stopped := true }
        let s := s.ownerTurn c m.gen (old.members.filter fun r => !m.members.contains r)
        let kept := ((s.cx c).notices.filter fun n => n.2.1 == m.gen)
        let s := s.modCx c fun x => { x with notices := x.notices.filter fun n => decide (m.gen < n.2.1) }
        kept.foldl (fun s n => s.takeNotice c n.1 n.2.2) s
      else s.modCx c fun x => { x with notices := [] }
    let s := match m.admits with
      | some (rank, _) => s.welcome c rank
      | none => s
    (s.retryAll c (· == .waits)).advanceAll c

/-- The next generation published by the leader, or the void notice where generation 256 would be needed (09 R320). -/
def State.publishMask (s : State) (c : Nat) (members : List Nat) (admits : Option (Nat × Nat)) : State :=
  let old := (s.cx c).mask
  if 255 ≤ old.gen then
    (s.tellRanks c old.members (.void (s.cx c).step)).modRun c fun r => { r with voidNotice := true }
  else
    let m : MaskMsg := ⟨old.step, old.gen + 1, members, admits⟩
    (s.acceptMask c m).tellRanks c members (.mask m)

/-- Ranks of the mask that are neither lost nor departed. -/
def Ctx.present (x : Ctx) : List Nat := x.mask.members.filter fun r => !x.lost.contains r && !x.departed.contains r

/-- This member leads: it is the lowest rank present. -/
def State.leads (s : State) (c : Nat) : Bool := (s.cx c).present.head? == some (s.ownRank c)

/-- The ranks that a module holds leave the masks, through their leaders (09 R320, R325). -/
def State.excludeModule (s : State) (m : Nat) (lost : Bool) : State :=
  (List.range 4).foldl (fun s c =>
    match s.rankAt c m with
    | none => s
    | some r =>
      let s := s.modCx c fun x =>
        if lost then { x with lost := x.lost.filter (· != r) ++ [r], departed := x.departed.filter fun q => q != r }
        else { x with departed := x.departed.filter (· != r) ++ [r] }
      if (s.cx c).mask.members.contains r && s.leads c then s.publishMask c (s.cx c).present none else s) s

/-- Packets held for a module that is gone are discarded and counted (09 R325). -/
def State.dropHeld (s : State) (m : Nat) : State :=
  (s.fab.holding.filter fun e => e.1.dst == m).foldl (fun s e =>
    { s with fab := { s.fab with holding := s.fab.holding.erase e } }.discard e.1) s

/-! ### Messages of the group -/

/-- A context that had lost its rank or its state leaves that state (12 R439, 13 R453). -/
def State.rejoin (s : State) (c : Nat) : State := if (s.cx c).stuck then (s.modCx c fun x => { x with stuck := false }).thawCtx c else s

/-- The generation admits this module at the rank it takes over (12 R429): the takeover is complete. -/
def State.admitted (s : State) (c : Nat) (m : MaskMsg) : State :=
  match (s.cx c).take with
  | some k =>
    if k.stage = 5 ∧ m.admits = some (k.rank, s.fab.moduleId) ∧ (s.cx c).mask.members.contains k.rank then
      ((s.modCx c fun x => { x with take := some { k with stage := 9 } }).rejoin c).finish k.wb 0 k.swept 0
    else s
  | none => s

/-- MASK_ARRIVAL (09 R320, R321, 12 R429). -/
def execMaskArrival (ctx : Nat) (m : MaskMsg) (s : State) : Host.Outcome State Fault Refusal :=
  .next (if (s.cx ctx).live && (s.cx ctx).place.isSome then (s.acceptMask ctx m).admitted ctx m else s)

/-- RESUME_NOTICE_ARRIVAL (09 R321). -/
def execResumeNoticeArrival (ctx : Nat) (owner : Nat) (gen : Nat) (s : State) : Host.Outcome State Fault Refusal :=
  .next (s.notice ctx owner gen false)

/-- RESEND_NOTICE_ARRIVAL (09 R321). -/
def execResendNoticeArrival (ctx : Nat) (owner : Nat) (gen : Nat) (s : State) : Host.Outcome State Fault Refusal :=
  .next (s.notice ctx owner gen true)

/-- VOID_NOTICE_ARRIVAL (09 R320): a notice for a step that this member has not admitted yet is kept for it. -/
def execVoidNoticeArrival (ctx : Nat) (step : Nat) (s : State) : Host.Outcome State Fault Refusal :=
  let x := s.cx ctx
  .next (
    if x.run.isSome ∧ x.step = step then s.modRun ctx fun r => { r with voidNotice := true }
    else if step = (if x.run.isSome then x.step + 1 else x.step) then s.modCx ctx fun x => { x with earlyVoid := x.earlyVoid.filter (· != step) ++ [step] }
    else s)

/-- TRAILER_ARRIVAL (08 R269): the trailer of the running step enters it; one that comes before its step is kept for it. -/
def execTrailerArrival (ctx : Nat) (tr : Trailer) (s : State) : Host.Outcome State Fault Refusal :=
  let x := s.cx ctx
  .next (
    if x.run.isSome ∧ tr.step8 = x.step % 256 then (s.modRun ctx fun r => r.keepTrailer tr).advanceAll ctx
    else if tr.step8 = (if x.run.isSome then x.step + 1 else x.step) % 256 then
      s.modCx ctx fun x => { x with early := (x.early.filter fun t => t.rank != tr.rank) ++ [tr] }
    else s)

/-- SPARE_ADMIT_REQUEST (09 R322): the leader admits the spare at a rank that is lost or departed. -/
def execSpareAdmitRequest (ctx : Nat) (rank : Nat) (moduleId : Nat) (s : State) : Host.Outcome State Fault Refusal :=
  let x := s.cx ctx
  .next (
    if s.leads ctx ∧ !x.mask.members.contains rank ∧ rank < s.groupSize ctx ∧ (x.lost.contains rank ∨ x.departed.contains rank) then
      s.publishMask ctx ((List.range (s.groupSize ctx)).filter fun r => x.present.contains r || r == rank) (some (rank, moduleId))
    else s)

/-! ### Loss and departure (09 R323 to R326) -/

/-- A notice flooded to every neighbour (09 R325). -/
def State.flood (s : State) (m : Msg) : State := ((s.upPorts.map fun p => (s.port p).peerId).dedup).foldl (fun s d => s.tell 0xF d m) s

/-- A module is lost (09 R325): its ports go down, its packets are discarded, and its ranks leave the masks. -/
def State.loseModule (s : State) (m : Nat) : State :=
  let s := { s with fab := { s.fab with lost := s.fab.lost ++ [m], departed := s.fab.departed.filter fun d => d != m } }
  let s := s.flood (.loss m)
  let s := ((List.range 12).filter fun p => (s.port p).peerId == m && (s.port p).width != 0).foldl State.portDown s
  (s.dropHeld m).requeueAll.excludeModule m true

/-- LOSS_NOTICE_ARRIVAL (09 R325): each notice is accepted and forwarded once. -/
def execLossNoticeArrival (moduleId : Nat) (s : State) : Host.Outcome State Fault Refusal :=
  .next (
    if s.fab.lost.contains moduleId ∨ moduleId = s.fab.moduleId then s
    else ({ s with fab := { s.fab with lostSeen := satAdd 0xFFFF s.fab.lostSeen 1 } }).loseModule moduleId)

/-- A port has trained with its neighbour. -/
def Port.known (x : Port) : Bool := x.peerAlive || x.departed

/-- The ports known to lead to module m. -/
def State.portsTo (s : State) (m : Nat) : List Nat := (List.range 12).filter fun p => (s.port p).known && (s.port p).peerId == m

/-- Every port to module m changed. -/
def State.modPortsTo (s : State) (m : Nat) (f : Port → Port) : State := (s.portsTo m).foldl (fun s p => s.modPort p f) s

/-- Every port to module m has been down for 20 µs (09 Table 9-9). -/
def State.downLong (s : State) (m : Nat) : Bool := (s.portsTo m).all fun p => (s.port p).downSince.any fun u => decide (u + 20000 ≤ s.now)

/-- NEIGHBOUR_LOST (09 R324, R325, Table 9-9): PEER_ALIVE_N has been released for 5 µs, or every port to the neighbour has been down for
20 µs and no departure notice came. -/
def execNeighbourLost (x : PeerPin) (t : Nat) (s : State) : Host.Outcome State Fault Refusal :=
  let s := s.tick t
  let m := (s.port x.port).peerId
  .next (
    if !(s.port x.port).known ∨ 12 ≤ x.port then s
    else
      let u := s.modPortsTo m fun y => { y with peerAlive := y.peerAlive && !x.released, departed := false }
      if s.fab.lost.contains m then (if x.released then u else s)
      else if x.released || (!(s.port x.port).departed && s.downLong m) then (u.fault 0x0F 4 0xF x.port 0 0xFFFF m 0).loseModule m
      else s)

/-- A module has departed: it is routed around and its ranks leave the masks (09 R325); the notice goes on as that of a loss does (DESIGN CHOICE,
log 40). -/
def State.departModule (s : State) (m : Nat) : State :=
  let s := { s with fab := { s.fab with departed := s.fab.departed ++ [m] } }
  (((s.flood (.departed m)).dropHeld m).requeueAll).excludeModule m false

/-- DEPARTURE_NOTICE_ARRIVAL (09 R323): of the neighbour itself, or, passed on, of another module. -/
def execDepartureNoticeArrival (x : Departure) (s : State) : Host.Outcome State Fault Refusal :=
  .next (match x.about with
    | some m => if s.fab.departed.contains m ∨ s.fab.lost.contains m ∨ m = s.fab.moduleId then s else s.departModule m
    | none =>
      if (s.port x.port).known && decide (x.port < 12) then s.modPortsTo (s.port x.port).peerId fun y => { y with departed := true } else s)

/-- NEIGHBOUR_DEPARTED (09 R324): every port to a departed neighbour has been down for 20 µs. -/
def execNeighbourDeparted (port : Nat) (t : Nat) (s : State) : Host.Outcome State Fault Refusal :=
  let s := s.tick t
  let m := (s.port port).peerId
  .next (
    if (s.port port).departed ∧ (s.port port).peerAlive ∧ port < 12 ∧ !s.fab.departed.contains m ∧ !s.fab.lost.contains m ∧ s.downLong m then
      s.departModule m
    else s)

/-- ISOLATED (09 R326): every port has been down for 20 µs. -/
def execIsolated (t : Nat) (s : State) : Host.Outcome State Fault Refusal :=
  let s := s.tick t
  let down (p : Nat) : Bool := (s.port p).width == 0 && (match (s.port p).downSince with
    | some u => decide (u + 20000 ≤ t)
    | none => true)
  .next (
    if !s.fab.isolated && !s.fab.selfDeparted && decide (8 ≤ s.mc.bringup) && (List.range 12).all down then
      let s := { s with fab := { s.fab with isolated := true } }
      let s := s.fault 0x0F 4 0xF 0 0 0xFFFF s.fab.moduleId 0
      ((List.range 4).foldl (fun s c => if (s.cx c).live then s.freeze c else s) s).event 0x800B 0xF 0
    else s)

end Sys2Proof.Machine
end

