-- ==== Sys2Proof/Machine/Setup.lean ====
section
/-! DEFINITION. What configuration waybills set up: placements and their areas (07 R233 to R236, 05 R141, 08 R255, R256), cellar maps (06 R172),
function slots and recipes (03 R71), hyper-parameter sets (08 R272), the loss scale (02 R54, R63), and when they take effect (11 R396). -/

namespace Sys2Proof.Machine

open Sys2Proof

/-! ### Buffers (11 R383) -/

/-- The buffer of a waybill as its start reads it: from the host, or from module memory through the context's map. -/
def State.buffer (s : State) (w : Waybill) : State × List Byte :=
  if w.bufModule then
    let r := s.dmaRead w.context w.bufAddr w.length
    (r.1, r.2.2)
  else (s, slice w.buf 0 w.length)

/-- Data returned into the buffer of a waybill. -/
def State.fillBuffer (s : State) (w : Waybill) (bs : List Byte) : State :=
  if w.bufModule then s.dmaWrite w.context w.bufAddr bs else s.write .host w.bufAddr bs

/-! ### Areas of a cluster's columns -/

/-- First and last byte of a scratch window in each column of a home cluster (06 R173). -/
def State.scratchSpan (s : State) (c : Nat) (e : MapEntry) : Nat × Nat :=
  let n := (s.homeClusters c e).length * 32
  (65536 * e.colOff, 65536 * e.colOff + ceilDiv e.pages (max 1 n) * 4096)

/-- A scratch window of context c's map meets bytes [lo, hi) of the columns of cluster cl. -/
def State.meetsScratch (s : State) (c cl lo hi : Nat) : Bool :=
  (s.cx c).map.any fun e => e.mode == 2 && (s.homeClusters c e).contains cl && decide ((s.scratchSpan c e).1 < hi ∧ lo < (s.scratchSpan c e).2)

/-- W × u of context c in cluster cl, in 64 KiB units (07 R236). -/
def State.carArea (s : State) (c cl window : Nat) : Nat := window * s.carUnits (s.carTable c) cl

/-- The first cluster of context c whose caravan area does not fit (07 R236). -/
def State.caravanBad (s : State) (c window : Nat) : Option Nat :=
  (s.owned c).find? fun k =>
    let u := s.carArea c k window
    let su := (s.clu k).scratchUnits
    decide (su < u) || (u != 0 && s.meetsScratch c k (65536 * (su - u)) (65536 * su))

/-- The first cluster in a list whose sweep area does not fit (08 R256). -/
def State.sweepBad (s : State) (c window : Nat) (l : List Nat) : Option Nat :=
  l.find? fun k =>
    let u := s.carArea c k window
    let su := (s.clu k).scratchUnits
    decide (su < u + 4) || s.meetsScratch c k (65536 * (su - u - 4)) (65536 * (su - u))

/-! ### Cache lines that lose their home -/

/-- Cache lines that satisfy p leave their columns (06 Table 6-7, chosen as victim). -/
def State.evictAll (s : State) (p : LineId → Bool) : State :=
  (s.cel.lines.map fun e => e.1).foldl (fun s id => if p id && (s.homeLine id).st != .rl then s.evict id else s) s

/-- A line homed at a column of cluster cl. -/
def inCluster (cl : Nat) : LineId → Bool
  | .window k _ => clusterOf k == cl
  | .scratch _ _ => false

/-- A line that a cache window of a map homes. -/
def State.inMap (s : State) (c : Nat) : LineId → Bool
  | .window k a => match s.mapEntry c a with
    | some e => e.mode == 1 && s.serving (homeOf (s.homeClusters c e) e a).1 == k
    | none => false
  | .scratch _ _ => false

/-! ### Placements -/

/-- Tier 0 and the function slots of a cluster cleared (03 R74). -/
def State.clearCluster (s : State) (k : Nat) : State :=
  let s := s.clear .tier0 (tier0Key (k * 32) 0) (32 * 2 ^ 18)
  let s := (List.range 32).foldl (fun s i => s.modCor (k * 32 + i) fun x => { x with strands := [], badWords := [] }) s
  s.modClu k fun x => { x with slots := [] }

/-- A cluster given to a context (03 R74, 06 R171, 05 R161). -/
def State.giveCluster (s : State) (c k units stat : Nat) : State :=
  let s := if (s.clu k).owner = some c then s else s.clearCluster k
  let s := if (s.clu k).scratchUnits = units then s else s.evictAll (inCluster k)
  s.modClu k fun x => { x with owner := some c, scratchUnits := units, statLimit := stat, frozen := (s.cx c).frozen,
                               blocks := if x.owner = some c then x.blocks else [] }

/-- A cluster given up. -/
def State.freeCluster (s : State) (k : Nat) : State :=
  (s.clearCluster k).modClu k fun x => { x with owner := none, frozen := false, queue := [], leg := none, suspended := none, runs := [], blocks := [],
                                                rejected := false, statLimit := 8 }

/-- A placement in force (08 R255): clusters change owner, and the group's ranks that are lost or departed are known. Another buddy has
acknowledged no mirror (R294). -/
def State.setPlacement (s : State) (c : Nat) (p : Placement) : State :=
  let s := ((s.owned c).filter fun k => !(p.clusters.any fun x => x.1 == k)).foldl State.freeCluster s
  let s := p.clusters.foldl (fun s (x : Nat × Nat × Nat) => s.giveCluster c x.1 x.2.1 x.2.2) s
  let at_ (l : List Nat) : List Nat := (List.range p.n).filter fun r => r != p.rank && l.contains (p.group.getD r 8192)
  let same (q : Placement) : Bool := q.buddyEn && p.buddyEn && q.buddy == p.buddy
  s.modCx c fun x => { x with
    place := some p, lost := at_ s.fab.lost, departed := at_ s.fab.departed, mirrorValid := x.mirrorValid && x.place.any same }

/-- A caravan entry keeps the rules of 07 R233 and the ranges of Table 7-10. The layer's tiles all lie where its src lies. -/
def State.caravanOk (s : State) (p : Placement) (e : CaravanEntry) : Bool :=
  let size := e.kTiles * e.nTiles * tileBytes e.fmt
  e.fmt == 0 ||
    (tileFmt e.fmt && e.kTiles != 0 && e.src % 256 == 0 && decide (size ≤ 2 ^ 30)
      && ((setBits e.clusters).all fun k => p.clusters.any fun x => x.1 == k)
      && decide ((setBits e.clusters).length ≤ e.nTiles) && e.clusters != 0
      && (decide (e.src + size ≤ s.tier2Size) || decide (tier3Base ≤ e.src ∧ e.src + size ≤ tier3Base + 2 ^ 44)))

/-- The failure of a placement for context c (11 Table 11-7), or the state with it in force. A tied group's clusters lie within the placement
stage and number at most 8 (05 R141). -/
def State.tryPlacement (s : State) (c : Nat) (p : Placement) : Except (Nat × Nat) State :=
  match p.clusters.find? fun x => (s.clu x.1).owner.any fun o => o != c with
  | some x => .error (0x0203, x.1)
  | none =>
    match badIndex p.caravan (s.caravanOk p) with
    | some i => .error (0x0304, i)
    | none =>
      let t := s.setPlacement c p
      match t.caravanBad c (s.cx c).car.window with
      | some k => .error (0x0305, k)
      | none =>
        match badIndex p.tied fun g =>
            decide ((setBits g.clusters).length ≤ 8) && (setBits g.clusters).all fun k => p.clusters.any fun x => x.1 == k with
        | some i => .error (0x0307, i)
        | none => .ok t

/-! ### Single settings -/

/-- The loss-scale state that a waybill's parameters give (02 R54, R63): exponent, fixed, scale unknown. DESIGN CHOICE (log 100): a setting
with scale unknown clear sets clean_count to 0, even when the exponent stays as it is, and ends a probe. -/
def lscaleOf (exp : Nat) (fixed unknown : Bool) (skips : Nat) : LScale :=
  if unknown then { exp := 16, fixed := fixed, clean := 0, probe := true, probeLeft := 200, skips := skips }
  else { exp := exp, fixed := fixed, clean := 0, probe := false, probeLeft := 0, skips := skips }

/-- A hyper-parameter set loaded (08 R272). -/
def State.loadHset (s : State) (c i : Nat) (v : BitVec 256) : State :=
  s.modCx c fun x => { x with hsets := tset 0 x.hsets i v, p1 := tset one32 x.p1 i one32, p2 := tset one32 x.p2 i one32 }

/-- Clusters of a mask parameter. -/
def maskClusters (v : Nat) : List Nat := setBits (cmask v)

/-- The first cluster of a list that another context owns. -/
def State.foreign (s : State) (c : Nat) (l : List Nat) : Option Nat := l.find? fun k => (s.clu k).owner.any fun o => o != c

/-- Instructions of a recipe buffer. -/
def recipeWords (bs : List Byte) : List Word := (List.range (bs.length / 4)).map fun i => BitVec.ofNat 32 (natAt bs (4 * i) 4)

/-- A configuration waybill in force (11 Table 11-7, MAP_SET): final status and detail, and the state. -/
def State.configure (s : State) (w : Waybill) : State × Nat × Nat :=
  let c := w.context
  let (s, bs) := s.buffer w
  match w.op with
  | 0x1003 =>
    match parsePlacement bs with
    | .error e => (s, e.status.1, e.status.2)
    | .ok p =>
      match s.tryPlacement c p with
      | .error e => (s, e.1, e.2)
      | .ok t => (t, 0, 0)
  | 0x1004 => (s.modCx c fun x => { x with ls := lscaleOf (w.p 0 5) (w.p 5 1 == 1) (w.p 6 1 == 1) x.ls.skips }, 0, 0)
  | 0x1005 => (s.loadHset c (w.p 0 4) (BitVec.ofNat 256 (w.p 32 256)), 0, 0)
  | 0x1006 =>
    let l := maskClusters (w.p 8 48)
    match s.foreign c l with
    | some k => (s, 0x0203, k)
    | none =>
      let f : FnSlot := ⟨w.p 4 3, fnTableOf bs 0, fnTableOf bs 3096⟩
      (l.foldl (fun s k => s.modClu k fun x => { x with slots := tset none x.slots (w.p 0 4) (some f) }) s, 0, 0)
  | 0x1007 =>
    let l := maskClusters (w.p 0 48)
    match s.foreign c l with
    | some k => (s, 0x0203, k)
    | none => (l.foldl (fun s k => s.modClu k fun x => { x with recipe := twrite 0 x.recipe (w.p 48 13) (recipeWords bs) }) s, 0, 0)
  | 0x2002 =>
    let vs := (List.range (bs.length / 32)).map fun i => natAt bs (32 * i) 32
    match s.mapBad c [] vs 0 with
    | some i => (s, 0x0301, i)
    | none =>
      let s := s.evictAll (s.inMap c)
      (s.modCx c fun x => { x with map := vs.map mapEntryOf }, 0, 0)
  | _ => (s, 0, 0)

/-! ### When they take effect (08 R256, 11 R396) -/

/-- No step and no leg of context c runs: it stands at a step boundary. -/
def State.atBoundary (s : State) (c : Nat) : Bool := (s.cx c).run.isNone && !(s.legs.any fun g => g.ctx == c)

/-- A configuration waybill takes effect and gets its final receipt. -/
def State.configureNow (s : State) (w : Waybill) : State :=
  let r := s.configure w
  r.1.finish w r.2.1 r.2.2 0

/-- A step boundary: the configuration waybills that waited for it take effect in the order they came. -/
def State.applyBoundary (s : State) (c : Nat) : State :=
  if !s.atBoundary c then s
  else
    let l := (s.cx c).boundary
    l.foldl State.configureNow (s.modCx c fun x => { x with boundary := [] })

/-! ### Shelf windows (06 R177, R178) -/

/-- A shelf window released: its lines become normal. -/
def State.releaseShelf (s : State) (i : Nat) : State :=
  let s := { s with cel := { s.cel with shelves := tset none s.cel.shelves i none } }
  (s.cel.lines.map fun e => e.1).foldl (fun s id =>
    if (s.homeLine id).shelf = some i then s.putHome id { s.homeLine id with shelf := none, hint := .normal } else s) s

/-- Every shelf window that satisfies p released. -/
def State.releaseShelves (s : State) (p : Shelf → Bool) : State :=
  (List.range 64).foldl (fun s i => match tget none s.cel.shelves i with
    | some w => if p w then s.releaseShelf i else s
    | none => s) s

end Sys2Proof.Machine
end

