-- ==== Sys2Proof/Machine/Legs.lean ====
section
/-! DEFINITION. Legs and steps: admission against the allowance (10 R361, R362), lean layers (05 R152 to R158), the end of legs (08 R262, R291),
the admission of steps (08 R261, R263), the decision (08 R270, 02 R58), and the close (08 R292, R293, 02 R59). -/

namespace Sys2Proof.Machine

open Sys2Proof

/-! ### Stash sizes (05 R152, R153) -/

/-- The stash slots of context c, with their numbers. -/
def State.slotsOf (s : State) (c : Nat) : List (StashSlot × Nat) := (((s.cx c).place.map fun p => p.stash).getD []).zipIdx

/-- Bytes of the derived slots of a layer. -/
def State.derivedSize (s : State) (c layer : Nat) : Nat :=
  (((s.slotsOf c).filter fun e => e.1.derived && e.1.layer == layer).map fun e => e.1.sizeKib * 1024).sum

/-- Dmax: the largest total of derived slots of one layer. -/
def State.derivedMax (s : State) (c : Nat) : Nat := ((s.slotsOf c).map fun e => s.derivedSize c e.1.layer).foldl max 0

/-- I: the input slots of a step of m micro-batches. -/
def State.inputSize (s : State) (c m : Nat) : Nat := (((s.slotsOf c).filter fun e => !e.1.derived).map fun e => e.1.sizeKib * 1024).sum * m

/-- Saddlebag area and spill quota. -/
def Ctx.stashRoom (x : Ctx) : Nat := 2 ^ 20 * (x.latched.areaMib + x.latched.quotaMib)

/-- Input slots of the step not yet written. -/
def State.inputsLeft (s : State) (c : Nat) (r : StepRun) : Nat :=
  ((List.range r.mcount).filter fun mu => !r.isDropped mu).foldl (fun n mu =>
    ((s.slotsOf c).filter fun e => !e.1.derived).foldl (fun n (e : StashSlot × Nat) =>
      n + (e.1.sizeKib * 1024 - stashSum (s.cx c).stash fun t => t.slot == e.2 && t.mu == mu)) n) 0

/-- Layer l runs in full (05 R153). -/
def State.fullFits (s : State) (c layer : Nat) (r : StepRun) : Bool :=
  let x := s.cx c
  decide (s.derivedSize c layer + s.derivedMax c + s.inputsLeft c r + stashSum x.stash (fun t => !t.recomputed) ≤ x.stashRoom)

/-- The leg is the first of its layer for its micro-batch. -/
def StepRun.firstOfLayer (r : StepRun) (l : LegInst) : Bool := !(r.legList.take l.idx).any fun e => e.phase == l.entry.phase && e.layer == l.entry.layer

/-- The lean decision before a forward leg (05 R153). -/
def State.decideLean (s : State) (c : Nat) (l : LegInst) : State :=
  match (s.cx c).run, l.mu with
  | some r, some mu =>
    if l.entry.phase ≠ 0 ∨ l.recompute ∨ !r.firstOfLayer l then s
    else
      let lean := decide (r.firstLean mu ≤ l.entry.layer)
      if lean then s.modRun c fun r => { r with leanCount := r.leanCount + 1 }
      else if s.fullFits c l.entry.layer r then s
      else s.modRun c fun r => { r with lean := r.lean ++ [(mu, l.entry.layer)], leanCount := r.leanCount + 1 }
  | _, _ => s

/-! ### The sequence of a step (08 R261) -/

/-- The legs of a step: forward and backward for each micro-batch, then collective, sweep and fetch legs in list order. -/
def legSequence (l : List LegEntry) (m : Nat) : List LegInst :=
  let of_ (ph : Nat) (mu : Option Nat) : List LegInst := (l.zipIdx.filter fun e => e.1.phase == ph).map fun e => ⟨e.2, e.1, mu, false⟩
  ((List.range m).flatMap fun mu => of_ 0 (some mu)) ++ ((List.range m).flatMap fun mu => of_ 1 (some mu)) ++ of_ 2 none ++ of_ 3 none ++ of_ 4 none

/-- Recompute legs put before the first backward leg of a lean layer (05 R155). -/
def State.insertRecompute (s : State) (c : Nat) : State :=
  s.modRun c fun r =>
    match r.todo with
    | l :: _ =>
      match l.mu with
      | some mu => if l.entry.phase = 1 ∧ r.isLean mu l.entry.layer ∧ !r.recomputes.contains (mu, l.entry.layer)
          then { r with todo := r.recomputeLegs mu l.entry.layer ++ r.todo } else r
      | none => r
    | [] => r

/-- Legs of the step of context c in flight with a phase below `ph`. -/
def State.earlier (s : State) (c ph : Nat) : Bool := s.legs.any fun g => g.ctx == c && g.inStep && decide (g.inst.entry.phase < ph)

/-- The next leg of a step may be tried: collective legs wait for the backward pass and the mask, sweep legs for the decision, fetch legs for
the sweep. -/
def State.legReady (s : State) (c : Nat) (r : StepRun) (l : LegInst) : Bool :=
  match l.entry.phase with
  | 0 => true
  | 1 => true
  | 2 => !s.earlier c 2 && (s.cx c).mask.step == (s.cx c).step && !(s.cx c).mask.members.isEmpty
  | ph => !s.earlier c ph && r.decision == some .sweep

/-- A LEG waybill as a leg outside any step. -/
def lonelyLeg (w : Waybill) : LegInst := ⟨0, ⟨w.p 0 48, 0, 0, 0xFFFF⟩, none, false⟩

/-- The next leg of context c, with the LEG waybill that asks for it. -/
def State.nextInst (s : State) (c : Nat) : Option (LegInst × Option Waybill) :=
  match (s.cx c).run with
  | some r =>
    match r.todo with
    | l :: _ => if s.legReady c r l then some (l, none) else none
    | [] => none
  | none => ((s.cx c).legQ.head?).map fun w => (lonelyLeg w, some w)

/-- The leg leaves the sequence or the queue. -/
def State.takeLeg (s : State) (c : Nat) (wb : Option Waybill) : State :=
  match wb with
  | some _ => s.modCx c fun x => { x with legQ := x.legQ.drop 1 }
  | none => s.modRun c fun r => { r with todo := r.todo.drop 1 }

/-- A cluster can take the leg: it has none, or a recompute leg stands in for the backward leg that waits for it (05 R157). -/
def State.takesLeg (s : State) (c : Nat) (l : LegInst) (k : Nat) : Bool :=
  match (s.clu k).leg with
  | none => true
  | some (c', l') => l.recompute && c' == c && (s.clu k).suspended.isNone && s.legMu c l' == l.mu

/-- committed and peak are the sums over the legs in flight (10 R361), in the order of their admission, in FP32 (00 R9). -/
def State.countShares (s : State) : State :=
  { s with tg := { s.tg with committed := s.legs.foldl (fun n g => r32 (n + g.committed)) 0, peak := s.legs.foldl (fun n g => r32 (n + g.peak)) 0 } }

/-- A leg of a step that reads a caravan layer joins the caravan sequence (07 R237). -/
def Caravan.takeLeg (k : Caravan) (id : Nat) (inst : LegInst) : Caravan :=
  if inst.entry.caravan = 0xFFFF then k else { k with fly := k.fly ++ [(id, inst.entry.caravan, false)] }

/-- A leg in flight (10 R361). -/
def State.putLeg (s : State) (c : Nat) (inst : LegInst) (wb : Option Waybill) (clusters : List Nat) (p q energy : Rat) (status detail : Nat) : State :=
  let g : LegRun :=
    { ctx := c, id := s.nextLeg, inst := inst, inStep := wb.isNone, clusters := clusters, committed := p, peak := q, energy := energy, status := status,
      detail := detail, orderDep := false, outRows := 0, wb := wb, resume := [], failed := [] }
  let s := if wb.isNone then s.modCx c fun x => { x with car := x.car.takeLeg s.nextLeg inst } else s
  { s with legs := s.legs ++ [g], nextLeg := s.nextLeg + 1 }

/-- A leg that ends before any of its descriptors runs (11 R390). -/
def State.deadLeg (s : State) (c : Nat) (inst : LegInst) (wb : Option Waybill) (status detail : Nat) : State :=
  (s.takeLeg c wb).putLeg c inst wb [] 0 0 0 status detail

/-- A leg admitted: its descriptor lists go to its clusters, with event counters cleared (03 R84, R85). -/
def State.startLeg (s : State) (c : Nat) (inst : LegInst) (wb : Option Waybill) (g : LegProg) (p q : Rat) : State :=
  let s := s.decideLean c inst
  let s := if inst.recompute then s.modRun c fun r => { r with recomputes := r.recomputes ++ [(inst.mu.getD 0, inst.entry.layer)] } else s
  let id := s.nextLeg
  let s := (s.takeLeg c wb).putLeg c inst wb g.clusters p q g.energy 0 0
  let s := g.lists.foldl (fun s (e : Nat × List (BitVec 512)) => s.modClu e.1 fun x => { x with
    suspended := x.leg.map fun y => (y, x.queue, x.events)
    leg := some (c, id), queue := e.2, events := [], rejected := false }) s
  { s with tg := { s.tg with committed := r32 (s.tg.committed + p), peak := r32 (s.tg.peak + q), lastCtx := c } }

/-- Milliwatts of the module's power curve as watts in FP32. -/
def wattsOf (mw : Nat) : Rat := r32 ((mw : Rat) / 1000)

/-- Power and peak in W of a leg at the operating point, with its share of the rotation (10 R361, R362): FP32 throughout (00 R9). -/
def State.legShare (s : State) (g : LegProg) : Rat × Rat :=
  let (ck, n) := s.opPoint
  let r := min 1 (r32 ((n : Rat) / max 1 (g.clusters.length : Rat)))
  (r32 (r32 (s.tg.k * wattsOf (Config.estPower g.energy g.time g.clusters.length ck)) * r), r32 (r32 (s.tg.k * g.peak) * r))

/-- The leg fits the allowance and the peak limit (10 R361): FP32 throughout (00 R9). -/
def State.legFits (s : State) (p q : Rat) : Bool :=
  let (ck, n) := s.opPoint
  decide (r32 (r32 (wattsOf (Config.basePower ck n true 4) + s.tg.committed) + p) ≤ s.tg.allowance ∧ r32 (s.tg.peak + q) ≤ 3600)

/-! ### The decision (08 R269, R270) -/

/-- The trailers of the mask's members. -/
def State.maskTrailers (s : State) (c : Nat) (r : StepRun) : List Trailer := r.trailers.filter fun t => (s.cx c).mask.members.contains t.rank

/-- Constants of a set in a step that sweeps (08 R273). -/
def sweepSet (lr : Word) (p1 p2 : Word) (h : Nat) (hs : BitVec 256) : SweepSet :=
  ⟨h, oneLess p1, oneLess p2, oneLess (hsetWord hs 0), oneLess (hsetWord hs 1), fmul lr (hsetWord hs 4)⟩

/-- The step sweeps (08 R273): bias products and constants, once per step and per set. -/
def State.startSweep (s : State) (c n : Nat) : State :=
  match (s.cx c).run with
  | none => s
  | some r =>
    let x := s.cx c
    let hs (h : Nat) : BitVec 256 := tget 0 x.latched.hsets h
    let p1 (h : Nat) : Word := fmul (tget one32 x.p1 h) (hsetWord (hs h) 0)
    let p2 (h : Nat) : Word := fmul (tget one32 x.p2 h) (hsetWord (hs h) 1)
    let sets := (List.range 16).map fun h => sweepSet r.lr (p1 h) (p2 h) h (hs h)
    let s := s.modCx c fun x => { x with
      p1 := (List.range 16).foldl (fun t h => tset one32 t h (p1 h)) x.p1
      p2 := (List.range 16).foldl (fun t h => tset one32 t h (p2 h)) x.p2
      lastSweep := some ⟨x.step, some x.lastSwept, n, sets, x.ls.exp⟩ }
    s.modRun c fun r => { r with decision := some .sweep, sets := sets }

/-- The decision once every trailer of the mask is in, or a void notice (08 R270, 02 R58, R59). -/
def State.decideStep (s : State) (c : Nat) : State :=
  match (s.cx c).run with
  | none => s
  | some r =>
    let ts := s.maskTrailers c r
    let act := ts.filter fun t => !t.withdrawn
    let low := ((s.cx c).mask.members.head?.bind fun k => ts.find? fun t => t.rank == k).map fun t => t.digest
    let bad := (s.cx c).mask.members.find? fun k => (ts.find? fun t => t.rank == k).any fun t => some t.digest != low
    let n := (act.map fun t => t.count).sum
    let lo := (act.map fun t => t.scaleExp).foldl min 31
    let hi := (act.map fun t => t.scaleExp).foldl max 0
    let s := s.modRun c fun r => { r with divisor := n, minExp := lo, contributors := (act.filter fun t => t.count != 0).length }
    let drop (s : State) (d : Decision) : State :=
      s.modRun c fun r => { r with decision := some d, todo := r.todo.filter fun l => decide (l.entry.phase < 3) }
    if r.voidNotice then drop s .void_
    else if bad.isSome then (drop s .void_).modRun c fun r => { r with digestBad := bad }
    else if n = 0 then drop s .void_
    else if lo ≠ hi then
      drop ((s.modRun c fun r => { r with mismatch := true }).faultTraining 4 c lo) .skip
    else if !(act.all fun t => t.finite) then drop s .skip
    else s.startSweep c n

/-- After the collective legs: the trailer of a member that ran no segment (09 R319), and the decision. -/
def State.settleStep (s : State) (c : Nat) : State :=
  match (s.cx c).run with
  | none => s
  | some r =>
    if (r.todo.any fun l => decide (l.entry.phase < 3)) || s.earlier c 3 || r.decision.isSome || (s.cx c).mask.step != (s.cx c).step
        || (s.cx c).mask.members.isEmpty then s
    else
      let s := if r.trailerSent then s else s.sendTrailer c
      match (s.cx c).run with
      | none => s
      | some r =>
        if r.voidNotice || ((s.cx c).mask.members.all fun k => r.trailers.any fun t => t.rank == k) then s.decideStep c else s

/-! ### ADMISSION_PASS (10 R361) -/

/-- Where a leg cannot be placed, as (cluster, seq): its context does not own the cluster, or a descriptor needs a core position that is not
active (01 R11). -/
def State.misplaced (s : State) (c : Nat) (g : LegProg) : Option (Nat × Nat) :=
  g.lists.findSome? fun e =>
    if (s.clu e.1).owner ≠ some c then some (e.1, (e.2.head?.map fun d => fld d 16 16).getD 0)
    else (e.2.find? fun d => (decodeDesc d).mask &&& ~~~(s.clu e.1).active != 0).map fun d => (e.1, fld d 16 16)

/-- A stack has failed (07 R222): no leg is admitted. -/
def State.stackFailed (s : State) : Bool := s.hbm.stk.any fun e => e.2.failed

/-- One context's turn. -/
def State.admitContext (s : State) (c : Nat) : State :=
  if !(s.cx c).live || (s.cx c).frozen then s
  else
    let s := ((s.unpark c).settleStep c).insertRecompute c
    match s.nextInst c with
    | none => s
    | some (inst, wb) =>
      match s.fetchLeg c inst.entry.prog with
      | (s, none) => s.deadLeg c inst wb 0x040A inst.entry.prog
      | (s, some g) =>
        match s.misplaced c g with
        | some e => s.deadLeg c inst wb 0x0106 (e.2 + 2 ^ 16 * e.1)
        | none =>
          if !(g.clusters.all fun k => s.takesLeg c inst k) then s
          else
            let (p, q) := s.legShare g
            if s.legFits p q then s.startLeg c inst wb g p q else s.park c

/-- ADMISSION_PASS (10 R361). -/
def execAdmissionPass (t : Nat) (s : State) : Host.Outcome State Fault Refusal :=
  let s := (s.tick t).settleFloor
  .next (
    if !s.bringupDone || !(s.mc.coreAlive.getD 0 false) || s.stackFailed || s.tg.admitStop || s.atFloor || s.tg.st == 5 || s.tg.st == 6 then s
    else ((List.range 4).map fun i => (s.tg.lastCtx + 1 + i) % 4).foldl State.admitContext s)

/-! ### LEG_COMPLETE (08 R262, R291) -/

/-- Caravan layers of the legs from now on, consecutive ones once (07 R237). -/
def collapse : List Nat → List Nat
  | [] => []
  | [x] => [x]
  | x :: y :: r => if x = y then collapse (y :: r) else x :: collapse (y :: r)

/-- Visits from the running one on: of the legs admitted from its first leg not done on, and of those to come (07 R237). -/
def State.visits (s : State) (c : Nat) : List Nat :=
  let todo := ((s.cx c).run.map fun r => r.todo).getD []
  collapse (((s.cx c).car.fly.map fun e => e.2.1) ++ (todo.map fun l => l.entry.caravan).filter fun x => x != 0xFFFF)

/-- A leg of the caravan sequence is done: the sequence goes on from its first leg that is not (07 R237). -/
def Caravan.retire (k : Caravan) (id : Nat) : Caravan :=
  { k with fly := (k.fly.map fun e => if e.1 = id then (e.1, e.2.1, true) else e).dropWhile fun e => e.2.2 }

/-- The leg leaves its clusters; a backward leg that stood for a recompute goes on there (05 R157). -/
def State.freeLeg (s : State) (g : LegRun) : State :=
  g.clusters.foldl (fun s k => s.modClu k fun x =>
    if x.leg = some (g.ctx, g.id) then
      match x.suspended with
      | some (y, q, e) => { x with leg := some y, queue := q, events := e, suspended := none }
      | none => { x with leg := none, queue := [], events := [] }
    else if (x.suspended.map fun y => y.1) = some (g.ctx, g.id) then { x with suspended := none }
    else x) s

/-- Every descriptor of the leg is done: no queue, no run, and, outside a step, no contribution on its way. -/
def State.legDone (s : State) (g : LegRun) : Bool :=
  (g.clusters.all fun k =>
    let x := s.clu k
    (x.leg != some (g.ctx, g.id) || x.queue.isEmpty) && !(x.runs.any fun r => r.ctx == g.ctx && r.leg == g.id)
      && (x.suspended.map fun y => y.1) != some (g.ctx, g.id))
  && (g.inStep || !((s.cel.sent ++ s.cel.columns.flatMap fun k => k.2.refused).any fun x => !x.inStep && x.ctx == g.ctx && x.leg == g.id))

/-- Locks that a leg outside a step took close at its end; its waiting contributions are discarded (06 R190). -/
def State.closeLegLocks (s : State) (g : LegRun) : State :=
  let keep (l : List Contribution) : List Contribution := l.filter fun x => !(!x.inStep && x.ctx == g.ctx && x.leg == g.id)
  let s := { s with cel := { s.cel with sent := keep s.cel.sent } }
  let s := (s.cel.columns.map Prod.fst).foldl (fun s k => s.modCol k fun x => { x with refused := keep x.refused }) s
  (s.lockedLines fun k => !k.inStep && k.ctx == g.ctx && k.leg == g.id).foldl (fun s id => s.closeLock id) s

/-- Time stamps of the step (08 Table 8-6): last leg of each part. -/
def State.stampPhase (s : State) (c ph : Nat) : State :=
  let t := s.beat.slots
  s.modRun c fun r => match ph with
    | 0 => { r with tForward := t }
    | 1 => { r with tBackward := t }
    | 2 => { r with tReduce := t }
    | 3 => { r with tSweep := t }
    | _ => r

/-- Stash space freed when the backward legs of a layer for μ are complete (05 R155, R156). -/
def State.freeLayer (s : State) (c mu layer : Nat) : State :=
  if s.layerOpen c mu layer then s
  else
    let of_ (t : StashTile) : Bool := t.mu == mu && (s.stashSlot c t.slot).any fun e => e.layer == layer
    s.modCx c fun x => { x with stash := x.stash.filter fun t => !of_ t }

/-- A slot's last visit once some visits are over (07 R238): `first` is the number of the first of them. -/
def Caravan.visited (k : Caravan) (first : Nat) (layers : List Nat) : Caravan :=
  let last (l old : Nat) : Nat := (layers.zipIdx.filter fun e => e.1 == l).foldl (fun n e => max n (first + e.2)) old
  { k with slots := k.slots.map fun (e : Nat × Option CarSlot) => (e.1, e.2.map fun (q : CarSlot) => { q with last := last q.layer q.last }) }

/-- A leg of the step of context c leaves the caravan sequence: the visits that end with it are over, and the distance in force is set anew with
the next (07 R237, R238, R241). -/
def State.endVisits (s : State) (c id : Nat) : State :=
  let vs := s.visits c
  let s := s.modCx c fun x => { x with car := x.car.retire id }
  let n := vs.length - (s.visits c).length
  s.modCx c fun x => { x with car := { x.car.visited x.car.running (vs.take n) with
    running := x.car.running + n, inForce := if n = 0 then x.car.inForce else x.car.distance } }

/-- The leg is over. A recompute leg is none of the legs that the step record times (08 Table 8-6). -/
def State.dropLeg (s : State) (g : LegRun) (t : Nat) : State :=
  let s := s.freeLeg g
  let s := { s with legs := s.legs.filter fun x => !(x.ctx == g.ctx && x.id == g.id), tg := { s.tg with lastLeg := t } }.countShares
  if g.inStep then
    let s := s.endVisits g.ctx g.id
    let s := s.modRun g.ctx fun r => { r with estEnergy := r.estEnergy + g.energy }
    let s := if g.inst.recompute then s else s.stampPhase g.ctx g.inst.entry.phase
    match g.inst.mu with
    | some mu => if g.inst.entry.phase = 1 then s.freeLayer g.ctx mu g.inst.entry.layer else s
    | none => s
  else s

/-- Detail of a leg that ends: of one that ends well, the rows of gathers and scatters whose index lies outside (03 R81). -/
def LegRun.endDetail (g : LegRun) : Nat := if g.status = 0 then g.outRows else g.detail

/-- A leg of a step that is done. -/
def State.endStepLeg (s : State) (g : LegRun) (t : Nat) : State := (s.legReceiptOf g g.status g.endDetail).dropLeg g t

/-- A leg outside a step that is done: leg receipt and final receipt (06 R189). -/
def State.endLonelyLeg (s : State) (g : LegRun) (t : Nat) : State :=
  let status := if g.status = 0 ∧ g.orderDep then 1 else g.status
  let detail := if status = 1 then g.inst.idx else g.endDetail
  let s := (s.closeLegLocks g).legReceiptOf g status detail
  let s := s.dropLeg g t
  let s := match g.wb with
    | some w => s.finish w status detail 0
    | none => s
  s.applyBoundary g.ctx

/-- A second failure of a sweep segment (08 Table 8-5): the context freezes and stays with the leg that failed. -/
def State.sweepFailed (s : State) (g : LegRun) (seq : Nat) : State :=
  let s := s.faultTraining 5 g.ctx seq
  let s := s.modLeg g.ctx g.id fun x => { x with status := 0x0604, detail := seq }
  let s := s.legReceiptOf g 0x0604 seq
  ((s.modCx g.ctx fun x => { x with stuck := true }).freeze g.ctx).event 0x800A g.ctx (s.cx g.ctx).step

/-- A sweep or fetch leg goes on after a failure (08 Table 8-5): its clusters work on it again. -/
def State.goOn (s : State) (g : LegRun) (failed : List (Nat × Nat)) : State :=
  (g.clusters.foldl (fun s k => s.modClu k fun x => if x.leg = some (g.ctx, g.id) then { x with rejected := false } else x) s).modLeg g.ctx g.id
    fun x => { x with status := 0, detail := 0, failed := x.failed ++ failed }

/-- A failed leg of a step (08 Table 8-5). -/
def State.failedStepLeg (s : State) (g : LegRun) (t : Nat) : State :=
  match g.inst.entry.phase with
  | 2 => (s.withdraw g.ctx).endStepLeg g t
  | 3 =>
    if g.status = 0x0604 then s
    else
      let keys := g.resume.map fun e => (e.1, fld e.2.1 16 16)
      match keys.find? fun k => g.failed.contains k with
      | some k => s.sweepFailed g k.2
      | none =>
        if g.clusters.isEmpty then s.sweepFailed g 0
        else (s.legReceiptOf g g.status g.detail).goOn g keys
  | 4 =>
    let s := s.legReceiptOf g g.status g.detail
    let s := match (s.cx g.ctx).fetching with
      | some f => s.askUnit g.ctx f
      | none => s
    if g.clusters.isEmpty then (s.modRun g.ctx fun r => { r with todo := g.inst :: r.todo }).dropLeg g t
    else s.goOn g []
  | _ =>
    let s := match g.inst.mu with
      | some mu => s.dropMu g.ctx mu 1
      | none => s
    s.endStepLeg g t

/-- LEG_COMPLETE (08 R262, R291). -/
def execLegComplete (ctx : Nat) (leg : Nat) (t : Nat) (s : State) : Host.Outcome State Fault Refusal :=
  let s := s.tick t
  .next (match s.legOf ctx leg with
    | none => s
    | some g =>
      if g.status = 0 then
        if !s.legDone g then s else if g.inStep then s.endStepLeg g t else s.endLonelyLeg g t
      else if g.inStep then s.failedStepLeg g t
      else s.endLonelyLeg g t)

/-! ### STEP_ADMISSION (08 R261, R263) -/

/-- Descriptors of a leg program that carry a seq. -/
def LegProg.withSeq (g : LegProg) (seq : Nat) : List (Nat × BitVec 512) :=
  g.lists.flatMap fun e => (e.2.filter fun d => fld d 16 16 == seq).map fun d => (e.1, d)

/-- The output tiles of a descriptor: core, location, address, tile number. -/
def outputTiles (cl : Nat) (d : Desc) : List (Nat × Nat × Nat × Nat) :=
  let g := d.grids.2.2.1
  if g.o.fmt = 0 then []
  else
    ((List.range d.cores).flatMap fun pos => (List.range g.rows).flatMap fun i => (List.range g.cols).map fun j =>
      let (own, a) := g.tile d.cores pos i j
      ((if g.o.loc = 0 then 0 else d.coreAt cl own), g.o.loc, a, i * g.cols + j)).dedup

/-- The tensors that receive ordered operations are cleared (08 R263). -/
def State.clearRosters (s : State) (c : Nat) (legs : List LegEntry) (rosters : List Roster) : State :=
  let s := rosters.foldl (fun s ro => ro.entries.dedup.foldl (fun s (e : Nat × Nat) =>
    match legs[e.1]? with
    | none => s
    | some l =>
      match s.fetchLeg c l.prog with
      | (s, none) => s
      | (s, some g) => (g.withSeq e.2).foldl (fun s (q : Nat × BitVec 512) =>
          let d := decodeDesc q.2
          (outputTiles q.1 d).foldl (fun s (o : Nat × Nat × Nat × Nat) => s.clearTile c o.1 o.2.1 o.2.2.1 d.tensor.toNat o.2.2.2) s) s) s) s
  s.clearReduced c

/-- Clusters that run sweep legs of a step (08 R256). -/
def State.sweepClusters (s : State) (c : Nat) (legs : List LegEntry) : List Nat :=
  ((legs.filter fun l => l.phase == 3).flatMap fun l => match s.fetchLeg c l.prog with
    | (_, some g) => g.clusters
    | (_, none) => []).dedup

/-- Size of the map's stash window in bytes (05 R151). -/
def Ctx.stashWindow (x : Ctx) : Nat := ((x.map.find? fun e => e.stash).map fun e => 4096 * e.pages).getD 0

/-- Why a STEP is refused at its admission: status and detail (11 Table 11-9, 05 R152, 07 R236, 08 R256). -/
def State.stepBad (s : State) (c m : Nat) (legs : List LegEntry) : Option (Nat × Nat) :=
  let x := s.cx c
  let need := s.inputSize c m + s.derivedMax c
  if 2 ^ 20 * (x.cfg.areaMib + x.cfg.quotaMib) < need ∨ x.stashWindow < 2 ^ 20 * x.cfg.areaMib then some (0x0303, ceilDiv need (2 ^ 20))
  else
    match s.caravanBad c x.car.window with
    | some k => some (0x0305, k)
    | none => (s.sweepBad c x.car.window (s.sweepClusters c legs)).map fun k => (0x0306, k)

/-- A step as it begins. -/
def newRun (w : Waybill) (legs : List LegEntry) (rosters : List Roster) (todo : List LegInst) (withdrawn : Bool) (trailers : List Trailer)
    (cursor : DWord) (exp slots now : Nat) : StepRun :=
  { wb := w, mcount := w.p 0 16, lr := BitVec.ofNat 32 (w.p 32 32), advance := BitVec.ofNat 64 (w.p 64 64), record := w.p 128 64, legList := legs,
    rosters := rosters, todo := todo, dropped := [], applied := [], reported := [], withdrawn := withdrawn, finite := true, orderDep := false,
    trailers := trailers, trailerSent := false, voidNotice := false, decision := none, mismatch := false, digestBad := none, divisor := 0, sets := [],
    lean := [], poisonLean := [], recomputes := [], spilled := [], leanCount := 0, tAdmit := slots, tForward := 0, tBackward := 0, tReduce := 0,
    tSweep := 0, wellHalts := 0, sealBad := 0, rolledBack := 0, tilesSwept := 0, sealRepair := false, recovered := false, mirrorWait := false,
    segments := [], noticesIn := [], cursorIn := cursor, scaleIn := exp, estEnergy := 0, startNs := now, minExp := exp, contributors := 0, lostRank := false }

/-- The mask of a new step published by its leader (09 R320). -/
def State.openMask (s : State) (c : Nat) : State :=
  match (s.cx c).place with
  | none => s
  | some p =>
    let x := s.cx c
    let l := (List.range p.n).filter fun r => !x.lost.contains r && !x.departed.contains r
    if l.head? = some p.rank ∧ (x.mask.step < x.step ∨ x.mask.members.isEmpty) then
      let m : MaskMsg := ⟨x.step, 0, l, none⟩
      (s.acceptMask c m).tellRanks c l (.mask m)
    else s

/-- Settings latched at the admission of a step (02 R53, 04 R112, 05 R159, 07 R236, 08 R253). -/
def Ctx.latch (x : Ctx) : Ctx :=
  { x with
    latched := x.toLatch
    car := { x.car with latchedW := x.car.window, inForce := x.car.distance, running := 0, raised := none, fly := [] } }

/-- A step admitted: settings latched, tensors cleared, its legs in sequence. A spare that takes part from the middle of the step runs only
what follows the backward pass, with count 0 (09 R322). The finiteness flag is set but for the step's loss value (02 R57), which the manual
places nowhere: an FP32 word of the free values (log 102). -/
def State.admitStep (s : State) (c : Nat) (w : Waybill) (legs : List LegEntry) (rosters : List Roster) : State :=
  let x := s.cx c
  let spare := x.take.any fun k => k.stage == 9
  let seq := legSequence legs (w.p 0 16)
  let todo := if spare then seq.filter fun l => decide (2 ≤ l.entry.phase) else seq
  let mine := x.early.filter fun t => t.step8 == x.step % 256
  let (loss, s) := s.free
  let s := s.modCx c fun x => { x.latch with
    queue := x.queue.erase w
    run := some { newRun w legs rosters todo spare mine x.cursor x.ls.exp s.beat.slots s.now with voidNotice := x.earlyVoid.contains x.step, finite := !bad32 (loss.setWidth 32) }
    earlyVoid := x.earlyVoid.filter fun n => decide (x.step < n)
    early := x.early.filter fun t => t.step8 != x.step % 256
    fetched := [], unitSeals := [], fetching := none, stash := [], stashPeak := 0, spillPeak := 0, take := if spare then none else x.take }
  (s.clearRosters c legs rosters).openMask c

/-- An export of context c has been asked for and not begun (12 R433). -/
def State.exportDue (s : State) (c : Nat) : Bool := s.host.wbs.any fun e => e.wb.op == 0x5001 && e.wb.context == c && e.started && (s.cx c).exp.isNone

/-- The STEP waybill of context c whose turn it is: the first that MC core 1 fetched, on whichever ring, once it has started (11 R393). -/
def State.nextStep (s : State) (c : Nat) : Option Waybill :=
  match s.host.wbs.find? fun e => e.wb.op == 0x3001 && e.wb.context == c with
  | some e => if e.started then some e.wb else none
  | none => (s.cx c).queue.head?

/-- STEP_ADMISSION (08 R254, R261, R263). -/
def execStepAdmission (ctx : Nat) (t : Nat) (s : State) : Host.Outcome State Fault Refusal :=
  let s := s.tick t
  let x := s.cx ctx
  .next (match s.nextStep ctx with
    | none => s
    | some w =>
      if !x.live || x.frozen || s.inDeep || !s.atBoundary ctx || !s.bringupDone || s.exportDue ctx || x.restore.isSome || (x.take.any fun k => k.stage != 9) then s
      else
        let reject (s : State) (e : Nat × Nat) : State := (s.modCx ctx fun x => { x with queue := x.queue.erase w }).finish w e.1 e.2 0
        if x.place.isNone then reject s (0x0308, 1)
        else
          let (s, bs) := s.buffer w
          match parseStep bs with
          | .error e => reject s e
          | .ok (legs, rosters) =>
            match s.stepBad ctx (w.p 0 16) legs with
            | some e => reject s e
            | none => s.admitStep ctx w legs rosters)

/-! ### STEP_CLOSE (08 R292, R293, 02 R59) -/

/-- The loss scale after the step (02 R59): state and whether an overflow at unit scale is raised. -/
def LScale.update (l : LScale) (r : StepRun) : LScale × Bool :=
  let interval := if l.probe then 50 else 2000
  let dyn := l.probe || !l.fixed
  let exp0 := if r.mismatch then r.minExp else l.exp
  let (l, ev) :=
    if r.decision = some .skip then
      ({ l with exp := if exp0 = 0 then 0 else if dyn then exp0 - 1 else exp0, clean := 0, skips := min (l.skips + 1) 0xFFFF }, decide (exp0 = 0))
    else if dyn then
      if l.clean + 1 = interval then ({ l with exp := if l.exp < 24 then l.exp + 1 else l.exp, clean := 0 }, false)
      else ({ l with clean := l.clean + 1 }, false)
    else (l, false)
  let l := if l.probe then
      if l.probeLeft = 1 then { l with probe := false, probeLeft := 0, clean := 0 } else { l with probeLeft := l.probeLeft - 1 }
    else l
  (l, ev)

/-- A field written with its largest value where the number exceeds it (08 R293). -/
def satFld (len v : Nat) : Nat := min v (2 ^ len - 1)

/-- A micro-batch entry (08 Table 8-7). -/
def StepRun.muEntry (r : StepRun) (mu : Nat) : List Byte :=
  let cause := ((r.dropped.find? fun d => d.1 == mu).map fun d => d.2).getD 0
  bytesOfNat 16 (packNat [(0, 16, r.firstLean mu), (16, 1, b2n (r.isDropped mu)), (17, 3, cause),
    (32, 32, satFld 32 (ceilDiv (tget 0 r.spilled mu) 1024)), (64, 16, satFld 16 (r.recomputes.filter fun e => e.1 == mu).length)])

/-- The step record (08 Table 8-6): `old` and `new` are the context before and after the close. -/
def stepRecord (c : Nat) (old new : Ctx) (r : StepRun) (close energyJ peakW : Nat) : List Byte :=
  bytesOfNat 256 (packNat
    [(0, 64, old.step), (64, 4, c), (68, 1, b2n (r.decision == some .skip)), (69, 1, b2n old.ls.probe), (70, 1, b2n r.mismatch),
     (71, 1, b2n r.orderDep), (72, 1, b2n r.withdrawn), (73, 1, b2n (r.decision == some .void_)), (74, 1, b2n r.mirrorWait),
     (75, 1, b2n r.sealRepair), (76, 1, b2n r.recovered), (80, 5, r.scaleIn), (88, 5, new.ls.exp), (96, 8, new.ls.probeLeft),
     (128, 16, r.mcount), (144, 16, r.dropped.length), (160, 16, satFld 16 r.contributors), (192, 32, satFld 32 r.divisor),
     (256, 64, r.cursorIn.toNat), (320, 64, new.cursor.toNat), (384, 64, r.tAdmit), (448, 64, r.tForward), (512, 64, r.tBackward),
     (576, 64, r.tReduce), (640, 64, r.tSweep), (704, 64, close), (768, 32, satFld 32 r.wellHalts), (800, 16, satFld 16 r.sealBad),
     (816, 16, satFld 16 r.rolledBack), (832, 32, satFld 32 r.tilesSwept), (896, 32, satFld 32 energyJ), (928, 16, satFld 16 peakW)])
  ++ (List.range r.mcount).flatMap r.muEntry

/-- The correction factor after a step (10 R362): measured energy over estimated, 0.5 to 2. -/
def State.newFactor (s : State) (r : StepRun) (energyJ t : Nat) : Rat :=
  let (ck, n) := s.opPoint
  let est : Rat := r.estEnergy / 1000000 + (Config.basePower ck n true 4 : Rat) * ((t - r.startNs : Nat) : Rat) / 1000000000000
  if est = 0 then s.tg.k else max (1 / 2) (min 2 ((energyJ : Rat) / est))

/-- Status and detail of a step's receipt (11 Table 11-4). -/
def stepStatus (r : StepRun) (step : Nat) : Nat × Nat :=
  match r.digestBad, r.decision with
  | some k, _ => (0x0502, k)
  | none, some .void_ => (0x0003, step)
  | none, some .skip => (0x0002, step)
  | _, _ => (0, step)

/-- Press locks of the step close and waiting contributions are discarded (06 R190). -/
def State.closeStepLocks (s : State) (c : Nat) : State :=
  let keep (l : List Contribution) : List Contribution := l.filter fun x => !(x.inStep && x.ctx == c)
  let s := { s with cel := { s.cel with sent := keep s.cel.sent } }
  let s := (s.cel.columns.map Prod.fst).foldl (fun s k => s.modCol k fun x => { x with pending := keep x.pending, refused := keep x.refused }) s
  (s.lockedLines fun k => k.inStep && k.ctx == c).foldl (fun s id => s.closeLock id) s

/-- Caravan slots released (07 R239). -/
def Ctx.releaseCaravan (x : Ctx) : Ctx :=
  { x with car := { x.car with slots := [], fetch := none, poisoned := [], running := 0, raised := none, fly := [] } }

/-- The statistics blocks of context c freed in every cluster (05 R147). -/
def State.freeBlocks (s : State) (c : Nat) : State :=
  (List.range 48).foldl (fun s k => s.modClu k fun x => { x with blocks := x.blocks.filter fun b => b.ctx != c }) s

/-- Saddlebags released, with what they report (05 R156, R160). -/
def Ctx.releaseStash (x : Ctx) (r : StepRun) : Ctx :=
  { x with
    stash := [], stashPeak := 0, spillPeak := 0
    cnt := { x.cnt with peakMib := ceilDiv x.stashPeak (2 ^ 20), spillMib := ceilDiv x.spillPeak (2 ^ 20), leanLayers := satFld 16 r.leanCount } }

/-- The power model's correction factor changed (10 R362). -/
def State.setFactor (s : State) (k : Rat) : State := { s with tg := { s.tg with k := k } }

/-- The step of context c closes (08 R292). -/
def State.closeStep (s : State) (c : Nat) (r : StepRun) (energyJ peakW t : Nat) : State :=
  let old := s.cx c
  let (ls, ev) := if r.decision = some .void_ then (old.ls, false) else old.ls.update r
  let s := if ev then s.event 0x8006 c old.step else s
  let s := s.closeStepLocks c
  let s := (s.dropAreaBytes c).freeBlocks c
  let s := s.modCx c fun x => { (x.releaseCaravan.releaseStash r) with
    cursor := x.cursor + r.advance, step := x.step + 1, ls := ls
    swept := if r.decision = some .sweep then x.swept + 1 else x.swept
    lastSwept := if r.decision = some .sweep then x.step else x.lastSwept
    mirrorValid := x.mirrorValid && r.decision != some .sweep
    mask := { x.mask with restarting := false } }
  let rec_ := stepRecord c old (s.cx c) r s.beat.slots energyJ peakW
  let s := s.write .host r.record rec_
  let s := s.modCx c fun x => { x with records := (x.records ++ [rec_]).drop ((x.records.length + 1) - 16), run := none }
  let st := stepStatus r old.step
  let s := s.finish r.wb st.1 st.2 0
  let s := s.setFactor (s.newFactor r energyJ t)
  let s := s.releaseShelves fun w => w.ctx == c && w.cls == 1
  let s := if r.decision = some .sweep then s.sendMirror c old.step (s.ctxBlock c) else s
  s.applyBoundary c

/-- The step of context c ends void on this module (13 R453); what the host is told of its power is not measured (free values, log 2). -/
def State.voidStep (s : State) (c t : Nat) : State :=
  match (s.cx c).run with
  | none => s
  | some r =>
    let (e, s) := s.free
    let (p, s) := s.free
    s.closeStep c { r with decision := some .void_ } (fld e 0 32) (fld p 0 16) t

/-- A context that has lost its rank: frozen until a takeover, a restore or its end (13 R453). -/
def State.loseRank (s : State) (c : Nat) : State := (s.modCx c fun x => { x with stuck := true, mask := { x.mask with members := [] } }).freeze c

/-- STEP_CLOSE (08 R292), once the step record can be written to the host (11 R374); a step that a reset has cost its rank ends void once its legs are done (13 R453). -/
def execStepClose (ctx : Nat) (energyJ : Nat) (peakW : Nat) (t : Nat) (s : State) : Host.Outcome State Fault Refusal :=
  let s := s.tick t
  .next (
    if (s.cx ctx).stuck || !s.host.linkUp || s.tg.dmaPaused then s
    else
      let s := s.settleStep ctx
      match (s.cx ctx).run with
      | none => s
      | some r =>
        if r.decision.isNone || !r.todo.isEmpty || s.legs.any fun g => g.ctx == ctx && g.inStep then s
        else if r.lostRank then (s.voidStep ctx t).loseRank ctx
        else s.closeStep ctx r energyJ peakW t)

end Sys2Proof.Machine
end

