-- ==== Sys2Proof/Machine/Arrivals.lean ====
section
/-! DEFINITION. What arrives at a column, at a tensor's press or from the fabric: contributions and their notices (06 R187 to R192), home
requests (R184), packets (09 R303, R317) and reduce-scatter contributions (R318). -/

namespace Sys2Proof.Machine

open Sys2Proof

/-! ### Contributions of this module -/

/-- The restart generation of the context's current step (09 R318, R321): 0 before its mask. -/
def Ctx.restartNow (x : Ctx) : Nat := if x.mask.step = x.step then x.mask.restartGen else 0

/-- A contribution of a segment's first run that a restart has made stale (09 R318). -/
def State.isStale (s : State) (c : Contribution) : Bool := c.key.coll && decide (c.gen < (s.cx c.ctx).restartNow)

/-- A contribution reaches its home column: stale ones are discarded. -/
def State.arrive (s : State) (c : Contribution) : State :=
  let s := if s.isStale c then s else s.pressArrive c (s.setFor c.ctx c.line)
  if c.key.coll then s.settleSegments c.ctx else s

/-- Nothing sent earlier from a cluster for a line is still on its way: the ring keeps their order (01 R16). -/
def State.isFirst (s : State) (line : LineId) (src no : Nat) : Bool :=
  !(s.cel.sent.any fun x => x.line == line && x.src == src && decide (x.no < no))
    && !(s.cel.sentImm.any fun o => o.line == line && clusterOf o.at_.core == src && decide (o.no < no))

/-- A request at a line: refused by its ring stop (01 R28); behind a pause, queued as `wait` says (12 R416; 06 R165); else what `f` says. -/
def State.atStop (s : State) (id : LineId) (wait f : State → State) : State :=
  match s.refusingStop id with
  | some stop => s.emit (.ringRefusal stop)
  | none => if s.linePaused id then wait s else f s

/-- ORDERED_CONTRIBUTION_ARRIVAL (06 R187): of a contribution that is on its way, in the order of R16 (01). Behind a pause it stays on its way. -/
def execOrderedContributionArrival (c : Contribution) (s : State) : Host.Outcome State Fault Refusal :=
  .next (
    if s.cel.sent.contains c && s.isFirst c.line c.src c.no then
      s.atStop c.line id fun s => { s with cel := { s.cel with sent := s.cel.sent.erase c } }.arrive c
    else s)

/-- CONTRIBUTION_RESEND (06 R188): the source counts the refusal and sends again. -/
def execContributionResend (c : Contribution) (s : State) : Host.Outcome State Fault Refusal :=
  let k := s.pressCol c.line
  .next (
    if (s.col k).refused.contains c then
      s.atStop c.line id fun s =>
        let s := s.modCol k fun x => { x with refused := x.refused.erase c }
        (if c.src = clusterOf k then s else s.countRefusal c.src).arrive c
    else s)

/-- The clusters of a leg that carry a descriptor with a seq (06 R187 step 3). -/
def State.carriers (s : State) (c : Nat) (r : StepRun) (idx seq : Nat) : List Nat :=
  match r.legList[idx]? with
  | none => []
  | some l => match s.fetchLeg c l.prog with
    | (_, some g) => ((g.withSeq seq).map fun e => e.1).dedup
    | (_, none) => []

/-- Every cluster of a roster entry has reported, and all its contributions are accepted. -/
def State.entryReported (s : State) (nt : Notice) (r : StepRun) : Bool :=
  match (s.roster nt.ctx nt.tensor).bind fun ro => ro.entries[nt.r]? with
  | none => false
  | some (idx, seq) =>
    let l := s.carriers nt.ctx r idx seq
    let mine (x : Contribution) : Bool := x.ctx == nt.ctx && x.inStep && !x.key.coll && x.tensor == nt.tensor && x.key.mu == nt.mu && x.key.r == nt.r
    !l.isEmpty && l.all (fun k => r.reported.contains (idx, nt.mu, seq, k)) && !(s.cel.sent.any mine)
      && !(s.cel.columns.any fun k => k.2.refused.any mine)

/-- A notice that may arrive: of a rank of the mask, or of a roster entry that has reported. -/
def State.noticeDue (s : State) (nt : Notice) (r : StepRun) : Bool :=
  if nt.coll then
    (s.cx nt.ctx).mask.members.contains nt.r
      && (nt.r != s.ownRank nt.ctx || r.segments.any fun g => g.tensor == nt.tensor && g.owner == nt.r && g.noticed)
  else decide (nt.mu < r.mcount) && s.entryReported nt r

/-- COMPLETION_NOTICE_ARRIVAL (06 R187, 08 R268). -/
def execCompletionNoticeArrival (nt : Notice) (s : State) : Host.Outcome State Fault Refusal :=
  .next (match (s.cx nt.ctx).run with
    | none => s
    | some r =>
      if r.noticesIn.contains nt || !s.noticeDue nt r then s
      else (s.modRun nt.ctx fun r => { r with noticesIn := r.noticesIn ++ [nt] }).advanceAll nt.ctx)

/-! ### Immediate operations (06 R192) -/

/-- Where the launch of a strand runs. -/
def State.launchOf (s : State) (u : StrandRef) : Option Where :=
  let cl := clusterOf u.core
  ((s.clu cl).runs.find? fun r => (decodeDesc r.desc).kind == 0x80).map (runWhere cl)

/-- The strand of an immediate operation at a poisoned line faults (03 R98). -/
def State.immFault (s : State) (o : ImmReq) : State :=
  match s.launchOf o.at_ with
  | some p => s.strandFault p o.at_ ((tget none (s.cor o.at_.core).strands o.at_.strand).map (fun x => x.pc) |>.getD 0)
  | none => s

/-- The default hint of a line in context c's map (06 R174). -/
def State.hintFor (s : State) (c : Nat) (id : LineId) : Nat :=
  match id with
  | .scratch _ _ => 0
  | .window _ a => match s.resolve c none a with
    | .homed _ _ _ _ hint => hint
    | _ => 0

/-- An immediate operation at its home (06 R192, Table 6-7): a locked line holds it, a poisoned one faults its strand; none while no way is free. -/
def State.immArrive (s : State) (o : ImmReq) : Option State :=
  let filled := if (s.homeLine o.line).st = .np then s.bring o.ctx o.line (s.setFor o.ctx o.line) (s.hintFor o.ctx o.line) else some s
  filled.map fun t =>
    match (t.homeLine o.line).st with
    | .rl =>
      let t := t.holdReq o.line (.imm o)
      match t.launchOf o.at_ with
      | some p => t.addWaiter p.ctx p.leg o.line
      | none => t
    | .pz => t.immFault o
    | _ => t.immApply o

/-- An immediate operation that finds no way stays on its way; its leg waits at the line (06 R194). -/
def State.immWaits (s : State) (o : ImmReq) : State :=
  match s.launchOf o.at_ with
  | some p => s.waitWay p.ctx p.leg o.line (s.setFor o.ctx o.line)
  | none => s

/-- IMMEDIATE_OPERATION_ARRIVAL (06 R192): of an operation that is on its way, in the order of R16 (01). -/
def execImmediateOperationArrival (o : ImmReq) (s : State) : Host.Outcome State Fault Refusal :=
  .next (
    if s.cel.sentImm.contains o && s.isFirst o.line (clusterOf o.at_.core) o.no then
      s.atStop o.line id fun s =>
        (({ s with cel := { s.cel with sentImm := s.cel.sentImm.erase o } }).immArrive o).getD (s.immWaits o)
    else s)

/-! ### Home requests (06 R184) -/

/-- The window mode, set and default hint of a line that a context's map homes; a scratch line within its column's scratch part. -/
def State.requestLine (s : State) (c : Nat) (id : LineId) : Option (Bool × Nat × Nat) :=
  match id with
  | .scratch k off => if off < s.scratchUnits k * 65536 then some (false, 0, 0) else none
  | .window _ a => match s.resolve c none a with
    | .homed id' _ direct set hint => if id' = id then some (direct, set, hint) else none
    | _ => none

/-- The core whose L1 a request comes from. -/
def eventCore : HomeEvent → Option Nat
  | .l1Read k => some k
  | .l1Write k => some k
  | _ => none

/-- The leg of context c for which a core of a request waits (06 R193). -/
def State.waitingLeg (s : State) (r : HomeReq) : Option Nat :=
  (eventCore r.ev).bind fun k => (s.clu (clusterOf k)).leg.bind fun q => if q.1 = r.ctx then some q.2 else none

/-- HOME_REQUEST (06 R184, Table 6-7): a request that meets a locked line, or a set without a free way, is held, and its leg waits (R193, R194);
one behind a pause is held. -/
def execHomeRequest (r : HomeReq) (s : State) : Host.Outcome State Fault Refusal :=
  .next (match s.requestLine r.ctx r.line with
    | none => s
    | some (direct, set, dflt) =>
      let q : HomeReq := { r with hint := if r.hint = 0 then dflt else r.hint }
      s.atStop r.line (fun s => s.holdReq q.line (.req q)) fun s =>
        match s.homeStep q.ctx q.line direct set q.hint q.ev with
        | (t, .locked) =>
          if q.ev = .victim then t
          else
            let u := s.holdReq q.line (.req q)
            match s.waitingLeg q with
            | some l => u.addWaiter q.ctx l q.line
            | none => u
        | (t, .noWay) =>
          let u := s.holdReq q.line (.req q)
          match s.waitingLeg q with
          | some l => u.waitWay q.ctx l q.line set
          | none => t.holdReq q.line (.req q)
        | (t, _) => t)

/-! ### Packets (09 R303, R317) -/

/-- A line of a packet can be written at address a of context c: not at a caravan tile (07 R234), nor at a locked line or behind a pause. -/
def State.canWrite (s : State) (c a : Nat) : Bool :=
  (caravanAddr 0 a).isNone && (match s.resolve c none a with
    | .outside => false
    | .absent => false
    | .homed id _ _ _ _ => (s.homeLine id).st != .rl && (s.refusingStop id).isNone && !s.linePaused id
    | .flat sp k => !s.placePaused (.flat sp k))

/-- The micro-batch whose tile a line at stash offset `off` belongs to: the lowest whose tile there has not landed (08 R258). -/
def State.landing (s : State) (c slot off : Nat) (r : StepRun) : Option Nat :=
  ((List.range r.mcount).filter fun mu => !r.isDropped mu).find? fun mu =>
    match (s.cx c).stashTile slot mu off with
    | none => true
    | some t => hdrState (s.placeLine (s.stashPlace c slot mu t.off)).toNat == 0

/-- One line of a packet written into a stash slot; a header line takes the tile's space. -/
def State.landLine (s : State) (c a : Nat) (l : Line) : Option State :=
  let slot := a / 2 ^ 32 % 256
  let off := a % 2 ^ 32
  match (s.cx c).run, s.stashSlot c slot with
  | some r, some e =>
    if e.sizeKib * 1024 < off + 256 ∨ a / 2 ^ 40 ≠ 0xFC + c then none
    else
      match s.landing c slot off r with
      | none => none
      | some mu =>
        let s := if ((s.cx c).stashTile slot mu off).isSome then s else s.takeStash c slot mu off (tileBytes (hdrFmt l.toNat)) false
        some (s.writePlace c (s.stashPlace c slot mu off) none l).1
  | _, _ => none

/-- The lines of a write packet from address a on; none when one cannot be written. -/
def State.landLines (s : State) (c : Nat) : Nat → List Line → Option State
  | _, [] => some s
  | a, l :: r =>
    if 0xFC0000000000 ≤ a then (s.landLine c a l).bind fun s => s.landLines c (a + 256) r
    else if s.canWrite c a then
      match s.writePlace c (s.resolve c none a) none l with
      | (s, .data _) => s.landLines c (a + 256) r
      | (_, _) => none
    else none

/-- A packet's acknowledgement (09 R317), over the management virtual channel. -/
def State.acknowledge (s : State) (p : Packet) (refused stale : Bool) : State := s.tell p.ctx p.src (.ack p.tag refused stale)

/-- PACKET_ARRIVAL (09 R303, R317): a write that can be accepted is written and acknowledged, a read request is answered, and responses and
control packets go to the ring. Ordered adds come by REDUCE_SCATTER_CONTRIBUTION_ARRIVAL. -/
def execPacketArrival (p : Packet) (s : State) : Host.Outcome State Fault Refusal :=
  .next (
    if p.dst ≠ s.fab.moduleId then s
    else
      match p.type with
      | 0 => match s.landLines p.ctx p.addr p.data with
        | some s => (s.takeBuffered p).acknowledge p false false
        | none => s
      | 2 =>
        if (List.range (fld p.hdr 32 4 + 1)).any fun i => s.placePaused (s.resolve p.ctx none (p.addr + 256 * i)) then s
        else match s.readLines p.ctx none none (fld p.hdr 32 4 + 1) p.addr [] with
        | (s, none, bs) =>
          (s.takeBuffered p).route (mkPacket p.src s.fab.moduleId p.ctx 3 p.vc p.addr p.gen p.step8 p.tag ((chunks 256 16 bs).map lineOf))
        | (_, some _, _) => s
      | 3 => (s.takeBuffered p).emit (.toRing p)
      | 4 => (s.takeBuffered p).emit (.toRing p)
      | _ => s)

/-! ### Reduce-scatter contributions (09 R318) -/

/-- The trained tensor whose reduced gradient on this member holds address a. -/
def State.reducedAt (s : State) (c a : Nat) : Option Tensor :=
  ((s.tensorsOf c).find? fun (e : Tensor × Nat) =>
    !e.1.frozen && decide (e.1.reduced ≤ a ∧ a < e.1.reduced + masterBytes e.1 (s.groupSize c) (s.ownRank c))).map fun e => e.1

/-- The contributions that a packet of ordered adds spells (source 48: a port's stop); none when its source holds no rank or an address is no
reduced gradient. -/
def State.spelled (s : State) (p : Packet) : Option (List Contribution) :=
  match s.rankAt p.ctx p.src with
  | none => none
  | some r =>
    p.data.zipIdx.mapM fun (e : Line × Nat) =>
      let a := p.addr + 256 * e.2
      match s.reducedAt p.ctx a, s.pressTarget p.ctx 0 0 a with
      | some t, some id => some (⟨p.ctx, true, t.id, id, .fadd, BitVec.allOnes 64, e.1, ⟨true, 0, r, 0, 0⟩, true, p.gen, p.step8, 0, s.hintFor p.ctx id, 48, 0⟩ : Contribution)
      | _, _ => none

/-- Locks of the lines taken, where every one finds a way. -/
def State.takeLocks (s : State) : List Contribution → Option State
  | [] => some s
  | c :: r => (s.takeLock c (s.setFor c.ctx c.line)).bind fun s => s.takeLocks r

/-- The pending areas have room for contributions that have to wait. -/
def State.roomFor (s : State) (l : List Contribution) : Bool :=
  l.all fun c =>
    let k := s.pressCol c.line
    decide ((s.col k).pending.length + (l.filter fun d => s.pressCol d.line == k).length ≤ pendingRoom)

/-- A packet of contributions handled by the lines' cursors; a refusal counts at the home column of its first line (06 R207). -/
def State.takePacket (s : State) (p : Packet) (l : List Contribution) (r : StepRun) : State :=
  match s.takeLocks l with
  | none => s.acknowledge p true false
  | some t =>
    let waits := l.filter fun c => !(t.cx p.ctx).maskNow || (match (t.cx p.ctx).rankCursor r c.tensor with
      | some cur => decide (cur < c.key.r)
      | none => false)
    if !t.roomFor waits then (l.head?.elim s fun c => s.countRefusal (clusterOf (s.pressCol c.line))).acknowledge p true false
    else (l.foldl (fun s c => s.pressArrive c (s.setFor c.ctx c.line)) t).acknowledge p false false

/-- REDUCE_SCATTER_CONTRIBUTION_ARRIVAL (09 R318): the packet that carries contribution c. -/
def execReduceScatterContributionArrival (p : Packet) (c : Contribution) (s : State) : Host.Outcome State Fault Refusal :=
  let x := s.cx p.ctx
  let ahead := (p.step8 + 256 - x.step % 256) % 256
  .next (
    if p.type ≠ 1 ∨ p.dst ≠ s.fab.moduleId then s
    else
      match s.spelled p with
      | none => s
      | some l =>
        if !(l.any fun x => x == { c with leg := x.leg, hint := x.hint, src := x.src, no := x.no }) then s
        else
          s.atStop c.line id fun s =>
            let s := s.takeBuffered p
            if 128 ≤ ahead then s.acknowledge p false true
            else
              match x.run with
              | none => s.acknowledge p true false
              | some r =>
                if 0 < ahead then s.acknowledge p true false
                else if p.gen < x.restartNow ∨ (x.maskNow ∧ !(l.all fun c => x.mask.members.contains c.key.r)) then s.acknowledge p false true
                else s.takePacket p l r)

end Sys2Proof.Machine
end

