-- ==== Sys2Proof/Machine/Rings.lean ====
section
/-! DEFINITION. The host's rings: doorbells, enable and drain (11 R375 to R380), the priority ring's tail (R398, R399), interrupts (R408), the host
link (R370 to R374), and snoops (07 R231). -/

namespace Sys2Proof.Machine

open Sys2Proof

/-- The image serves the management bus, the priority ring and BAR0 from step 5 on (13 R442, R443). -/
def State.barServes (s : State) : Bool := decide (5 ≤ s.mc.bringup)

/-- A BAR access reaches the module and is served: the link is up (01 R20; 10 R348; 11 R374). -/
def State.hostServes (s : State) : Bool := s.barServes && s.host.linkUp

/-! ### Enable and drain (11 R379) -/

/-- A ring that starts: pointers at 0, phase 1. -/
def Ring.start (r : Ring) : Ring :=
  { r with enable := true, sqTail := 0, sqHead := 0, cqHead := 0, cqTail := 0, phase := true, enabled := true, halted := false, fullWait := false,
           heldEnable := false, waiting := [], gathered := 0 }

/-- Every receipt of ring n is written: nothing outstanding, and nothing waits unless the ring is halted. -/
def State.drained (s : State) (n : Nat) : Bool :=
  let r := s.ring n
  decide (r.outstanding = 0) && (r.waiting.isEmpty || r.halted) && !(s.host.held.any fun h => h.1 == some n)

/-- The end of a drain: the ring stops, and a held enable restarts it. -/
def State.drainEnd (s : State) (n : Nat) : State :=
  s.modRing n fun r => if r.heldEnable then r.start else if r.enable then r else { r with enabled := false }

/-- A write of HI_SQ_BASE (11 Table 11-17). -/
def State.writeSqBase (s : State) (n : Nat) (v : DWord) : State :=
  let r := s.ring n
  let s := if r.enabled then s else s.modRing n fun x => { x with base := fld v 12 52 }
  if bitAt v 0 then
    if !r.enabled then s.modRing n Ring.start
    else if r.enable then s
    else s.modRing n fun x => { x with enable := true, heldEnable := true }
  else
    let s := s.modRing n fun x => { x with enable := false, heldEnable := false }
    if s.drained n then s.drainEnd n else s

/-- A write of HI_CQ_BASE (11 R405). -/
def State.writeCqBase (s : State) (n : Nat) (v : DWord) : State :=
  s.modRing n fun r => { r with irqEn := bitAt v 0, cqBase := if r.enabled then r.cqBase else fld v 12 52 }

/-- RING_ENABLE (11 R379). -/
def execRingEnable (ring : Nat) (v : DWord) (s : State) : Host.Outcome State Fault Refusal :=
  .next (if s.hostServes then s.writeSqBase ring v else s)

/-- RING_DISABLE (11 R379). -/
def execRingDisable (ring : Nat) (v : DWord) (s : State) : Host.Outcome State Fault Refusal :=
  .next (if s.hostServes then s.writeSqBase ring v else s)

/-- RING_DRAIN_COMPLETE (11 R379). -/
def execRingDrainComplete (ring : Nat) (s : State) : Host.Outcome State Fault Refusal :=
  .next (if (s.ring ring).enabled && (!(s.ring ring).enable || (s.ring ring).heldEnable) && s.drained ring then s.drainEnd ring else s)

/-! ### Doorbells (11 R376, R378, R406) -/

/-- Receipts that waited for room are written in their order (11 R378). -/
def State.postWaiting (s : State) (n : Nat) : State :=
  let l := (s.ring n).waiting
  l.foldl (fun s (w : BitVec 256 × Bool) => s.postReceipt n w.1 w.2) (s.modRing n fun r => { r with fullWait := false, waiting := [] })

/-- A write of HI_RING_DB (11 Table 11-18). -/
def State.writeDoorbell (s : State) (n : Nat) (v : DWord) : State :=
  let s := if bitAt v 12 then s.modRing n fun r => { r with sqTail := fld v 0 12 } else s
  if bitAt v 28 then
    let s := s.modRing n fun r => { r with cqHead := fld v 16 12 }
    if (s.ring n).halted then s else s.postWaiting n
  else s

/-- SQ_DOORBELL (11 R376). -/
def execSqDoorbell (ring : Nat) (v : DWord) (s : State) : Host.Outcome State Fault Refusal :=
  .next (if s.hostServes then s.writeDoorbell ring v else s)

/-- CQ_DOORBELL (11 R378). -/
def execCqDoorbell (ring : Nat) (v : DWord) (s : State) : Host.Outcome State Fault Refusal :=
  .next (if s.hostServes then s.writeDoorbell ring v else s)

/-- RECEIPT_WRITE_FAILURE (11 R380): the ring halts; what stands in host memory where its last receipt was written is the host's (log 3). -/
def execReceiptWriteFailure (ring : Nat) (s : State) : Host.Outcome State Fault Refusal :=
  .next (
    let r := s.ring ring
    if !r.enabled || r.halted then s
    else
      let a := 4096 * r.cqBase + (r.cqTail + 4095) % 4096 * 32
      let s := s.clear .host a 32
      (s.modRing ring fun x => { x with halted := true }).event 0x800D 0xF ring)

/-- IRQ_DELAY_EXPIRY (11 R408). -/
def execIrqDelayExpiry (ring : Nat) (s : State) : Host.Outcome State Fault Refusal :=
  .next (
    let r := s.ring ring
    if r.gathered = 0 ∨ r.irqDelay = 0 then s
    else
      let s := s.modRing ring fun x => { x with gathered := 0 }
      if r.irqEn then s.emit (.msix ring) else s)

/-! ### The priority ring (11 R398, R399) -/

/-- Entry slot i of the priority ring in BAR2. -/
def State.prioEntry (s : State) (i : Nat) : PrioEntry := ⟨false, i, BitVec.ofNat 512 (natOfBytes (s.read .bar2 (i * 64) 64))⟩

/-- Entries the host writes into BAR2 from the tail on. -/
def State.hostEntries (s : State) : Nat → List (BitVec 512) → State
  | _, [] => s
  | i, e :: r => State.hostEntries (s.write .bar2 (i % 16 * 64) (bytesOfNat 64 e.toNat)) (i + 1) r

/-- A write of HI_PRIO (11 R399, Table 11-21). -/
def State.writePrio (s : State) (v : DWord) : State :=
  let s := if bitAt v 14 then { s with host := { s.host with overrun := false } } else s
  let tail := fld v 0 4
  let posted := (tail + 16 - s.host.prioTail) % 16
  let standing := (s.host.prioTail + 16 - s.host.prioHead) % 16
  if posted = 0 then s
  else if 15 < posted + standing then { s with host := { s.host with overrun := true } }
  else
    let new := (List.range posted).map fun i => s.prioEntry ((s.host.prioTail + i) % 16)
    { s with host := { s.host with prioTail := tail, prioQ := s.host.prioQ ++ new } }

/-- PRIORITY_DOORBELL (11 R399). -/
def execPriorityDoorbell (v : DWord) (entries : List (BitVec 512)) (s : State) : Host.Outcome State Fault Refusal :=
  .next (if s.hostServes then (s.hostEntries s.host.prioTail entries).writePrio v else s)

/-! ### The host link (11 R373, R374, 13 R443) -/

/-- The link comes up in L0: CXL.cache as the host negotiates it (07 R231; a free value, log 2), what was held is written in order, and the cores
that wait for the host's memory go on (08 R290). -/
def State.linkReturns (s : State) : State :=
  let (f, s) := s.free
  let l := s.host.held
  let s := { s with host := { s.host with linkUp := true, t3Cxl := bitAt f 0, held := [] } }
  let s := l.foldl (fun s (h : Option Nat × BitVec 256 × Bool) => match h.1 with
    | some n => s.postReceipt n h.2.1 h.2.2
    | none => s.postEvent h.2.1) s
  (List.range 4).foldl (fun s c => s.retryAll c (· == .waits)) s

/-- The link can be in L0: PERST_N released, stage 6 up, not at the deep floor, not tripped, not in test mode. -/
def State.linkCan (s : State) : Bool :=
  !s.host.perst && s.pwr.stages.getD 6 .off == .up && !s.inDeep && s.tg.st != 6 && !s.mc.testMode

/-- HELD_RECEIPTS_WRITE (11 R374): the host link returns. -/
def execHeldReceiptsWrite (s : State) : Host.Outcome State Fault Refusal :=
  .next (if !s.host.linkUp && s.linkCan && decide (8 ≤ s.mc.bringup) then s.linkReturns else s)

/-- HOST_LINK_DOWN (11 R374, Table 11-1): width 0 is down; 1, 2, 4 and 8 are fallback widths. -/
def execHostLinkDown (width : Nat) (s : State) : Host.Outcome State Fault Refusal :=
  .next (
    if !s.host.linkUp then s
    else if width = 0 then { s with host := { s.host with linkUp := false } }
    else if [1, 2, 4, 8].contains width && decide (width < s.host.linkWidth) then { s with host := { s.host with linkWidth := width } }
    else s)

/-- PERST_N_ASSERT (11 R373): rings disabled, ring registers cleared; the receipts of waybills already fetched are dropped. -/
def execPerstNAssert (s : State) : Host.Outcome State Fault Refusal :=
  .next { s with host := { s.host with
    perst := true, linkUp := false, linkWidth := 16, rings := [], rrRing := 0, rrLeft := 0
    held := s.host.held.filter fun h => h.1.isNone
    wbs := s.host.wbs.map fun e => { e with dropped := true } } }

/-- PERST_N_RELEASE (11 R373, 13 R443): a module past step 8 has its link in L0; else step 10 brings it up. -/
def execPerstNRelease (s : State) : Host.Outcome State Fault Refusal :=
  .next (
    let s := { s with host := { s.host with perst := false } }
    if !s.host.linkUp && s.linkCan && decide (8 ≤ s.mc.bringup) then s.linkReturns else s)

/-! ### Snoops (07 R231) -/

/-- Lines of cache windows whose tier-3 line holds a host address. -/
def State.snooped (s : State) (h : Nat) : List LineId :=
  (s.cel.lines.map fun e => e.1).filter fun id => match id with
    | .window _ a => (s.tier3Host a).any fun b => decide (b ≤ h ∧ h < b + 256)
    | .scratch _ _ => false

/-- A line leaves the cellar for a snoop, written back first if dirty. DESIGN CHOICE (log 103): a locked line, which is never written to tier 3
while its lock stands (06 R194), leaves when the lock closes. -/
def State.snoopOut (s : State) (id : LineId) : State :=
  if (s.homeLine id).st = .rl then s.holdReq id (.req ⟨((s.homeLine id).lock.map fun l => l.ctx).getD 0, id, 0, .victim⟩)
  else if s.isDirect id then (s.recallAll id true).putHome id HomeLine.init
  else s.evict id

/-- What a snoop's answer carries: the line that the cellar holds dirty. -/
def State.dirtyData (s : State) (id : LineId) : Option Line :=
  let d := s.isDirect id
  let t := s.recallAll id d
  if (s.homeLine id).st != .rl && ((t.homeLine id).dirty || s.cel.l1.any fun x => x.line == id && x.modified) then some (t.homeData id d) else none

/-- SNOOP (07 R231): every snoop is answered. One that invalidates takes the cellar line out; of another the line stays, clean (log 103). -/
def execSnoop (hostAddr : Nat) (invalidate : Bool) (s : State) : Host.Outcome State Fault Refusal :=
  .next (
    if !s.host.t3Cxl then s
    else
      let l := s.snooped hostAddr
      let a := l.findSome? s.dirtyData
      let keep (s : State) (id : LineId) : State := if (s.homeLine id).st = .rl ∨ (s.homeLine id).st = .pz then s else s.cleanLine id (s.isDirect id)
      (if invalidate then l.foldl State.snoopOut s else l.foldl keep s).emit (.snoopAnswer hostAddr a))

end Sys2Proof.Machine
end

