-- ==== Sys2Proof/Machine/Registers.lean ====
section
/-! DEFINITION. The registers behind BAR0 (11 R404, Table 11-16): their offsets, the values they read, what a write sets, and the fields that a
read clears (00 R4 to R8). -/

namespace Sys2Proof.Machine

open Sys2Proof

/-- The registers, with the number of the unit they belong to. -/
inductive Reg where
  | sqBase (n : Nat)
  | cqBase (n : Nat)
  | ringDb (n : Nat)
  | ringStat (n : Nat)
  | ringCfg (n : Nat)
  | prio
  | eventCfg
  | tier3Base
  | tier3Size
  | mcStatus
  | bscfg (c : Nat)
  | lscale (c : Nat)
  | acccfg (c : Nat)
  | seed (c : Nat)
  | stashcfg (c : Nat)
  | stashstat (c : Nat)
  | caravan (c : Nat)
  | step (c : Nat)
  | fetchstat (c : Nat)
  | tgCfg
  | tgSetpoint
  | tgStatus
  | tgBeat
  | slotcnt
  | heat
  | shedstat
  | fabricCfg
  | fabricDim
  | portStat (p : Nat)
  | ctxMask (c : Nat)
  | hbmCfg
  | stackStat (h : Nat)
  | coreMap (c : Nat)
  | dispStatus (c : Nat)
  | cvtNan (c : Nat)
  | accStatus (c : Nat)
  | roweng (c : Nat)
  | rowengCnt (c : Nat)
  | celCfg
  | celStatus
  | pressStat (c : Nat)
  | clSplit (c : Nat)
  | chanStat (k : Nat)
deriving DecidableEq, Repr

/-- The register of a unit of a bank at an offset within the unit's block. -/
def regPick (l : List (Nat → Reg)) (n off : Nat) : Option Reg := if off % 8 = 0 then (l[off / 8]?).map fun f => f n else none

/-- Registers of a ring, a context and a cluster, in the order of Table 11-16. -/
def ringRegs : List (Nat → Reg) := [.sqBase, .cqBase, .ringDb, .ringStat, .ringCfg]
/-- Registers of a context. -/
def ctxRegs : List (Nat → Reg) := [.bscfg, .lscale, .acccfg, .seed, .stashcfg, .stashstat, .caravan, .step, .fetchstat]
/-- Registers of the tollgate. -/
def tgRegs : List (Nat → Reg) :=
  [fun _ => .tgCfg, fun _ => .tgSetpoint, fun _ => .tgStatus, fun _ => .tgBeat, fun _ => .slotcnt, fun _ => .heat, fun _ => .shedstat]
/-- Registers of a cluster. -/
def clRegs : List (Nat → Reg) := [.coreMap, .dispStatus, .cvtNan, .accStatus, .roweng, .rowengCnt]

/-- The register at a BAR0 offset (11 Table 11-16), if the table lists it. -/
def regAt (off : Nat) : Option Reg :=
  if off < 0x1000 then regPick ringRegs (off / 0x40) (off % 0x40)
  else if off < 0x1020 then regPick [fun _ => .prio, fun _ => .eventCfg, fun _ => .tier3Base, fun _ => .tier3Size] 0 (off - 0x1000)
  else if off = 0x10000 then some .mcStatus
  else if 0x11000 ≤ off ∧ off < 0x11400 then regPick ctxRegs ((off - 0x11000) / 0x100) (off % 0x100)
  else if 0x20000 ≤ off ∧ off < 0x20038 then regPick tgRegs 0 (off - 0x20000)
  else if off = 0x30000 then some .fabricCfg
  else if off = 0x30008 then some .fabricDim
  else if 0x30100 ≤ off ∧ off < 0x30160 ∧ off % 8 = 0 then some (.portStat ((off - 0x30100) / 8))
  else if 0x30200 ≤ off ∧ off < 0x30220 ∧ off % 8 = 0 then some (.ctxMask ((off - 0x30200) / 8))
  else if off = 0x40000 then some .hbmCfg
  else if 0x40100 ≤ off ∧ off < 0x40180 ∧ off % 8 = 0 then some (.stackStat ((off - 0x40100) / 8))
  else if 0x100000 ≤ off ∧ off < 0x103000 then regPick clRegs ((off - 0x100000) / 0x100) (off % 0x100)
  else if off = 0x200000 then some .celCfg
  else if off = 0x200008 then some .celStatus
  else if 0x201000 ≤ off ∧ off < 0x201300 ∧ off % 8 = 0 then
    some (if off % 0x10 = 0 then .pressStat ((off - 0x201000) / 0x10) else .clSplit ((off - 0x201000) / 0x10))
  else if 0x210000 ≤ off ∧ off < 0x213000 ∧ off % 8 = 0 then some (.chanStat ((off - 0x210000) / 8))
  else none

/-! ### Values read -/

/-- log2 rounded up (09 Table 9-10). -/
def log2Up (n : Nat) : Nat := if 2 ^ ilog2 n < n then ilog2 n + 1 else ilog2 n

/-- MC_CTX_STEP.phase (08 Table 8-8): a recompute leg runs in the backward pass (05 R155). -/
def State.stepPhase (s : State) (c : Nat) : Nat :=
  match (s.cx c).run with
  | none => 0
  | some r =>
    let fly := s.legs.filter fun g => g.ctx == c && g.inStep
    let repair := fly.any fun g => !g.resume.isEmpty || !g.failed.isEmpty
    let phases := ((fly.map fun g => g.inst) ++ r.todo).map fun l => if l.recompute then 1 else l.entry.phase
    if (s.cx c).stuck || repair then 7
    else if phases.isEmpty then 6
    else phases.foldl min 4 + 1

/-- A core of cluster k stands in a well-halt (03 Table 3-11). -/
def Cluster.wellHalt (x : Cluster) : Bool := x.runs.any fun r => r.halts.any fun h => h.why.isWell

/-- A rational in W as a field: rounded down, holding at the top. -/
def wattFld (len : Nat) (q : Rat) : Nat := satFld len (ratNat q)

/-- P_heat as TG_HEAT reports it (10 Table 10-16). -/
def State.heatCapW (s : State) : Nat := match s.heat.cap with | some q => wattFld 16 q | none => 0xFFFF

/-- env_w of TG_SETPOINT: 0 in the floor region (10 Table 10-12). -/
def State.envW (s : State) : Nat := match s.envTerm with | .power w => ratNat w | .floor _ => 0

/-- The lowest keep cap of any column (06 Table 6-13); without shelf windows a column without an entry has the whole cap. -/
def State.keepCapMin (s : State) : Nat :=
  ((if s.cel.shelves.isEmpty then [s.cel.keepCap] else (List.range 1536).map s.keepCap) ++ s.cel.columns.map fun e => s.keepCap e.1).foldl min 12

/-- Counts of columns with a property. -/
def State.countCols (s : State) (p : Column → Bool) : Nat := (s.cel.columns.filter fun e => p e.2).length

/-- Tests that pause a pseudo-channel (07 Table 7-12). -/
def State.pcsInTest (s : State) : Nat := (s.mc.tests.filter fun t => match t.unit with | .pc _ _ => true | _ => false).length

/-- The fields of a register that read other than 0, as (lowest bit, length, value). -/
def State.regFields (s : State) : Reg → List (Nat × Nat × Nat)
  | .sqBase n => [(0, 1, b2n (s.ring n).enable), (12, 52, (s.ring n).base)]
  | .cqBase n => [(0, 1, b2n (s.ring n).irqEn), (12, 52, (s.ring n).cqBase)]
  | .ringDb _ => []
  | .ringStat n =>
    let r := s.ring n
    [(0, 12, r.sqHead), (12, 12, r.cqTail), (24, 1, b2n r.enabled), (25, 1, b2n r.halted), (26, 1, b2n r.fullWait), (32, 12, r.outstanding)]
  | .ringCfg n => [(0, 4, (s.ring n).weight), (8, 8, (s.ring n).irqCount), (16, 16, (s.ring n).irqDelay)]
  | .prio => [(8, 4, s.host.prioHead), (12, 1, b2n s.host.prioBusy), (13, 1, b2n s.host.mctpBusy), (14, 1, b2n s.host.overrun)]
  | .eventCfg => [(0, 6, s.host.eventRing), (6, 1, b2n s.host.eventEn)]
  | .tier3Base => [(0, 1, b2n s.host.t3Enable), (1, 1, b2n s.host.t3Cxl), (12, 52, (s.host.t3Pending.map Prod.fst).getD s.host.t3Base)]
  | .tier3Size => [(0, 25, (s.host.t3Pending.map Prod.snd).getD s.host.t3Size)]
  | .mcStatus =>
    [(0, 1, b2n (s.mc.coreAlive.getD 0 false)), (1, 1, b2n (s.mc.coreAlive.getD 1 false)), (2, 1, b2n (s.mc.coreAlive.getD 2 false)),
      (3, 1, b2n s.mc.image), (4, 3, s.mc.resetCause), (7, 1, b2n s.mc.serviceReq), (32, 16, s.mc.eventsLost)]
  | .bscfg c => (s.cx c).cfg.tols.zipIdx.map fun e => (4 * e.2, 3, e.1)
  | .lscale c =>
    let l := (s.cx c).ls
    [(0, 5, l.exp), (5, 1, b2n l.fixed), (6, 1, b2n (s.cx c).live), (8, 11, l.clean), (19, 1, b2n l.probe), (24, 8, l.probeLeft), (32, 16, l.skips)]
  | .acccfg c => [(0, 24, (s.cx c).cfg.srThresh), (24, 1, b2n (s.cx c).cfg.srOff)]
  | .seed c => [(0, 64, (s.cx c).seed.toNat)]
  | .stashcfg c => [(0, 16, (s.cx c).cfg.areaMib), (32, 20, (s.cx c).cfg.quotaMib)]
  | .stashstat c =>
    let n := (s.cx c).cnt
    [(0, 20, satFld 20 n.peakMib), (20, 20, satFld 20 n.spillMib), (40, 16, satFld 16 n.leanLayers), (56, 8, n.poisonRec)]
  | .caravan c =>
    let k := (s.cx c).car
    [(0, 4, k.window), (4, 4, k.distance), (8, 1, b2n k.autoRaise), (16, 16, k.haltLimit), (32, 16, k.halts), (48, 16, k.stashHalts)]
  | .step c =>
    let x := s.cx c
    [(0, 4, s.stepPhase c), (4, 1, b2n x.frozen), (5, 1, b2n x.mirrorValid), (8, 13, (x.place.map fun p => p.rank).getD 0),
      (24, 8, satFld 8 x.queue.length), (32, 32, x.step)]
  | .fetchstat c =>
    let n := (s.cx c).cnt
    [(0, 16, n.sealMismatch), (16, 16, n.refetches), (32, 8, n.suspects), (40, 8, n.repairs)]
  | .tgCfg =>
    let g := s.tg.cfg
    [(0, 2, g.envSrc), (2, 1, b2n g.envFloor), (3, 1, b2n g.shedFloor), (4, 1, b2n g.slotEn), (6, 6, g.slot), (16, 16, g.ramp), (32, 16, g.lease),
      (48, 16, g.fallback)]
  | .tgSetpoint =>
    [(0, 12, s.tg.digitalW), (12, 1, b2n s.tg.deep), (16, 12, ratNat s.envMv), (28, 1, b2n s.envFloor), (32, 16, s.envW)]
  | .tgStatus =>
    [(0, 3, s.tg.st), (3, 1, b2n s.tg.shed), (4, 1, b2n s.tg.cmdShed), (5, 1, b2n s.beat.valid), (6, 1, b2n s.beat.relock),
      (7, 1, b2n s.tg.leaseExpired), (8, 1, b2n s.tg.chatter), (9, 1, b2n (!s.pwr.throttles.isEmpty)), (16, 12, wattFld 12 s.tg.allowance),
      (28, 4, s.tg.bind), (32, 12, satFld 12 s.tg.inputW)]
  | .tgBeat =>
    [(0, 24, s.beat.period), (24, 6, s.beat.slot), (30, 1, b2n s.mc.flash.nominal60), (32, 16, s.beat.rejects), (48, 8, s.beat.invalids)]
  | .slotcnt => [(0, 64, s.beat.slots)]
  | .heat =>
    [(0, 8, satFld 8 s.heat.inlet), (8, 8, satFld 8 s.heat.plate), (16, 8, wattFld 8 s.heat.model), (24, 8, s.heat.limit), (32, 6, s.heat.flow),
      (38, 1, b2n s.heat.fault), (48, 16, s.heatCapW)]
  | .shedstat => [(0, 32, satFld 32 (if s.tg.shed then (s.now - s.tg.shedSince) / 1000000 else s.tg.shedMs)), (32, 16, s.tg.sheds), (48, 8, s.tg.chatterEvents)]
  | .fabricCfg =>
    let f := s.fab
    [(0, 13, f.moduleId), (13, 1, b2n f.loaded), (14, 1, b2n ((List.range 4).all fun c => !(s.cx c).live)), (15, 1, b2n f.isolated),
      (16, 4, log2Up f.dx), (20, 4, log2Up f.dy), (24, 4, log2Up f.dz), (32, 16, f.lostSeen), (48, 16, f.unreachable)]
  | .fabricDim => [(0, 13, s.fab.dx), (16, 13, s.fab.dy), (32, 13, s.fab.dz)]
  | .portStat p =>
    let x := s.port p
    [(0, 3, x.width), (3, 1, b2n x.suspect), (4, 1, b2n (s.isDateline p)), (5, 1, b2n x.peerAlive), (6, 1, b2n x.departed), (8, 8, x.lanes.toNat),
      (16, 13, x.peerId), (32, 16, x.replays), (48, 16, x.fecBad)]
  | .ctxMask c =>
    let k := (s.cx c).mask
    [(0, 8, k.gen), (8, 1, b2n k.restarting), (16, 13, (k.members.head?).getD 0), (32, 14, k.members.length)]
  | .hbmCfg => [(0, 1, b2n s.hbm.tall), (1, 1, b2n s.hbm.rate), (8, 10, if s.hbm.tall then 760 else 504), (32, 11, s.pcsInTest)]
  | .stackStat h =>
    let x := s.stack h
    [(0, 8, satFld 8 x.temp), (8, 2, x.mult), (16, 10, 512 - x.remap.length), (26, 1, b2n x.exhausted), (27, 1, b2n (x.poison.length == 65536)),
      (32, 16, x.corrected), (48, 8, x.uncorrectable), (56, 8, x.retries)]
  | .coreMap c =>
    let x := s.clu c
    [(0, 32, x.active.toNat), (32, 6, x.rem32), (40, 6, x.rem33), (48, 1, b2n x.failed32), (49, 1, b2n x.failed33)]
  | .dispStatus c =>
    let x := s.clu c
    [(0, 16, x.lastSeq), (16, 1, b2n (!x.runs.isEmpty)), (17, 1, b2n x.wellHalt), (18, 1, b2n x.frozen), (19, 1, b2n x.rejected),
      (20, 4, x.owner.getD 0xF), (24, 7, min 64 x.queue.length), (32, 32, x.cnt.strandFaults)]
  | .cvtNan c => [(0, 32, (s.clu c).cnt.cvtNan)]
  | .accStatus c => [(0, 32, (s.clu c).cnt.intWrap), (32, 16, (s.clu c).cnt.chainBreak)]
  | .roweng c => [(0, 4, (s.clu c).statLimit), (4, 6, (s.clu c).blocks.length), (16, 17, (s.clu c).freeEntries)]
  | .rowengCnt c => [(0, 32, (s.clu c).cnt.overflowRows), (32, 32, (s.clu c).cnt.recomputeRows)]
  | .celCfg => [(0, 4, s.cel.keepCap), (4, 1, b2n s.cel.thrashEn), (5, 1, b2n s.cel.thrashWarn), (16, 16, s.cel.pressWaitMs)]
  | .celStatus =>
    let lost := s.countCols fun x => x.leftMap
    [(0, 11, lost), (11, 11, s.countCols fun x => x.borrowing), (22, 1, b2n (decide (8 < lost))), (32, 11, s.countCols fun x => x.thrashing),
      (43, 4, s.keepCapMin)]
  | .pressStat c =>
    let n := (s.clu c).cnt
    [(0, 16, n.defers), (16, 16, n.refusals), (32, 8, n.overflows), (40, 8, n.waitTimeouts), (48, 11, n.pendingPeak)]
  | .clSplit c =>
    let u := (s.clu c).scratchUnits
    [(0, 7, u), (8, 7, 79 - u), (16, 11, 16 * (79 - u))]
  | .chanStat k =>
    let x := s.col k
    [(0, 5, x.upSpares), (5, 5, x.downSpares), (10, 1, b2n x.borrowing), (11, 1, b2n x.lent), (12, 1, b2n x.failed), (13, 1, b2n x.leftMap),
      (16, 5, x.margin), (32, 16, x.crcResends), (48, 16, x.extraRetrims)]

/-- The value a register reads. -/
def State.image (s : State) (r : Reg) : DWord := pack 64 (s.regFields r)

/-! ### Fields that a read clears (00 R4) -/

/-- Counters of context c changed. -/
def State.modCtxCnt (s : State) (c : Nat) (f : CtxCnt → CtxCnt) : State := s.modCx c fun x => { x with cnt := f x.cnt }

/-- RC fields in the low half of a register cleared. -/
def State.clearLow (s : State) : Reg → State
  | .fetchstat c => s.modCtxCnt c fun n => { n with sealMismatch := 0, refetches := 0 }
  | .cvtNan c => s.modCnt c fun n => { n with cvtNan := 0 }
  | .accStatus c => s.modCnt c fun n => { n with intWrap := 0 }
  | .rowengCnt c => s.modCnt c fun n => { n with overflowRows := 0 }
  | .pressStat c => s.modCnt c fun n => { n with defers := 0, refusals := 0 }
  | _ => s

/-- RC fields in the high half cleared. -/
def State.clearHigh (s : State) : Reg → State
  | .mcStatus => { s with mc := { s.mc with eventsLost := 0 } }
  | .lscale c => s.modCx c fun x => { x with ls := { x.ls with skips := 0 } }
  | .stashstat c => s.modCtxCnt c fun n => { n with poisonRec := 0 }
  | .caravan c => s.modCx c fun x => { x with car := { x.car with halts := 0, stashHalts := 0 } }
  | .fetchstat c => s.modCtxCnt c fun n => { n with suspects := 0, repairs := 0 }
  | .tgBeat => { s with beat := { s.beat with rejects := 0, invalids := 0 } }
  | .shedstat => { s with tg := { s.tg with sheds := 0, chatterEvents := 0 } }
  | .fabricCfg => { s with fab := { s.fab with lostSeen := 0, unreachable := 0 } }
  | .portStat p => s.modPort p fun x => { x with replays := 0, fecBad := 0 }
  | .stackStat h => s.modStack h fun x => { x with corrected := 0, uncorrectable := 0, retries := 0 }
  | .dispStatus c => s.modCnt c fun n => { n with strandFaults := 0 }
  | .accStatus c => s.modCnt c fun n => { n with chainBreak := 0 }
  | .rowengCnt c => s.modCnt c fun n => { n with recomputeRows := 0 }
  | .pressStat c => s.modCnt c fun n => { n with overflows := 0, waitTimeouts := 0, pendingPeak := 0 }
  | .chanStat k => s.modCol k fun x => { x with crcResends := 0, extraRetrims := 0 }
  | _ => s

/-- A register read whole (00 R8): its value, and the state with its RC fields cleared. -/
def State.readReg (s : State) (off : Nat) : State × DWord :=
  match regAt off with
  | some r => ((s.clearLow r).clearHigh r, s.image r)
  | none => (s, 0)

/-- The latched high half of the register at an offset (00 R8). -/
def State.setLatch (s : State) (off : Nat) (v : Option Word) : State := { s with host := { s.host with latch := tset none s.host.latch off v } }

/-- RC_READ (00 R4): a 64-bit read. Before step 5 it returns 0 (13 R443); with the link down none arrives (01 R20). -/
def execRcRead (off : Nat) (s : State) : Host.Outcome State Fault Refusal :=
  .next (
    if !s.barServes then s.emit (.barRead off 0)
    else if !s.host.linkUp then s
    else
      let (s, v) := s.readReg (off / 8 * 8)
      s.emit (.barRead off v))

/-- LOW_HALF_READ (00 R8). -/
def execLowHalfRead (off : Nat) (s : State) : Host.Outcome State Fault Refusal :=
  .next (
    if !s.barServes then s.emit (.barRead off 0)
    else if !s.host.linkUp then s
    else
      let (s, v) := s.readReg (off / 8 * 8)
      ((s.setLatch (off / 8 * 8) (some (v.extractLsb' 32 32))).emit (.barRead off (v &&& 0xFFFFFFFF#64))))

/-- HIGH_HALF_READ (00 R8). -/
def execHighHalfRead (off : Nat) (s : State) : Host.Outcome State Fault Refusal :=
  .next (
    if !s.barServes then s.emit (.barRead off 0)
    else if !s.host.linkUp then s
    else
      let base := off / 8 * 8
      match tget none s.host.latch base with
      | some w => (s.setLatch base none).emit (.barRead off (w.setWidth 64))
      | none =>
        match regAt base with
        | some r => (s.clearHigh r).emit (.barRead off (s.image r >>> 32))
        | none => s.emit (.barRead off 0))

/-! ### Writes -/

/-- The 64-bit value that a write of a given width leaves, over the value the register reads (00 R8, 11 R372). -/
def widen (old v : DWord) : Access → DWord
  | .full => v
  | .low => (old &&& 0xFFFFFFFF00000000#64) ||| (v &&& 0xFFFFFFFF#64)
  | .high => (old &&& 0xFFFFFFFF#64) ||| (v <<< 32)

/-- A value if it is not a reserved encoding, else the old one (00 R6). -/
def keepUnless (ok : Bool) (old new : Nat) : Nat := if ok then new else old

/-- Some context maps a tier-3 range (07 R252): in its cellar map, or as a caravan source. -/
def State.mapsTier3 (s : State) : Bool :=
  (List.range 4).any fun c => (s.cx c).live && (((s.cx c).map.any fun e => e.mode != 2 && isTier3 e.base)
    || (match (s.cx c).place with
        | some p => p.caravan.any fun e => e.fmt != 0 && isTier3 e.src
        | none => false))

/-- Base and size of the tier-3 window set: at once, or when no context maps a tier-3 range (07 R252). -/
def State.setTier3 (s : State) (base size : Nat) : State :=
  if s.mapsTier3 then { s with host := { s.host with t3Pending := some (base, size) } }
  else { s with host := { s.host with t3Base := base, t3Size := size, t3Pending := none } }

/-- The base and size last written. -/
def State.t3Written (s : State) : Nat × Nat := s.host.t3Pending.getD (s.host.t3Base, s.host.t3Size)

/-- TIER3_WINDOW_APPLY (07 R252). -/
def execTier3WindowApply (s : State) : Host.Outcome State Fault Refusal :=
  .next (match s.host.t3Pending with
    | some (b, n) => if s.mapsTier3 then s else { s with host := { s.host with t3Base := b, t3Size := n, t3Pending := none } }
    | none => s)

/-- A write of TG_CFG at time t (10 Table 10-11, R341). -/
def State.writeTgCfg (s : State) (v : DWord) (t : Nat) : State :=
  let g := s.tg.cfg
  let new : TgCfg :=
    { envSrc := keepUnless (fld v 0 2 != 3) g.envSrc (fld v 0 2), envFloor := bitAt v 2, shedFloor := bitAt v 3, slotEn := bitAt v 4, slot := fld v 6 6,
      ramp := keepUnless (decide (10 ≤ fld v 16 16)) g.ramp (fld v 16 16), lease := fld v 32 16,
      fallback := keepUnless (decide (fld v 48 16 ≤ 3300)) g.fallback (fld v 48 16) }
  { s with tg := { s.tg with cfg := new, setAt := if new.lease = g.lease then s.tg.setAt else t, leaseArmed := s.tg.leaseArmed || new.lease != g.lease } }.react

/-- The writable fields of TG_HEAT (10 Table 10-16). -/
def State.writeCoolant (s : State) (flow limit : Nat) : State :=
  { s with heat := { s.heat with flow := keepUnless (decide (20 ≤ flow ∧ flow ≤ 40)) s.heat.flow flow,
                                 limit := keepUnless (decide (40 ≤ limit ∧ limit ≤ 85)) s.heat.limit limit } }

/-- The writable fields of MC_CTX_CARAVAN (07 Table 7-14). -/
def Caravan.written (k : Caravan) (v : DWord) : Caravan :=
  let lim (x : Nat) : Bool := decide (1 ≤ x ∧ x ≤ 8)
  { k with window := keepUnless (lim (fld v 0 4)) k.window (fld v 0 4), distance := keepUnless (lim (fld v 4 4)) k.distance (fld v 4 4),
           autoRaise := bitAt v 8, haltLimit := keepUnless (fld v 16 16 != 0) k.haltLimit (fld v 16 16) }

/-- A value written to a register (00 R4 to R6). -/
def State.writeReg (s : State) (r : Reg) (v : DWord) (t : Nat) : State :=
  match r with
  | .sqBase n => s.writeSqBase n v
  | .cqBase n => s.writeCqBase n v
  | .ringDb n => s.writeDoorbell n v
  | .ringCfg n => s.modRing n fun x => { x with weight := keepUnless (fld v 0 4 != 0) x.weight (fld v 0 4), irqCount := fld v 8 8, irqDelay := fld v 16 16 }
  | .prio => s.writePrio v
  | .eventCfg => { s with host := { s.host with eventRing := fld v 0 6, eventEn := bitAt v 6 } }
  | .tier3Base => { s with host := { s.host with t3Enable := bitAt v 0 } }.setTier3 (fld v 12 52) s.t3Written.2
  | .tier3Size => s.setTier3 s.t3Written.1 (keepUnless (decide (fld v 0 25 ≤ 16777216)) s.t3Written.2 (fld v 0 25))
  | .bscfg c => s.modCx c fun x => { x with cfg := { x.cfg with tols := (List.range 5).map fun i => fld v (4 * i) 3 } }
  | .acccfg c => s.modCx c fun x => { x with cfg := { x.cfg with srThresh := fld v 0 24, srOff := bitAt v 24 } }
  | .stashcfg c => s.modCx c fun x => { x with cfg := { x.cfg with areaMib := fld v 0 16, quotaMib := fld v 32 20 } }
  | .caravan c => s.modCx c fun x => { x with car := x.car.written v }
  | .tgCfg => s.writeTgCfg v t
  | .tgSetpoint => s.writeSetpoint (keepUnless (decide (fld v 0 12 ≤ 3300)) s.tg.digitalW (fld v 0 12)) (bitAt v 12) t
  | .heat => s.writeCoolant (fld v 32 6) (fld v 24 8)
  | .celCfg => { s with cel := { s.cel with keepCap := keepUnless (decide (fld v 0 4 ≤ 12)) s.cel.keepCap (fld v 0 4), thrashEn := bitAt v 4,
                                            thrashWarn := bitAt v 5, pressWaitMs := keepUnless (fld v 16 16 != 0) s.cel.pressWaitMs (fld v 16 16) } }
  | _ => s

/-- A register whose fields that act on a write (doorbells, the setpoint) all lie in its low half. -/
def Reg.actsLow : Reg → Bool
  | .ringDb _ => true
  | .prio => true
  | .tgSetpoint => true
  | _ => false

/-- A BAR0 write of a given width (11 R372). An access that misses the fields that act on a write does nothing. -/
def State.barWrite (s : State) (off : Nat) (acc : Access) (v : DWord) (t : Nat) : State :=
  match regAt (off / 8 * 8) with
  | none => s
  | some r =>
    if !s.hostServes then s
    else if r.actsLow then (if acc = .high then s else s.writeReg r v t)
    else s.writeReg r (widen (s.image r) v acc) t

/-- REGISTER_WRITE (00 R4). -/
def execRegisterWrite (off : Nat) (acc : Access) (v : DWord) (s : State) : Host.Outcome State Fault Refusal :=
  .next (s.barWrite off acc v s.now)

/-- LEASE_S_WRITE (10 R341): a write of TG_CFG. -/
def execLeaseSWrite (acc : Access) (v : DWord) (t : Nat) (s : State) : Host.Outcome State Fault Refusal :=
  let s := s.tick t
  .next (s.barWrite 0x20000 acc v t)

end Sys2Proof.Machine
end

