-- ==== Sys2Proof/Machine/Orders.lean ====
section
/-! DEFINITION. How waybills are checked, ordered and started: the checks of 11 R388, the order of R393 and R444, and the fetch of R377. -/

namespace Sys2Proof.Machine

open Sys2Proof

/-! ### The parameters of each opcode (11 Tables 11-6 to 11-11) -/

/-- Parameter fields of an opcode as (lowest bit, length); none for an opcode that the tables do not list. -/
def opFields : Nat → Option (List (Nat × Nat))
  | 0x0001 => some []
  | 0x0002 => some [(0, 22), (32, 8)]
  | 0x0003 => some [(0, 5)]
  | 0x0004 => some [(0, 64)]
  | 0x1001 => some [(0, 64), (64, 64), (128, 5), (133, 1), (134, 1)]
  | 0x1002 => some []
  | 0x1003 => some []
  | 0x1004 => some [(0, 5), (5, 1), (6, 1)]
  | 0x1005 => some [(0, 4), (32, 160)]
  | 0x1006 => some [(0, 4), (4, 3), (8, 48)]
  | 0x1007 => some [(0, 48), (48, 13)]
  | 0x2001 => some [(0, 48)]
  | 0x2002 => some []
  | 0x2003 => some [(0, 48), (64, 32), (96, 2), (100, 4)]
  | 0x2004 => some [(0, 6)]
  | 0x2005 => some [(0, 48), (64, 48), (128, 3), (132, 2)]
  | 0x2006 => some [(0, 48), (64, 48), (128, 48)]
  | 0x2007 => some [(0, 48), (64, 48), (128, 32), (160, 1)]
  | 0x3001 => some [(0, 16), (32, 32), (64, 64), (128, 64)]
  | 0x3002 => some [(0, 48)]
  | 0x4001 => some [(0, 12)]
  | 0x4002 => some []
  | 0x4003 => some [(0, 4)]
  | 0x5001 => some [(0, 13), (13, 2)]
  | 0x5002 => some [(0, 48), (48, 13)]
  | 0x5003 => some [(0, 13)]
  | 0x6001 => some [(0, 12), (12, 1)]
  | 0x6002 => some []
  | 0x6003 => some [(0, 6), (8, 8)]
  | 0x7001 => some [(0, 3), (16, 16), (32, 16)]
  | 0x7002 => some [(0, 1)]
  | _ => none

/-- Parameter fields of a priority opcode (11 Table 11-15). -/
def prioFields : Nat → Option (List (Nat × Nat))
  | 0xF001 => some []
  | 0xF002 => some [(0, 12), (12, 1)]
  | 0xF003 => some [(0, 1)]
  | 0xF004 => some [(0, 2)]
  | 0xF005 => some [(0, 1)]
  | 0xF006 => some [(0, 4), (4, 1)]
  | 0xF007 => some [(0, 4)]
  | 0xF008 => some [(0, 16)]
  | _ => none

/-- The lowest set bit of a number below 2^n. -/
def lowestBit (n v : Nat) : Option Nat := (List.range n).find? fun i => bit v i

/-- Bits of the header that are reserved: [63:41], and parameter bits that no field of the opcode names. -/
def reservedBits (fs : List (Nat × Nat)) : Nat :=
  packNat ((41, 23, 2 ^ 23 - 1) :: (160, 352, 2 ^ 352 - 1 - (fs.map fun f => (2 ^ f.2 - 1) * 2 ^ f.1).sum) :: [])

/-- Units that a self-test can name (12 Table 12-3). -/
def testUnitOf (code index sub : Nat) : Option TestUnit :=
  match code with
  | 0 => if index < 1536 then some (.core index) else none
  | 1 => if index < 1536 ∧ sub < 8 then some (.bank index sub) else none
  | 2 => if index < 1536 then some (.channel index) else none
  | 3 => if index < 16 ∧ sub < 64 then some (.pc index sub) else none
  | 4 => if index < 12 ∧ sub < 8 then some (.lane index sub) else none
  | _ => none

/-- Parameters of a waybill that carry a reserved encoding or a misaligned address, by the lowest bit of the field. -/
def State.badParams (s : State) (w : Waybill) : List Nat :=
  let need (ok : Bool) (lo : Nat) : List Nat := if ok then [] else [lo]
  let lines (lo : Nat) : List Nat := need (w.p lo 48 % 256 == 0) lo
  match w.op with
  | 0x0002 => need (w.p 0 22 % 8 == 0) 0 ++ need (w.p 32 8 != 0) 32
  | 0x0003 => need (decide (1 ≤ w.p 0 5 ∧ w.p 0 5 ≤ 16)) 0
  | 0x1001 => need (decide (w.p 128 5 ≤ 24)) 128
  | 0x1004 => need (decide (w.p 0 5 ≤ 24)) 0
  | 0x1006 => need (decide (w.p 4 3 ≤ 4)) 4
  | 0x2001 => need (decide (w.p 0 48 + w.length ≤ s.tier2Size)) 0
  | 0x2003 => need (w.p 0 48 % 4096 == 0) 0 ++ need (w.p 64 32 != 0) 64 ++ need (decide (1 ≤ w.p 100 4 ∧ w.p 100 4 ≤ 12)) 100
  | 0x2005 => lines 0 ++ lines 64 ++ need (decide (w.p 128 3 ≤ 4)) 128 ++ need (w.p 132 2 != 3) 132
  | 0x2006 => lines 0 ++ lines 64 ++ lines 128
  | 0x2007 => lines 0 ++ lines 64
  | 0x3001 => need (decide (1 ≤ w.p 0 16 ∧ w.p 0 16 ≤ 256)) 0
  | 0x4003 => need (decide (w.p 0 4 ≤ 11)) 0
  | 0x6001 => need (decide (w.p 0 12 ≤ 3300)) 0
  | 0x6003 => need (decide (20 ≤ w.p 0 6 ∧ w.p 0 6 ≤ 40)) 0 ++ need (decide (40 ≤ w.p 8 8 ∧ w.p 8 8 ≤ 85)) 8
  | 0x7001 => if w.p 0 3 ≤ 4 then need (testUnitOf (w.p 0 3) (w.p 16 16) (w.p 32 16)).isSome 16 else [0]
  | 0xF002 => need (decide (w.p 0 12 ≤ 3300)) 0
  | 0xF004 => need (w.p 0 2 != 0) 0
  | _ => []

/-- The first bad bit of a header (11 R388 step 2, R381: p[i] is header bit 160 + i). -/
def State.firstBad (s : State) (w : Waybill) (fs : List (Nat × Nat)) : Option Nat :=
  let l := (match lowestBit 512 (w.hdr.toNat &&& reservedBits fs) with | some i => [i] | none => []) ++ (s.badParams w).map fun i => 160 + i
  l.min?

/-- Opcodes that name no context, and those that may name one or none (11 Tables 11-6 to 11-11). -/
def ctxNone (op : Nat) : Bool :=
  [0x0001, 0x0002, 0x0004, 0x2004, 0x4001, 0x4002, 0x4003, 0x6001, 0x6002, 0x6003, 0x7001, 0x7002].contains op || decide (0xF000 ≤ op ∧ op ≠ 0xF004)

/-- Opcodes that may name a context or none. -/
def ctxAny (op : Nat) : Bool := op == 0x2006 || op == 0x2007

/-- Step 3 of 11 R388: the context field. -/
def State.badContext (s : State) (w : Waybill) : Option (Nat × Nat) :=
  let c := w.context
  if ctxNone w.op then (if c = 0xF then none else some (0x0104, c))
  else if ctxAny w.op ∧ c = 0xF then none
  else if 4 ≤ c then some (0x0104, c)
  else if w.op = 0x1001 ∨ (s.cx c).live then none
  else some (0x0202, 0)

/-- The shortest buffer an opcode needs. -/
def bufferNeed (w : Waybill) : Nat :=
  match w.op with
  | 0x0002 => 8 * w.p 32 8
  | 0x0003 => 4352 * w.p 0 5
  | 0x1006 => 6192
  | 0x4001 => 16384
  | _ => 0

/-- Reserved encodings of a route table entry (09 Table 9-7). -/
def routeOk (v : Nat) : Bool :=
  let port (p : Nat) : Bool := decide (p ≤ 11) || p == 15
  port (bitsOf v 0 4) && port (bitsOf v 4 4) && bitsOf v 10 6 == 0

/-- A layout error in a buffer that gives 0x0103: its byte offset. -/
def badLayout (w : Waybill) (bs : List Byte) : Option Nat :=
  match w.op with
  | 0x1007 => if bs.length % 4 ≠ 0 then some (bs.length / 4 * 4) else if 8192 < w.p 48 13 + bs.length / 4 then some (4 * (8192 - w.p 48 13)) else none
  | 0x2001 => match parseLeg bs with | .error off => some off | .ok _ => none
  | 0x2002 => if bs.length % 32 ≠ 0 ∨ bs.length = 0 ∨ 1024 < bs.length then some (min bs.length 1024 / 32 * 32) else none
  | 0x4001 => ((List.range 8192).find? fun i => !routeOk (natAt bs (2 * i) 2)).map fun i => 2 * i
  | _ => none

/-- The buffer of a waybill moves over the host link (11 R383): it lies in host memory, or in module memory of tier 3. DESIGN CHOICE (log 104):
every buffer is bulk data. -/
def usesHost (w : Waybill) : Bool := w.length != 0 && (!w.bufModule || isTier3 w.bufAddr || isTier3 (w.bufAddr + w.length - 1))

/-- What the checks of 11 R388 answer: go on with the buffer, reject, or wait (for a locked line of a buffer in module memory). -/
inductive Check where
  | go (bs : List Byte)
  | reject (status detail : Nat)
  | wait
deriving DecidableEq, Repr

/-- Steps 1 to 3 of 11 R388. -/
def State.checkHeader (s : State) (w : Waybill) : Option (Nat × Nat) :=
  match opFields w.op with
  | none => some (0x0101, w.op)
  | some fs =>
    match s.firstBad w fs with
    | some i => some (0x0102, i)
    | none => s.badContext w

/-- The checks of 11 R388 on a waybill that starts, with its buffer read (R383); one whose buffer cannot be moved now waits (R374). -/
def State.checkWb (s : State) (e : WbEntry) : State × Check :=
  let w := e.wb
  match s.checkHeader w with
  | some r => (s, .reject r.1 r.2)
  | none =>
    if usesHost w && !s.hostDma then (s, .wait) else
    let (s, err, bs) := if w.bufModule then s.dmaRead w.context w.bufAddr w.length else (s, none, slice w.buf 0 w.length)
    match err, (if w.length = 0 ∨ w.bufModule then none else e.hostErr) with
    | some .poisoned, _ => (s, .reject 0x0103 0)
    | some _, _ => (s, .wait)
    | none, some a => (s, .reject 0x0105 a.toNat)
    | none, none =>
      if w.length < bufferNeed w then (s, .reject 0x0103 w.length)
      else
        match badLayout w bs with
        | some off => (s, .reject 0x0103 off)
        | none => (s, .go bs)

/-! ### Order (11 R393, R396, R444) -/

/-- Class of an opcode (11 R382). -/
def Waybill_class (w : Waybill) : Nat := w.op / 4096

/-- Classes whose waybills of one context run one at a time. -/
def serial (w : Waybill) : Bool := [1, 2, 5].contains (Waybill_class w)

/-- Waybills of the same ring fetched before an entry and not completed. -/
def State.before (s : State) (e : WbEntry) : List WbEntry := (s.host.wbs.takeWhile fun x => x != e).filter fun x => x.wb.ring == e.wb.ring

/-- Bring-up allows the class: Info and Tollgate at once, the others from step 14 (13 R444). -/
def State.classServed (s : State) (w : Waybill) : Bool :=
  s.bringupDone || !([1, 2, 3, 4, 5, 7].contains (Waybill_class w))

/-- Classes whose waybills reach into clusters, cellar, HBM or lanes, which serve nothing at the deep floor (10 R348). -/
def reachesIn (w : Waybill) : Bool := [1, 2, 5].contains (Waybill_class w) || w.op == 0x7001 || w.op == 0x4003

/-- An entry may start now. CTX_END and RESTORE run at once (11 R396). -/
def State.wbMayStart (s : State) (e : WbEntry) : Bool :=
  let w := e.wb
  let l := s.before e
  s.classServed w && !(s.inDeep && reachesIn w) &&
    (w.op == 0x1002 || w.op == 0x5002 ||
      (l.all (fun x => x.started) && (!w.fence || l.isEmpty)
        && (!serial w || !(l.any fun x => serial x.wb && x.wb.context == w.context && w.context != 0xF))
        && (w.op != 0x3001 || !(l.any fun x => [1, 2].contains (Waybill_class x.wb) && x.wb.context == w.context))))

/-- Every waiting entry that may start and fails its checks is answered (11 R388). -/
def State.sweepWbs (s : State) : State :=
  s.host.wbs.foldl (fun s e =>
    if e.started || !s.wbMayStart e then s
    else
      match s.checkWb e with
      | (s, .reject st d) => s.finish e.wb st d 0
      | _ => s) s

/-- The entry of a waybill that waits to start. -/
def State.waiting (s : State) (w : Waybill) : Option WbEntry := s.host.wbs.find? fun e => e.wb == w && !e.started

/-- Entry marked as started. -/
def State.markStarted (s : State) (e : WbEntry) : State :=
  { s with host := { s.host with wbs := s.host.wbs.map fun x => if x == e then { x with started := true } else x } }

/-- A waybill starts: its checks, then its effect on the state and the bytes of its buffer. -/
def State.startWb (s : State) (w : Waybill) (ops : Waybill → Bool) (f : State → List Byte → State) : State :=
  match s.waiting w with
  | none => s
  | some e =>
    if !ops w || !s.wbMayStart e then s
    else
      match s.checkWb e with
      | (s, .reject st d) => (s.finish w st d 0).sweepWbs
      | (s, .wait) => s
      | (s, .go bs) => (f (s.markStarted e) bs).sweepWbs

/-- A waybill that can have to wait after its start: `f` answers none while it does, and is tried again by the same command. -/
def State.tryWb (s : State) (w : Waybill) (ops : Waybill → Bool) (f : State → List Byte → Option State) : State :=
  let go (s : State) (bs : List Byte) : State := match f s bs with
    | some t => t.sweepWbs
    | none => s
  if ops w && s.host.wbs.any fun e => e.wb == w && e.started then go s []
  else s.startWb w ops go

/-! ### WAYBILL_FETCH (11 R376, R377) -/

/-- Ring n has entries that core 1 may fetch. -/
def State.canFetch (s : State) (n : Nat) : Bool :=
  let r := s.ring n
  r.enable && r.enabled && !r.heldEnable && !r.fullWait && !r.halted && r.sqTail != r.sqHead

/-- The ring that the next grant goes to: weighted round robin. -/
def State.grant (s : State) : Option Nat :=
  if decide (0 < s.host.rrLeft) && s.canFetch s.host.rrRing then some s.host.rrRing
  else ((List.range 64).map fun i => (s.host.rrRing + 1 + i) % 64).find? s.canFetch

/-- WAYBILL_FETCH (11 R377): one waybill; it starts under R393 and is answered at once if a check fails. -/
def execWaybillFetch (hdr : BitVec 512) (buf : List Byte) (hostErr : Option DWord) (s : State) : Host.Outcome State Fault Refusal :=
  .next (
    if !s.barServes || !(s.mc.coreAlive.getD 1 false) || !s.host.linkUp then s
    else
      match s.grant with
      | none => s
      | some n =>
        let same := n == s.host.rrRing && decide (0 < s.host.rrLeft)
        let left := if same then s.host.rrLeft - 1 else (s.ring n).weight - 1
        let s := s.sweepWbs
        let s := s.modRing n fun r => { r with sqHead := (r.sqHead + 1) % 4096, outstanding := r.outstanding + 1 }
        let e : WbEntry := ⟨⟨n, hdr, buf⟩, false, false, hostErr⟩
        { s with host := { s.host with rrRing := n, rrLeft := left, wbs := s.host.wbs ++ [e] } }.sweepWbs)

end Sys2Proof.Machine
end

