-- ==== Sys2Proof/Machine/Waybills.lean ====
section
/-! DEFINITION. The waybills of the submission rings (11 Tables 11-6 to 11-11), but for RESTORE and TAKEOVER. -/

namespace Sys2Proof.Machine

open Sys2Proof

/-- The waybill carries an opcode. -/
def isOp (op : Nat) (w : Waybill) : Bool := w.op == op

/-! ### Class 0x0, Info -/

/-- IDENTIFY (11 Table 11-6). -/
def execIdentify (w : Waybill) (s : State) : Host.Outcome State Fault Refusal :=
  .next (s.startWb w (isOp 0x0001) fun s _ =>
    let f := s.mc.flash
    s.finish w 0 (packNat [(0, 16, f.stepping), (16, 32, f.firmware), (48, 1, b2n s.mc.image)])
      (packNat [(0, 13, s.fab.moduleId), (13, 1, b2n s.hbm.tall), (14, 1, b2n s.host.t3Cxl), (16, 16, f.vendorId.toNat)]))

/-- Registers read one after another from an offset. -/
def State.readRegs (s : State) : Nat → Nat → List Byte → State × List Byte
  | 0, _, acc => (s, acc)
  | n + 1, off, acc =>
    let (s', v) := s.readReg off
    State.readRegs s' n (off + 8) (acc ++ bytesOfNat 8 v.toNat)

/-- REG_READ (11 Table 11-6): RC fields clear as on a BAR read. -/
def execRegRead (w : Waybill) (s : State) : Host.Outcome State Fault Refusal :=
  .next (s.startWb w (isOp 0x0002) fun s _ =>
    let (s, bs) := s.readRegs (w.p 32 8) (w.p 0 22) []
    (s.fillBuffer w bs).finish w 0 0 0)

/-- STEP_RECORDS (11 Table 11-6, 08 R293): oldest first, each padded to 4,352 bytes. -/
def execStepRecords (w : Waybill) (s : State) : Host.Outcome State Fault Refusal :=
  .next (s.startWb w (isOp 0x0003) fun s _ =>
    let l := (s.cx w.context).records
    let l := l.drop (l.length - w.p 0 5)
    (s.fillBuffer w (l.flatMap fun r => slice r 0 4352)).finish w 0 l.length 0)

/-- FAULT_LOG (12 R413): from the given number, or from the oldest record held. -/
def execFaultLog (w : Waybill) (s : State) : Host.Outcome State Fault Refusal :=
  .next (s.startWb w (isOp 0x0004) fun s _ =>
    let from_ := w.p 0 64
    let l := (s.mc.faultLog.filter fun f => decide (from_ ≤ f.seq))
    let got := l.take (w.length / 64)
    let nxt := match got.getLast?, l.head? with
      | some f, _ => f.seq + 1
      | none, some f => f.seq
      | none, none => from_
    (s.fillBuffer w (got.flatMap FaultRec.bytes)).finish w 0 got.length nxt)

/-! ### Class 0x1, Context and placement -/

/-- A context slot without a context: the registers that the host set and the counters it has not read stay. -/
def Ctx.fresh (x : Ctx) : Ctx :=
  { Ctx.init with
    cfg := x.cfg
    cnt := x.cnt
    ls := { LScale.init with skips := x.ls.skips }
    car := { Caravan.init with window := x.car.window, distance := x.car.distance, autoRaise := x.car.autoRaise, haltLimit := x.car.haltLimit,
                               halts := x.car.halts, stashHalts := x.car.stashHalts } }

/-- CTX_CREATE (08 R253). -/
def execCtxCreate (w : Waybill) (s : State) : Host.Outcome State Fault Refusal :=
  .next (s.startWb w (isOp 0x1001) fun s _ =>
    let c := w.context
    if (s.cx c).live then s.finish w 0x0201 0 0
    else
      let s := s.modCx c fun x => { x.fresh with
        live := true, seed := BitVec.ofNat 64 (w.p 0 64), cursor := BitVec.ofNat 64 (w.p 64 64),
        ls := lscaleOf (w.p 128 5) (w.p 133 1 == 1) (w.p 134 1 == 1) x.ls.skips }
      s.finish w 0 0 0)

/-- A context frozen immediately (03 R88). -/
def State.freezeNow (s : State) (c : Nat) : State := (s.freeze c).stopLegs c

/-- The context of a held request. -/
def heldCtx : HeldReq → Nat
  | .req r => r.ctx
  | .imm o => o.ctx

/-- What is on its way for context c in the cellar and the fabric is discarded; its locks close (06 R190). -/
def State.dropTraffic (s : State) (c : Nat) : State :=
  let keep (l : List Contribution) : List Contribution := l.filter fun x => x.ctx != c
  let s := { s with
    cel := { s.cel with sent := keep s.cel.sent, sentImm := s.cel.sentImm.filter fun o => o.ctx != c }
    fab := { s.fab with flights := s.fab.flights.filter fun f => f.ctx != c, later := s.fab.later.filter fun f => f.ctx != c } }
  let s := (s.cel.columns.map Prod.fst).foldl (fun s k => s.modCol k fun x => { x with
    pending := keep x.pending, refused := keep x.refused, waiters := x.waiters.filter fun w => w.1 != c,
    held := x.held.filter fun h => heldCtx h != c }) s
  (s.lockedLines fun k => k.ctx == c).foldl (fun s id => s.closeLock id) s

/-- Caravan slots and saddlebags of context c emptied. -/
def State.dropAreas (s : State) (c : Nat) : State :=
  let s := s.dropAreaBytes c
  s.modCx c fun x => { x.releaseCaravan with stash := [], stashPeak := 0, spillPeak := 0 }

/-- The step of context c ends on this module with a status: its collective legs fail, so the member withdraws (08 R266, R291); no step record
is written. -/
def State.cutStep (s : State) (c status detail : Nat) : State :=
  match (s.cx c).run with
  | none => s
  | some r =>
    let s := s.withdraw c
    let s := if r.trailerSent then s else s.sendTrailer c
    (s.modCx c fun x => { x with run := none }).finish r.wb status detail 0

/-- Every leg of context c leaves its clusters. -/
def State.dropLegs (s : State) (c : Nat) : State :=
  let s := (s.legs.filter fun g => g.ctx == c).foldl State.freeLeg s
  let s := (s.owned c).foldl (fun s k => (s.modClu k fun x => { x with runs := [], queue := [], leg := none, suspended := none, events := [] }).clearStrands k) s
  { s with legs := s.legs.filter fun g => g.ctx != c }.countShares

/-- Every other waybill of context c ends with a status. -/
def State.endWaybills (s : State) (c : Nat) (w : Waybill) (status detail : Nat) : State :=
  (s.host.wbs.filter fun e => e.wb.context == c && e.wb != w).foldl (fun s e => s.finish e.wb status detail 0) s

/-- CTX_END (11 Table 11-7). -/
def execCtxEnd (w : Waybill) (s : State) : Host.Outcome State Fault Refusal :=
  .next (s.startWb w (isOp 0x1002) fun s _ =>
    let c := w.context
    let ran := (s.cx c).run.isSome
    let s := (s.freeze c).cutLegs c
    let s := ((s.cutStep c 0x0204 (s.cx c).step).endWaybills c w 0x0204 0).dropLegs c
    let s := ((s.dropTraffic c).evictAll (s.inMap c)).dropAreas c
    let s := (s.owned c).foldl State.freeCluster s
    let s := s.releaseShelves fun h => h.ctx == c && (h.cls == 2 || (h.cls == 1 && ran))
    (s.modCx c Ctx.fresh).finish w 0 0 0)

/-- A configuration waybill (11 R396): it takes effect at the context's next step boundary. -/
def State.configWb (s : State) (w : Waybill) (op : Nat) : State :=
  s.startWb w (isOp op) fun s _ =>
    if s.atBoundary w.context then s.configureNow w else s.modCx w.context fun x => { x with boundary := x.boundary ++ [w] }

/-- PLACEMENT (08 R256). -/
def execPlacement (w : Waybill) (s : State) : Host.Outcome State Fault Refusal := .next (s.configWb w 0x1003)

/-- LSCALE_SET (02 R54). -/
def execLscaleSet (w : Waybill) (s : State) : Host.Outcome State Fault Refusal := .next (s.configWb w 0x1004)

/-- HPARAM_SET (08 R272). -/
def execHparamSet (w : Waybill) (s : State) : Host.Outcome State Fault Refusal := .next (s.configWb w 0x1005)

/-- FN_LOAD (03 R71). -/
def execFnLoad (w : Waybill) (s : State) : Host.Outcome State Fault Refusal := .next (s.configWb w 0x1006)

/-- RECIPE_LOAD (11 Table 11-7). -/
def execRecipeLoad (w : Waybill) (s : State) : Host.Outcome State Fault Refusal := .next (s.configWb w 0x1007)

/-! ### Class 0x2, Memory and tiers -/

/-- MAP_SET (06 R172). -/
def execMapSet (w : Waybill) (s : State) : Host.Outcome State Fault Refusal := .next (s.configWb w 0x2002)

/-- LEG_LOAD (11 R390): the image goes to usable tier 2. -/
def execLegLoad (w : Waybill) (s : State) : Host.Outcome State Fault Refusal :=
  let a := w.p 0 48
  let free := !((List.range (w.length / 256 + 2)).any fun i => s.lineLocked w.context (a / 256 * 256 + 256 * i))
  .next (s.startWb w (fun w => isOp 0x2001 w && free) fun s bs => (s.dmaWrite w.context a bs).finish w 0 0 0)

/-- Columns with a block of a shelf window (06 R173, R177). -/
def State.shelfColumns (s : State) (e : MapEntry) (w : Shelf) : List Nat :=
  ((s.homeClusters w.ctx e).flatMap fun k => (List.range 32).map fun j => s.serving (k * 32 + j)).filter (s.homesShelf w)

/-- The highest sum of shelf quotas at a column that a new shelf window has blocks at (06 R177). -/
def State.quotaAt (s : State) (e : MapEntry) (w : Shelf) : Nat := ((s.shelfColumns e w).map s.shelfQuota).foldl max 0

/-- SHELF_CREATE (06 R177). -/
def execShelfCreate (w : Waybill) (s : State) : Host.Outcome State Fault Refusal :=
  .next (s.startWb w (isOp 0x2003) fun s _ =>
    let base := w.p 0 48
    let pages := w.p 64 32
    match (s.cx w.context).map.find? fun e => e.mode == 1 && decide (e.base ≤ base ∧ base + 4096 * pages ≤ e.base + 4096 * e.pages) with
    | none => s.finish w 0x0302 2 0
    | some e =>
      let h : Shelf := ⟨w.context, base, pages, w.p 96 2, w.p 100 4⟩
      if 12 < s.quotaAt e h + h.quota then s.finish w 0x0302 0 0
      else
        match (List.range 64).find? fun i => (tget none s.cel.shelves i).isNone with
        | none => s.finish w 0x0302 1 0
        | some i =>
          let s := { s with cel := { s.cel with shelves := tset none s.cel.shelves i (some h) } }
          s.finish w 0 i 0)

/-- SHELF_RELEASE (06 R178). -/
def execShelfRelease (w : Waybill) (s : State) : Host.Outcome State Fault Refusal :=
  .next (s.startWb w (isOp 0x2004) fun s _ =>
    if (tget none s.cel.shelves (w.p 0 6)).isSome then (s.releaseShelf (w.p 0 6)).finish w 0 0 0 else s.finish w 0x0102 160 0)

/-- One line of a range operation (06 Table 6-9); 1 for a line skipped. -/
def State.rangeLine (s : State) (c op hint a : Nat) : State × Nat :=
  match s.resolve c none a with
  | .homed id _ direct set _ =>
    let h := s.homeLine id
    let scratch := match id with | .scratch _ _ => true | .window _ _ => false
    if h.st = .rl then (if op = 4 then (s.closeLock id, 0) else (s, 1))
    else
      match op with
      | 0 =>
        if scratch || direct || h.st != .np then (s, 0)
        else match id with
          | .window k b => ((s.fill c k b set hint).getD s, 0)
          | .scratch _ _ => (s, 0)
      | 1 =>
        if scratch then (s, 0)
        else if h.st = .pz then (s.enterPoison a, 0)
        else if h.st = .np then (s, 0)
        else (s.cleanLine id direct, 0)
      | 2 =>
        if scratch then (s, 0)
        else if direct then ((s.recallAll id true).settleCopies id true 0, 0)
        else if h.st = .np then (s, 0)
        else (s.evict id, 0)
      | 3 =>
        let s := s.dropAll id
        match id with
        | .scratch k off =>
          let s := s.putHome id (if s.evacLine id then HomeLine.init else { h.alone with st := .v })
          (s.write (s.scratchSpace k) (colKey k off) (List.replicate 256 0), 0)
        | .window _ _ => (s.putHome id HomeLine.init, 0)
      | _ => (s, 0)
  | _ => (s, 0)

/-- Some address of a list lies outside the map of context c. -/
def State.outsideMap (s : State) (c : Nat) (l : List Nat) : Bool := l.any fun a => s.resolve c none a == .outside

/-- A range operation (06 R195): line by line in ascending order; the receipt gives the lines skipped. It waits for host traffic or a channel that
pauses, and a prefetch for a way of each set (R194). -/
def State.rangeWb (s : State) (w : Waybill) (op : Nat) : State :=
  s.tryWb w (fun w => isOp 0x2005 w && w.p 128 3 == op) fun s _ =>
    let c := w.context
    let l := lineAddrs (w.p 0 48) (w.p 64 48)
    if s.outsideMap c l then some (s.finish w 0x0102 160 0)
    else if (!s.hostDma && l.any isTier3) || (op == 0 && l.any (s.noWay c)) || l.any (fun a => s.placePaused (s.resolve c none a)) then none
    else
      let r := l.foldl (fun (r : State × Nat) a => let q := r.1.rangeLine c op (w.p 132 2) a; (q.1, r.2 + q.2)) (s, 0)
      some (r.1.finish w 0 r.2 0)

/-- RANGE_PREFETCH (06 R195). -/
def execRangePrefetch (w : Waybill) (s : State) : Host.Outcome State Fault Refusal := .next (s.rangeWb w 0)
/-- RANGE_FLUSH (06 R195). -/
def execRangeFlush (w : Waybill) (s : State) : Host.Outcome State Fault Refusal := .next (s.rangeWb w 1)
/-- RANGE_INVALIDATE (06 R195). -/
def execRangeInvalidate (w : Waybill) (s : State) : Host.Outcome State Fault Refusal := .next (s.rangeWb w 2)
/-- RANGE_DISCARD (06 R195). -/
def execRangeDiscard (w : Waybill) (s : State) : Host.Outcome State Fault Refusal := .next (s.rangeWb w 3)
/-- RANGE_CLOSE (06 R195). -/
def execRangeClose (w : Waybill) (s : State) : Host.Outcome State Fault Refusal := .next (s.rangeWb w 4)

/-! ### Copies and tile moves -/

/-- Free values for one line (log 2). -/
def State.freeLine (s : State) : State × Line :=
  ({ s with freeCtr := s.freeCtr + 32 }, BitVec.ofNat 2048 (natOfBytes ((List.range 32).flatMap fun i => bytesOfNat 8 (Config.free (s.freeCtr + i)).toNat)))

/-- A line that arrives poisoned: marked at its home or in tier 2; elsewhere its bytes are free (log 2). -/
def State.storeBad (s : State) (c a : Nat) : State :=
  match s.resolve c none a with
  | .homed id _ _ _ _ => s.makePz id
  | .flat .tier2 k => s.enterPoison k
  | _ => let r := s.freeLine; r.1.storeLine c a r.2

/-- An address that the DMA engine cannot write: outside the map, or in the caravan aperture (07 R234). -/
def State.cannotWrite (s : State) (c a : Nat) : Bool := (caravanAddr 0 a).isSome || s.resolve c none a == .outside

/-- COPY (11 Table 11-8). -/
def execCopyLines (w : Waybill) (s : State) : Host.Outcome State Fault Refusal :=
  .next (s.tryWb w (isOp 0x2006) fun s _ =>
    let c := w.context
    let src := lineAddrs (w.p 0 48) (w.p 128 48)
    let dst := lineAddrs (w.p 64 48) (w.p 128 48)
    if s.outsideMap c src then some (s.finish w 0x0102 160 0)
    else if dst.any (s.cannotWrite c) then some (s.finish w 0x0102 224 0)
    else if (src ++ dst).any (s.mustWait c) || (!s.hostDma && (src ++ dst).any isTier3) then none
    else
      let s := (src.zip dst).foldl (fun s (e : Nat × Nat) => match s.takeLine c e.1 with
        | (s, some l) => s.storeLine c e.2 l
        | (s, none) => s.storeBad c e.2) s
      some (s.finish w 0 0 0))

/-- Tiles of a move: offset and size of each, from the formats of the source headers. -/
inductive Tiles where
  | tiles (l : List (Nat × Nat))
  /-- A source outside the map, or a header without a tile format. -/
  | bad
  /-- A header that must be waited for. -/
  | wait
deriving DecidableEq, Repr

/-- The tiles of a move of n tiles from byte `off` of the source on. DESIGN CHOICE (log 106): the size of a tile whose header line is poisoned is what
the line's bits say. -/
def State.moveTiles (s : State) (c src : Nat) : Nat → Nat → List (Nat × Nat) → State × Tiles
  | 0, _, acc => (s, .tiles acc.reverse)
  | n + 1, off, acc =>
    if s.outsideMap c [src + off] then (s, .bad)
    else if s.mustWait c (src + off) then (s, .wait)
    else
      match s.takeLine c (src + off) with
      | (s, l) =>
        let f := hdrFmt (l.getD (s.placeLine (s.resolve c none (src + off)))).toNat
        if tileFmt f then State.moveTiles s c src n (off + tileBytes f) ((off, tileBytes f) :: acc) else (s, .bad)

/-- The scratch lines of a range of module addresses; none unless each is in a scratch window. -/
def State.scratchIds (s : State) (c : Nat) (l : List Nat) : Option (List LineId) :=
  l.mapM fun a => match s.resolve c none a with
    | .homed (.scratch k o) _ _ _ _ => some (.scratch k o)
    | _ => none

/-- The dirty bits of the tiles placed by moves (07 R228): a tile is placed clean, and what it replaces is forgotten. -/
def State.placeTile (s : State) (ids : List LineId) : State :=
  { s with cel := { s.cel with moved := (s.cel.moved.filter fun m => !(m.1.any fun i => ids.contains i)) ++ [(ids, false)] } }

/-- The tile at some scratch lines is dirty: written at its home, or in an L1 copy (07 R228). -/
def State.tileDirty (s : State) (ids : List LineId) : Bool :=
  s.cel.moved.any fun m => m.1 == ids && (m.2 || s.cel.l1.any fun x => x.modified && ids.contains x.line)

/-- One tile moved (07 R228): a poisoned source arrives with state 2. -/
def State.moveTile (s : State) (c src dst size : Nat) (dirtyOnly : Bool) : State :=
  let from_ := lineAddrs src size
  let to_ := lineAddrs dst size
  let ids := s.scratchIds c from_
  if dirtyOnly && !(ids.any s.tileDirty) then s
  else
    let (s, ls) := from_.foldl (fun (r : State × List (Option Line)) a => let q := r.1.takeLine c a; (q.1, r.2 ++ [q.2])) (s, [])
    let hdr : Line := (ls.head?.bind id).getD (s.placeLine (s.resolve c none src))
    let bad := ls.any Option.isNone || decide (2 ≤ hdrState hdr.toNat)
    let hdr : Line := if bad then (hdr &&& ~~~(0xC0#2048)) ||| 0x80#2048 else hdr
    let s := ((some hdr :: ls.drop 1).zip to_).foldl (fun s (e : Option Line × Nat) => match e.1 with
      | some l => s.storeLine c e.2 l
      | none => let r := s.freeLine; r.1.storeLine c e.2 r.2) s
    let s := match s.scratchIds c to_ with
      | some l => s.placeTile l
      | none => s
    match dirtyOnly, ids with
    | true, some l => s.placeTile l
    | _, _ => s

/-- TILE_MOVE (07 R228, 11 Table 11-8). -/
def execTileMove (w : Waybill) (s : State) : Host.Outcome State Fault Refusal :=
  .next (s.tryWb w (isOp 0x2007) fun s _ =>
    let c := w.context
    let src := w.p 0 48
    let dst := w.p 64 48
    match s.moveTiles c src (w.p 128 32) 0 [] with
    | (_, .wait) => none
    | (s, .bad) => some (s.finish w 0x0102 160 0)
    | (s, .tiles ts) =>
      let size := (ts.map Prod.snd).sum
      let a := lineAddrs src size
      let b := lineAddrs dst size
      if s.outsideMap c a then some (s.finish w 0x0102 160 0)
      else if b.any (s.cannotWrite c) then some (s.finish w 0x0102 224 0)
      else if (a ++ b).any (s.mustWait c) || (!s.hostDma && (a ++ b).any isTier3) then none
      else some ((ts.foldl (fun s (t : Nat × Nat) => s.moveTile c (src + t.1) (dst + t.1) t.2 (w.p 160 1 == 1)) s).finish w 0 0 0))

/-! ### Classes 0x3 to 0x7 -/

/-- STEP (08 R254): queued for admission. -/
def execStepWaybill (w : Waybill) (s : State) : Host.Outcome State Fault Refusal :=
  .next (s.startWb w (isOp 0x3001) fun s _ => s.modCx w.context fun x => { x with queue := x.queue ++ [w] })

/-- LEG (11 Table 11-9): one leg outside any step. -/
def execLegWaybill (w : Waybill) (s : State) : Host.Outcome State Fault Refusal :=
  .next (s.startWb w (isOp 0x3002) fun s _ => s.modCx w.context fun x => { x with legQ := x.legQ ++ [w] })

/-- ROUTE_LOAD (09 R312): packets that have not left take the new routes. -/
def execRouteLoad (w : Waybill) (s : State) : Host.Outcome State Fault Refusal :=
  .next (s.startWb w (isOp 0x4001) fun s bs =>
    let table := (List.range 8192).map fun i => BitVec.ofNat 16 (natAt bs (2 * i) 2)
    let s := { s with fab := { s.fab with loaded := true, table := twrite 0 [] 0 table } }
    let s := (List.range 12).foldl (fun s p => s.modPort p fun x => { x with dateline := w.p p 1 == 1 }) s
    s.requeueAll.finish w 0 0 0)

/-- ROUTE_DEFAULT (09 R314). -/
def execRouteDefault (w : Waybill) (s : State) : Host.Outcome State Fault Refusal :=
  .next (s.startWb w (isOp 0x4002) fun s _ =>
    let s := { s with fab := { s.fab with loaded := false, table := [] } }
    (((List.range 12).foldl (fun s p => s.modPort p fun x => { x with dateline := false }) s).requeueAll).finish w 0 0 0)

/-- PORT_RETRAIN (09 R310): the receipt follows the training. -/
def execPortRetrain (w : Waybill) (s : State) : Host.Outcome State Fault Refusal :=
  .next (s.startWb w (isOp 0x4003) fun s _ => s.modPort (w.p 0 4) fun x => { x with training := true })

/-- EXPORT (12 R433): it begins at the context's next step boundary. -/
def execExportWaybill (w : Waybill) (s : State) : Host.Outcome State Fault Refusal := .next (s.startWb w (isOp 0x5001) fun s _ => s)

/-- SETPOINT (10 R340, R341). -/
def execSetpoint (w : Waybill) (t : Nat) (s : State) : Host.Outcome State Fault Refusal :=
  let s := s.tick t
  .next (s.startWb w (isOp 0x6001) fun s _ => (s.writeSetpoint (w.p 0 12) (w.p 12 1 == 1) t).finish w 0 0 0)

/-- cmd_shed cleared (10 R342). -/
def State.clearCmdShed (s : State) : State := { s with tg := { s.tg with cmdShed := false } }.react

/-- SHED_CLEAR (10 R342). -/
def execShedClear (w : Waybill) (s : State) : Host.Outcome State Fault Refusal :=
  .next (s.startWb w (isOp 0x6002) fun s _ => s.clearCmdShed.finish w 0 0 0)

/-- COOLANT (10 R368). -/
def execCoolant (w : Waybill) (s : State) : Host.Outcome State Fault Refusal :=
  .next (s.startWb w (isOp 0x6003) fun s _ => (s.writeCoolant (w.p 0 6) (w.p 8 8)).finish w 0 0 0)

/-- SELF_TEST (12 R416, R418): the waybill joins a test of its unit that runs. -/
def execSelfTest (w : Waybill) (s : State) : Host.Outcome State Fault Refusal :=
  .next (s.tryWb w (isOp 0x7001) fun s _ =>
    match testUnitOf (w.p 0 3) (w.p 16 16) (w.p 32 16) with
    | none => none
    | some u =>
      match s.mc.tests.find? fun r => r.unit == u with
      | none => some (s.startTest u 0 0 (some w))
      | some r =>
        if r.waybill.isSome then none
        else some { s with mc := { s.mc with tests := s.mc.tests.map fun (x : TestRun) => if x.unit == u then { x with waybill := some w } else x } })

/-- HBM_RATE (07 R210): kept in flash. -/
def execHbmRate (w : Waybill) (s : State) : Host.Outcome State Fault Refusal :=
  .next (s.startWb w (isOp 0x7002) fun s _ => { s with mc := { s.mc with flash := { s.mc.flash with hbmRate := w.p 0 1 == 1 } } }.finish w 0 0 0)

end Sys2Proof.Machine
end

