-- ==== Sys2Proof/Machine/Priority.lean ====
section
/-! DEFINITION. The priority operations (11 R398 to R403, Table 11-15), but for the resets: which entry core 3 serves, its checks, and its
receipt. -/

namespace Sys2Proof.Machine

open Sys2Proof

/-- The header of a priority entry as a waybill. -/
def PrioEntry_wb (e : PrioEntry) : Waybill := ⟨if e.mctp then 0x41 else 0x40, e.hdr, []⟩

/-! ### Service (11 R400, R403) -/

/-- The entry core 3 serves next: the two sources alternate, starting with the BAR ring. -/
def State.nextPrio (s : State) : Option PrioEntry :=
  if s.host.prioBusy || s.host.mctpBusy then none
  else
    match s.host.prioQ, s.host.mctpQ with
    | e :: _, [] => some e
    | [], e :: _ => some e
    | a :: _, b :: _ => some (if s.host.barServed then b else a)
    | [], [] => none

/-- Core 3 takes the next entry: it runs. -/
def State.takePrio (s : State) (e : PrioEntry) : State :=
  { s with host := { s.host with
    prioQ := if e.mctp then s.host.prioQ else s.host.prioQ.drop 1
    mctpQ := if e.mctp then s.host.mctpQ.drop 1 else s.host.mctpQ
    prioBusy := !e.mctp, mctpBusy := e.mctp, barServed := !e.mctp } }

/-- The receipt of a priority entry (11 R398, R400, R403): in its slot of BAR2 with the phase flipped, or in an MCTP response. -/
def State.finishPrio (s : State) (e : PrioEntry) (status detail : Nat) : State :=
  let w := PrioEntry_wb e
  let r := mkReceipt status w.tag w.op w.context 0 w.ring detail s.beat.slots 0
  if e.mctp then { s with host := { s.host with mctpBusy := false } }.emit (.mctpReceipt s.mc.flash.vendorId r)
  else
    let a := 0x400 + e.slot * 32
    let ph := bit (natOfBytes (s.read .bar2 a 32)) 54
    let s := s.write .bar2 a (bytesOfNat 32 (withPhase r (!ph)).toNat)
    let s := { s with host := { s.host with prioBusy := false, prioHead := (e.slot + 1) % 16 } }
    if s.host.linkUp then s.emit (.msix 64) else s

/-- The context field of a priority entry (11 R388 step 3): RESET of level 1 names a context, every other operation none. -/
def State.badPrioContext (s : State) (w : Waybill) : Option (Nat × Nat) :=
  let c := w.context
  if w.op = 0xF004 ∧ w.p 0 2 = 1 then (if 4 ≤ c then some (0x0104, c) else if (s.cx c).live then none else some (0x0202, 0))
  else if c = 0xF then none else some (0x0104, c)

/-- The checks of 11 R388 on a priority entry. -/
def State.checkPrio (s : State) (w : Waybill) : Option (Nat × Nat) :=
  match prioFields w.op with
  | none => some (0x0101, w.op)
  | some fs =>
    match s.firstBad w fs with
    | some i => some (0x0102, i)
    | none => s.badPrioContext w

/-- Entries at the head that fail their checks are answered. -/
def State.sweepPrio (s : State) : Nat → State
  | 0 => s
  | n + 1 =>
    match s.nextPrio with
    | none => s
    | some e =>
      match s.checkPrio (PrioEntry_wb e) with
      | some r => ((s.takePrio e).finishPrio e r.1 r.2).sweepPrio n
      | none => s

/-- A priority operation runs when it is the next entry and passes its checks; from step 5 on (13 R444). -/
def State.runPrio (s : State) (e : PrioEntry) (ops : Waybill → Bool) (f : State → State) : State :=
  if !s.barServes then s
  else
    let s := s.sweepPrio 64
    if s.nextPrio == some e && ops (PrioEntry_wb e) then (f (s.takePrio e)).sweepPrio 64 else s

/-! ### STATUS, POWER_CAP, SHED -/

/-- The registers of the status snapshot (11 Table 11-15). -/
def snapshotRegs : List Reg := [.mcStatus, .tgStatus, .tgSetpoint, .heat, .celStatus, .hbmCfg, .fabricCfg, .step 0, .step 1, .step 2, .step 3]

/-- STATUS (11 R401): the copies do not clear RC fields. -/
def execStatus (e : PrioEntry) (s : State) : Host.Outcome State Fault Refusal :=
  .next (s.runPrio e (isOp 0xF001) fun s =>
    (s.write .bar2 0x800 (snapshotRegs.flatMap fun r => bytesOfNat 8 (s.image r).toNat)).finishPrio e 0 0)

/-- POWER_CAP (10 R340). -/
def execPowerCap (e : PrioEntry) (t : Nat) (s : State) : Host.Outcome State Fault Refusal :=
  let s := s.tick t
  let w := PrioEntry_wb e
  .next (s.runPrio e (isOp 0xF002) fun s => (s.writeSetpoint (w.p 0 12) (w.p 12 1 == 1) t).finishPrio e 0 0)

/-- SHED_LATCH (10 R342): cmd_shed takes the hardware shed path at once. -/
def execShedLatch (e : PrioEntry) (t : Nat) (s : State) : Host.Outcome State Fault Refusal :=
  let s := s.tick t
  .next (s.runPrio e (fun w => isOp 0xF003 w && w.p 0 1 == 1) fun s =>
    { s with tg := { s.tg with cmdShed := true } }.react.finishPrio e 0 0)

/-- PRIORITY_SHED_CLEAR (10 R342). -/
def execPriorityShedClear (e : PrioEntry) (s : State) : Host.Outcome State Fault Refusal :=
  .next (s.runPrio e (fun w => isOp 0xF003 w && w.p 0 1 == 0) fun s => s.clearCmdShed.finishPrio e 0 0)

/-! ### QUIESCE (09 R323) -/

/-- Departure notices to every neighbour, then the lanes idle; ALIVE_N stays asserted. -/
def State.depart (s : State) : State :=
  let s := s.upPorts.foldl (fun s p => s.tell 0 (s.port p).peerId .departure) s
  let s := s.idleLanes
  { s with fab := { s.fab with selfDeparted := true } }

/-- Every port trains (09 R299). -/
def State.trainPorts (s : State) : State := (List.range 12).foldl (fun s p => s.modPort p fun x => { x with training := true }) s

/-- QUIESCE_DEPART (09 R323). -/
def execQuiesceDepart (e : PrioEntry) (s : State) : Host.Outcome State Fault Refusal :=
  .next (s.runPrio e (fun w => isOp 0xF005 w && w.p 0 1 == 1) fun s => (if s.fab.selfDeparted then s else s.depart).finishPrio e 0 0)

/-- QUIESCE_REJOIN (09 R323): the ports retrain; at the deep floor the lanes stay idle. -/
def execQuiesceRejoin (e : PrioEntry) (s : State) : Host.Outcome State Fault Refusal :=
  .next (s.runPrio e (fun w => isOp 0xF005 w && w.p 0 1 == 0) fun s =>
    let s := if s.fab.selfDeparted ∧ s.tg.st ≠ 3 then { s with fab := { s.fab with selfDeparted := false } }.trainPorts else s
    s.finishPrio e 0 0)

/-! ### FREEZE and THAW (03 R88, 11 R402) -/

/-- Contexts of a mask parameter that exist. -/
def State.maskCtxs (s : State) (m : Nat) : List Nat := (List.range 4).filter fun c => bit m c && (s.cx c).live

/-- FREEZE_TILE_BOUNDARY (03 R88): the receipt follows when every pipe has stopped. -/
def execFreezeTileBoundary (e : PrioEntry) (t : Nat) (s : State) : Host.Outcome State Fault Refusal :=
  let s := s.tick t
  let w := PrioEntry_wb e
  .next (s.runPrio e (fun w => isOp 0xF006 w && w.p 4 1 == 0) fun s =>
    let s := (s.maskCtxs (w.p 0 4)).foldl State.freeze s
    { s with mc := { s.mc with freezeReq := some (e, t) } })

/-- FREEZE_COMPLETE (11 R401): the detail gives the elapsed time in ns. -/
def execFreezeComplete (t : Nat) (s : State) : Host.Outcome State Fault Refusal :=
  let s := s.tick t
  .next (match s.mc.freezeReq with
    | some (e, t0) => ({ s with mc := { s.mc with freezeReq := none } }.finishPrio e 0 (t - t0)).sweepPrio 64
    | none => s)

/-- FREEZE_IMMEDIATE (03 R88): output tiles in flight are discarded and legs cannot resume. -/
def execFreezeImmediate (e : PrioEntry) (s : State) : Host.Outcome State Fault Refusal :=
  let w := PrioEntry_wb e
  .next (s.runPrio e (fun w => isOp 0xF006 w && w.p 4 1 == 1) fun s =>
    ((s.maskCtxs (w.p 0 4)).foldl State.freezeNow s).finishPrio e 0 0)

/-- THAW (11 R401). -/
def execThaw (e : PrioEntry) (s : State) : Host.Outcome State Fault Refusal :=
  let w := PrioEntry_wb e
  .next (s.runPrio e (isOp 0xF007) fun s => ((s.maskCtxs (w.p 0 4)).foldl State.thawCtx s).finishPrio e 0 0)

/-- CRASH_DUMP (11 R401): the manual says nothing of what the crash log holds (log 20). -/
def execCrashDump (e : PrioEntry) (s : State) : Host.Outcome State Fault Refusal :=
  let w := PrioEntry_wb e
  .next (s.runPrio e (isOp 0xF008) fun s =>
    let n := s.freeCtr
    let s := s.free.2
    (s.write .bar2 0x10000 ((List.range 65536).map fun i => Config.crashByte n (w.p 0 16) i)).finishPrio e 0 (Config.crashChunks n).toNat)

end Sys2Proof.Machine
end

