-- ==== Sys2Proof/Machine/Tollgate.lean ====
section
/-! DEFINITION. The tollgate's events (chapter 10): SHED_N, ENV_SET, BEAT and the slot clock, the lease, the input voltage, the governor, the heat
model, die throttles, floors, the idle point, rotation and clock steps. -/

namespace Sys2Proof.Machine

open Sys2Proof

/-- Stage 7 runs: the always-on domain acts (13 Table 13-1, step 3). -/
def State.powered (s : State) : Bool := s.pwr.switch && decide (3 ≤ s.mc.bringup)

/-- An event of the always-on domain: without power it does nothing. An exit from a floor that has ended by then is over first. -/
def State.whenPowered (s : State) (f : State → State) : State := if s.powered then f s.settleFloor else s

/-! ### SHED_N (10 R336, R338) -/

/-- Entries of a list of times that lie within the second before t. -/
def lastSecond (l : List Nat) (t : Nat) : List Nat := l.filter fun u => decide (t < u + 1000000000)

/-- A registered change of SHED_N (10 R338). -/
def State.shedChange (s : State) (t : Nat) : State :=
  let l := lastSecond s.tg.changes t ++ [t]
  let s := { s with tg := { s.tg with changes := l } }
  if 8 < l.length ∧ !s.tg.chatter then
    { s with tg := { s.tg with chatter := true, chatterEvents := satAdd 0xFF s.tg.chatterEvents 1 } }.event 0x8003 0xF l.length
  else s

/-- SHED_N_ASSERT (10 R336, R337). -/
def execShedNAssert (t : Nat) (s : State) : Host.Outcome State Fault Refusal :=
  .next ((s.tick t).whenPowered fun s =>
    if s.tg.shed then s
    else ({ s with tg := { s.tg with shed := true, shedSince := t, sheds := satAdd 0xFFFF s.tg.sheds 1 } }.shedChange t).react)

/-- SHED_N_RELEASE (10 R336, R369). -/
def execShedNRelease (t : Nat) (s : State) : Host.Outcome State Fault Refusal :=
  .next ((s.tick t).whenPowered fun s =>
    if !s.tg.shed then s
    else ({ s with tg := { s.tg with shed := false, shedMs := (t - s.tg.shedSince) / 1000000 } }.shedChange t).react)

/-- CHATTER_CLEAR (10 R338). -/
def execChatterClear (t : Nat) (s : State) : Host.Outcome State Fault Refusal :=
  .next ((s.tick t).whenPowered fun s =>
    if (lastSecond s.tg.changes t).length ≤ 8 then { s with tg := { s.tg with chatter := false } } else s)

/-! ### ENV_SET and the lease (10 R339, R341) -/

/-- ENV_SET_SAMPLE (10 R339): an input above 4.095 V reads 4.095 V. -/
def execEnvSetSample (mv : Nat) (t : Nat) (s : State) : Host.Outcome State Fault Refusal :=
  .next ((s.tick t).whenPowered fun s => { s with tg := { s.tg with samples := s.tg.samples.drop 1 ++ [min mv 4095] } }.react)

/-- LEASE_EXPIRY (10 R341). -/
def execLeaseExpiry (t : Nat) (s : State) : Host.Outcome State Fault Refusal :=
  .next ((s.tick t).whenPowered fun s =>
    let g := s.tg.cfg
    if g.lease = 0 ∨ !s.tg.leaseArmed ∨ t < s.tg.setAt + 1000000000 * g.lease then s
    else ({ s with tg := { s.tg with digitalW := g.fallback, deep := false, leaseExpired := true, leaseArmed := false } }.event 0x8005 0xF g.fallback).react)

/-! ### BEAT and the slot clock (10 R343 to R345) -/

/-- BEAT valid or not; a change sends PlatformEventMessage when enabled (13 R462). -/
def State.setBeatValid (s : State) (b : Bool) : State :=
  if s.beat.valid = b then s
  else
    let s := { s with beat := { s.beat with valid := b } }
    if s.mgmt.events then s.emit (.platformEvent .beatValid) else s

/-- BEAT becomes invalid (10 R344); why: 0 rejections, 1 no edge. -/
def State.beatLost (s : State) (why : Nat) : State :=
  let s := s.setBeatValid false
  { s with beat := { s.beat with relock := false, invalids := satAdd 0xFF s.beat.invalids 1, good := [] } }.event 0x8004 0xF why

/-- One rejection (10 R343); the ninth within a second makes BEAT invalid. -/
def State.beatReject (s : State) (t : Nat) : State :=
  let l := lastSecond s.beat.rejTimes t ++ [t]
  let s := { s with beat := { s.beat with rejects := satAdd 0xFFFF s.beat.rejects 1, rejTimes := l, good := [] } }
  if 8 < l.length ∧ s.beat.valid then s.beatLost 0 else s

/-- Mean of a list of intervals, rounded down (log 11). -/
def meanOf (l : List Nat) : Nat := l.sum / l.length

/-- An interval in range, in 10 ns units (10 R343, R344). -/
def State.beatInterval (s : State) (iv : Nat) : State :=
  if s.beat.valid then
    let l := s.beat.intervals ++ [iv]
    let l := l.drop (l.length - 8)
    { s with beat := { s.beat with intervals := l, period := meanOf l } }
  else
    let l := s.beat.good ++ [iv]
    if l.length < 8 then { s with beat := { s.beat with good := l } }
    else
      let s := s.setBeatValid true
      { s with beat := { s.beat with relock := true, intervals := l, period := meanOf l, good := [] } }

/-- More than 40 ms without an accepted edge (10 R344). -/
def Beat.late (b : Beat) (t : Nat) : Bool := match b.lastEdge with | some e => decide (e + 40000000 < t) | none => false

/-- BEAT_EDGE (10 R343): the edge is timed to 10 ns; `highOk` says that the pulse stayed high for 100 µs. -/
def execBeatEdge (t : Nat) (highOk : Bool) (s : State) : Host.Outcome State Fault Refusal :=
  .next ((s.tick t).whenPowered fun s =>
    let u := t / 10 * 10
    let s := if s.beat.valid && s.beat.late u then s.beatLost 1 else s
    match s.beat.lastEdge with
    | none => if highOk then { s with beat := { s.beat with lastEdge := some u } } else s.beatReject t
    | some e =>
      if !highOk ∨ u < e + 12000000 then s.beatReject t
      else
        let s := { s with beat := { s.beat with lastEdge := some u } }
        if 15385000 ≤ u - e ∧ u - e ≤ 22222000 then s.beatInterval ((u - e) / 10) else s.beatReject t)

/-- BEAT_INVALID (10 R344). -/
def execBeatInvalid (t : Nat) (s : State) : Host.Outcome State Fault Refusal :=
  .next ((s.tick t).whenPowered fun s =>
    if !s.beat.valid then s
    else if 8 < (lastSecond s.beat.rejTimes t).length then s.beatLost 0
    else if s.beat.late (t / 10 * 10) then s.beatLost 1
    else s)

/-- The rise of A at the start of an owned slot (10 R333): not while the module heads for, or is at, the deep floor. -/
def State.rise (s : State) : State :=
  match s.envelope.2 with
  | .power e =>
    if s.tg.st = 3 ∨ s.tg.st = 6 ∨ s.tg.entering = some .deep then s
    else { s with tg := { s.tg with allowance := max s.tg.allowance (min e (s.tg.allowance + (s.tg.cfg.ramp : Rat) * s.beat.period / 100000000)) } }
  | .floor _ => s

/-- A slot boundary at t comes too early: slots are at most 2 % shorter than a 64th of the period (10 R345). -/
def Beat.early (b : Beat) (t : Nat) : Bool := decide (6400 * (t - b.slotAt) < 98 * 10 * b.period)

/-- Sixty-four times the distance in ns of t from where slot n starts, counted from the last accepted edge (10 R345). -/
def Beat.phaseError (b : Beat) (t n : Nat) : Nat :=
  let m : Int := 64 * 10 * b.period
  let r := (64 * ((t : Int) - (b.lastEdge.getD 0 : Nat)) - 10 * b.period * n) % m
  min r.toNat (m - r).toNat

/-- SLOT_BOUNDARY (10 R345): the next slot begins; in the owned slot the allowance rises and the levers follow (R333, R347). One that would make a slot too short is none. -/
def execSlotBoundary (t : Nat) (slot : Nat) (s : State) : Host.Outcome State Fault Refusal :=
  .next ((s.tick t).whenPowered fun s =>
    let n := (s.beat.slot + 1) % 64
    if s.beat.early t ∨ slot ≠ n then s
    else
      let s := { s with beat := { s.beat with
        slots := (s.beat.slots + 1) % 2 ^ 64, slot := n, slotAt := t, relock := s.beat.relock && decide (64 * 5000 ≤ s.beat.phaseError t n) } }
      if n ≠ s.ownedSlot ∨ !s.bringupDone then s else s.rise.applyUp)

/-! ### The input (10 R331) -/

/-- INPUT_UNDERVOLTAGE (10 Table 10-2). -/
def execInputUndervoltage (t : Nat) (s : State) : Host.Outcome State Fault Refusal :=
  .next ((s.tick t).whenPowered fun s => { s with tg := { s.tg with inputTerm := true } }.react)

/-- INPUT_RECOVERY (10 Table 10-2). -/
def execInputRecovery (t : Nat) (s : State) : Host.Outcome State Fault Refusal :=
  .next ((s.tick t).whenPowered fun s => { s with tg := { s.tg with inputTerm := false } }.react)

/-! ### The governor (10 R356) -/

/-- A cluster's clock target one step below where it is. -/
def State.stepDown (s : State) (k : Nat) : State := s.modClu k fun x => { x with target := max 24 (min x.clock x.target - 1) }

/-- One action of the governor: running clusters one step down; with all at 0.6 GHz, the highest is held. -/
def State.govern (s : State) : State :=
  let l := s.running
  if l.all fun k => (s.clu k).clock ≤ 24 then
    match l.getLast? with
    | some k => s.holdCluster k
    | none => s
  else l.foldl State.stepDown s

/-- GOVERNOR_TICK (10 R356): avgW is the 1 ms average input power. -/
def execGovernorTick (avgW : Nat) (t : Nat) (s : State) : Host.Outcome State Fault Refusal :=
  .next ((s.tick t).whenPowered fun s =>
    let s := { s with tg := { s.tg with inputW := avgW } }
    if s.tg.st ≠ 0 ∧ s.tg.st ≠ 1 then s
    else
      let g := if s.tg.allowance * 102 / 100 < avgW then true else if (avgW : Rat) ≤ s.tg.allowance then false else s.tg.governing
      let s := { s with tg := { s.tg with governing := g } }
      if g then s.govern else s)

/-! ### Heat (10 R357 to R360) -/

/-- θ(F) in K/W at a flow in 0.1 L/min (10 R357). -/
def thetaOf (flow : Nat) : Rat := 4 / 1000 + 16 / 100 / flow

/-- The inlet temperature the model uses. -/
def Heat.tin (h : Heat) : Rat := if h.fault then 45 else h.inlet

/-- P_heat (10 R358). -/
def Heat.cap_ (h : Heat) : Rat := (((h.limit : Rat) - h.model) * 10000 / 1175 + h.model - h.tin) / thetaOf h.flow

/-- HEAT_MODEL_UPDATE (10 R357, R358): temperatures in °C, `power` the 10 ms average in W. -/
def execHeatModelUpdate (inlet : Nat) (plate : Nat) (power : Nat) (t : Nat) (s : State) : Host.Outcome State Fault Refusal :=
  .next ((s.tick t).whenPowered fun s =>
    let h := { s.heat with inlet := inlet, plate := plate }
    let start : Rat := if h.started then h.model else plate
    let tss : Rat := h.tin + power * thetaOf h.flow
    let model : Rat := max (start + (tss - start) * 125 / 100000) plate
    let h := { h with model := model, started := true, coolSince := if plate < 60 then some (h.coolSince.getD t) else none }
    { s with heat := { h with cap := some h.cap_ } }.react)

/-- Unit numbers of sensors in a fault record: the manual gives none (log 21). -/
def sensorUnit : Sensor → Nat
  | .inlet => 0
  | .base q => 1 + q
  | .cellarC1 c => 5 + c
  | .cellarC4 c => 53 + c
  | .hbm h => 101 + h

/-- A failed sensor (12 Table 12-2, code 0x0C): the inlet is taken at 45 °C, a die is read by its other sensors. -/
def State.sensorFails (s : State) (x : Sensor) : State :=
  if s.pwr.sensorsBad.contains x then s
  else
    let s := { s with pwr := { s.pwr with sensorsBad := s.pwr.sensorsBad ++ [x] } }
    let s := if x = .inlet then { s with heat := { s.heat with fault := true } } else s
    s.retire [.sensor x] 0x0C 2 0xF (sensorUnit x) 0 0xFFFF 0 8

/-- INLET_SENSOR_FAILURE (10 R357). -/
def execInletSensorFailure (t : Nat) (s : State) : Host.Outcome State Fault Refusal :=
  .next ((s.tick t).whenPowered fun s => s.sensorFails .inlet)

/-- Clusters whose clock a die's throttle holds (10 Table 10-8). -/
def Die.clusters : Die → List Nat
  | .base q => (List.range 48).filter fun k => k / 12 == q
  | .cellar c => [c]
  | .hbm _ => []

/-- The last temperature that a base die reported. -/
def State.noteTemp (s : State) (die : Die) (temp : Nat) : State :=
  match die with
  | .base q => { s with pwr := { s.pwr with baseTemps := s.pwr.baseTemps.set q temp } }
  | _ => s

/-- DIE_THROTTLE (10 R359): above 100 °C, and until the die falls below 97 °C. -/
def execDieThrottle (die : Die) (temp : Nat) (t : Nat) (s : State) : Host.Outcome State Fault Refusal :=
  .next (((s.tick t).noteTemp die temp).whenPowered fun s =>
    let on := s.pwr.throttles.any fun e => e.1 == die
    if !(decide (100 < temp) || (on && decide (97 ≤ temp))) then s
    else
      let s := { s with pwr := { s.pwr with throttles := (s.pwr.throttles.filter fun e => e.1 != die) ++ [(die, t)] } }
      let s := (Die.clusters die).foldl (fun s k => (s.stepDown k).modClu k fun x => { x with throttled := true }) s
      match die with
      | .hbm h => s.modStack h fun x => { x with halfRate := true }
      | _ => s)

/-- THROTTLE_RELEASE (10 R359): in a step window, after 100 ms at 3 °C below the threshold. -/
def execThrottleRelease (die : Die) (temp : Nat) (t : Nat) (s : State) : Host.Outcome State Fault Refusal :=
  .next (((s.tick t).noteTemp die temp).whenPowered fun s =>
    if !(s.pwr.throttles.any fun e => e.1 == die && decide (e.2 + 100000000 ≤ t)) || !s.inWindow t || decide (97 < temp) then s
    else
      let l := s.pwr.throttles.filter fun e => e.1 != die
      let s := { s with pwr := { s.pwr with throttles := l } }
      let s := (Die.clusters die).foldl (fun s k => s.modClu k fun x => { x with throttled := l.any fun e => (Die.clusters e.1).contains k }) s
      let s := match die with
        | .hbm h => s.modStack h fun x => { x with halfRate := false }
        | _ => s
      s.applyUp)

/-! ### Floors (10 R348 to R352) -/

/-- RETENTION_FLOOR_REACHED (10 R349). -/
def execRetentionFloorReached (t : Nat) (s : State) : Host.Outcome State Fault Refusal :=
  .next ((s.tick t).whenPowered fun s =>
    if s.tg.st ≠ 4 then s
    else
      let s := s.setTg 2
      { s with tg := { s.tg with entering := if s.tg.entering = some .deep then some .deep else none } })

/-- A stage of power set. -/
def State.setStage (s : State) (i : Nat) (x : Stage) : State := { s with pwr := { s.pwr with stages := s.pwr.stages.set i x } }

/-- The vertical channels trained, or not (13 R449). -/
def State.setTrained (s : State) (b : Bool) : State := { s with cel := { s.cel with trained := b } }

/-- Every cluster changed. -/
def State.allClu (s : State) (f : Cluster → Cluster) : State := (List.range 48).foldl (fun s k => s.modClu k f) s

/-- E asks for the deep floor. -/
def State.wantsDeep (s : State) : Bool := s.envelope.2 == .floor .deep

/-- DEEP_FLOOR_ENTRY (10 R351): `ok` says that the MC completed the sequence; else the module stays and records it. -/
def execDeepFloorEntry (ok : Bool) (t : Nat) (s : State) : Host.Outcome State Fault Refusal :=
  .next ((s.tick t).whenPowered fun s =>
    if s.tg.st ≠ 2 ∨ !s.bringupDone ∨ !(s.wantsDeep || s.tg.entering == some .deep) then s
    else if !ok then { s with tg := { s.tg with entering := none } }.faultTraining 4 0xF 0
    else
      let s := if s.fab.selfDeparted then s else s.depart
      let s := (s.allClu fun x => { x with retention := true }).setTrained false
      let s := (s.setStage 4 .retention).setStage 6 .off
      let s := { s with host := { s.host with linkUp := false }, tg := { s.tg with allowance := 150, entering := none } }
      s.setTg 3)

/-- An exit from a floor begins: until `until_` the module is leaving it, the deep floor with `deep` (10 R349, Table 10-6). -/
def State.leaveFloor (s : State) (until_ : Nat) (deep : Bool) : State := ({ s with tg := { s.tg with leaving := some (until_, deep) } }).setTg 5

/-- RETENTION_FLOOR_EXIT (10 R349, R350, Table 10-10): in a step window, once A covers the idle point; what was parked goes on. -/
def execRetentionFloorExit (t : Nat) (s : State) : Host.Outcome State Fault Refusal :=
  .next ((s.tick t).whenPowered fun s =>
    if s.tg.st ≠ 2 ∨ !s.bringupDone ∨ s.tg.entering = some .deep ∨ !s.inWindow t ∨ !s.fits (Config.basePower 24 0 true 4) then s
    else
      match s.envelope.2 with
      | .floor _ => s
      | .power _ =>
        let s := { s with tg := { s.tg with entering := none, shedWork := [], admitStop := false, dmaPaused := false } }
        (List.range 4).foldl State.unpark ((s.leaveFloor (t + 3000000) false).selfRefresh false).widenPorts)

/-! ### Idle point, rotation, clocks -/

/-- IDLE_POINT_ENTRY (10 R354). -/
def execIdlePointEntry (t : Nat) (s : State) : Host.Outcome State Fault Refusal :=
  .next ((s.tick t).whenPowered fun s =>
    if s.tg.st ≠ 0 ∨ !s.legs.isEmpty ∨ t < s.tg.lastLeg + 10000000 then s else s.holdAll.setTg 1)

/-- The cyclic order of a list from the first element that holds on. -/
def rotateFrom (p : Nat → Bool) (l : List Nat) : List Nat :=
  match l.findIdx? p with
  | some i => l.drop i ++ l.take i
  | none => l

/-- Clusters with work in cyclic order from the one after cluster k on. -/
def State.workAfter (s : State) (k : Nat) : List Nat := rotateFrom (fun x => decide (k < x)) s.workClusters

/-- CLUSTER_ROTATION (10 R355): the next clusters with work run, as many as ran, with work or without. The turn begins after the last cluster of the
old one. -/
def execClusterRotation (t : Nat) (s : State) : Host.Outcome State Fault Refusal :=
  .next ((s.tick t).whenPowered fun s =>
    let s := { s with tg := { s.tg with yielded := [] } }
    let work := s.workClusters
    let n := s.running.length
    if s.tg.st ≠ 0 ∨ n = 0 ∨ work.all (fun k => !(s.clu k).held) then s
    else
      let last := (work.find? fun k => !(s.clu k).held && ((s.workAfter k).head?.any fun n => (s.clu n).held)).getD 47
      let next := (s.workAfter last).take n
      ((work.filter fun k => !next.contains k).foldl State.holdCluster s).runWork next n)

/-- Cluster k has stood in a well-halt for 100 µs. -/
def State.haltedLong (s : State) (k t : Nat) : Bool :=
  (s.clu k).runs.any fun r => r.halts.any fun h => h.why.isWell && decide (h.since + 100000 ≤ t)

/-- TURN_GIVEN_UP (10 R355): the next waiting cluster takes the turn. -/
def execTurnGivenUp (cl : Nat) (t : Nat) (s : State) : Host.Outcome State Fault Refusal :=
  .next ((s.tick t).whenPowered fun s =>
    if s.tg.st ≠ 0 ∨ (s.clu cl).held ∨ !s.haltedLong cl t then s
    else
      match (s.workAfter cl).find? fun k => (s.clu k).held && !(s.tg.yielded.contains k) with
      | none => s
      | some k => ({ s with tg := { s.tg with yielded := s.tg.yielded ++ [cl] } }.holdCluster cl).releaseCluster k)


end Sys2Proof.Machine
end

