-- ==== Sys2Proof/Machine/Columns.lean ====
section
/-! DEFINITION. Vertical channels and columns: retrims and couplers (06 R164 to R168, R196, R197), columns that leave the map (R198 to R200),
line repair (12 R423) and the thrash monitor (06 R179, R180). -/

namespace Sys2Proof.Machine

open Sys2Proof

/-! ### Columns leave the map (06 R198) -/

/-- A line renamed to a column's substitute. Scratch lines keep their name; their storage moves. -/
def renameLine (k j : Nat) : LineId → LineId
  | .window c a => if c = k then .window j a else .window c a
  | .scratch c o => .scratch c o

/-- Columns that have left the map or are leaving it. -/
def Column.leaving (x : Column) : Bool := x.leftMap || x.evacuating

/-- The substitute of a leaving column (06 R198 step 2): the lowest column of the cluster in the map that is no substitute yet; else of the next
cluster upward. -/
def State.pickSubstitute (s : State) (k : Nat) : Option Nat :=
  let taken := s.cel.columns.filterMap fun e => e.2.substitute
  ((List.range 48).flatMap fun i => (List.range 32).map fun j => (clusterOf k + i) % 48 * 32 + j).find? fun j =>
    j != k && !(s.col j).leaving && !taken.contains j

/-- A column starts to leave: its context freezes at tile boundary (06 R198 step 1). -/
def State.startLeaving (s : State) (k : Nat) : State :=
    let s := match (s.clu (clusterOf k)).owner with
      | some c =>
        if (s.cx c).evac.isSome then s
        else
          let was := (s.cx c).frozen
          (s.freeze c).modCx c fun x => { x with evac := some was }
      | none => s
    s.modCol k fun x => { x with evacuating := true }

/-- A leaving column's substitute named (06 R198 step 2). -/
def State.nameSubstitute (s : State) (k : Nat) : State :=
  let j := s.pickSubstitute k
  s.modCol k fun x => { x with substitute := j }

/-- Columns leave the map together (06 R198 steps 1 and 2): none is the other's substitute. -/
def State.leaveTogether (s : State) (l : List Nat) : State :=
  let new := l.filter fun k => !(s.col k).leaving
  new.foldl State.nameSubstitute (new.foldl State.startLeaving s)

/-- A column leaves the map. -/
def State.leaveMap (s : State) (k : Nat) : State := s.leaveTogether [k]

/-- A line of a leaving column written back (06 R198 step 3): cache lines to their tier, scratch lines to the scratch part. -/
def State.leaveLine (s : State) (id : LineId) : State :=
  match id with
  | .scratch _ _ => if s.evacLine id then s.evict id else if (s.homeLine id).st = .pz then s else (s.recallAll id false).putHome id { HomeLine.init with st := .v }
  | .window _ _ => if s.isDirect id then (s.recallAll id true).putHome id HomeLine.init else s.evict id

/-- A locked cache line moved to the substitute with its cursor. -/
def State.moveLock (s : State) (k j : Nat) (id : LineId) : State :=
  let h := s.homeLine id
  let id' := renameLine k j id
  let set := (h.lock.map fun (l : Lock) => s.setFor l.ctx id').getD h.set
  (s.putHome id HomeLine.init).putHome id' { h with set := set }

/-- The cache lines of column k. -/
def State.windowLines (s : State) (k : Nat) : List LineId :=
  (s.cel.lines.map fun e => e.1).filter fun id => match id with | .window c _ => c == k | .scratch _ _ => false

/-- All lines of column k with a home record. -/
def State.linesOf (s : State) (k : Nat) : List LineId := (s.cel.lines.map fun e => e.1).filter fun id => colNo id == k

/-- All lines with a home record that column k serves, those of columns it stands in for included. -/
def State.linesAt (s : State) (k : Nat) : List LineId := (s.cel.lines.map fun e => e.1).filter fun id => s.pressCol id == k

/-- A locked scratch line of an evacuated column: its bytes stand in the substitute's cache part (06 R198 steps 3 and 4). -/
def State.cacheLock (s : State) (id : LineId) : State :=
  match id with
  | .scratch k off =>
    s.putHome id { s.homeLine id with data := lineOf (s.read .evac (colKey k off) 256), dirty := true, set := s.evacSet id }
  | .window _ _ => s

/-- What waits at column k moved to column j (06 R198 step 3). -/
def State.moveWaiting (s : State) (k j : Nat) : State :=
  let x := s.col k
  let cs (l : List Contribution) : List Contribution := l.map fun c => { c with line := renameLine k j c.line }
  let imm (o : ImmReq) : ImmReq := { o with line := renameLine k j o.line }
  let req : HeldReq → HeldReq
    | .req r => .req { r with line := renameLine k j r.line }
    | .imm o => .imm (imm o)
  let s := s.modCol k fun x => { x with pending := [], refused := [], waiters := [], held := [] }
  let s := s.modCol j fun y => { y with
    pending := y.pending ++ cs x.pending, refused := y.refused ++ cs x.refused
    waiters := y.waiters ++ x.waiters.map fun w => (w.1, w.2.1, renameLine k j w.2.2.1, w.2.2.2)
    held := y.held ++ x.held.map req }
  let s := s.modCnt (clusterOf j) fun x => { x with pendingPeak := max x.pendingPeak (s.col j).pending.length }
  let s := { s with cel := { s.cel with sent := cs s.cel.sent, sentImm := s.cel.sentImm.map imm } }
  let why : HaltWhy → HaltWhy
    | .locked id => .locked (renameLine k j id)
    | w => w
  (List.range 48).foldl (fun s i => s.modClu i fun x => { x with
    runs := x.runs.map fun r => { r with halts := r.halts.map fun h => { h with why := why h.why } } }) s

/-- The scratch part of column k copied to the evacuation area of tier 2. -/
def State.evacuate (s : State) (k : Nat) : State :=
  let lo := colKey k 0
  let part := (s.mem.scratch.filter fun e => decide (lo ≤ e.1 ∧ e.1 < lo + 2 ^ 23))
  { s with mem := { s.mem with evac := tbelow s.mem.evac lo ++ part ++ tfrom s.mem.evac (lo + 2 ^ 23) } }

/-- The column is out of the map: its blocks are homed at the substitute, and so are those of columns it stood in for (06 R198 step 4). -/
def State.leftMap (s : State) (k : Nat) : State :=
  let j := (s.col k).substitute
  let s := (s.cel.columns.filter fun e => e.2.substitute == some k).foldl (fun s (e : Nat × Column) => s.modCol e.1 fun x => { x with substitute := j }) s
  s.modCol k fun x => { x with leftMap := true, evacuating := false }

/-- Tier-2 lines of cache windows homed at column k, over every context's map. -/
def State.homedLines (s : State) (k : Nat) : List Nat :=
  (List.range 4).flatMap fun c => ((s.cx c).map.filter fun e => e.mode == 1).flatMap fun e =>
    let cls := s.homeClusters c e
    if cls.isEmpty then []
    else (List.range e.pages).flatMap fun b =>
      let a := e.base + 4096 * b
      if s.serving (homeOf cls e a).1 = k ∧ a < s.tier2Size then (List.range 16).map fun i => a + i * 256 else []

/-- Micro-batches of context c with a contribution at column k, waiting or applied (06 R198). -/
def State.musAt (s : State) (k c : Nat) : List Nat :=
  let waiting := (((s.col k).pending ++ (s.col k).refused).filter fun x => x.ctx == c && x.inStep && !x.key.coll).map fun x => x.key.mu
  let applied := (s.linesOf k).flatMap fun id => match (s.homeLine id).lock with
    | some l => if l.ctx = c ∧ l.inStep then l.appliedMu else []
    | none => []
  (waiting ++ applied).eraseDups

/-- The content of a column whose controller does not answer is lost (06 R198): its locked lines and waiting contributions, whose micro-batches
are dropped; the tier-2 blocks of cache windows homed there are poisoned, and its scratch blocks read as poisoned. Other requests that wait there are
replayed at the substitute (01 R27). -/
def State.loseColumn (s : State) (k : Nat) : State :=
  let mus := (List.range 4).flatMap fun c => (s.musAt k c).map fun mu => (c, mu)
  let ids := s.linesOf k
  let blocks := s.homedLines k
  let s := s.modCol k fun x => { x with silent := true, pending := [], refused := [] }
  let s := { s with cel := { s.cel with
    lines := s.cel.lines.filter fun e => colNo e.1 != k
    l1 := s.cel.l1.filter fun x => !ids.contains x.line } }
  let s := mus.foldl (fun s (e : Nat × Nat) => s.dropMu e.1 e.2 4) s
  blocks.foldl (fun s a => s.enterPoison a) s

/-- The context of a column that has been evacuated goes on once no other of its columns is on the way (06 R198 step 5). -/
def State.evacDone (s : State) (k : Nat) : State :=
  match (s.clu (clusterOf k)).owner with
  | none => s
  | some c =>
    let more := s.cel.columns.any fun e => e.2.evacuating && (s.clu (clusterOf e.1)).owner == some c
    match more, (s.cx c).evac with
    | false, some b =>
      let s := s.modCx c fun x => { x with evac := none }
      if b then s else s.thawCtx c
    | _, _ => s

/-- More than 8 columns out of the map raise the replacement request (06 R200). -/
def State.countLost (s : State) : State :=
  if 8 < s.countCols (fun x => x.leftMap) ∧ !s.mc.causes.contains 1 then s.service 1 else s

/-- COLUMN_EVACUATION_COMPLETE (06 R198); at a floor it waits (10 R352). What waited at the column is replayed at its substitute (01 R27). -/
def execColumnEvacuationComplete (col : Nat) (s : State) : Host.Outcome State Fault Refusal :=
  .next (
    if !(s.col col).evacuating ∨ (s.atFloor && s.bringupDone) then s
    else
      let sub := (s.col col).substitute
      let s := if (s.col col).silent then s
        else
          let s := (((s.linesAt col).filter fun id => (s.homeLine id).st != .rl).foldl State.leaveLine s).evacuate col
          sub.elim s fun j => (s.windowLines col).foldl (fun s id => s.moveLock col j id) s
      let s := (sub.elim s fun j => s.moveWaiting col j).leftMap col
      let s := (s.linesOf col).foldl (fun s id => if s.evacLine id && (s.homeLine id).st == .rl then s.cacheLock id else s) s
      ((sub.elim s s.serveColumn).evacDone col).countLost)

/-- COLUMN_CONTROLLER_SILENT (12 Table 12-2, code 0x08). -/
def execColumnControllerSilent (col : Nat) (t : Nat) (s : State) : Host.Outcome State Fault Refusal :=
  .next (
    let s := s.tick t
    if (s.col col).silent ∨ (s.col col).leftMap then s
    else ((s.retire [.column col] 0x08 3 (s.ownerCtx (clusterOf col)) col 0 0xFFFF 0 0).leaveMap col).loseColumn col)

/-! ### Couplers and channels (06 R166, R196, R197, R199) -/

/-- A direction of channel k needs a 17th spare (06 R197, R199): the core borrows the partner's channel, or both columns leave. -/
def State.channelFails (s : State) (k coupler : Nat) : State :=
  let p := pairOf k
  if (s.col k).failed then s
  else
    let c := s.ownerCtx (clusterOf k)
    let s := s.modCol k fun x => { x with failed := true, failing := [] }
    if (s.col p).failed then
      let s := (s.modCol k fun x => { x with borrowing := false, lent := false }).modCol p fun x => { x with borrowing := false, lent := false }
      (s.retire [.channel k, .column k, .column p] 0x05 3 c k coupler 0xFFFF 0 0).leaveTogether [k, p]
    else
      let s := (s.modCol k fun x => { x with borrowing := true }).modCol p fun x => { x with lent := true }
      s.retire [.channel k] 0x05 2 c k coupler 0xFFFF 0 0

/-- Spares of one direction of a channel in use. -/
def Column.spares (x : Column) (up : Bool) : Nat := if up then x.upSpares else x.downSpares

/-- A failing coupler (06 R166): it waits for its remap, or its direction has no spare left. -/
def State.couplerFails (s : State) (k : Nat) (up : Bool) (coupler : Nat) : State :=
  let x := s.col k
  if x.failed || x.leaving || x.failing.contains (up, coupler) then s
  else if 16 ≤ x.spares up + (x.failing.filter fun f => f.1 == up).length then s.channelFails k coupler
  else s.modCol k fun x => { x with failing := x.failing ++ [(up, coupler)] }

/-- A failing coupler remapped to a spare of its direction (06 R196, R199 step 1). -/
def State.remapCoupler (s : State) (k : Nat) (up : Bool) (coupler : Nat) : State :=
  if !(s.col k).failing.contains (up, coupler) then s
  else
    let n := (s.col k).spares up
    let s := s.modCol k fun x => { x with
      failing := x.failing.erase (up, coupler)
      couplerFails := x.couplerFails.filter fun f => !(f.1 == up && f.2.1 == coupler)
      upSpares := if up then x.upSpares + 1 else x.upSpares, downSpares := if up then x.downSpares else x.downSpares + 1 }
    s.retire [.coupler k up coupler] 0x05 1 (s.ownerCtx (clusterOf k)) k coupler n 0 0

/-- A pause ends (01 R27): what queued goes on: requests held at the columns, cores that stand, and waybills. -/
def State.endPause (s : State) : State :=
  let s := ((s.cel.columns.filter fun e => !e.2.held.isEmpty).map Prod.fst).foldl State.serveColumn s
  ((List.range 4).foldl (fun s c => s.retryAll c (· == .waits)) s).sweepWbs

/-- COUPLER_REMAP (06 R196): the pause of the channel ends. -/
def execCouplerRemap (k : Nat) (up : Bool) (coupler : Nat) (s : State) : Host.Outcome State Fault Refusal :=
  .next (if (s.col k).failing.contains (up, coupler) then (s.remapCoupler k up coupler).endPause else s)

/-- The risers of a layer of column k do not train (13 R448): the line repair of the layer (12 R423) is exhausted at once, and the column leaves the
map. -/
def State.riserFails (s : State) (k layer : Nat) : State :=
  if (s.col k).leaving then s else (s.retire [.column k] 0x06 3 (s.ownerCtx (clusterOf k)) k layer 0xFFFF 0 0).leaveMap k

/-- A trim set to the centre of its widest run without an error, rounded down (13 R447). -/
def Column.trim (x : Column) (r : TrimRun) : Column :=
  if r.len = 0 then x else { x with trims := (x.trims.filter fun e => e.1 != r.of) ++ [(r.of, (2 * r.first + r.len - 1) / 2)] }

/-- A run shorter than 12 taps (13 R448): a data coupler is failing and remapped at once; a riser fails its layer. A command coupler takes no spare
(06 R163), and a spare in no use takes none. -/
def State.shortRun (s : State) (r : TrimRun) : State :=
  match r.of with
  | .coupler up n => if n < 256 then (s.couplerFails r.k up n).remapCoupler r.k up n else s
  | .command _ => s
  | .riser l => s.riserFails r.k l

/-- Every channel trained with its risers before it carries traffic (06 R165, 10 R351, 13 R447 to R449). -/
def State.trainChannels (s : State) (x : Training) : State :=
  let s := x.runs.foldl (fun s r => s.modCol r.k fun c => c.trim r) (s.setTrained true)
  (x.runs.filter fun r => decide (r.len < 12)).foldl State.shortRun s

/-- The trims that a retrim of channel k finds: the manual gives no way to compute them (free values, log 113). -/
def State.newTrims (s : State) (k : Nat) : State :=
  { s with freeCtr := s.freeCtr + (s.col k).trims.length }.modCol k fun x => { x with
    trims := x.trims.zipIdx.map fun (e : (Sampler × Nat) × Nat) => (e.1.1, fld (Config.free (s.freeCtr + e.2)) 0 6) }

/-- A retrim runs in a column of cluster k. -/
def State.retrimming (s : State) (k : Nat) : Bool := (List.range 32).any fun i => (s.col (k * 32 + i)).retrim

/-- Channel k carries traffic and is retrimmed (06 R165, 13 R449): trained, bring-up done, core 2 runs. -/
def State.canRetrim (s : State) (k : Nat) : Bool :=
  s.cel.trained && s.bringupDone && s.mc.coreAlive.getD 2 false && !(s.col k).retrim && !(s.col k).failed && !(s.col k).leftMap

/-- A retrim may run now: no clock change of its cluster (01 R23), and no other channel of the cluster retrims (06 R165). -/
def State.retrimFree (s : State) (k : Nat) : Bool :=
  (s.clu (clusterOf k)).clock == (s.clu (clusterOf k)).target && !s.retrimming (clusterOf k)

/-- A retrim starts: the channel pauses with new trims, the margin is what the monitor finds, and couplers that stay below 3 taps are failing (06 R166). -/
def State.startRetrim (s : State) (k margin : Nat) (failing : List (Bool × Nat)) : State :=
  (if margin < 3 then failing else []).foldl (fun s f => s.couplerFails k f.1 f.2)
    ((s.newTrims k).modCol k fun x => { x with retrim := true, retrimDue := none, margin := min margin 31 })

/-- A retrim that is due starts, or waits until it may run (01 R23). -/
def State.dueRetrim (s : State) (k margin : Nat) (failing : List (Bool × Nat)) : State :=
  if s.retrimFree k then s.startRetrim k margin failing else s.modCol k fun x => { x with retrimDue := some (margin, failing) }

/-- The lowest channel of cluster cl whose retrim is due starts it, once it may (01 R23). -/
def State.startDue (s : State) (cl : Nat) : State :=
  match ((List.range 32).map fun i => cl * 32 + i).find? fun k => (s.col k).retrimDue.isSome && s.canRetrim k with
  | none => s
  | some k =>
    match (s.col k).retrimDue with
    | some (m, f) => if s.retrimFree k then s.startRetrim k m f else s
    | none => s

/-- A retrim that falls due during a reset waits until the channel carries traffic again (13 R449). -/
def State.dueInReset (s : State) (k : Nat) : Bool := s.mc.resetting.isSome && !(s.col k).failed && !(s.col k).leftMap

/-- CHANNEL_RETRIM (06 R165): at (k mod 64) × 31.25 ms into a 2 s period. DESIGN CHOICE (log 108): the periods begin at time 0. -/
def execChannelRetrim (k : Nat) (margin : Nat) (failing : List (Bool × Nat)) (t : Nat) (s : State) : Host.Outcome State Fault Refusal :=
  let s := s.tick t
  .next (
    if t % 2000000000 ≠ k % 64 * 31250000 then s
    else if s.canRetrim k then s.dueRetrim k margin failing
    else if s.dueInReset k then s.modCol k fun x => { x with retrimDue := some (margin, failing) }
    else s)

/-- UNSCHEDULED_RETRIM (06 R166): the margin has fallen below 6 taps. -/
def execUnscheduledRetrim (k : Nat) (before : Nat) (margin : Nat) (failing : List (Bool × Nat)) (t : Nat) (s : State) : Host.Outcome State Fault Refusal :=
  let s := s.tick t
  .next (
    if !s.canRetrim k ∨ 6 ≤ before then s
    else (s.modCol k fun x => { x with extraRetrims := satAdd 0xFFFF x.extraRetrims 1, margin := before }).dueRetrim k margin failing)

/-- RETRIM_COMPLETE (06 R165, 01 R23): another retrim of the cluster that is due starts, and what queued for this one goes on. -/
def execRetrimComplete (k : Nat) (t : Nat) (s : State) : Host.Outcome State Fault Refusal :=
  .next (((s.tick t).modCol k fun x => { x with retrim := false }).startDue (clusterOf k)).endPause

/-- CLOCK_STEP (01 R23): one step of 25 MHz toward the target; a retrim in progress holds it back, and one that waits for the end of the change
starts. -/
def execClockStep (cl : Nat) (t : Nat) (s : State) : Host.Outcome State Fault Refusal :=
  .next ((s.tick t).whenPowered fun s =>
    if s.retrimming cl then s
    else
      (s.modClu cl fun x => { x with clock := if x.clock < x.target then x.clock + 1 else if x.target < x.clock then x.clock - 1 else x.clock }).startDue cl)

/-- DEEP_FLOOR_EXIT (10 R333, R351): in a step window, to the retention floor; the channels and the ports train. -/
def execDeepFloorExit (x : Training) (s : State) : Host.Outcome State Fault Refusal :=
  .next ((s.tick x.t).whenPowered fun s =>
    if s.tg.st ≠ 3 ∨ s.wantsDeep ∨ !s.inWindow x.t then s
    else
      let s := ((s.allClu fun x => { x with retention := false }).setStage 4 .up).setStage 6 .up
      let s := { s with fab := { s.fab with selfDeparted := false }, tg := { s.tg with allowance := 380 } }
      ((s.leaveFloor (x.t + 5000000) true).trainChannels x).trainPorts)

/-- A coupler as the detail of a self-test. -/
def couplerInfo (up : Bool) (coupler : Nat) : Nat := coupler * 2 + b2n up

/-- LINE_CHECK_FAILURE (06 R166, R167): the line is sent again. The fourth failure of a transfer tests the
channel, and its request is held, with the count 4, until the test ends; the sixteenth of a coupler within 1 ms makes it failing. -/
def execLineCheckFailure (k : Nat) (x : LineCheck) (up : Bool) (coupler : Nat) (t : Nat) (s : State) : Host.Outcome State Fault Refusal :=
  .next (
    let s := s.tick t
    let m := (((s.col k).crcTries.find? fun e => e.1 == x.line).map Prod.snd).getD 0
    if (s.col k).leftMap ∨ m = 4 then s
    else
      let n := if x.first then 1 else m + 1
      let fails := ((s.col k).couplerFails.filter fun f => decide (t < f.2.2 + 1000000)) ++ [(up, coupler, t)]
      let rest := (s.col k).crcTries.filter fun e => e.1 != x.line
      let s := s.modCol k fun y => { y with
        crcResends := if n < 4 then satAdd 0xFFFF y.crcResends 1 else y.crcResends
        crcTries := rest ++ [(x.line, n)]
        couplerFails := fails }
      let s := if 16 ≤ (fails.filter fun f => f.1 == up && f.2.1 == coupler).length then s.couplerFails k up coupler else s
      if n < 4 then s else s.startTest (.channel k) 0x05 (couplerInfo up coupler) none)

/-! ### Words of the cellar (06 R168, 12 R423) -/

/-- A number that names a line in the record of a self-test. -/
def lineInfo : LineId → Nat
  | .scratch _ o => o * 2
  | .window _ a => a * 2 + 1

/-- The line of column k that such a number names. -/
def infoLine (k n : Nat) : LineId := if n % 2 = 0 then .scratch k (n / 2) else .window k (n / 2)

/-- The layer of a storage unit (06 Table 6-2), from 1. -/
def layerOfUnit (u : Nat) : Nat := if u < 16 then 1 else if u < 37 then 2 else if u < 58 then 3 else 4

/-- The layer of a line: by its scratch unit; where a cache line lies among the cache units the manual does not say (a free value, log 2). -/
def State.layerOf (s : State) (id : LineId) : State × Nat :=
  match id with
  | .scratch _ o => (s, layerOfUnit (o / 65536))
  | .window k _ =>
    let (v, s) := s.free
    let n := s.scratchUnits k
    (s, layerOfUnit (n + v.toNat % max 1 (79 - n)))

/-- Spare lines of a layer of one column (06 Table 6-2). -/
def spareLines (layer : Nat) : Nat := if layer = 1 then 257 else 85

/-- The address that a record names a line by. -/
def lineAddr : LineId → Nat
  | .scratch _ o => o
  | .window _ a => a

/-- A line repair (12 R423): the line moves to a spare of its layer; with none left the column leaves the map. -/
def State.repairLine (s : State) (id : LineId) (kind : Nat) : State :=
  let k := colNo id
  let (s, l) := s.layerOf id
  let n := (s.col k).sparesUsed.getD (l - 1) 0
  if (s.col k).leaving then s
  else if n < spareLines l then
    let s := s.modCol k fun x => { x with sparesUsed := x.sparesUsed.set (l - 1) (n + 1) }
    s.retire [.line k l] kind 1 (s.ownerCtx (clusterOf k)) k l n (lineAddr id) 0
  else (s.retire [.column k] kind 3 (s.ownerCtx (clusterOf k)) k l 0xFFFF (lineAddr id) 0).leaveMap k

/-- The line has bytes in the cellar. -/
def State.inCellar (s : State) (id : LineId) : Bool :=
  match id with
  | .scratch k _ => !(s.col k).leftMap || s.evacHeld id
  | .window _ _ => (s.homeLine id).st != .np && !s.isDirect id

/-- A poisoned line under a lock: its waiting contributions are discarded, what waited for it goes on, and immediate operations held there fault
their strands. -/
def State.poisonLine (s : State) (id : LineId) : State :=
  if (s.homeLine id).st = .rl then
    let k := s.pressCol id
    let at_ : HeldReq → Option ImmReq
      | .imm o => if o.line = id then some o else none
      | .req _ => none
    let imms := (s.col k).held.filterMap at_
    let s := (s.modCol k fun x => { x with held := x.held.filter fun h => (at_ h).isNone }).keepWaiting id fun _ => false
    imms.foldl State.immFault ((s.makePz id).serveHeld id)
  else s.makePz id

/-- CELLAR_UNCORRECTABLE (06 R168). -/
def execCellarUncorrectable (line : LineId) (t : Nat) (s : State) : Host.Outcome State Fault Refusal :=
  .next (
    let s := s.tick t
    if !s.inCellar line then s else (s.poisonLine line).startTest (.channel (colNo line)) 0x06 (lineInfo line) none)

/-- CELLAR_CORRECTED (06 R168, 12 Table 12-2, code 0x07): the fourth in an hour in one line repairs it. -/
def execCellarCorrected (line : LineId) (t : Nat) (s : State) : Host.Outcome State Fault Refusal :=
  .next (
    let s := s.tick t
    if !s.inCellar line then s
    else
      let l := ((s.col (colNo line)).corrected.filter fun e => decide (t < e.2 + 3600000000000)) ++ [(line, t)]
      if (l.filter fun e => e.1 == line).length < 4 then s.modCol (colNo line) fun x => { x with corrected := l }
      else (s.modCol (colNo line) fun x => { x with corrected := l.filter fun e => e.1 != line }).repairLine line 0x07)

/-! ### Thrash (06 R179, R180) -/

/-- THRASH_INTERVAL_END. -/
def execThrashIntervalEnd (col : Nat) (s : State) : Host.Outcome State Fault Refusal :=
  .next (
    let x := s.col col
    let hot := decide (256 ≤ x.fills ∧ x.fills < 4 * x.evictions)
    let quiet := x.quiet + 1
    let en := s.cel.thrashEn
    let s := s.modCol col fun x => { x with
      fills := 0, evictions := 0, thrashing := hot
      quiet := if hot || quiet == 16 then 0 else quiet
      reduction := if hot then (if en then min 12 (x.reduction + 2) else x.reduction) else if quiet = 16 then x.reduction - 2 else x.reduction }
    if hot && !x.thrashing && s.cel.thrashWarn then s.event 0x8002 0xF col else s)

end Sys2Proof.Machine
end

