-- ==== Sys2Proof/Machine/Dram.lean ====
section
/-! DEFINITION. HBM errors, row retirement and refresh (07 R216 to R222), and the caravan (07 R238 to R246): the outrider, fills, tiles under
regeneration, and the fetch of spilled stash tiles (R243). -/

namespace Sys2Proof.Machine

open Sys2Proof

/-! ### Rows (07 R219, R221) -/

/-- Line addresses of a row of a stack (07 R213). -/
def inRow (h pc row a : Nat) : Bool := stackOf a == h && pcOf a == pc && rowOf a == row

/-- Repair exhausted (07 R221): the row stays in service. -/
def State.repairExhausted (s : State) (h pc row : Nat) : State :=
  (s.modStack h fun x => { x with exhausted := true }).fault 0x09 4 0xF (h * 64 + pc) row 0xFFFF 0 3

/-- A row is to be retired (07 R219, R221): it moves to a spare row while a remap entry and a spare of its pseudo-channel are free. -/
def State.retireRow (s : State) (h pc row : Nat) : State :=
  let x := s.stack h
  let used := x.remap ++ x.moving
  if x.moving.contains (pc, row) then s
  else if 512 ≤ used.length ∨ 32 ≤ (used.filter fun e => e.1 == pc).length then s.repairExhausted h pc row
  else s.modStack h fun x => { x with moving := x.moving ++ [(pc, row)] }

/-- ROW_RETIREMENT_COMPLETE (07 R219); `bad` lists the lines that could not be read. At a floor the move waits (10 R352). -/
def execRowRetirementComplete (stack : Nat) (pc : Nat) (row : Nat) (bad : List Nat) (s : State) : Host.Outcome State Fault Refusal :=
  .next (
    if !(s.stack stack).moving.contains (pc, row) ∨ (s.atFloor && s.bringupDone) then s
    else
      let n := ((s.stack stack).remap.filter fun e => e.1 == pc).length
      let s := s.modStack stack fun x => { x with moving := x.moving.erase (pc, row), remap := x.remap ++ [(pc, row)] }
      (bad.filter (inRow stack pc row)).foldl (fun s a => s.enterPoison a) (s.retire [.row stack pc row] 0x09 1 0xF (stack * 64 + pc) row n 0 0))

/-! ### Errors (07 Table 7-5) -/

/-- An error of a line of the HBM, in usable tier 2 or in the MC area. -/
def State.hbmError (s : State) (addr t : Nat) (f : State → State) : State := if addr < s.hbmSize then f (s.tick t) else s.tick t

/-- The tries of an access to a line; `kind` 0 read parity, 1 write parity, 2 uncorrectable. -/
def triesKey (addr kind : Nat) : Nat := addr / 256 * 4 + kind

/-- A new access to a line: its failures are counted from here. -/
def State.newAccess (s : State) (addr : Nat) (kinds : List Nat) : State :=
  s.modStack (stackOf addr) fun x => { x with tries := x.tries.filter fun e => !(kinds.map (triesKey addr)).contains e.1 }

/-- One more try, of `most` allowed: the number made, and the state without the entry once no try is left. -/
def State.countTry (s : State) (addr kind most : Nat) : State × Nat :=
  let key := triesKey addr kind
  let l := (s.stack (stackOf addr)).tries
  let n := ((l.find? fun e => e.1 == key).map Prod.snd).getD 0 + 1
  let rest := l.filter fun e => e.1 != key
  (s.modStack (stackOf addr) fun x => { x with tries := if n ≤ most then rest ++ [(key, n)] else rest }, n)

/-- An uncorrectable error (07 Table 7-5): the read is reissued once; a second failure delivers the line poisoned, retires the row and tests the
pseudo-channel. -/
def State.uncorrectable (s : State) (addr : Nat) : State :=
  let h := stackOf addr
  let s := s.modStack h fun x => { x with uncorrectable := satAdd 0xFF x.uncorrectable 1 }
  let (s, n) := s.countTry addr 2 1
  if n ≤ 1 then s
  else ((s.enterPoison addr).retireRow h (pcOf addr) (rowOf addr)).startTest (.pc h (pcOf addr)) 0x09 addr none

/-- HBM_CORRECTED_ERROR (07 Table 7-5): the fourth within an hour in a row retires it. -/
def execHbmCorrectedError (addr : Nat) (t : Nat) (s : State) : Host.Outcome State Fault Refusal :=
  .next (s.hbmError addr t fun s =>
    let h := stackOf addr
    let key := rowOf addr * 64 + pcOf addr
    let l := ((s.stack h).history.filter fun e => decide (t < e.2 + 3600000000000)) ++ [(key, t)]
    let s := s.modStack h fun x => { x with corrected := satAdd 0xFFFF x.corrected 1 }
    if (l.filter fun e => e.1 == key).length < 4 then s.modStack h fun x => { x with history := l }
    else (s.modStack h fun x => { x with history := l.filter fun e => e.1 != key }).retireRow h (pcOf addr) (rowOf addr))

/-- HBM_READ_PARITY_FAILURE (07 Table 7-5): reissued three times; the fourth failure is an uncorrectable error. -/
def execHbmReadParityFailure (x : HbmAccess) (t : Nat) (s : State) : Host.Outcome State Fault Refusal :=
  .next (s.hbmError x.addr t fun s =>
    let (s, n) := (if x.first then s.newAccess x.addr [0, 2] else s).countTry x.addr 0 3
    if n ≤ 3 then s.modStack (stackOf x.addr) fun y => { y with retries := satAdd 0xFF y.retries 1 } else s.uncorrectable x.addr)

/-- HBM_WRITE_PARITY_FAILURE (07 Table 7-5, R220): reissued three times; the fourth failure poisons the line and tests the pseudo-channel. -/
def execHbmWriteParityFailure (x : HbmAccess) (t : Nat) (s : State) : Host.Outcome State Fault Refusal :=
  .next (s.hbmError x.addr t fun s =>
    let (s, n) := (if x.first then s.newAccess x.addr [1] else s).countTry x.addr 1 3
    if n ≤ 3 then s.modStack (stackOf x.addr) fun y => { y with retries := satAdd 0xFF y.retries 1 }
    else (s.enterPoison x.addr).startTest (.pc (stackOf x.addr) (pcOf x.addr)) 0x09 x.addr none)

/-- HBM_UNCORRECTABLE_ERROR (07 Table 7-5). -/
def execHbmUncorrectableError (x : HbmAccess) (t : Nat) (s : State) : Host.Outcome State Fault Refusal :=
  .next (s.hbmError x.addr t fun s => (if x.first then s.newAccess x.addr [0, 2] else s).uncorrectable x.addr)

/-! ### Refresh (07 R216, Table 7-4) -/

/-- Refresh rate of a die temperature: 0 up to 85 °C, 1 up to 95 °C, 2 above. -/
def refreshOf (temp : Nat) : Nat := if temp ≤ 85 then 0 else if temp ≤ 95 then 1 else 2

/-- When a die was last too warm for a fall below each of the two thresholds. -/
def warmAt (old : Nat × Nat) (temp t : Nat) : Nat × Nat := (if 82 < temp then t else old.1, if 92 < temp then t else old.2)

/-- The rate a die may fall to after 100 ms below 3 °C under a threshold. -/
def fallTo (mult : Nat) (warm : Nat × Nat) (t : Nat) : Nat :=
  let low := if warm.1 + 100000000 ≤ t then 0 else if warm.2 + 100000000 ≤ t then 1 else 2
  min mult low

/-- The cellar temperature that the columns of a cluster use: the higher of two sensors, or the one that has not failed. -/
def State.cellarTemp (s : State) (c : Nat) (e : Nat × Nat) : Nat :=
  if s.pwr.sensorsBad.contains (.cellarC1 c) then e.2 else if s.pwr.sensorsBad.contains (.cellarC4 c) then e.1 else max e.1 e.2

/-- TEMPERATURE_READOUT (07 R216): rates rise at once. -/
def execTemperatureReadout (stackTemps : List Nat) (cellarTemps : List (Nat × Nat)) (t : Nat) (s : State) : Host.Outcome State Fault Refusal :=
  let s := s.tick t
  let s := stackTemps.zipIdx.foldl (fun s (e : Nat × Nat) => s.modStack e.2 fun x => { x with
    temp := e.1, mult := max x.mult (refreshOf e.1), above := warmAt x.above e.1 t }) s
  .next (cellarTemps.zipIdx.foldl (fun s (e : (Nat × Nat) × Nat) =>
    let v := s.cellarTemp e.2 e.1
    s.modClu e.2 fun x => { x with tempC1 := e.1.1, tempC4 := e.1.2, refreshC := max x.refreshC (refreshOf v), refreshOver := warmAt x.refreshOver v t }) s)

/-- REFRESH_RATE_FALL (07 R216). A base die has no refresh. -/
def execRefreshRateFall (die : Die) (temp : Nat) (t : Nat) (s : State) : Host.Outcome State Fault Refusal :=
  let s := s.tick t
  .next (match die with
    | .hbm h => s.modStack h fun x =>
      let w := warmAt x.above temp t
      { x with temp := temp, above := w, mult := max (refreshOf temp) (fallTo x.mult w t) }
    | .cellar c => s.modClu c fun x =>
      let w := warmAt x.refreshOver temp t
      { x with refreshOver := w, refreshC := max (refreshOf temp) (fallTo x.refreshC w t) }
    | .base _ => s)

/-! ### The outrider (07 R238) -/

/-- The next visit to fetch: the first from the running one on whose layer is in no slot, as its distance from the running visit and layer. -/
def State.nextVisit (s : State) (c : Nat) : Option (Nat × Nat) :=
  (s.visits c).zipIdx.findSome? fun e => if (s.caravanSlot c e.1).isNone then some (e.2, e.1) else none

/-- The slot a fetch takes (07 R238): free, and of those the one whose last visit is oldest; an empty slot is older than any. -/
def State.freeSlot (s : State) (c x : Nat) : Option Nat :=
  let busy := (s.visits c).take (x + 1)
  let age (i : Nat) : Nat := match tget none (s.cx c).car.slots i with | some v => v.last + 1 | none => 0
  let free := (List.range (s.cx c).car.latchedW).filter fun i => match tget none (s.cx c).car.slots i with
    | some v => !busy.contains v.layer
    | none => true
  free.foldl (fun (b : Option Nat) i => match b with
    | some j => if age i < age j then some i else some j
    | none => some i) none

/-- OUTRIDER_FETCH_START (07 R238). -/
def execOutriderFetchStart (ctx : Nat) (s : State) : Host.Outcome State Fault Refusal :=
  .next (
    let k := (s.cx ctx).car
    if k.fetch.isSome ∨ (s.cx ctx).run.isNone ∨ s.atFloor ∨ s.tg.st = 6 then s
    else
      match s.nextVisit ctx with
      | none => s
      | some (x, layer) =>
        if min k.inForce k.latchedW < x then s
        else
          match s.freeSlot ctx x with
          | none => s
          | some i =>
            s.modCx ctx fun y => { y with car := { y.car with
              slots := tset none y.car.slots i (some ⟨layer, false, [], y.car.running + x⟩), fetch := some (i, layer, x)
              poisoned := y.car.poisoned.filter fun e => e.1 != layer } })

/-- CARAVAN_FILL_COMPLETE (07 R238): the tiles still to come are in the slot. -/
def execCaravanFillComplete (ctx : Nat) (s : State) : Host.Outcome State Fault Refusal :=
  .next (match (s.cx ctx).car.fetch with
    | none => s
    | some (i, layer, _) =>
      let fin (s : State) : State := s.modCx ctx fun x => { x with car := { x.car with
        fetch := none
        slots := tmod none x.car.slots i fun (v : Option CarSlot) => v.map fun q => { q with full := true } } }
      match s.carEntry ctx layer with
      | none => fin s
      | some e =>
        let l := s.tilesToFill ctx layer e
        if l.any (s.fillWaits ctx layer e) then s
        else fin (l.foldl (fun (s : State) (t : Nat) => s.fillTile ctx layer e t) s))

/-- CARAVAN_FILL_ERROR (07 R244): a tile's read has failed twice. The slot copy is poisoned, both errors are counted (Table 7-13; DEDUCED, log 109), the
row of the line that failed is retired and its pseudo-channel tested. Which line of the tile failed, the event does not say (a free value, log 2). -/
def execCaravanFillError (ctx : Nat) (tile : Nat) (t : Nat) (s : State) : Host.Outcome State Fault Refusal :=
  .next (
    let s := s.tick t
    match (s.cx ctx).car.fetch with
    | none => s
    | some (_, layer, _) =>
      match s.carEntry ctx layer with
      | none => s
      | some e =>
        if !(s.tilesToFill ctx layer e).contains tile then s
        else
          let src := e.src + tile * tileBytes e.fmt
          let s := s.poisonTile ctx layer e tile (s.storedLine ctx src)
          let (v, s) := s.free
          let a := src + v.toNat % tileLines e.fmt * 256
          if a < s.tier2Size then
            let h := stackOf a
            let s := s.modStack h fun x => { x with uncorrectable := satAdd 0xFF x.uncorrectable 2 }
            ((s.enterPoison a).retireRow h (pcOf a) (rowOf a)).startTest (.pc h (pcOf a)) 0x09 a none
          else s)

/-! ### Regeneration (07 R245 to R247) -/

/-- The trained tensor whose working copy holds an address, with the tile's number. -/
def State.workingOf (s : State) (c a : Nat) : Option (Tensor × Nat) :=
  (s.tensorsOf c).findSome? fun e =>
    let t := e.1
    if t.working ≤ a ∧ a < t.working + t.kTiles * t.nTiles * tileBytes t.fmt then some (t, (a - t.working) / tileBytes t.fmt) else none

/-- A source of 07 R245 exists for tile `g` of tensor t: 0 local master, 1 buddy copy, 2 shard owner, 3 checkpoint. -/
def State.sourceExists (s : State) (c : Nat) (t : Tensor) (g src : Nat) : Bool :=
  let (first, count) := shardTiles t (s.groupSize c) (s.ownRank c)
  let own := decide (first ≤ g ∧ g < first + count)
  match src with
  | 0 => own && !t.frozen
  | 1 => own && !t.frozen && (s.buddyModule c).isSome && (s.cx c).mirrorValid
  | 2 => !own
  | _ => true

/-- The bytes of a range as they were last written, whatever poison stands on them: what the sweep wrote (07 R246). -/
def State.storedBytes (s : State) (c a n : Nat) : List Byte :=
  let first := a / 256 * 256
  slice ((List.range ((a + n + 255) / 256 - a / 256)).flatMap fun i => lineBytes (s.storedLine c (first + 256 * i))) (a - first) n

/-- The step of the sweep that wrote the working copies. -/
def Ctx.sweptStep (x : Ctx) : Nat := (x.lastSweep.map fun l => l.step).getD x.lastSwept

/-- The regenerated tile from a source; none when the source fails. The buddy's copy of the master is what the sweep wrote, read past the poison
here; another module's working tile gives the bits the sweep wrote (R246). -/
def State.regenTile (s : State) (c : Nat) (t : Tensor) (g a src : Nat) : State × Option (List Byte) :=
  let (first, _) := shardTiles t (s.groupSize c) (s.ownRank c)
  let m := t.master + (g - first) * tileBytes 1
  let work (bs : List Byte) : List Byte := s.workTile c t (s.cx c).sweptStep g true bs
  if src = 0 then
    match s.readAll c m (tileBytes 1) with
    | (s, some bs) => (s, some (work bs))
    | (s, none) => (s, none)
  else if src = 1 then (s, some (work (s.storedBytes c m (tileBytes 1))))
  else
    let bs := s.storedBytes c a (tileBytes t.fmt)
    let h := (lineOf (bs.take 256) &&& ~~~(BitVec.ofNat 2048 0x2C0)) ||| BitVec.ofNat 2048 0x240
    (s, some (lineBytes h ++ bs.drop 256))

/-- The owner's published seal of a unit of tensor t's working copy, as this module has it: its own table, or what the fetch of the unit brought. -/
def State.ownerSeals (s : State) (c : Nat) (t : Tensor) (r : Nat) : State × (Nat → Option DWord) :=
  if r = s.ownRank c then
    match s.published c t with
    | (s, some l) => (s, fun u => l[u]?)
    | (s, none) => (s, fun _ => none)
  else
    let i := (((s.tensorsOf c).find? fun e => e.1.id == t.id).map Prod.snd).getD 0
    (s, fun u => ((s.cx c).unitSeals.find? fun e => e.1 == (i, r, u)).map Prod.snd)

/-- Unit u of a working area as it stands, with the bytes w of a tile at address a put in. -/
def State.unitWith (s : State) (c wa wn u a : Nat) (w : List Byte) : List Byte :=
  let base := wa + u * sealUnit
  (s.storedBytes c base (unitBytes wn u)).zipIdx.map fun (e : Byte × Nat) => if a ≤ base + e.2 ∧ base + e.2 < a + w.length then w.getD (base + e.2 - a) 0 else e.1

/-- The seals of the units that hold a tile agree with the published ones, with the tile replaced (07 R245). A seal that this module does not have is
checked where it is: at the owner, whose working tile it is. -/
def State.sealAgrees (s : State) (c : Nat) (t : Tensor) (a : Nat) (w : List Byte) : State × Bool :=
  match (List.range (s.groupSize c)).find? fun r => let q := workingArea t (s.groupSize c) r; decide (q.1 ≤ a ∧ a < q.1 + q.2) with
  | none => (s, true)
  | some r =>
    let (wa, wn) := workingArea t (s.groupSize c) r
    let (s, published) := s.ownerSeals c t r
    let lo := (a - wa) / sealUnit
    let hi := (a - wa + w.length - 1) / sealUnit
    let agrees (u : Nat) : Bool := match published u with
      | some d => d == sealOf (tileBytes t.fmt) (u * sealUnit) (s.unitWith c wa wn u a w)
      | none => true
    (s, (List.range (hi + 1 - lo)).all fun i => agrees (lo + i))

/-- A buddy copy also repairs the local master (07 R245): its lines are written anew. -/
def State.healMaster (s : State) (c : Nat) (t : Tensor) (g : Nat) : State :=
  let (first, _) := shardTiles t (s.groupSize c) (s.ownRank c)
  let m := t.master + (g - first) * tileBytes 1
  s.dmaWrite c m (s.storedBytes c m (tileBytes 1))

/-- The tile that a source of 07 R245 gives, where it exists, does not fail and its seals agree. -/
def State.tryRegen (s : State) (c : Nat) (t : Tensor) (g a src : Nat) : Option (State × List Byte) :=
  if !s.sourceExists c t g src then none
  else
    match s.regenTile c t g a src with
    | (_, none) => none
    | (s, some w) =>
      match s.sealAgrees c t a w with
      | (_, false) => none
      | (s, true) => some (if src = 1 then s.healMaster c t g else s, w)

/-- No source yields the tile (07 R245, R247): the context freezes and stays so. -/
def State.tileLost (s : State) (c a : Nat) : State :=
  let s := s.faultTraining 5 c a
  ((s.modCx c fun x => { x with stuck := true }).freeze c).event 0x8007 c a

/-- A tile that a source gave takes the poisoned one's place, in its tensor and in its slot of the caravan (07 R245, R246). -/
def State.regenerated (s : State) (ctx layer tile src a : Nat) (fmt : Nat) (w : List Byte) : State :=
  let s := s.dmaWrite ctx a w
  let s := if (s.caravanSlot ctx layer).isSome then s.dmaWrite ctx (apertureAt ctx layer (tile * tileBytes fmt)) w else s
  let s := s.modCx ctx fun x => { x with car := { x.car with poisoned := x.car.poisoned.erase (layer, tile) } }
  s.fault 0x10 4 ctx 0 src 0xFFFF a 0

/-- TILE_REGENERATED (07 R245, R246): `src` is the source that gave the tile, 4 and above none. The local master comes first: while it gives the tile,
it is the source; what another module's answer is, the event says. -/
def execTileRegenerated (ctx : Nat) (layer : Nat) (tile : Nat) (src : Nat) (s : State) : Host.Outcome State Fault Refusal :=
  .next (
    match s.carEntry ctx layer with
    | none => s
    | some e =>
      let a := e.src + tile * tileBytes e.fmt
      if !(s.cx ctx).car.poisoned.contains (layer, tile) then s
      else
        match s.workingOf ctx a with
        | none => if 4 ≤ src then s.tileLost ctx a else s
        | some (t, g) =>
          match s.tryRegen ctx t g a 0 with
          | some (s, w) => s.regenerated ctx layer tile 0 a e.fmt w
          | none =>
            if src = 0 then s
            else if 4 ≤ src then s.tileLost ctx a
            else
              match s.tryRegen ctx t g a src with
              | some (s, w) => s.regenerated ctx layer tile src a e.fmt w
              | none => s)

/-! ### Spilled stash tiles (07 R243) -/

/-- The backward legs whose spilled tiles may be fetched now: those in flight, and the next one once a backward leg has started or no forward leg
is left. -/
def State.spillLegs (s : State) (c : Nat) : List LegInst :=
  let fly := (s.legs.filter fun g => g.ctx == c && g.inStep).map fun g => g.inst
  let todo := ((s.cx c).run.map fun r => r.todo).getD []
  let back (l : LegInst) : Bool := l.entry.phase == 1
  let next := if (fly.any back) || !((fly ++ todo).any fun l => l.entry.phase == 0) then (todo.find? back).toList else []
  fly.filter back ++ next

/-- A spilled tile of such a leg that is not back yet. -/
def State.spillWanted (s : State) (c : Nat) (t : StashTile) : Bool :=
  t.spilled && !t.fetched && (s.spillLegs c).any fun l => l.mu == some t.mu && ((s.stashSlot c t.slot).any fun e => e.layer == l.entry.layer)

/-- A spilled tile comes back into the saddlebag area (07 R243) while it has room there; its lines are copied. -/
def State.fetchSpill (s : State) (c : Nat) (t : StashTile) : State :=
  match (s.cx c).areaRoom t.bytes with
  | none => s
  | some at_ =>
    let new : StashTile := { t with fetched := true, area := some at_ }
    let u := s.modCx c fun x => { x with stash := x.stash.map fun (e : StashTile) => if e = t then new else e }
    let offs := (List.range (t.bytes / 256)).map fun i => t.off + 256 * i
    if offs.any fun o => (u.writeWaits (u.stashPlace c t.slot t.mu o)).isSome then s
    else offs.foldl (fun v o => (v.writePlace c (v.stashPlace c t.slot t.mu o) none (s.placeLine (s.stashPlace c t.slot t.mu o))).1) u

/-- STASH_SPILL_FETCH (07 R243): tiles come back while the area has room. -/
def execStashSpillFetch (ctx : Nat) (s : State) : Host.Outcome State Fault Refusal :=
  .next (if s.inDeep then s else ((s.cx ctx).stash.filter (s.spillWanted ctx)).foldl (fun s t => s.fetchSpill ctx t) s)

end Sys2Proof.Machine
end

