-- ==== Sys2Proof/Machine/Faults.lean ====
section
/-! DEFINITION. Faults of cores, memories, the MC and sensors, and the outcome of self-tests (12 Table 12-2, R415 to R424), but for power
stages. -/

namespace Sys2Proof.Machine

open Sys2Proof

/-- The cores and their memories are up (13 Table 13-1, step 6). -/
def State.coresUp (s : State) : Bool := s.pwr.switch && decide (6 ≤ s.mc.bringup) && !s.pwr.trip

/-! ### MC cores (12 Table 12-2, code 0x0D) -/

/-- What waybills of context c had begun or asked for is forgotten; a spare that waits for its first step stays admitted. -/
def Ctx.abandon (x : Ctx) : Ctx :=
  let busy := x.restore.isSome || x.take.any fun k => k.stage != 9
  { x with
    queue := [], legQ := [], boundary := [], exp := none, restore := none
    take := x.take.filter fun k => k.stage == 9
    fetching := if busy then none else x.fetching }

/-- Waybills that satisfy p end with 0x0205. -/
def State.abortWbs (s : State) (p : WbEntry → Bool) (detail : Nat) : State :=
  (s.host.wbs.filter p).foldl (fun s e => s.finish e.wb 0x0205 detail 0) s

/-- No self-test has a waybill that waits for it. -/
def State.dropTestWbs (s : State) : State :=
  { s with mc := { s.mc with tests := s.mc.tests.map fun (t : TestRun) => { t with waybill := none } } }

/-- What waybills had begun is forgotten in every context. -/
def State.abandonAll (s : State) : State := ((List.range 4).foldl (fun s c => s.modCx c Ctx.abandon) s).dropTestWbs

/-- MC_CORE_WATCHDOG (12 Table 12-2, Table 12-5 cause 9): the waybills that core 1 had started end; the steps that run and legs in flight go on. -/
def execMcCoreWatchdog (core : Nat) (t : Nat) (s : State) : Host.Outcome State Fault Refusal :=
  let s := s.tick t
  .next (
    if 3 ≤ core ∨ !(s.mc.coreAlive.getD core false) then s
    else
      let l := (s.mc.coreRestarts.filter fun e => decide (t < e.2 + 3600000000000)) ++ [(core, t)]
      let n := (l.filter fun e => e.1 == core).length
      let s := { s with mc := { s.mc with coreAlive := s.mc.coreAlive.set core false, coreRestarts := l } }
      let s := s.fault 0x0D 4 0xF core 0 0xFFFF 0 (if 3 ≤ n then 9 else 0)
      if core ≠ 1 then s else (s.abandonAll.abortWbs (fun e => e.started) 0).sweepWbs)

/-- MC_CORE_RESTART_COMPLETE (12 Table 12-2). -/
def execMcCoreRestartComplete (core : Nat) (s : State) : Host.Outcome State Fault Refusal :=
  .next (if 3 ≤ core ∨ s.mc.bringup < 5 then s else { s with mc := { s.mc with coreAlive := s.mc.coreAlive.set core true } })

/-! ### Cores, tier 0 and L1 -/

/-- Runs of cluster cl that use core position i. -/
def State.runsOf (s : State) (cl i : Nat) : List DescRun := (s.clu cl).runs.filter fun r => (decodeDesc r.desc).mask.getLsbD i

/-- A core that runs on its own hardware or on a remount. -/
def State.coreInUse (s : State) (k : Nat) : Bool := decide (k < 1536) && (s.clu (clusterOf k)).active.getLsbD (k % 32)

/-- A core fault during a recipe launch ends the leg, whatever the test finds (03 R90). -/
def State.endLaunch (s : State) (k : Nat) : State :=
  ((s.runsOf (clusterOf k) (k % 32)).filter fun r => (decodeDesc r.desc).kind == 0x80).foldl (fun s r => s.failLeg r.ctx r.leg 0x0408 k 1) s

/-- CORE_LOGIC_FAULT (12 Table 12-2, code 0x01): the output tile in hand is discarded, and the core is tested. -/
def execCoreLogicFault (core : Nat) (t : Nat) (s : State) : Host.Outcome State Fault Refusal :=
  let s := s.tick t
  .next (if !s.coresUp || !s.coreInUse core then s else (s.endLaunch core).startTest (.core core) 0x01 0 none)

/-- TIER0_UNCORRECTABLE (12 Table 12-2, code 0x02): the word stays bad until written. -/
def execTier0Uncorrectable (core : Nat) (off : Nat) (t : Nat) (s : State) : Host.Outcome State Fault Refusal :=
  let s := s.tick t
  .next (
    if !s.coresUp || !s.coreInUse core || decide (2 ^ 18 ≤ off) then s
    else
      let s := s.modCor core fun x => { x with badWords := if x.badWords.contains (off / 8) then x.badWords else x.badWords ++ [off / 8] }
      s.startTest (.bank core (off / 32768)) 0x02 off none)

/-- TIER0_CORRECTED (12 Table 12-2, code 0x03): the eighth in an hour in one bank tests it. -/
def execTier0Corrected (core : Nat) (off : Nat) (t : Nat) (s : State) : Host.Outcome State Fault Refusal :=
  let s := s.tick t
  .next (
    if !s.coresUp || !s.coreInUse core || decide (2 ^ 18 ≤ off) then s
    else
      let b := off / 32768
      let l := ((s.cor core).corrected.filter fun e => decide (t < e.2 + 3600000000000)) ++ [(b, t)]
      if (l.filter fun e => e.1 == b).length < 8 then s.modCor core fun x => { x with corrected := l }
      else (s.modCor core fun x => { x with corrected := l.filter fun e => e.1 != b }).startTest (.bank core b) 0x03 off none)

/-- The home of a modified copy that was lost. -/
def State.loseCopy (s : State) (id : LineId) : State :=
  if s.isDirect id then ((s.dropAll id).putHome id HomeLine.init).makePz id else s.poisonLine id

/-- L1_PARITY (12 Table 12-2, code 0x04). -/
def execL1Parity (core : Nat) (line : LineId) (t : Nat) (s : State) : Host.Outcome State Fault Refusal :=
  let s := s.tick t
  .next (
    match s.cel.l1.find? fun x => x.core == core && x.line == line with
    | none => s
    | some x =>
      let s := if x.modified then s.loseCopy line else (s.serve line (s.isDirect line) 0 (.dropCopy core)).1
      s.startTest (.core core) 0x04 (lineAddr line) none)

/-- SENSOR_FAULT (12 Table 12-2, code 0x0C). -/
def execSensorFault (sensor : Sensor) (t : Nat) (s : State) : Host.Outcome State Fault Refusal :=
  .next ((s.tick t).whenPowered fun s => s.sensorFails sensor)

/-! ### Units that fail their test (12 R417, Table 12-2) -/

/-- Core positions that do not run. -/
def State.idlePositions (s : State) (cl : Nat) : Nat := 32 - (setBits (s.clu cl).active).length

/-- Cause 2 of 12 Table 12-5 holds. -/
def State.coresShort (s : State) : Bool :=
  decide (4 < ((List.range 48).map s.idlePositions).sum) || (List.range 48).any fun k => decide (4 < s.idlePositions k)

/-- The remount in use at a position fails. -/
def Cluster.dropRemount (x : Cluster) (pos : Nat) : Cluster :=
  if x.rem32 = pos then { x with rem32 := 0x3F, failed32 := true }
  else if x.rem33 = pos then { x with rem33 := 0x3F, failed33 := true }
  else x

/-- What the repair map records of it (12 R421). -/
def State.remountNote (s : State) (cl pos : Nat) : List Repair :=
  if (s.clu cl).rem32 = pos then [.remountFailed cl 32] else if (s.clu cl).rem33 = pos then [.remountFailed cl 33] else []

/-- The remount that takes over next (12 R420). -/
def Cluster.nextRemount (x : Cluster) : Option Nat :=
  if x.rem32 = 0x3F ∧ !x.failed32 then some 32 else if x.rem33 = 0x3F ∧ !x.failed33 then some 33 else none

/-- A sweep segment that runs on a failing core goes on by the recovery of 08 R278. -/
def State.recoverSweep (s : State) (core : Nat) : State :=
  let cl := clusterOf core
  ((s.runsOf cl (core % 32)).filter fun r => (decodeDesc r.desc).kind == 0x70).foldl (fun s r =>
    (s.modRun r.ctx fun x => { x with recovered := true }).modLeg r.ctx r.leg fun g =>
      if g.resumes && !(g.resume.any fun q => q.1 == cl && q.2.1 == r.desc) then { g with resume := g.resume ++ [(cl, r.desc, r.done)] } else g) s

/-- A core fails (12 Table 12-2, code 0x01, fail): a recipe launch on it ends (03 R90); a remount takes over, at the first tile not done (03 R89), a sweep
by its recovery (08 R278); with none left the position is inactive (01 R11), and a descriptor that names it is no longer valid (03 R83). -/
def State.failCore (s : State) (core kind info : Nat) : State :=
  let cl := clusterOf core
  let pos := core % 32
  let note := s.remountNote cl pos
  let s := s.modClu cl fun x => x.dropRemount pos
  match (s.clu cl).nextRemount with
  | some r =>
    let s := (s.modClu cl fun x => if r = 32 then { x with rem32 := pos } else { x with rem33 := pos }).modCor core fun x => { x with bankMoved := none }
    ((s.retire (note ++ [.remount core r]) kind 1 (s.ownerCtx cl) core 0 r info 0).endLaunch core).recoverSweep core
  | none =>
    let s := s.modClu cl fun x => { x with active := x.active &&& ~~~(BitVec.ofNat 32 (2 ^ pos)) }
    let s := (s.retire (note ++ [.position core]) kind 3 (s.ownerCtx cl) core 0 0xFFFF info (if s.coresShort then 2 else 0)).endLaunch core
    (s.runsOf cl pos).foldl (fun s r => s.failLeg r.ctx r.leg 0x0106 (fld r.desc 16 16 + 2 ^ 16 * cl) 1) (s.modCor core fun x => { x with strands := [] })

/-- A tier-0 bank fails (12 Table 12-2, code 0x02, fail): its content moves to the core's spare bank; a second one fails the core. -/
def State.failBank (s : State) (core b kind info : Nat) : State :=
  if (s.cor core).bankMoved.isSome then s.failCore core kind info
  else (s.modCor core fun x => { x with bankMoved := some b }).retire [.bank core b] kind 1 (s.ownerCtx (clusterOf core)) core b 0 info 0

/-- A vertical channel fails: the line repair of code 0x06, or the ladder of 06 R199 for a coupler; a test that no coupler started has found one that
the manual does not name (a free value, log 2). -/
def State.failChannel (s : State) (k kind info : Nat) : State :=
  if kind = 0x06 then s.repairLine (infoLine k info) 0x06
  else if kind = 0x05 then s.couplerFails k (info % 2 == 1) (info / 2)
  else
    let (v, s) := s.free
    s.couplerFails k (bitAt v 16) (fld v 0 16)

/-- A pseudo-channel fails (12 Table 12-2, code 0x09, fail; 07 R222): whether the lane can be repaired is the stack's own (a free value, log 2). -/
def State.failPc (s : State) (h pc info : Nat) : State :=
  let (v, s) := s.free
  if bitAt v 0 then s.fault 0x09 1 0xF (h * 64 + pc) 0 0 info 0
  else (s.modStack h fun x => { x with failed := true }).fault 0x09 3 0xF (h * 64 + pc) 0 0xFFFF info 5

/-- The lanes of a port that can carry traffic, as far as its retired lanes and its neighbour tell. -/
def Port.usable (x : Port) : BitVec 8 := ~~~x.retired &&& (if x.peer = 0 then 0xFF else x.peer)

/-- Cause 6 of 12 Table 12-5 holds: lanes retired, or a port below width 2 for them. -/
def State.lanesShort (s : State) : Bool :=
  decide (12 < (s.fab.ports.map fun e => (setBits e.2.retired).length).sum) || s.fab.ports.any fun e => e.2.retired != 0 && decide (widthOf e.2.usable < 2)

/-- A port takes the width of its lanes; with none it is down (09 R310). It widens in a step window only (10 R347): else at the next one. -/
def State.fitWidth (s : State) (p : Nat) : State :=
  if (s.port p).width = 0 then s
  else
    let w := s.widthNow (s.port p).lanes
    if w = 0 then s.portDown p else s.setWidth p (if s.mayWiden then w else min (s.port p).width w)

/-- A lane fails its test (09 R309): it is retired. -/
def State.failLane (s : State) (p l info : Nat) : State :=
  let b := BitVec.ofNat 8 (2 ^ l)
  let s := (s.modPort p fun x => { x with own := x.own &&& ~~~b, retired := x.retired ||| b, laneFailed := x.laneFailed || x.suspect })
  (s.retire [.lane p l] 0x0A 2 0xF (p * 8 + l) 0 0xFFFF info (if s.lanesShort then 6 else 0)).fitWidth p

/-- A lane passes its test: it rejoins. -/
def State.passLane (s : State) (p l : Nat) : State :=
  (s.modPort p fun x => { x with own := x.own ||| BitVec.ofNat 8 (2 ^ l) }).fitWidth p

/-- A port is suspect until every one of its lanes has passed its test (09 R308). -/
def State.clearSuspect (s : State) (p : Nat) : State :=
  if s.mc.tests.any fun t => (match t.unit with | .lane q _ => q == p | _ => false) then s
  else s.modPort p fun x => { x with suspect := x.suspect && x.laneFailed }

/-- The fault kind of a unit whose test a waybill asked for. -/
def TestUnit_kind : TestUnit → Nat
  | .core _ => 0x01
  | .bank _ _ => 0x02
  | .channel _ => 0x05
  | .pc _ _ => 0x09
  | .lane _ _ => 0x0A

/-- Unit and sub of a fault record (12 Table 12-1). -/
def TestUnit_where : TestUnit → Nat × Nat
  | .core k => (k, 0)
  | .bank k b => (k, b)
  | .channel k => (k, 0)
  | .pc h p => (h * 64 + p, 0)
  | .lane p l => (p * 8 + l, 0)

/-- The context that a fault of a unit affects (12 Table 12-1): of units of a cluster, its owner. DEDUCED (log 112). -/
def State.unitCtx (s : State) : TestUnit → Nat
  | .core k => s.ownerCtx (clusterOf k)
  | .bank k _ => s.ownerCtx (clusterOf k)
  | .channel k => s.ownerCtx (clusterOf k)
  | .pc _ _ => 0xF
  | .lane _ _ => 0xF

/-- The parameters of SELF_TEST that name a unit (11 Table 11-11). -/
def TestUnit_code : TestUnit → Nat
  | .core k => 2 ^ 16 * k
  | .bank k b => 1 + 2 ^ 16 * k + 2 ^ 32 * b
  | .channel k => 2 + 2 ^ 16 * k
  | .pc h p => 3 + 2 ^ 16 * h + 2 ^ 32 * p
  | .lane p l => 4 + 2 ^ 16 * p + 2 ^ 32 * l

/-- The unit has been retired already (12 R418). -/
def State.unitRetired (s : State) : TestUnit → Bool
  | .core k => !s.coreInUse k
  | .bank k _ => !s.coreInUse k
  | .channel k => (s.col k).failed || (s.col k).leaving
  | .pc h _ => (s.stack h).failed
  | .lane p l => (s.port p).retired.getLsbD l

/-- The unit fails. -/
def State.failUnit (s : State) (u : TestUnit) (kind info : Nat) : State :=
  match u with
  | .core k => s.failCore k kind info
  | .bank k b => s.failBank k b kind info
  | .channel k => s.failChannel k kind info
  | .pc h p => s.failPc h p info
  | .lane p l => s.failLane p l info

/-- The unit passes: the fault was transient (12 R417), and a lane rejoins. -/
def State.passUnit (s : State) (x : TestRun) : State :=
  let w := TestUnit_where x.unit
  let s := if x.kind = 0 then s else s.fault x.kind 0 (s.unitCtx x.unit) w.1 w.2 0xFFFF x.info 0
  match x.unit with
  | .lane p l => s.passLane p l
  | _ => s

/-- The final receipt of the waybill that asked for a test. -/
def State.answerTest (s : State) (x : TestRun) (ok : Bool) : State :=
  match x.waybill with
  | some w => s.finish w (if ok then 0 else 0x0701) (if ok then 0 else TestUnit_code x.unit) 0
  | none => s

/-- Self-tests of a unit within 24 h of time t. -/
def recentTests (l : List (TestUnit × Nat)) (t : Nat) : List (TestUnit × Nat) := l.filter fun e => decide (t < e.2 + 86400000000000)

/-- A self-test ends (12 R417, R418): the fourth within 24 h counts as failed, and a retired unit only reports. Requests that waited for a channel's test
are replayed (06 R167). -/
def State.testDone (s : State) (x : TestRun) (pass : Bool) (t : Nat) : State :=
  let l := recentTests s.mc.testHistory t ++ [(x.unit, t)]
  let ok := pass && decide ((l.filter fun e => e.1 == x.unit).length < 4)
  let retired := s.unitRetired x.unit
  let s := { s with mc := { s.mc with
    tests := s.mc.tests.filter fun y => y.unit != x.unit
    testHistory := if ok || retired then l else l.filter fun e => e.1 != x.unit } }
  let s :=
    if retired then s
    else if ok then s.passUnit x
    else s.failUnit x.unit (if x.kind = 0 then TestUnit_kind x.unit else x.kind) x.info
  let s := match x.unit with
    | .lane p _ => s.clearSuspect p
    | .channel k => s.modCol k fun y => { y with crcTries := y.crcTries.filter fun e => e.2 != 4 }
    | _ => s
  let s := s.answerTest x (if retired then pass else ok)
  match x.unit with
  | .channel _ => s.endPause
  | .pc _ _ => s.endPause
  | _ => s.sweepWbs

/-- SELF_TEST_COMPLETE (12 R416 to R418): core 2 runs the tests; one that a shed stopped runs again after the floor (10 R352). -/
def execSelfTestComplete (unit : TestUnit) (pass : Bool) (t : Nat) (s : State) : Host.Outcome State Fault Refusal :=
  let s := s.tick t
  .next (
    match s.mc.tests.find? fun x => x.unit == unit with
    | none => s
    | some x => if !(s.mc.coreAlive.getD 2 false) || s.tg.shedWork.contains unit then s else s.testDone x pass t)

end Sys2Proof.Machine
end

