-- ==== Sys2Proof/Machine/Resets.lean ====
section
/-! DEFINITION. Resets (13 R449 to R454): the context, warm and cold reset, power loss and power-on, the thermal trip, RESET_N and the
watchdog. -/

namespace Sys2Proof.Machine

open Sys2Proof

/-! ### Contexts after a reset (13 R453) -/

/-- A reduced gradient of the step of context c stands under a lock: a reset loses it (08 R279). -/
def State.reducedLost (s : State) (c : Nat) : Bool := !(s.lockedLines fun k => k.ctx == c && k.inStep && s.isReduced c k.tensor).isEmpty

/-- A sweep or fetch leg interrupted by a reset: it goes on later under 08 R278, and no segment of it has failed. -/
def State.pauseLeg (s : State) (g : LegRun) : State :=
  if g.status ≠ 0 then s else (s.endLeg g.ctx g.id 0x0409 0).modLeg g.ctx g.id fun x => { x with status := 0, detail := 0 }

/-- A leg outside a step is gone. -/
def State.cutLonely (s : State) (g : LegRun) : State := (s.closeLegLocks g).dropLeg g s.now

/-- A leg that a warm or cold reset interrupts (08 Table 8-5). -/
def State.resetLeg (s : State) (g : LegRun) : State :=
  if !g.inStep then s.cutLonely g
  else
    match g.inst.entry.phase with
    | 2 => (s.withdraw g.ctx).dropLeg g s.now
    | 3 => s.pauseLeg g
    | 4 => s.pauseLeg g
    | _ =>
      let s := match g.inst.mu with
        | some mu => s.dropMu g.ctx mu 6
        | none => s
      s.dropLeg g s.now

/-- What the MC and the outrider had begun for a context is forgotten. -/
def Ctx.cut (x : Ctx) : Ctx := { x.abandon with mirroring := none, car := { x.car with fetch := none } }

/-- The step of a context without a partner goes on, but closes void when its reduced gradients were lost. -/
def State.keepStep (s : State) (c : Nat) (lost : Bool) : State :=
  if lost then ((s.legs.filter fun g => g.ctx == c).foldl (fun s g => s.dropLeg g s.now) s).modRun c fun r => { r with decision := some .void_, todo := [] }
  else s

/-- The step of a member that partners have declared lost ends void: at once, or after the sweep leg that the reset interrupted. -/
def State.loseStep (s : State) (c : Nat) : State :=
  let s := (s.legs.filter fun g => g.ctx == c && g.inst.entry.phase == 4).foldl (fun s g => s.dropLeg g s.now) s
  if (s.cx c).run.isSome && s.legs.any fun g => g.ctx == c then
    (s.modRun c fun r => { r with todo := [], lostRank := true }).modCx c fun x => { x with mask := { x.mask with members := [] } }
  else (s.voidStep c s.now).loseRank c

/-- A context after a warm or cold reset (13 R453); `lost` says that its reduced gradients are. -/
def State.resetCtx (s : State) (c : Nat) (lost : Bool) : State :=
  if !(s.cx c).live then s
  else
    let s := (s.legs.filter fun g => g.ctx == c).foldl State.resetLeg s
    let s := s.modCx c Ctx.cut
    if s.groupSize c = 1 then s.keepStep c lost else s.loseStep c

/-! ### The cellar after a reset (06 Table 6-11) -/

/-- Lines whose home stands in a state. -/
def State.linesIn (s : State) (st : LineSt) : List LineId := (s.cel.lines.filter fun e => e.2.st == st).map fun e => e.1

/-- Nothing waits at a column, and its controller starts anew; its spares, its place in the map, its trims and a retrim that is due (13 R449) stay. -/
def Column.cleared (x : Column) : Column :=
  { Column.init with
    upSpares := x.upSpares, downSpares := x.downSpares, borrowing := x.borrowing, lent := x.lent, failed := x.failed, leftMap := x.leftMap
    margin := x.margin, retrimDue := x.retrimDue, failing := x.failing, substitute := x.substitute, silent := x.silent, evacuating := x.evacuating, sparesUsed := x.sparesUsed
    trims := x.trims }

/-- Every column changed. -/
def State.allCols (s : State) (f : Column → Column) : State := (s.cel.columns.map Prod.fst).foldl (fun s k => s.modCol k f) s

/-- No core holds a copy any more. -/
def State.dropCopies (s : State) : State :=
  let ids := (s.cel.lines.filter fun e => e.2.st == .s || e.2.st == .e).map fun e => e.1
  let s := { s with cel := { s.cel with l1 := [] } }
  ids.foldl (fun s id => s.putHome id (if s.isDirect id then HomeLine.init else { (s.homeLine id).alone with st := .v })) s

/-- Warm reset: the requests in flight complete in the order they were sent, contributions that then wait are discarded, lines held by an L1 are
recalled, locked lines become PZ, and shelf windows but those of class 3 are released. -/
def State.warmCellar (s : State) : State :=
  let c := s.cel.sent
  let l := s.cel.sentImm
  let s := c.foldl State.arrive { s with cel := { s.cel with sentImm := [], sent := [] } }
  let s := l.foldl (fun s o => (s.immArrive o).getD s) s
  let s := { s with cel := { s.cel with sentImm := [], sent := [] } }
  let s := (s.linesIn .e).foldl (fun s id => s.recallAll id (s.isDirect id)) s
  let s := (s.linesIn .rl).foldl State.poisonLine s.dropCopies
  (s.allCols Column.cleared).releaseShelves fun w => w.cls != 3

/-- Cold reset: what is in flight is discarded and its lines become PZ, as do locked lines and those an L1 holds for itself. -/
def State.coldCellar (s : State) : State :=
  let hit := (s.cel.sent.map fun c => c.line) ++ (s.cel.sentImm.map fun o => o.line) ++ s.linesIn .e ++ s.linesIn .rl
  let s := s.allCols Column.cleared
  let s := { s with cel := { s.cel with sent := [], sentImm := [] } }
  let s := ((hit.dedup.foldl State.loseCopy s).dropCopies).releaseShelves fun _ => true
  let r := State.reset.cel
  { s with cel := { s.cel with keepCap := r.keepCap, thrashEn := r.thrashEn, thrashWarn := r.thrashWarn, pressWaitMs := r.pressWaitMs, trained := false } }

/-! ### The other units -/

/-- A cluster after a warm reset: an interrupted sweep or fetch leg keeps its place. -/
def Cluster.warm (x : Cluster) : Cluster :=
  let y := { x with runs := [], suspended := none, rejected := false, cnt := ClCnt.init }
  if x.leg.isSome then y else { y with queue := [], events := [] }

/-- A cluster after a cold reset: its context, function slots, recipes and partition stay (13 Table 13-2). -/
def Cluster.cold (x : Cluster) : Cluster :=
  { Cluster.init with
    owner := x.owner, leg := x.leg, queue := if x.leg.isSome then x.queue else [], events := if x.leg.isSome then x.events else []
    frozen := x.frozen, slots := x.slots, recipe := x.recipe, statLimit := x.statLimit, blocks := x.blocks, scratchUnits := x.scratchUnits }

/-- Every core changed. -/
def State.allCores (s : State) (f : Core → Core) : State := (s.cores.map Prod.fst).foldl (fun s k => s.modCor k f) s

/-- Every stack changed. -/
def State.allStacks (s : State) (f : Stack → Stack) : State := (List.range 16).foldl (fun s h => s.modStack h f) s

/-- A stack after a cold reset: its contents and what is known of its rows stay. -/
def Stack.cold (x : Stack) : Stack := { Stack.init with remap := x.remap, hard := x.hard, moving := x.moving, poison := x.poison, victims := x.victims }

/-- A port after a warm reset: retired lanes, the dateline and what is known of the neighbour stay. -/
def Port.cleared (x : Port) : Port := { Port.init with retired := x.retired, dateline := x.dateline, peerAlive := x.peerAlive, departed := x.departed, peerId := x.peerId }

/-- A port after a cold reset (09 Table 9-11): the dateline is restored (13 Table 13-2), and the neighbour's pin is what it is; lanes are retired anew from the
repair map. -/
def Port.cold (x : Port) : Port := { Port.init with dateline := x.dateline, peerAlive := x.peerAlive }

/-- Every port changed. -/
def State.allPorts (s : State) (f : Port → Port) : State := (List.range 12).foldl (fun s p => s.modPort p f) s

/-- What the fabric had on its way is gone. -/
def Fabric.cleared (f : Fabric) : Fabric := { f with flights := [], holding := [], later := [], selfDeparted := false }

/-- The fabric after a cold reset: the route table and its datelines are restored (13 Table 13-2). -/
def Fabric.cold (f : Fabric) : Fabric := { State.reset.fab with loaded := f.loaded, table := f.table, ports := f.ports }

/-- The host interface after a cold reset: rings disabled without receipts (11 R397), the link as it is. The tier 3 window stays, for the maps of the
contexts stay and their dirty lines are written back through it (06 R202; DEDUCED, log 110). -/
def HostIf.cold (h : HostIf) : HostIf :=
  { HostIf.init with
    linkUp := h.linkUp, linkWidth := h.linkWidth, t3Cxl := h.t3Cxl, perst := h.perst
    t3Enable := h.t3Enable, t3Base := h.t3Base, t3Size := h.t3Size, t3Pending := h.t3Pending }

/-- A firmware update that a reset interrupts leaves the inactive image rejected (13 R463). -/
def State.dropUpdate (s : State) : State :=
  match s.mgmt.update with
  | some (1, _) =>
    let f := s.mc.flash
    { s with mc := { s.mc with flash := { f with rejected := if f.active then (true, f.rejected.2) else (f.rejected.1, true) } } }
  | _ => s

/-- The tollgate after a cold reset: A from the retention floor (10 R353); pins and input stay as they are; legs that go on keep their share. -/
def State.coldToll (s : State) : Toll :=
  { State.reset.tg with
    shed := s.tg.shed, shedSince := s.tg.shedSince, inputTerm := s.tg.inputTerm
    committed := s.countShares.tg.committed, peak := s.countShares.tg.peak }

/-- The period of the nominal frequency held in flash, in 10 ns (10 R344, Table 10-14). -/
def Flash.nominalPeriod (f : Flash) : Nat := if f.nominal60 then 1666667 else 2000000

/-- The beat after a cold reset: the slot clock runs at the nominal frequency (10 R344). -/
def State.coldBeat (s : State) : Beat := { State.reset.beat with period := s.mc.flash.nominalPeriod }

/-- The heat model after a cold reset; an inlet sensor that has failed stays failed (10 R357). -/
def State.coldHeat (s : State) : Heat := { State.reset.heat with fault := s.pwr.sensorsBad.contains .inlet }

/-- The MC after a cold reset: it restarts from flash (13 Table 13-2). -/
def Mc.cold (m : Mc) (cause : Nat) : Mc :=
  { m with
    coreAlive := [false, false, false], image := false, resetCause := cause, eventsLost := 0, bringup := 3, tests := [], testHistory := [], coreRestarts := []
    resetting := some 3, romHalt := false, freezeReq := none }

/-- Management after a cold reset: the bus is SMBus again (13 R461). The TAP has a reset of its own. -/
def Mgmt.cold (m : Mgmt) : Mgmt := { State.reset.mgmt with pendingCfg := m.pendingCfg, tap := m.tap, stackSel := m.stackSel, cells := m.cells }

/-- The cold reset of 13 R451. -/
def State.coldStart (s : State) (cause : Nat) : State :=
  let s := (s.setAlive false).idleLanes
  let lost := (List.range 4).map s.reducedLost
  let s := { s with host := s.host.cold }
  let s := (List.range 4).foldl (fun s c => s.resetCtx c (lost.getD c false)) s.coldCellar
  let s := (((s.allClu Cluster.cold).allCores fun x => { x with strands := [], corrected := [] }).allStacks Stack.cold).allPorts Port.cold
  let s := s.dropUpdate
  { s with
    fab := s.fab.cold, mc := s.mc.cold cause, tg := s.coldToll, beat := s.coldBeat, heat := s.coldHeat
    pwr := { s.pwr with throttles := [] }, mgmt := s.mgmt.cold }

/-- The warm reset of 13 R452. -/
def State.warmReset (s : State) : State :=
  let up := s.pwr.alive
  let s := (s.setAlive false).idleLanes
  let lost := (List.range 4).map s.reducedLost
  let s := (List.range 4).foldl (fun s c => s.resetCtx c (lost.getD c false)) s.warmCellar
  let s := (((s.allClu Cluster.warm).allCores fun x => { x with strands := [] }).allPorts Port.cleared).dropTestWbs
  let s := { s with fab := s.fab.cleared, mc := { s.mc with resetCause := 4 } }
  let s := (List.range 48).foldl State.startDue (s.abortWbs (fun _ => true) 2)
  if up then s.trainPorts.setAlive true else s

/-! ### Power (10 Table 10-2, 13 Table 13-2) -/

/-- The state when power is gone: what flash, pins and the host hold stays. -/
def State.darkened (s : State) : State :=
  let r := State.reset
  let s := s.dropUpdate
  { r with
    pending := s.pending, now := s.now, freeCtr := s.freeCtr, out := s.out
    mem := { r.mem with host := s.mem.host }
    host := { HostIf.init with perst := s.host.perst }
    mc := { r.mc with
      serviceReq := s.mc.serviceReq, causes := s.mc.causes, faultSeq := s.mc.faultSeq, flashLog := s.mc.flashLog, repairMap := s.mc.repairMap
      bringup := 0, resetNLow := s.mc.resetNLow, flash := s.mc.flash, geoId := s.mc.geoId, mgmtAddr := s.mc.mgmtAddr }
    hbm := { r.hbm with tall := s.hbm.tall }
    tg := { r.tg with shed := s.tg.shed, shedSince := s.tg.shedSince }
    pwr := { r.pwr with switch := false, stages := List.replicate 8 .off, baseTemps := s.pwr.baseTemps }
    mgmt := { r.mgmt with pendingCfg := s.mgmt.pendingCfg } }

/-- THERMTRIP_N. -/
def State.setTrip (s : State) (b : Bool) : State :=
  if s.pwr.trip = b then s else { s with pwr := { s.pwr with trip := b } }.emit (.thermtrip b)

/-- The input switch opens (10 Table 10-2): every output is released (14 Table 14-4), SERVICE_N until bring-up step 5. -/
def State.losePower (s : State) : State :=
  let s := (((s.setAlive false).setService false).idleLanes).setTrip false
  { s with mc := { s.mc with causes := [] } }.darkened

/-- POWER_LOSS (10 R331). -/
def execPowerLoss (t : Nat) (s : State) : Host.Outcome State Fault Refusal :=
  let s := s.tick t
  .next (if s.pwr.switch then s.losePower else s)

/-- POWER_ON (13 R442 step 1): the input switch closes. -/
def execPowerOn (t : Nat) (s : State) : Host.Outcome State Fault Refusal :=
  let s := s.tick t
  .next (if s.pwr.switch then s else { s with pwr := { s.pwr with switch := true }, mc := { s.mc with bringup := 1 } })

/-- POWER_STAGE_PHASE_FAULT (12 Table 12-2, code 0x0B): the phase is dropped; a stage that cannot hold its output acts as power loss. -/
def execPowerStagePhaseFault (stage : Nat) (phase : Nat) (holds : Bool) (t : Nat) (s : State) : Host.Outcome State Fault Refusal :=
  .next ((s.tick t).whenPowered fun s =>
    if 8 ≤ stage ∨ s.pwr.stageBad.contains (stage, phase) then s
    else
      let s := { s with pwr := { s.pwr with stageBad := s.pwr.stageBad ++ [(stage, phase)] } }
      let s := s.retire [.phase stage phase] 0x0B 2 0xF stage phase 0xFFFF 0 7
      if holds then s else s.losePower)

/-! ### Thermal trip (10 R360, 13 R454) -/

/-- The trip limit of a die in °C (10 Table 10-8). -/
def tripLimit : Die → Nat
  | .base _ => 115
  | .cellar _ => 110
  | .hbm _ => 105

/-- The thermal trip: stages 0 to 6 go off and their state is lost; stage 7 keeps the MC, BAR2 and the priority entries. -/
def State.tripNow (s : State) : State :=
  let s := ((s.setAlive false).idleLanes).setTrip true
  let d := s.darkened
  let s := { d with
    mem := { d.mem with bar2 := s.mem.bar2 }
    host := { d.host with
      prioTail := s.host.prioTail, prioHead := s.host.prioHead, prioBusy := s.host.prioBusy, mctpBusy := s.host.mctpBusy, overrun := s.host.overrun
      prioQ := s.host.prioQ, mctpQ := s.host.mctpQ, barServed := s.host.barServed }
    mc := { s.mc with flash := d.mc.flash, bringup := min 5 s.mc.bringup, zeroDone := false, tests := [] }
    tg := { s.tg with entering := none, committed := 0, peak := 0, governing := false, shedWork := [], yielded := [] }
    beat := s.beat
    heat := s.heat
    pwr := { s.pwr with stages := [.off, .off, .off, .off, .off, .off, .off, .up], throttles := [] }
    mgmt := { s.mgmt with update := none } }
  s.setTg 6

/-- THERMAL_TRIP (10 R360). -/
def execThermalTrip (die : Die) (temp : Nat) (t : Nat) (s : State) : Host.Outcome State Fault Refusal :=
  .next (((s.tick t).noteTemp die temp).whenPowered fun s => if s.pwr.trip ∨ temp ≤ tripLimit die then s else s.tripNow)

/-- The cold plate has stayed below 60 °C for 60 s. -/
def State.plateCool (s : State) : Bool := match s.heat.coolSince with
  | some u => decide (u + 60000000000 ≤ s.now)
  | none => false

/-- The cold reset that ends a trip: the power-on sequence from step 6, step 13 included (13 R454). -/
def State.endTrip (s : State) : State :=
  let s := (s.setTrip false).setTg 2
  let s := s.dropUpdate
  { s with
    mc := { s.mc with resetCause := 5, bringup := min 5 s.mc.bringup, zeroDone := false, resetting := some 3 }
    tg := s.coldToll, beat := s.coldBeat, heat := s.coldHeat, mgmt := s.mgmt.cold }

/-! ### RESET_N and the watchdog (13 R451, R454) -/

/-- RESET_N_ASSERT (13 R451, R454): in a trip it does nothing until the plate is cool. -/
def execResetNAssert (t : Nat) (s : State) : Host.Outcome State Fault Refusal :=
  let s := s.tick t
  .next (
    let s := { s with mc := { s.mc with resetNLow := true } }
    if !s.powered then s
    else if s.pwr.trip then (if s.plateCool then { s with mc := { s.mc with resetting := some 3, resetCause := 5 } } else s)
    else s.coldStart 1)

/-- RESET_N_RELEASE (13 R451, R454, R466): bring-up goes on; test mode and a trip that was reset end. -/
def execResetNRelease (t : Nat) (s : State) : Host.Outcome State Fault Refusal :=
  let s := s.tick t
  .next (
    let s := { s with mc := { s.mc with resetNLow := false, testMode := false } }
    if s.powered && s.pwr.trip && s.mc.resetting.isSome then s.endTrip else s)

/-- WATCHDOG_EXPIRY (13 R451). -/
def execWatchdogExpiry (t : Nat) (s : State) : Host.Outcome State Fault Refusal :=
  .next ((s.tick t).whenPowered fun s => if s.pwr.trip ∨ s.mc.resetNLow then s else s.coldStart 2)

/-! ### RESET on the priority ring (11 R401, 13 R452, R454) -/

/-- The entry leaves its source; its receipt is written when the reset in progress completes (13 R454). -/
def State.joinReset (s : State) (e : PrioEntry) : State :=
  { s with
    host := { s.host with
      prioBusy := if e.mctp then s.host.prioBusy else false, mctpBusy := if e.mctp then false else s.host.mctpBusy
      prioHead := if e.mctp then s.host.prioHead else (e.slot + 1) % 16 }
    mc := { s.mc with resetEntries := s.mc.resetEntries ++ [e] } }

/-- A waybill of context c runs: it has begun, and neither waits for a boundary nor in a queue. -/
def State.wbRuns (s : State) (c : Nat) (e : WbEntry) : Bool :=
  let x := s.cx c
  e.started && e.wb.context == c && e.wb.op != 0x3001 && !(x.queue ++ x.legQ ++ x.boundary).contains e.wb

/-- Tier 0, queues and event counters of the clusters of a context cleared; a sweep or fetch leg that goes on keeps what is left of it (08 R278). -/
def State.clearClusters (s : State) (c : Nat) : State :=
  (s.owned c).foldl (fun s k =>
    let kept := match (s.clu k).leg with
      | some q => (s.legOf q.1 q.2).any LegRun.resumes
      | none => false
    let s := s.clear .tier0 (tier0Key (k * 32) 0) (32 * 2 ^ 18)
    let s := (List.range 32).foldl (fun s i => s.modCor (k * 32 + i) fun x => { x with strands := [], badWords := [] }) s
    s.modClu k fun x => if kept then { x with runs := [] } else { x with runs := [], queue := [], events := [] }) s

/-- The context reset of 13 R452. -/
def State.contextReset (s : State) (c : Nat) : State :=
  let s := s.freezeNow c
  let l := s.host.wbs.filter (s.wbRuns c)
  let s := (s.legs.filter fun g => g.ctx == c && !g.inStep).foldl State.cutLonely s
  let x := s.cx c
  let s := s.modCx c fun y => { y.abandon with queue := x.queue, legQ := x.legQ, boundary := x.boundary }
  let s := l.foldl (fun s e => s.finish e.wb 0x0205 1 0) s
  (s.clearClusters c).thawCtx c

/-- RESET of a level. -/
def isReset (level : Nat) (w : Waybill) : Bool := w.op == 0xF004 && w.p 0 2 == level

/-- RESET_CONTEXT (13 R452). -/
def execResetContext (e : PrioEntry) (s : State) : Host.Outcome State Fault Refusal :=
  .next (s.runPrio e (isReset 1) fun s =>
    if s.mc.resetting.isSome then s.joinReset e else ((s.contextReset (PrioEntry_wb e).context).finishPrio e 0 0).sweepWbs)

/-- RESET_WARM (13 R452). -/
def execResetWarm (e : PrioEntry) (t : Nat) (s : State) : Host.Outcome State Fault Refusal :=
  let s := s.tick t
  .next (s.runPrio e (isReset 2) fun s => if s.mc.resetting.isSome then s.joinReset e else s.warmReset.finishPrio e 0 0)

/-- RESET_COLD (13 R451); in a trip it is refused until the plate is cool (10 R360). -/
def execResetCold (e : PrioEntry) (t : Nat) (s : State) : Host.Outcome State Fault Refusal :=
  let s := s.tick t
  .next (s.runPrio e (isReset 3) fun s =>
    if s.pwr.trip ∧ !s.plateCool then s.finishPrio e 0x0206 s.heat.plate
    else if s.mc.resetting.isSome then s.joinReset e
    else if s.pwr.trip then (s.joinReset e).endTrip
    else (s.joinReset e).coldStart 3)

end Sys2Proof.Machine
end

