-- ==== Sys2Proof/Machine/Bringup.lean ====
section
/-! DEFINITION. Bring-up (13 Table 13-1): the boot image, the repair map, training, and bring-up complete. -/

namespace Sys2Proof.Machine

open Sys2Proof

/-! ### The boot image (13 R456, R457) -/

/-- The bytes of an image: A is false. -/
def Flash.image (f : Flash) (b : Bool) : List Byte := if b then f.imageB else f.imageA

/-- Its security version. -/
def Flash.secVersion (f : Flash) (b : Bool) : Nat := if b then f.security.2 else f.security.1

/-- An update has left the image rejected. -/
def Flash.isRejected (f : Flash) (b : Bool) : Bool := if b then f.rejected.2 else f.rejected.1

/-- The ROM accepts an image: signature, security version, and, of the active one, fewer than three boots that did not reach step 14. -/
def Flash.imageOk (f : Flash) (b : Bool) : Bool :=
  !f.isRejected b && Config.imageSignatureOk (f.image b) && decide (f.minSecurity ≤ f.secVersion b) && !(b == f.active && decide (3 ≤ f.attempts))

/-- A rejected image (12 Table 12-2, code 0x0E). -/
def State.rejectImage (s : State) (b : Bool) : State := s.fault 0x0E 4 0xF 0 0 0xFFFF (b2n b) 10

/-- The flash changed. -/
def State.modFlash (s : State) (f : Flash → Flash) : State := { s with mc := { s.mc with flash := f s.mc.flash } }

/-- An entry of the repair map as numbers. -/
def Repair.content : Repair → List Nat
  | .remount core sp => [0, core, sp]
  | .remountFailed cl sp => [1, cl, sp]
  | .position core => [2, core]
  | .bank core b => [3, core, b]
  | .coupler k up c => [4, k, b2n up, c]
  | .channel k => [5, k]
  | .column k => [6, k]
  | .line k l => [7, k, l]
  | .row h pc n => [8, h, pc, n]
  | .lane p l => [9, p, l]
  | .phase st ph => [10, st, ph]
  | .sensor .inlet => [11]
  | .sensor (.base q) => [12, q]
  | .sensor (.cellarC1 c) => [13, c]
  | .sensor (.cellarC4 c) => [14, c]
  | .sensor (.hbm h) => [15, h]
  | .cause c => [16, c]

/-- What State holds of a measured item (13 Table 13-4) when image b runs. -/
def State.measuredContent (s : State) (b : Bool) (i : Nat) : List Nat :=
  let f := s.mc.flash
  let img (b : Bool) : List Nat := (f.image b).map fun x => x.toNat
  match i with
  | 2 => f.secVersion b :: img b
  | 3 => img (!b)
  | 4 => [b2n f.idSource, f.moduleId, f.dx, f.dy, f.dz, b2n f.nominal60, b2n f.hbmRate, b2n f.active, f.attempts]
  | 5 => s.mc.repairMap.flatMap fun r => let l := Repair.content r; l.length :: l
  | 6 => [f.minSecurity]
  | _ => []

/-- The measurements of a boot of image b (13 R460): SHA-384 of each item. -/
def State.measure (s : State) (b : Bool) : List (List Byte) :=
  (List.range 6).map fun i => sha384 (Config.measuredItem (i + 1) (s.measuredContent b (i + 1)))

/-- The ROM takes the active image, else the other; with neither it stays (13 R456). -/
def State.pickImage (s : State) : State :=
  let f := s.mc.flash
  let run (s : State) (b : Bool) : State :=
    { s with mc := { s.mc with image := b, bringup := 4 }, mgmt := { s.mgmt with measured := s.measure b } }
  let s := s.modFlash fun f => { f with attempts := f.attempts + 1 }
  if f.imageOk f.active then run s f.active
  else
    let s := s.rejectImage f.active
    if f.imageOk (!f.active) then run s (!f.active)
    else
      let s := s.rejectImage (!f.active)
      { s with mc := { s.mc with romHalt := true } }

/-- A configuration block that an update has activated (13 R458, R463): where its fields lie the manual does not say (free values, log 2). -/
def State.takeConfig (s : State) : State :=
  match s.mgmt.pendingCfg with
  | none => s
  | some _ =>
    let (a, s) := s.free
    let (b, s) := s.free
    let s := s.modFlash fun f => { f with
      idSource := bitAt a 0, moduleId := fld a 1 13, dx := fld b 0 14, dy := fld b 14 14, dz := fld b 28 14, nominal60 := bitAt a 14, hbmRate := bitAt a 15 }
    { s with mgmt := { s.mgmt with pendingCfg := none } }

/-- The torus dimensions of the configuration block keep 09 R478. -/
def Flash.dimsOk (f : Flash) : Bool := decide (1 ≤ f.dx ∧ 1 ≤ f.dy ∧ 1 ≤ f.dz ∧ f.dx * f.dy * f.dz ≤ 8192)

/-- The configuration block takes effect (13 R458; 10 R345); dimensions that break 09 R478 give way to the factory value, with a fault record. -/
def State.applyConfig (s : State) : State :=
  let f := s.mc.flash
  let d : Nat × Nat × Nat := if f.dimsOk then (f.dx, f.dy, f.dz) else (16, 16, 32)
  let s := { s with
    fab := { s.fab with moduleId := if f.idSource then f.moduleId else s.mc.geoId % 8192, dx := d.1, dy := d.2.1, dz := d.2.2 }
    beat := { s.beat with period := f.nominalPeriod } }
  if f.dimsOk then s
  else
    let (v, s) := s.free
    s.faultTraining 4 0xF v.toNat

/-! ### The repair map (12 R421, R425) -/

/-- A column out of the map, with its substitute. -/
def State.columnOut (s : State) (k : Nat) : State :=
  if (s.col k).leaving then s
  else
    let s := s.modCol k fun x => { x with leftMap := true }
    let j := s.pickSubstitute k
    s.modCol k fun x => { x with substitute := j }

/-- A failed channel, with the borrowing of 06 R197. -/
def State.channelOut (s : State) (k : Nat) : State :=
  let p := pairOf k
  let s := s.modCol k fun x => { x with failed := true }
  if (s.col p).failed then (s.modCol k fun x => { x with borrowing := false, lent := false }).modCol p fun x => { x with borrowing := false, lent := false }
  else (s.modCol k fun x => { x with borrowing := true }).modCol p fun x => { x with lent := true }

/-- One entry of the repair map applied. -/
def State.applyRepair (s : State) (r : Repair) : State :=
  match r with
  | .remount core sp =>
    (s.modClu (clusterOf core) fun x => if sp = 32 then { x with rem32 := core % 32 } else { x with rem33 := core % 32 }).modCor core fun x =>
      { x with bankMoved := none }
  | .remountFailed cl sp => s.modClu cl fun x => if sp = 32 then { x with rem32 := 0x3F, failed32 := true } else { x with rem33 := 0x3F, failed33 := true }
  | .position core => s.modClu (clusterOf core) fun x => { x with active := x.active &&& ~~~(BitVec.ofNat 32 (2 ^ (core % 32))) }
  | .bank core b => s.modCor core fun x => { x with bankMoved := some b }
  | .coupler k up _ => s.modCol k fun x => if up then { x with upSpares := x.upSpares + 1 } else { x with downSpares := x.downSpares + 1 }
  | .channel k => s.channelOut k
  | .column k => s.columnOut k
  | .line k l => s.modCol k fun x => { x with sparesUsed := x.sparesUsed.set (l - 1) (x.sparesUsed.getD (l - 1) 0 + 1) }
  | .row h pc row => s.modStack h fun x => { x with remap := x.remap ++ [(pc, row)] }
  | .lane p l => s.modPort p fun x => { x with retired := x.retired ||| BitVec.ofNat 8 (2 ^ l) }
  | .phase st ph => { s with pwr := { s.pwr with stageBad := s.pwr.stageBad ++ [(st, ph)] } }
  | .sensor x =>
    let s := { s with pwr := { s.pwr with sensorsBad := s.pwr.sensorsBad ++ [x] } }
    if x = .inlet then { s with heat := { s.heat with fault := true } } else s
  | .cause _ => s

/-- The entries of the repair map that satisfy p, applied in order. -/
def State.applyMap (s : State) (p : Repair → Bool) : State := (s.mc.repairMap.filter p).foldl State.applyRepair s

/-- Entries of power stages and sensors, applied when the image runs. -/
def Repair.early : Repair → Bool
  | .phase _ _ => true
  | .sensor _ => true
  | _ => false

/-- Entries of rows, applied before the HBM enters service. -/
def Repair.isRow : Repair → Bool
  | .row _ _ _ => true
  | _ => false

/-- Entries of lanes, applied before the ports train. -/
def Repair.isLane : Repair → Bool
  | .lane _ _ => true
  | _ => false

/-- Every other entry, applied at step 11. -/
def Repair.late (r : Repair) : Bool := !r.early && !r.isRow && !r.isLane

/-- Retired lanes of a port in the repair map. -/
def mapLanes (l : List Repair) (p : Nat) : BitVec 8 :=
  l.foldl (fun m r => match r with | .lane q i => if q = p then m ||| BitVec.ofNat 8 (2 ^ i) else m | _ => m) 0

/-- Inactive positions of a cluster in the repair map. -/
def mapPositions (l : List Repair) (cl : Nat) : Nat := (l.filter fun r => match r with | .position k => clusterOf k == cl | _ => false).length

/-- The repair map records a cause of 12 Table 12-5 (12 R425). -/
def mapCause (l : List Repair) (cause : Nat) : Bool :=
  let count (p : Repair → Bool) : Nat := (l.filter p).length
  match cause with
  | 1 => decide (8 < count fun r => match r with | .column _ => true | _ => false)
  | 2 => decide (4 < ((List.range 48).map (mapPositions l)).sum) || (List.range 48).any fun k => decide (4 < mapPositions l k)
  | 3 => (List.range 16).any fun h =>
      decide (512 ≤ count fun r => match r with | .row g _ _ => g == h | _ => false)
        || (List.range 64).any fun p => decide (32 ≤ count fun r => match r with | .row g q _ => g == h && q == p | _ => false)
  | 6 => decide (12 < count Repair.isLane) || (List.range 12).any fun p => decide (widthOf (~~~(mapLanes l p)) < 2)
  | 7 => l.any fun r => match r with | .phase _ _ => true | _ => false
  | 8 => l.any fun r => match r with | .sensor _ => true | _ => false
  | 11 => decide (16384 ≤ l.length)
  | c => l.contains (.cause c)

/-- SERVICE_N follows the repair map (13 Table 13-1, step 5). -/
def State.serviceFromMap (s : State) : State :=
  let l := ((List.range 11).map fun i => i + 1).filter (mapCause s.mc.repairMap)
  (s.setService !l.isEmpty).setCauses l

/-- Hard repairs (07 R222): a remap entry whose bank has a repair resource left becomes one, and its spare is free again. Whether a bank has one is
the stack's own (a free value for each, log 2). -/
def State.hardRepair (s : State) (h : Nat) : State :=
  (s.stack h).remap.foldl (fun s e =>
    let (v, s) := s.free
    if bitAt v 0 then
      let s := s.modStack h fun x => { x with remap := x.remap.erase e, hard := x.hard ++ [e] }
      { s with mc := { s.mc with repairMap := s.mc.repairMap.erase (.row h e.1 e.2) } }
    else s) s

/-! ### Steps -/

/-- Units that failed their test in a step, retired before bring-up goes on (13 R445, R448). -/
def State.retireUnits (s : State) (l : List TestUnit) : State :=
  l.foldl (fun s u => if s.unitRetired u then s else s.failUnit u (TestUnit_kind u) 0) s

/-- Units tested at a step of bring-up. -/
def testedAt (n : Nat) : TestUnit → Bool
  | .core _ => n == 11
  | .bank _ _ => n == 11
  | .channel _ => n == 12
  | .pc _ _ => n == 7
  | .lane _ _ => false

/-- Stages 0 to 4 up (step 6). -/
def State.stagesUp (s : State) : State := (List.range 5).foldl (fun s i => s.setStage i .up) s

/-- A column as the repair map finds it: its spares are counted anew. -/
def Column.unmapped (x : Column) : Column :=
  { x with upSpares := 0, downSpares := 0, borrowing := false, lent := false, failed := false, sparesUsed := [0, 0, 0, 0] }

/-- Step 11: the repair map, and tier 0 cleared. -/
def State.step11 (s : State) : State :=
  let s := { s with mem := { s.mem with tier0 := [] } }.allCores fun x => { x with strands := [], badWords := [], bankMoved := none }
  (s.allCols Column.unmapped).applyMap Repair.late

/-- Step 13: HBM and cellar zero, once after power-on or a trip (13 R446). -/
def State.zeroMemories (s : State) : State :=
  if s.mc.zeroDone then s
  else
    let s := s.allStacks fun x => { x with poison := [], victims := [] }
    { s with
      mem := { s.mem with scratch := [], tier2 := [], evac := [], stash := [] }
      cel := { s.cel with lines := [], l1 := [], moved := [] }
      mc := { s.mc with zeroDone := true } }

/-- Receipts of resets that waited for the end of bring-up (11 R401, 13 R454). -/
def State.answerResets (s : State) : State :=
  s.mc.resetEntries.foldl (fun s e =>
    let head := s.host.prioHead
    let busy := (s.host.prioBusy, s.host.mctpBusy)
    let s := s.finishPrio e 0 0
    { s with host := { s.host with prioHead := head, prioBusy := busy.1, mctpBusy := busy.2 } })
    { s with mc := { s.mc with resetEntries := [] } }

/-- The image that has reached step 14 raises the minimum security version to its own, if it declares that it does (13 R457). -/
def State.raiseMinimum (s : State) : State :=
  let f := s.mc.flash
  if Config.raisesMinimum (f.image s.mc.image) then s.modFlash fun f => { f with minSecurity := max f.minSecurity (f.secVersion s.mc.image) } else s

/-- Step 14 (13 R446, R454, R457; 06 R202): cache windows written back and invalid, receipts of resets, floors asked for meanwhile, waybills that
waited, retrims that fell due (R449). -/
def State.step14 (s : State) : State :=
  let s := (s.cel.lines.map fun e => e.1).foldl (fun s id => if s.isDirect id then s else s.evict id) s
  let s := { s with mc := { s.mc with resetting := none, bringup := 14 } }
  let s := (s.modFlash fun f => { f with attempts := 0 }).raiseMinimum
  (List.range 48).foldl State.startDue ((s.selfRefresh true).react.answerResets).sweepWbs

/-- What the completion of a step of 13 Table 13-1 does. -/
def State.bringStep (s : State) (n : Nat) (fails : List TestUnit) (x : Training) : State :=
  let l := fails.filter (testedAt n)
  match n with
  | 3 => (s.setStage 7 .up).setTrip false
  | 5 =>
    let s := { s with
      mc := { s.mc with coreAlive := [true, true, true], faultLog := s.mc.flashLog }, pwr := { s.pwr with stageBad := [], sensorsBad := [] } }
    (s.applyMap Repair.early).serviceFromMap
  | 6 => s.stagesUp
  | 7 =>
    let s := ((s.setStage 5 .up).allStacks fun x => { x with remap := [] }).applyMap Repair.isRow
    let s := (List.range 16).foldl State.hardRepair { s with hbm := { s.hbm with rate := s.mc.flash.hbmRate } }
    (s.selfRefresh false).retireUnits l
  | 8 => ((s.setStage 6 .up).applyMap Repair.isLane).trainPorts
  | 9 => s.setAlive true
  | 10 => if !s.host.linkUp && s.linkCan then s.linkReturns else s
  | 11 => s.step11.retireUnits l
  | 12 => (s.trainChannels x).retireUnits l
  | 13 => s.zeroMemories
  | _ => s

/-- The last step that is complete. -/
def State.setBring (s : State) (n : Nat) : State := { s with mc := { s.mc with bringup := n } }

/-- A step of bring-up can complete: RESET_N holds the module in step 3. -/
def State.bringReady (s : State) : Bool :=
  s.pwr.switch && !s.pwr.trip && !s.mc.romHalt && decide (1 ≤ s.mc.bringup ∧ s.mc.bringup < 14) && (!s.mc.resetNLow || decide (s.mc.bringup < 3))

/-- BRINGUP_STEP_COMPLETE (13 R442): the next step of the sequence completes; `fails` names the units that failed in it, `x` what
did not train at step 12 (R448). -/
def execBringupStepComplete (fails : List TestUnit) (x : Training) (s : State) : Host.Outcome State Fault Refusal :=
  let s := s.tick x.t
  .next (
    if !s.bringReady then s
    else
      let n := s.mc.bringup + 1
      if n = 4 then (s.takeConfig.applyConfig).pickImage
      else if n = 14 then s.step14
      else (s.bringStep n fails x).setBring n)

end Sys2Proof.Machine
end

