-- ==== Sys2Proof/Machine/Stores.lean ====
section
/-! DEFINITION. Checkpoint records, their export and the store that takes them (12 R433 to R436), restore (R438, R439), takeover (R427 to R430),
and the fetch of shards outside and inside a step (08 R282). -/

namespace Sys2Proof.Machine

open Sys2Proof

/-! ### Records (12 R436, Tables 12-7 and 12-8) -/

/-- One shard of a record: its tensor and index, and its arrays in record order: master, first and second moment, or the working-copy rows of a
frozen tensor. -/
structure RecPart where
  tensor : Tensor
  idx    : Nat
  arrays : List (List Byte)
deriving DecidableEq, Repr

/-- Tile format of a shard's arrays in a record. -/
def partFmt (t : Tensor) : Nat := if t.frozen then t.fmt else 1

/-- Addresses and sizes of the arrays of the own shard that a record holds. -/
def State.partAreas (s : State) (c : Nat) (t : Tensor) : List (Nat × Nat) :=
  if t.frozen then [workingArea t (s.groupSize c) (s.ownRank c)]
  else (List.range 3).map fun a => (arrayAddr t a, masterBytes t (s.groupSize c) (s.ownRank c))

/-- Areas read one after another; none when a line cannot be had. -/
def State.readAreas (s : State) (c : Nat) : List (Nat × Nat) → State × Option (List (List Byte))
  | [] => (s, some [])
  | (a, n) :: r =>
    match s.readAll c a n with
    | (s, none) => (s, none)
    | (s, some bs) =>
      match State.readAreas s c r with
      | (s, none) => (s, none)
      | (s, some l) => (s, some (bs :: l))

/-- Own shards that are not empty, ascending by tensor. -/
def State.ownShards (s : State) (c : Nat) : List (Tensor × Nat) :=
  (s.tensorsOf c).filter fun e => (shardTiles e.1 (s.groupSize c) (s.ownRank c)).2 != 0

/-- The shards of a record as they stand in memory. -/
def State.readParts (s : State) (c : Nat) : List (Tensor × Nat) → State × Option (List RecPart)
  | [] => (s, some [])
  | (t, i) :: r =>
    match s.readAreas c (s.partAreas c t) with
    | (s, none) => (s, none)
    | (s, some as) =>
      match State.readParts s c r with
      | (s, none) => (s, none)
      | (s, some l) => (s, some (⟨t, i, as⟩ :: l))

/-- The seal list of a shard. -/
def RecPart.seals (p : RecPart) : List Byte := p.arrays.flatMap fun a => sealBytes (sealsOf (tileBytes (partFmt p.tensor)) a)

/-- The data of a shard: each array starts at a multiple of 4,096 bytes. -/
def RecPart.data (p : RecPart) : List Byte := p.arrays.flatMap (padTo 4096)

/-- A directory entry (12 Table 12-8). -/
def RecPart.entry (p : RecPart) (n r dataOff sealOff : Nat) : List Byte :=
  let t := p.tensor
  let rows := shardRows t.kTiles n r
  let u (i : Nat) : Nat := ((p.arrays[i]?).map fun a => units a.length).getD 0
  bytesOfNat 128 (packNat [(0, 32, t.id.toNat), (32, 16, p.idx), (48, 1, b2n t.frozen), (49, 1, b2n t.tied), (52, 4, t.fmt), (56, 4, t.hset),
    (64, 16, t.kTiles), (80, 16, t.nTiles), (96, 16, rows.1), (112, 16, rows.2), (128, 32, u 0), (160, 32, u 1), (192, 64, dataOff), (256, 64, sealOff),
    (384, 384, (sha384Field p.seals).toNat)])

/-- The directory: entries with their data and seal offsets. -/
def directory (n r : Nat) : List RecPart → Nat → Nat → List Byte
  | [], _, _ => []
  | p :: l, dataOff, sealOff => p.entry n r dataOff sealOff ++ directory n r l (dataOff + p.data.length) (sealOff + p.seals.length)

/-- The fields of a record header before the digest (12 Table 12-7); `digest` is the placement digest. -/
def State.recHeader (s : State) (c shards bytes : Nat) (digest : DWord) : List Byte :=
  let x := s.cx c
  let p (t : Tbl Word) : Nat := packNat ((List.range 16).map fun h => (32 * h, 32, (tget one32 t h).toNat))
  bytesOfNat 976 (packNat [(0, 32, 1), (32, 4, c), (64, 64, x.step), (128, 64, x.lastSwept), (192, 64, x.seed.toNat), (256, 64, x.cursor.toNat),
    (320, 64, x.swept), (384, 64, digest.toNat), (448, 13, s.ownRank c), (464, 13, s.groupSize c - 1),
    (480, 6, (x.place.map fun p => p.stage).getD 0), (512, 64, (s.image (.lscale c)).toNat), (576, 16, shards), (640, 64, bytes), (768, 512, p x.p1),
    (1280, 512, p x.p2), (1792, 4096, packNat ((List.range 16).map fun h => (256 * h, 256, (tget 0 x.hsets h).toNat)))])

/-- A record from its parts: its bytes and its digest. -/
def buildRecord (header : Nat → List Byte) (n r : Nat) (parts : List RecPart) : List Byte × BitVec 384 :=
  let head := 1024 + 128 * parts.length
  let seals := parts.flatMap RecPart.seals
  let start := ceilDiv (head + seals.length) 4096 * 4096
  let data := parts.flatMap RecPart.data
  let h := header (start + data.length)
  let dir := directory n r parts start head
  let digest := sha384Field (h ++ List.replicate 48 0 ++ dir ++ seals)
  (padTo 4096 (h ++ bytesOfNat 48 digest.toNat ++ dir ++ seals) ++ data, digest)

/-! ### Export (12 R433, R434) -/

/-- The EXPORT waybill of context c that has been asked for. -/
def State.exportWb (s : State) (c : Nat) : Option Waybill :=
  (s.host.wbs.find? fun e => e.wb.op == 0x5001 && e.wb.context == c && e.started).map fun e => e.wb

/-- The export ends without a record: 0x0503 with the store's module (12 R434). -/
def State.exportFails (s : State) (c : Nat) (w : Waybill) : State :=
  ((s.modCx c fun x => { x with exp := none }).finish w 0x0503 (w.p 0 13) 0).retryAll c (· == .undoHeld)

/-- EXPORT_START (12 R433): the state at the boundary is recorded, and the store is asked for room. A context without a placement has no digest
(a free value, log 2). -/
def execExportStart (ctx : Nat) (s : State) : Host.Outcome State Fault Refusal :=
  .next (match s.exportWb ctx with
    | none => s
    | some w =>
      let x := s.cx ctx
      if !x.live ∨ x.run.isSome ∨ x.exp.isSome ∨ x.restore.isSome then s
      else if !s.reachable (w.p 0 13) then s.exportFails ctx w
      else
        match s.readParts ctx (s.ownShards ctx) with
        | (s, none) => s.exportFails ctx w
        | (s, some parts) =>
          let (d, s) := match x.place with
            | some p => (p.digest, s)
            | none => s.free
          let (rec_, digest) := buildRecord (fun n => s.recHeader ctx parts.length n d) (s.groupSize ctx) (s.ownRank ctx) parts
          let s := s.modCx ctx fun x => { x with exp := some ⟨w, x.step, rec_, digest, true, none, false, s.now⟩ }
          s.tell ctx (w.p 0 13) (.storeOpen rec_.length (w.p 13 2)))

/-- GRANT (12 R434): the lines go to the granted addresses on the checkpoint virtual channel, then the digest; the sweep may write undo records
again. -/
def execStoreGrant (ctx : Nat) (base : Nat) (s : State) : Host.Outcome State Fault Refusal :=
  .next (match (s.cx ctx).exp with
    | none => s
    | some e =>
      if e.base.isSome then s
      else
        let m := e.wb.p 0 13
        let s := s.emit (.lines ctx m 3 base e.record)
        let s := s.tell ctx m (.storeClose e.digest)
        (s.modCx ctx fun x => { x with exp := some { e with base := some base, closed := true, since := s.now } }).retryAll ctx (· == .undoHeld))

/-- REFUSE (12 R434). -/
def execStoreRefuse (ctx : Nat) (s : State) : Host.Outcome State Fault Refusal :=
  .next (match (s.cx ctx).exp with
    | some e => if e.base.isNone then s.exportFails ctx e.wb else s
    | none => s)

/-- DONE (12 R433, R434): the receipt carries the record's address at the store and the step number. -/
def execStoreDone (ctx : Nat) (ok : Bool) (s : State) : Host.Outcome State Fault Refusal :=
  .next (match (s.cx ctx).exp with
    | none => s
    | some e =>
      match e.base with
      | none => s
      | some b => if ok then (s.modCx ctx fun x => { x with exp := none }).finish e.wb 0 b e.step else s.exportFails ctx e.wb)

/-- STORE_TIMEOUT (12 R434): no grant, or no acknowledgement, within 100 ms of the message that asks for it. -/
def execStoreTimeout (x : CtxTime) (s : State) : Host.Outcome State Fault Refusal :=
  let s := s.tick x.t
  .next (match (s.cx x.ctx).exp with
    | some e => if x.t < e.since + 100000000 then s else s.exportFails x.ctx e.wb
    | none => s)

/-! ### The store (12 R435) -/

/-- The window of a store context: no placement, and a map of exactly one direct window. -/
def Ctx.storeWindow (x : Ctx) : Option MapEntry :=
  match x.map with
  | [e] => if x.live && x.place.isNone && e.mode == 0 then some e else none
  | _ => none

/-- Where the next record goes: after the last one granted, at a multiple of 4,096. -/
def Ctx.storeNext (x : Ctx) (e : MapEntry) : Nat := x.grants.foldl (fun n g => max n (ceilDiv (g.base + g.size) 4096 * 4096)) e.base

/-- OPEN (12 R435). -/
def execStoreOpen (ctx : Nat) (src : Nat) (srcCtx : Nat) (size : Nat) (s : State) : Host.Outcome State Fault Refusal :=
  let x := s.cx ctx
  .next (match x.storeWindow with
    | none => s.tell srcCtx src .storeRefuse
    | some e =>
      let base := x.storeNext e
      if base + size ≤ e.base + 4096 * e.pages then
        (s.modCx ctx fun x => { x with grants := x.grants ++ [⟨src, srcCtx, base, size⟩] }).tell srcCtx src (.storeGrant base)
      else s.tell srcCtx src .storeRefuse)

/-- Bytes of the seal lists of a record, from its header and directory. -/
def sealBytesOf (bs : List Byte) : Nat :=
  ((List.range (natAt bs 72 2)).map fun i => 8 * (natAt bs (1024 + 128 * i + 16) 4 + 2 * natAt bs (1024 + 128 * i + 20) 4)).sum

/-- Header, directory and seal lists of a record, its digest field read as 0, and that field. -/
def recordHead (bs : List Byte) : List Byte × BitVec 384 :=
  (slice bs 0 976 ++ List.replicate 48 0 ++ slice bs 1024 (128 * natAt bs 72 2 + sealBytesOf bs), BitVec.ofNat 384 (natAt bs 976 48))

/-- The header, directory and seal lists of a record of `size` bytes at an address; none when a line of them cannot be had. -/
def State.readHead (s : State) (c base size : Nat) : State × Option (List Byte) :=
  match s.readAll c base (min size 1024) with
  | (s, none) => (s, none)
  | (s, some h) =>
    match s.readAll c base (min size (1024 + 128 * natAt h 72 2)) with
    | (s, none) => (s, none)
    | (s, some d) => s.readAll c base (min size (1024 + 128 * natAt h 72 2 + sealBytesOf d))

/-- CLOSE (12 R435): the digest recomputed from the header, directory and seal lists that have arrived. -/
def execStoreClose (ctx : Nat) (src : Nat) (srcCtx : Nat) (digest : BitVec 384) (s : State) : Host.Outcome State Fault Refusal :=
  .next (match (s.cx ctx).grants.reverse.find? fun g => g.src == src && g.srcCtx == srcCtx with
    | none => s.tell srcCtx src (.storeDone false)
    | some g =>
      match s.readHead ctx g.base g.size with
      | (s, none) => s.tell srcCtx src (.storeDone false)
      | (s, some bs) => s.tell srcCtx src (.storeDone (sha384Field (recordHead bs).1 == digest)))

/-! ### Placement digests of other holders of a rank -/

/-- A digest agrees with a placement whatever module holds its own rank (12 R431, R436). -/
def Placement.agrees (p : Placement) (d : DWord) : Bool :=
  p.digest == d || (List.range 8192).any fun m => { p with group := p.group.set p.rank m }.digest == d

/-! ### Fetching whole shards (08 R282) -/

/-- Every shard that this member does not own, ascending by tensor and rank. -/
def State.otherShards (s : State) (c : Nat) : List (Nat × Nat) :=
  (s.tensorsOf c).flatMap fun (e : Tensor × Nat) =>
    ((List.range (s.groupSize c)).filter fun r => r != s.ownRank c && (shardRows e.1.kTiles (s.groupSize c) r).2 != 0).map fun r => (e.2, r)

/-- The next shard that a restore or a takeover has to fetch. -/
def State.nextShard (s : State) (c : Nat) : Option (Nat × Nat) := (s.otherShards c).find? fun e => !(s.cx c).fetched.contains e

/-- A context's scratch windows discarded (12 R438). -/
def State.discardScratch (s : State) (c : Nat) : State :=
  ((s.cx c).map.filter fun e => e.mode == 2).foldl (fun s e => (lineAddrs e.base (4096 * e.pages)).foldl (fun s a => (s.rangeLine c 3 0 a).1) s) s

/-! ### Restore (12 R438, R439) -/

/-- A failed restore (12 R439): the context stays frozen with what it holds. -/
def State.restoreFails (s : State) (c : Nat) (w : Waybill) (detail detail2 : Nat) : State :=
  ((s.modCx c fun x => { x with restore := none, fetching := none, stuck := true }).freeze c).finish w 0x0601 detail detail2

/-- A restore whose shards are all in place: the mirror, the scratch windows, and the receipt. -/
def State.restoreDone (s : State) (c : Nat) (w : Waybill) : State :=
  let last := (s.cx c).lastSwept
  let s := match s.buddyModule c with
    | some m => (s.tell c m (.mirror (.start (s.ownRank c) (last + 1)))).sendMirror c last (s.ctxBlock c)
    | none => s
  let s := s.discardScratch c
  ((s.modCx c fun x => { x with restore := none, fetched := [] }).rejoin c).finish w 0 (s.cx c).step 0

/-- A takeover that holds every shard asks the leader to take it back (09 R322). -/
def State.askAdmit (s : State) (c : Nat) (k : Takeover) (leader : Option Nat) : State :=
  let s := s.modCx c fun x => { x with take := some { k with stage := 5 }, fetched := [] }
  match leader with
  | some m => s.tell c m (.admitRequest k.rank s.fab.moduleId)
  | none => s

/-- The module of the lowest other rank that is neither lost nor departed. -/
def State.leaderOf (s : State) (c : Nat) : Option Nat :=
  ((List.range (s.groupSize c)).find? fun r => r != s.ownRank c && !(s.cx c).lost.contains r && !(s.cx c).departed.contains r).bind (s.groupModule c)

/-- The fetch of a whole shard outside a step, from its place in the owner's working copy to the same place here (08 R282). DESIGN CHOICE (log 111): the
owner's working copy lies at the address that the own placement gives. -/
def State.fetchShard (s : State) (c tensor rank : Nat) : State :=
  match ((s.cx c).place.bind fun p => p.tensors[tensor]?) with
  | some t => let a := (workingArea t (s.groupSize c) rank).1; s.startFetch c tensor rank a a
  | none => s

/-- The next shard of a restore or a takeover, or its end. -/
def State.nextFetch (s : State) (c : Nat) : State :=
  let x := s.cx c
  if x.fetching.isSome then s
  else
    match x.restore, x.take with
    | some w, _ => match s.nextShard c with
      | some e => s.fetchShard c e.1 e.2
      | none => s.restoreDone c w
    | none, some k =>
      if k.stage ≠ 4 then s
      else match s.nextShard c with
        | some e => s.fetchShard c e.1 e.2
        | none => s.askAdmit c k (s.leaderOf c)
    | none, none => s

/-- A takeover ends (12 R429): a fault record names the failed check, and the group is unchanged. Checks: 1 the rank is in the mask, 2 it is
neither lost nor departed, 3 no buddy to ask, 4 mirror gap, 5 a master unit, 6 the placement digest, 7 a working-copy seal, 8 a shard fetched, 9 the
waybill's rank or context. -/
def State.takeFails (s : State) (c : Nat) (w : Waybill) (check : Nat) : State :=
  (s.modCx c fun x => { x with take := none, fetching := none }).faultTraining 4 c check |>.finish w 0x0603 (w.p 0 13) 0

/-- The array bytes of a shard of a record at a directory entry, array `i`: offset and length. -/
def entryArea (bs : List Byte) (e i n : Nat) : Nat := natAt bs (e + 24) 8 + i * (ceilDiv n 4096 * 4096)

/-- Bytes with the header line of each tile changed for a restore (12 R438): state 1, tile_index, step. -/
def restoreHeaders (size first step : Nat) (bs : List Byte) : List Byte :=
  (List.range (ceilDiv bs.length size)).flatMap fun k =>
    let tile := slice bs (k * size) size
    let h := natOfBytes (tile.take 256)
    let keep := h - packNat [(6, 2, bitsOf h 6 2), (64, 32, bitsOf h 64 32), (128, 64, bitsOf h 128 64)]
    bytesOfNat 256 (keep + packNat [(6, 2, 1), (64, 32, first + k), (128, 64, step)]) ++ tile.drop 256

/-- Units of one array checked against the seal list and written (12 R438). The answer is the first unit that fails, in seal-list order. -/
def State.restoreUnits (s : State) (c addr size : Nat) (raw new : List Byte) (seals : Nat → Nat) : Nat → Nat → State × Option Nat
  | 0, _ => (s, none)
  | n + 1, u =>
    let bs := (raw.drop (u * sealUnit)).take sealUnit
    if (sealOf size (u * sealUnit) bs).toNat = seals u then
      State.restoreUnits (s.dmaWrite c (addr + u * sealUnit) ((new.drop (u * sealUnit)).take sealUnit)) c addr size raw new seals n (u + 1)
    else (s, some u)

/-- The arrays of one shard restored: the units done before it, and the unit that fails. -/
def State.restoreArrays (s : State) (c : Nat) (bs : List Byte) (e sealOff size first step : Nat) : List (Nat × Nat) → Nat → Nat → State × Nat × Option Nat
  | [], _, done => (s, done, none)
  | (addr, n) :: r, i, done =>
    let raw := slice bs (entryArea bs e i n) n
    match s.restoreUnits c addr size raw (restoreHeaders size first step raw) (fun u => natAt bs (sealOff + 8 * (done + u)) 8) (units n) 0 with
    | (s, some u) => (s, done + u, some u)
    | (s, none) => State.restoreArrays s c bs e sealOff size first step r (i + 1) (done + units n)

/-- How the shards of a record fail: detail and detail2. -/
abbrev RecErr := Nat × Nat

/-- The shards of a record in directory order; `unit` counts units in seal-list order. -/
def State.restoreShards (s : State) (c : Nat) (bs : List Byte) : Nat → Nat → Nat → State × Option RecErr
  | 0, _, _ => (s, none)
  | n + 1, k, unit =>
    let e := 1024 + 128 * k
    match ((s.cx c).place.bind fun p => p.tensors[natAt bs (e + 4) 2]?) with
    | none => (s, some (0xFFFFFFF2, k))
    | some t =>
      let first := (shardTiles t (s.groupSize c) (s.ownRank c)).1
      match s.restoreArrays c bs e (natAt bs (e + 32) 8) (tileBytes (partFmt t)) first (natAt bs 16 8) (s.partAreas c t) 0 0 with
      | (s, done, some _) => (s, some (unit + done, 0))
      | (s, done, none) =>
        if sha384Field (slice bs (natAt bs (e + 32) 8) (8 * done)) = BitVec.ofNat 384 (natAt bs (e + 48) 48) then
          State.restoreShards s c bs n (k + 1) (unit + done)
        else (s, some (0xFFFFFFF2, k))

/-- The check of a record's header against the own placement (12 R438): the detail of its failure. -/
def State.recordBad (s : State) (c : Nat) (bs : List Byte) : Option Nat :=
  let h := recordHead bs
  if natAt bs 0 4 ≠ 1 ∨ sha384Field h.1 ≠ h.2 then some 0xFFFFFFF0
  else
    match (s.cx c).place with
    | none => some 0xFFFFFFF1
    | some p =>
      if bitsOf (natAt bs 56 2) 0 13 = p.rank ∧ bitsOf (natAt bs 58 2) 0 13 + 1 = p.n ∧ p.agrees (BitVec.ofNat 64 (natAt bs 48 8)) then none
      else some 0xFFFFFFF1

/-- The loss scale of a record (02 R62, R63). DESIGN CHOICE (log 100): the fixed bit of a record whose fields are marked invalid is not taken, and the
context keeps its own; skip_count, which no record stores, stays. -/
def restoreScale (v : Nat) (l : LScale) : LScale :=
  if bit v 6 then
    { exp := bitsOf v 0 5, fixed := bit v 5, clean := bitsOf v 8 11, probe := bit v 19, probeLeft := bitsOf v 24 8, skips := l.skips }
  else lscaleOf 0 l.fixed true l.skips

/-- Context state from a record (12 R438). -/
def Ctx.restored (x : Ctx) (bs : List Byte) : Ctx :=
  let w (off h : Nat) : Word := BitVec.ofNat 32 (natAt bs (off + 4 * h) 4)
  { x with
    step := natAt bs 8 8
    lastSwept := natAt bs 16 8
    seed := BitVec.ofNat 64 (natAt bs 24 8)
    cursor := BitVec.ofNat 64 (natAt bs 32 8)
    swept := natAt bs 40 8
    ls := restoreScale (natAt bs 64 8) x.ls
    p1 := (List.range 16).foldl (fun t h => tset one32 t h (w 96 h)) []
    p2 := (List.range 16).foldl (fun t h => tset one32 t h (w 160 h)) []
    hsets := (List.range 16).foldl (fun t h => tset 0 t h (BitVec.ofNat 256 (natAt bs (224 + 32 * h) 32))) []
    mask := { step := 0, gen := 0, members := [], restarting := false, restartGen := 0 }
    notices := [], early := [], earlyVoid := [], unitSeals := [], mirroring := none
    lastSweep := some ⟨natAt bs 16 8, none, 0, [], 0⟩ }

/-- Own working copies and seal tables from the masters, as of the last swept step. -/
def State.rebuild (s : State) (c step : Nat) : State :=
  (s.ownShards c).foldl (fun s (e : Tensor × Nat) => if e.1.frozen then s else s.regenShard c e.1 step) s

/-- The seal tables of the own shards published. -/
def State.publishAll (s : State) (c step : Nat) : State := (s.ownShards c).foldl (fun s (e : Tensor × Nat) => s.publish c e.1 step) s

/-- What runs in context c ends for a restore (12 R438): legs, traffic, and the step, which ends void on this module. -/
def State.stopForRestore (s : State) (c : Nat) : State :=
  let s := s.cutLegs c
  let s := match (s.cx c).run with
    | some r => let s := s.withdraw c
      if r.trailerSent then s else s.sendTrailer c
    | none => s
  ((s.dropLegs c).dropTraffic c).voidStep c s.now

/-- What a restore or a takeover had begun gives way to a new restore. -/
def State.giveWay (s : State) (c : Nat) : State :=
  let s := match (s.cx c).restore with
    | some w => let r := s.free
      (r.2.modCx c fun x => { x with restore := none, fetching := none }).finish w 0x0601 (fld r.1 0 32) 0
    | none => s
  match (s.cx c).take with
  | some k => if k.stage = 9 then s.modCx c fun x => { x with take := none } else s.takeFails c k.wb 8
  | none => s

/-- RESTORE (12 R438); `img` is the record as it is read from the store. A unit read again is the same, so one that fails its seal fails for good. -/
def execRestore (w : Waybill) (img : List Byte) (s : State) : Host.Outcome State Fault Refusal :=
  .next (s.startWb w (isOp 0x5002) fun s _ =>
    let c := w.context
    let s := (s.giveWay c).stopForRestore c
    let s := s.modCx c fun x => { x with fetched := [], fetching := none }
    match s.recordBad c img with
    | some d => s.restoreFails c w d 0
    | none =>
      match s.restoreShards c img (natAt img 72 2) 0 0 with
      | (s, some e) => s.restoreFails c w e.1 e.2
      | (s, none) =>
        let s := s.modCx c fun x => x.restored img
        let last := (s.cx c).lastSwept
        let s := ((s.rebuild c last).publishAll c last).modCx c fun x => { x with restore := some w }
        s.nextFetch c)

/-! ### Takeover (12 R428 to R430) -/

/-- TAKEOVER (12 R429): the spare asks the leader of the mask. -/
def execTakeover (w : Waybill) (s : State) : Host.Outcome State Fault Refusal :=
  .next (s.startWb w (isOp 0x5003) fun s _ =>
    let c := w.context
    let x := s.cx c
    match x.place, s.leaderOf c with
    | some p, some m =>
      if p.rank ≠ w.p 0 13 ∨ x.run.isSome ∨ x.restore.isSome ∨ x.take.isSome then s.takeFails c w 9
      else
        let s := s.modCx c fun x => { x with take := some ⟨w, p.rank, 1, 0, none, 0, []⟩, fetched := [], fetching := none }
        s.tell c m (.takeoverQuery (.rankState p.rank))
    | _, _ => s.takeFails c w 9)

/-- The newest complete buffer of a rank. -/
def newestBuffer (l : List Buffer) (rank : Nat) : Option Buffer :=
  (l.filter fun b => b.complete && b.owner == rank).foldl (fun o b => match o with
    | none => some b
    | some a => if a.step < b.step then some b else some a) none

/-- Computed seals of the working copy of a rank's shard. -/
def State.workingSeals (s : State) (c : Nat) (t : Tensor) (rank : Nat) : State × Option (List DWord) :=
  let (wa, wn) := workingArea t (s.groupSize c) rank
  match s.readAll c wa wn with
  | (s, some bs) => (s, some (sealsOf (tileBytes t.fmt) bs))
  | (s, none) => (s, none)

/-- TAKEOVER_QUERY (12 R429): the answer of the leader, of the buddy, or of the lowest other rank. -/
def execTakeoverQuery (ctx : Nat) (src : Nat) (q : TakeoverQuery) (s : State) : Host.Outcome State Fault Refusal :=
  let x := s.cx ctx
  .next (match q with
    | .rankState r => s.tell ctx src (.takeoverReply (.rankState (x.mask.members.contains r) (x.lost.contains r || x.departed.contains r) x.lastSwept))
    | .buffer r => s.tell ctx src (.takeoverReply (.buffer (newestBuffer x.buffers r)))
    | .seals r id =>
      match s.trained ctx id with
      | none => s.tell ctx src (.takeoverReply (.seals id []))
      | some t => let a := s.workingSeals ctx t r
        a.1.tell ctx src (.takeoverReply (.seals id (a.2.getD []))))

/-- A mirrored shard asked for again: the units of the earlier copy that passed their seals stand (12 R429). -/
def ShardCopy.keep (new old : ShardCopy) : ShardCopy :=
  let unit (h : ShardCopy) (u : Nat) : List Byte := (h.master.drop (u * sealUnit)).take sealUnit
  let good := (sealsOf (tileBytes 1) old.master).zipWith (fun a b => a == b) old.seals
  let pick (u : Nat) : ShardCopy := if good.getD u false then old else new
  if old.master.length ≠ new.master.length then new
  else
    let us := List.range (units new.master.length)
    { new with master := us.flatMap fun u => unit (pick u) u, seals := us.map fun u => (pick u).seals.getD u 0 }

/-- The shards of a buffer asked for again, with what an earlier answer brought. -/
def Buffer.keep (new : Buffer) (old : Option Buffer) : Buffer :=
  { new with shards := new.shards.map fun h => match (old.map fun b => b.shards).bind fun l => l.find? fun x => x.tensor == h.tensor with
    | some x => ShardCopy.keep h x
    | none => h }

/-- A mirrored shard is whole: each unit of its master passes its seal, and its arrays have the shard's size. -/
def State.copyOk (s : State) (c : Nat) (b : Buffer) (t : Tensor) : Bool :=
  let n := masterBytes t (s.groupSize c) (s.ownRank c)
  match b.shards.find? fun h => h.tensor == t.id with
  | some h => sealsOf (tileBytes 1) h.master == h.seals && h.master.length == n && h.moment1.length == n && h.moment2.length == n
  | none => false

/-- The shards of the own rank that the sweep updates. -/
def State.sweptShards (s : State) (c : Nat) : List Tensor := ((s.tensorsOf c).filter fun e => s.sweptShard c e.1).map Prod.fst

/-- The context block adopted as context state (12 R427, R429). -/
def Ctx.adopt (x : Ctx) (k : CtxBlock) (last : Nat) : Ctx :=
  { x with
    step := k.step, seed := k.seed, cursor := k.cursor, swept := k.swept, lastSwept := last
    ls := { exp := k.scaleExp, fixed := k.fixed, clean := k.clean, probe := k.probe, probeLeft := k.probeLeft, skips := x.ls.skips }
    p1 := k.p1.zipIdx.foldl (fun t e => tset one32 t e.2 e.1) []
    p2 := k.p2.zipIdx.foldl (fun t e => tset one32 t e.2 e.1) []
    hsets := k.hsets.zipIdx.foldl (fun t e => tset 0 t e.2 e.1) []
    lastSweep := some ⟨last, none, 0, [], 0⟩ }

/-- The shards of a buffer written to their places, with their master seals, and the working copies regenerated. -/
def State.adoptShards (s : State) (c : Nat) (b : Buffer) (last : Nat) : State :=
  (s.sweptShards c).foldl (fun s t =>
    match b.shards.find? fun h => h.tensor == t.id with
    | none => s
    | some h =>
      let s := (List.range 3).foldl (fun s a => s.dmaWrite c (arrayAddr t a) (ShardCopy.array h a)) s
      let s := s.modCx c fun x => { x with masterSeals := (x.masterSeals.filter fun e => e.1 != t.id) ++ [(t.id, h.seals)] }
      s.regenShard c t last) s

/-- A takeover asks for the seals it still has to compare, or publishes its shards and fetches the others. -/
def State.askSeals (s : State) (c : Nat) (k : Takeover) : State :=
  match k.wanted, s.leaderOf c with
  | id :: _, some m => (s.modCx c fun x => { x with take := some k }).tell c m (.takeoverQuery (.seals k.rank id))
  | [], _ => ((s.publishAll c k.swept).modCx c fun x => { x with take := some { k with stage := 4 } }).nextFetch c
  | _, none => s.takeFails c k.wb 7

/-- A takeover with the answer of the leader (12 R429). -/
def State.takeState (s : State) (c : Nat) (k : Takeover) (inMask gone : Bool) (last : Nat) : State :=
  if inMask then s.takeFails c k.wb 1
  else if !gone then s.takeFails c k.wb 2
  else
    match s.buddyModule c with
    | none => s.takeFails c k.wb 3
    | some m =>
      if !s.reachable m then s.takeFails c k.wb 3
      else (s.modCx c fun x => { x with take := some { k with stage := 2, swept := last } }).tell c m (.takeoverQuery (.buffer k.rank))

/-- A takeover with the answer of the buddy (12 R429, R430): each master unit is checked and asked for again up to twice, and the copy is adopted. -/
def State.takeBuffer (s : State) (c : Nat) (k : Takeover) (ob : Option Buffer) : State :=
  match ob with
  | none => s.takeFails c k.wb 4
  | some a =>
    let b := Buffer.keep a k.buffer
    if !b.complete ∨ b.owner ≠ k.rank ∨ b.step ≠ k.swept then s.takeFails c k.wb 4
    else if !((s.sweptShards c).all fun t => s.copyOk c b t) then
      match s.buddyModule c with
      | some m =>
        if k.tries < 2 then (s.modCx c fun x => { x with take := some { k with tries := k.tries + 1, buffer := some b } }).tell c m (.takeoverQuery (.buffer k.rank))
        else s.takeFails c k.wb 5
      | none => s.takeFails c k.wb 3
    else
      match b.block, (s.cx c).place with
      | some blk, some p =>
        if !p.agrees blk.digest then s.takeFails c k.wb 6
        else
          let s := (s.modCx c fun x => x.adopt blk k.swept).adoptShards c b k.swept
          s.askSeals c { k with stage := 3, buffer := none, wanted := (s.sweptShards c).map fun t => t.id }
      | _, _ => s.takeFails c k.wb 6

/-- A takeover with another rank's seals of the shard (12 R429). -/
def State.takeSeals (s : State) (c : Nat) (k : Takeover) (id : Word) (l : List DWord) : State :=
  match s.trained c id with
  | none => s
  | some t =>
    if k.wanted.head? ≠ some id then s
    else
      match s.workingSeals c t k.rank with
      | (s, some m) => if m = l then s.askSeals c { k with wanted := k.wanted.drop 1 } else s.takeFails c k.wb 7
      | (s, none) => s.takeFails c k.wb 7

/-- TAKEOVER_QUERY_REPLY (12 R429). -/
def execTakeoverQueryReply (ctx : Nat) (r : TakeoverReply) (s : State) : Host.Outcome State Fault Refusal :=
  .next (match (s.cx ctx).take with
    | none => s
    | some k =>
      match k.stage, r with
      | 1, .rankState inMask gone last => s.takeState ctx k inMask gone last
      | 2, .buffer b => s.takeBuffer ctx k b
      | 3, .seals id l => s.takeSeals ctx k id l
      | _, _ => s)

/-! ### FETCH_UNIT_ARRIVAL (08 R282) -/

/-- The step that the seal table of a fetched shard must name; none where any does: a frozen tensor has no sweep. -/
def State.fetchStep (s : State) (c : Nat) (t : Tensor) : Option Nat :=
  let x := s.cx c
  if x.restore.isSome then some x.lastSwept
  else match x.run, x.take with
    | some _, _ => some x.step
    | none, some k => if t.frozen then none else some k.swept
    | none, none => none

/-- What follows a unit that ended the fetch of its shard: the next shard, or the failure of the restore or takeover that fetches it. -/
def State.afterUnit (s : State) (c : Nat) (f : Fetching) : State :=
  let x := s.cx c
  if x.fetching.isSome then s
  else if x.fetched.contains (f.tensor, f.rank) then s.nextFetch c
  else match x.restore, x.take with
    | some w, _ => s.restoreFails c w f.unit 0
    | none, some k => if k.stage = 4 then s.takeFails c k.wb 8 else s
    | none, none => s

/-- FETCH_UNIT_ARRIVAL (08 R282, R283, 12 R438): the unit awaited, with its seal and the step of the owner's published table. -/
def execFetchUnitArrival (ctx : Nat) (tensor : Nat) (rank : Nat) (unit : Nat) (bytes : List Byte) (sealv : DWord) (step : Nat) (s : State) :
    Host.Outcome State Fault Refusal :=
  .next (match (s.cx ctx).fetching, (s.tensorsOf ctx)[tensor]? with
    | some f, some (t, _) =>
      if f.tensor ≠ tensor ∨ f.rank ≠ rank ∨ f.unit ≠ unit ∨ f.verify then s
      else if (s.fetchStep ctx t).any fun n => n != step then
        match (s.cx ctx).restore with
        | some w => s.restoreFails ctx w 0xFFFFFFF3 0
        | none => s
      else
        let wn := (workingArea t (s.groupSize ctx) rank).2
        (s.takeUnit ctx f t (slice bytes 0 (unitBytes wn unit)) sealv).afterUnit ctx f
    | _, _ => s)

end Sys2Proof.Machine
end

