-- ==== Sys2Proof/Machine/Management.lean ====
section
/-! DEFINITION. The management bus (13 R459 to R463): MCTP control and priority messages, SPDM, PLDM sensors, effecters and firmware update; and
the test access port (R465, R466). -/

namespace Sys2Proof.Machine

open Sys2Proof

/-! ### When the bus answers (13 Table 13-1 step 5, R456, R466, 14 Table 14-4) -/

/-- The image serves the management bus: from step 5, and in a thermal trip. -/
def State.busServed (s : State) : Bool := s.barServes && !s.mc.romHalt && !s.mc.testMode && (s.pwr.trip || !s.mc.resetNLow)

/-- The boot ROM that both images failed serves MCTP control and firmware update. -/
def State.romServed (s : State) : Bool := s.busServed || (s.mc.romHalt && s.pwr.switch && !s.mc.testMode && !s.mc.resetNLow)

/-- The answer of the image to a message. -/
def State.onBus (s : State) (f : State → State) : State := if s.busServed then f s else s

/-- The answer of the image or of the boot ROM. -/
def State.onRom (s : State) (f : State → State) : State := if s.romServed then f s else s

/-! ### MCTP (13 R461, R462; 11 R403) -/

/-- MCTP_PRIORITY_MESSAGE (13 R462): a message of another vendor or subtype runs nothing. -/
def execMctpPriorityMessage (vendor : BitVec 16) (subtype : Byte) (hdr : BitVec 512) (s : State) : Host.Outcome State Fault Refusal :=
  .next (s.onBus fun s =>
    if vendor ≠ s.mc.flash.vendorId ∨ subtype ≠ 1 then s.emit .mctpError
    else { s with host := { s.host with mctpQ := s.host.mctpQ ++ [⟨true, 0, hdr⟩] } })

/-- GET_VENDOR_DEFINED_MESSAGE_SUPPORT (13 R462). -/
def execGetVendorDefined (s : State) : Host.Outcome State Fault Refusal := .next (s.onRom fun s => s.emit (.mctpVendor s.mc.flash.vendorId))

/-- I3C_DYNAMIC_ADDRESS (13 R461): the bus leaves SMBus. -/
def execI3cDynamicAddress (addr : BitVec 7) (s : State) : Host.Outcome State Fault Refusal :=
  .next (s.onRom fun s => { s with mgmt := { s.mgmt with i3c := some addr } })

/-- SET_ENDPOINT_ID (13 Table 13-5). -/
def execSetEndpointId (eid : Byte) (s : State) : Host.Outcome State Fault Refusal :=
  .next (s.onRom fun s => { s with mgmt := { s.mgmt with eid := eid } })

/-- PLDM_EVENTS_ENABLE (13 R462). -/
def execPldmEventsEnable (on : Bool) (s : State) : Host.Outcome State Fault Refusal :=
  .next (s.onBus fun s => { s with mgmt := { s.mgmt with events := on } })

/-! ### SPDM (13 R459, R460; log 13 for the bytes that SPDM 1.2 lays out) -/

/-- A reply: bytes of SPDM's own layout, then the content that the manual names. Both enter the transcript. -/
def State.spdmAnswer (s : State) (request : Nat) (content : List Byte) : State :=
  let bs := Config.spdmReply request s.freeCtr ++ content
  let s := s.free.2
  { s with mgmt := { s.mgmt with transcript := s.mgmt.transcript ++ bs } }.emit (.spdm bs)

/-- A request that needs the algorithms settled, on certificate slot 0. -/
def State.spdmReady (s : State) (slot : Nat) (f : State → State) : State :=
  s.onBus fun s => if s.mgmt.spdm = 3 ∧ slot = 0 then f s else s.emit .spdmError

/-- The stage of the exchange that a request reaches. -/
def State.spdmStage (s : State) (n : Nat) : State := { s with mgmt := { s.mgmt with spdm := n } }

/-- A signed reply: the signature covers the transcript, the nonce and the content. -/
def State.spdmSigned (s : State) (request : Nat) (nonce : BitVec 256) (content : List Byte) : State :=
  let m := s.mgmt.transcript ++ bytesOfNat 32 nonce.toNat ++ content
  s.spdmAnswer request (content ++ Config.sign m)

/-- GET_VERSION (13 R459): the exchange begins again. -/
def execGetVersion (s : State) : Host.Outcome State Fault Refusal :=
  .next (s.onBus fun s => ({ s with mgmt := { s.mgmt with transcript := [] } }.spdmStage 1).spdmAnswer 0x84 [0x12])

/-- GET_CAPABILITIES. -/
def execGetCapabilities (s : State) : Host.Outcome State Fault Refusal :=
  .next (s.onBus fun s => if s.mgmt.spdm = 1 then (s.spdmStage 2).spdmAnswer 0xE1 [] else s.emit .spdmError)

/-- NEGOTIATE_ALGORITHMS: ECDSA P-384 and SHA-384 are the only ones. -/
def execNegotiateAlgorithms (p384 : Bool) (sha384 : Bool) (s : State) : Host.Outcome State Fault Refusal :=
  .next (s.onBus fun s => if s.mgmt.spdm = 2 ∧ p384 ∧ sha384 then (s.spdmStage 3).spdmAnswer 0xE3 [] else s.emit .spdmError)

/-- GET_DIGESTS: the digest of slot 0. -/
def execGetDigests (s : State) : Host.Outcome State Fault Refusal := .next (s.spdmReady 0 fun s => s.spdmAnswer 0x81 (sha384 s.mc.flash.certs))

/-- GET_CERTIFICATE: a part of the chain of slot 0. -/
def execGetCertificate (slot : Nat) (off : Nat) (len : Nat) (s : State) : Host.Outcome State Fault Refusal :=
  .next (s.spdmReady slot fun s => s.spdmAnswer 0x82 ((s.mc.flash.certs.drop off).take len))

/-- CHALLENGE: signed by the device key. -/
def execChallenge (slot : Nat) (nonce : BitVec 256) (s : State) : Host.Outcome State Fault Refusal :=
  .next (s.spdmReady slot fun s => s.spdmSigned 0x83 nonce (sha384 s.mc.flash.certs))

/-- GET_MEASUREMENTS (13 R460): index 0 asks how many blocks there are, 0xFF for all of them, 1 to 6 for one. -/
def execGetMeasurements (index : Nat) (nonce : BitVec 256) (s : State) : Host.Outcome State Fault Refusal :=
  .next (s.spdmReady 0 fun s =>
    if index = 0 then s.spdmSigned 0xE0 nonce [6]
    else if index = 255 then s.spdmSigned 0xE0 nonce s.mgmt.measured.flatten
    else match s.mgmt.measured[index - 1]? with
      | some d => s.spdmSigned 0xE0 nonce d
      | none => s.emit .spdmError)

/-! ### PLDM (13 Table 13-6, R463) -/

/-- The value of a sensor in its natural unit (W, °C), and the state. The input voltage is measured and held nowhere: a free value (log 2). -/
def State.sensorValue (s : State) : PldmSensor → State × Int
  | .inputVoltage => let r := s.free; (r.2, (fld r.1 0 32 : Nat))
  | .inputPower => (s, s.tg.inputW)
  | .allowance => (s, s.tg.allowance.floor)
  | .coolantInlet => (s, s.heat.inlet)
  | .coldPlate => (s, s.heat.plate)
  | .modelPlate => (s, s.heat.model.floor)
  | .heatCap => (s, s.heatCapW)
  | .hottestBase q => (s, s.pwr.baseTemps.getD q 0)
  | .hottestCellar => (s, ((List.range 48).map fun k => s.cellarTemp k ((s.clu k).tempC1, (s.clu k).tempC4)).foldl max 0)
  | .hbmStack h => (s, (s.stack h).temp)
  | .tollgateState => (s, s.tg.st)
  | .beatValid => (s, b2n s.beat.valid)
  | .serviceCause => (s, s.mc.causes.getLastD 0)

/-- GET_SENSOR_READING (13 Table 13-6). -/
def execGetSensorReading (sensor : PldmSensor) (s : State) : Host.Outcome State Fault Refusal :=
  .next (s.onBus fun s => let r := s.sensorValue sensor; r.1.emit (.pldmReading (some r.2)))

/-- DIGITAL_SETPOINT_EFFECTER (10 R340): a value above 3,300 W is refused (Table 10-12). -/
def execDigitalSetpointEffecter (watts : Nat) (t : Nat) (s : State) : Host.Outcome State Fault Refusal :=
  let s := s.tick t
  .next (s.onBus fun s => if watts ≤ 3300 then s.writeSetpoint watts s.tg.deep t else s)

/-- DEEP_FLOOR_EFFECTER (10 R340). -/
def execDeepFloorEffecter (deep : Bool) (t : Nat) (s : State) : Host.Outcome State Fault Refusal :=
  let s := s.tick t
  .next (s.onBus fun s => s.writeSetpoint s.tg.digitalW deep t)

/-- COOLANT_FLOW_EFFECTER (10 R357, Table 10-16). -/
def execCoolantFlowEffecter (flow : Nat) (s : State) : Host.Outcome State Fault Refusal := .next (s.onBus fun s => s.writeCoolant flow s.heat.limit)

/-- PLATE_LIMIT_EFFECTER (10 R358, Table 10-16). -/
def execPlateLimitEffecter (limit : Nat) (s : State) : Host.Outcome State Fault Refusal := .next (s.onBus fun s => s.writeCoolant s.heat.flow limit)

/-- An image as an update delivers it passes the check of 13 R456. -/
def Flash.accepts (f : Flash) (bs : List Byte) : Bool :=
  Config.imageSignatureOk bs && decide (f.minSecurity ≤ Config.imageSecurity bs) && decide (bs.length ≤ 24 * 2 ^ 20)

/-- The inactive image written: its bytes, its security version, and whether it is rejected. -/
def Flash.writeInactive (f : Flash) (bs : List Byte) (bad : Bool) : Flash :=
  let v := Config.imageSecurity bs
  if f.active then { f with imageA := bs, security := (v, f.security.2), rejected := (bad, f.rejected.2) }
  else { f with imageB := bs, security := (f.security.1, v), rejected := (f.rejected.1, bad) }

/-- FIRMWARE_UPDATE_TRANSFER (13 R463): component 1, the MC image, goes to the inactive image; one that fails its check fails the update. -/
def execFirmwareUpdateTransfer (component : Nat) (bytes : List Byte) (s : State) : Host.Outcome State Fault Refusal :=
  .next (s.onRom fun s =>
    if component = 1 then
      let ok := s.mc.flash.accepts bytes
      { (s.modFlash fun f => f.writeInactive bytes !ok) with mgmt := { s.mgmt with update := if ok then some (1, bytes) else none } }
    else if component = 2 then { s with mgmt := { s.mgmt with update := some (2, bytes) } }
    else s)

/-- ACTIVATE_FIRMWARE (13 R463, R458): what was transferred counts from the next cold reset. -/
def execActivateFirmware (s : State) : Host.Outcome State Fault Refusal :=
  .next (s.onRom fun s =>
    let t := { s with mgmt := { s.mgmt with update := none } }
    match s.mgmt.update with
    | some (1, _) => t.modFlash fun f => { f with active := !f.active, attempts := 0 }
    | some (_, bs) => { t with mgmt := { t.mgmt with pendingCfg := some bs } }
    | none => s)

/-! ### Test access (13 R465, R466) -/

/-- The TAP answers while the module has power. -/
def State.onTap (s : State) (f : State → State) : State := if s.pwr.switch then f s else s

/-- The instruction selected. -/
def State.setTap (s : State) (i : TapInstr) : State := { s with mgmt := { s.mgmt with tap := i } }

/-- The identification register: the top four bits carry the stepping. -/
def State.idReg (s : State) : BitVec 32 := pack 32 [(0, 28, 0xE1600B5), (28, 4, s.mc.flash.stepping)]

/-- Bits of a word, lowest first. -/
def wordBits (w : BitVec 32) : List Bool := (List.range 32).map w.getLsbD

/-- EXTEST (13 Table 13-8): only in test mode. -/
def execExtest (cells : List Bool) (s : State) : Host.Outcome State Fault Refusal :=
  .next (s.onTap fun s => if s.mc.testMode then { (s.setTap .extest) with mgmt := { (s.setTap .extest).mgmt with cells := cells } } else s)

/-- SAMPLE_PRELOAD: the pins as they are. -/
def execSamplePreload (pins : List Bool) (s : State) : Host.Outcome State Fault Refusal := .next (s.onTap fun s => (s.setTap .sample).emit (.jtag pins))

/-- IDCODE. -/
def execIdcode (s : State) : Host.Outcome State Fault Refusal := .next (s.onTap fun s => (s.setTap .idcode).emit (.jtag (wordBits s.idReg)))

/-- TESTMODE (13 R466): only while RESET_N is low. Lanes and host link idle (14 Table 14-4). -/
def execTestmode (s : State) : Host.Outcome State Fault Refusal :=
  .next (s.onTap fun s =>
    if s.mc.resetNLow then
      let s := ((s.setTap .testmode).setAlive false).idleLanes
      { s with mc := { s.mc with testMode := true }, host := { s.host with linkUp := false } }
    else s)

/-- WRAPSEL (13 Table 13-8). -/
def execWrapsel (stack : BitVec 4) (s : State) : Host.Outcome State Fault Refusal :=
  .next (s.onTap fun s => { (s.setTap .wrapsel) with mgmt := { (s.setTap .wrapsel).mgmt with stackSel := stack } })

/-- BYPASS: one bit. -/
def execBypass (s : State) : Host.Outcome State Fault Refusal := .next (s.onTap fun s => (s.setTap .bypass).emit (.jtag [false]))

/-- TAP_RESET (13 R465): IDCODE is selected. -/
def execTapReset (s : State) : Host.Outcome State Fault Refusal := .next (s.onTap fun s => s.setTap .idcode)

end Sys2Proof.Machine
end

