-- ==== Sys2Proof/Machine/Dispatch.lean ====
section
/-! DEFINITION. One arm per command: the meaning it calls. -/

namespace Sys2Proof.Machine

open Sys2Proof

def exec (i : Instr) (s : State) : Host.Outcome State Fault Refusal :=
  match i with
  | .identify w => Sys2Proof.Machine.execIdentify w s
  | .regRead w => Sys2Proof.Machine.execRegRead w s
  | .stepRecords w => Sys2Proof.Machine.execStepRecords w s
  | .faultLog w => Sys2Proof.Machine.execFaultLog w s
  | .ctxCreate w => Sys2Proof.Machine.execCtxCreate w s
  | .ctxEnd w => Sys2Proof.Machine.execCtxEnd w s
  | .placement w => Sys2Proof.Machine.execPlacement w s
  | .lscaleSet w => Sys2Proof.Machine.execLscaleSet w s
  | .hparamSet w => Sys2Proof.Machine.execHparamSet w s
  | .fnLoad w => Sys2Proof.Machine.execFnLoad w s
  | .recipeLoad w => Sys2Proof.Machine.execRecipeLoad w s
  | .legLoad w => Sys2Proof.Machine.execLegLoad w s
  | .mapSet w => Sys2Proof.Machine.execMapSet w s
  | .shelfCreate w => Sys2Proof.Machine.execShelfCreate w s
  | .shelfRelease w => Sys2Proof.Machine.execShelfRelease w s
  | .rangePrefetch w => Sys2Proof.Machine.execRangePrefetch w s
  | .rangeFlush w => Sys2Proof.Machine.execRangeFlush w s
  | .rangeInvalidate w => Sys2Proof.Machine.execRangeInvalidate w s
  | .rangeDiscard w => Sys2Proof.Machine.execRangeDiscard w s
  | .rangeClose w => Sys2Proof.Machine.execRangeClose w s
  | .copyLines w => Sys2Proof.Machine.execCopyLines w s
  | .tileMove w => Sys2Proof.Machine.execTileMove w s
  | .stepWaybill w => Sys2Proof.Machine.execStepWaybill w s
  | .legWaybill w => Sys2Proof.Machine.execLegWaybill w s
  | .routeLoad w => Sys2Proof.Machine.execRouteLoad w s
  | .routeDefault w => Sys2Proof.Machine.execRouteDefault w s
  | .portRetrain w => Sys2Proof.Machine.execPortRetrain w s
  | .exportWaybill w => Sys2Proof.Machine.execExportWaybill w s
  | .restore w rec => Sys2Proof.Machine.execRestore w rec s
  | .takeover w => Sys2Proof.Machine.execTakeover w s
  | .setpoint w t => Sys2Proof.Machine.execSetpoint w t s
  | .shedClear w => Sys2Proof.Machine.execShedClear w s
  | .coolant w => Sys2Proof.Machine.execCoolant w s
  | .selfTest w => Sys2Proof.Machine.execSelfTest w s
  | .hbmRate w => Sys2Proof.Machine.execHbmRate w s
  | .status e => Sys2Proof.Machine.execStatus e s
  | .powerCap e t => Sys2Proof.Machine.execPowerCap e t s
  | .shedLatch e t => Sys2Proof.Machine.execShedLatch e t s
  | .priorityShedClear e => Sys2Proof.Machine.execPriorityShedClear e s
  | .resetContext e => Sys2Proof.Machine.execResetContext e s
  | .resetWarm e t => Sys2Proof.Machine.execResetWarm e t s
  | .resetCold e t => Sys2Proof.Machine.execResetCold e t s
  | .quiesceDepart e => Sys2Proof.Machine.execQuiesceDepart e s
  | .quiesceRejoin e => Sys2Proof.Machine.execQuiesceRejoin e s
  | .freezeTileBoundary e t => Sys2Proof.Machine.execFreezeTileBoundary e t s
  | .freezeImmediate e => Sys2Proof.Machine.execFreezeImmediate e s
  | .thaw e => Sys2Proof.Machine.execThaw e s
  | .crashDump e => Sys2Proof.Machine.execCrashDump e s
  | .freezeComplete t => Sys2Proof.Machine.execFreezeComplete t s
  | .waybillFetch hdr buf hostErr => Sys2Proof.Machine.execWaybillFetch hdr buf hostErr s
  | .sqDoorbell ring v => Sys2Proof.Machine.execSqDoorbell ring v s
  | .cqDoorbell ring v => Sys2Proof.Machine.execCqDoorbell ring v s
  | .priorityDoorbell v entries => Sys2Proof.Machine.execPriorityDoorbell v entries s
  | .ringEnable ring v => Sys2Proof.Machine.execRingEnable ring v s
  | .ringDisable ring v => Sys2Proof.Machine.execRingDisable ring v s
  | .ringDrainComplete ring => Sys2Proof.Machine.execRingDrainComplete ring s
  | .receiptWriteFailure ring => Sys2Proof.Machine.execReceiptWriteFailure ring s
  | .heldReceiptsWrite => Sys2Proof.Machine.execHeldReceiptsWrite s
  | .registerWrite off acc v => Sys2Proof.Machine.execRegisterWrite off acc v s
  | .leaseSWrite acc v t => Sys2Proof.Machine.execLeaseSWrite acc v t s
  | .rcRead off => Sys2Proof.Machine.execRcRead off s
  | .lowHalfRead off => Sys2Proof.Machine.execLowHalfRead off s
  | .highHalfRead off => Sys2Proof.Machine.execHighHalfRead off s
  | .tier3WindowApply => Sys2Proof.Machine.execTier3WindowApply s
  | .tileProductForward cl d => Sys2Proof.Machine.execTileProductForward cl d s
  | .tileProductDataGradient cl d => Sys2Proof.Machine.execTileProductDataGradient cl d s
  | .tileProductWeightGradient cl d => Sys2Proof.Machine.execTileProductWeightGradient cl d s
  | .elementwise cl d => Sys2Proof.Machine.execElementwise cl d s
  | .reduction cl d => Sys2Proof.Machine.execReduction cl d s
  | .gather cl d => Sys2Proof.Machine.execGather cl d s
  | .scatter cl d => Sys2Proof.Machine.execScatter cl d s
  | .rowNormForward cl d => Sys2Proof.Machine.execRowNormForward cl d s
  | .rowNormBackward cl d => Sys2Proof.Machine.execRowNormBackward cl d s
  | .softmaxForward cl d => Sys2Proof.Machine.execSoftmaxForward cl d s
  | .softmaxBackward cl d => Sys2Proof.Machine.execSoftmaxBackward cl d s
  | .reduceScatterSend cl d => Sys2Proof.Machine.execReduceScatterSend cl d s
  | .pointToPointSend cl d => Sys2Proof.Machine.execPointToPointSend cl d s
  | .shardFetch cl d => Sys2Proof.Machine.execShardFetch cl d s
  | .buddyMirror cl d => Sys2Proof.Machine.execBuddyMirror cl d s
  | .checkpointExport cl d => Sys2Proof.Machine.execCheckpointExport cl d s
  | .sweepSegment cl d => Sys2Proof.Machine.execSweepSegment cl d s
  | .recipeLaunch cl d => Sys2Proof.Machine.execRecipeLaunch cl d s
  | .descriptorComplete cl pipe => Sys2Proof.Machine.execDescriptorComplete cl pipe s
  | .nop u x => Sys2Proof.Machine.execNop u x s
  | .exit u x => Sys2Proof.Machine.execExit u x s
  | .bar u x => Sys2Proof.Machine.execBar u x s
  | .barRelease core => Sys2Proof.Machine.execBarRelease core s
  | .fence u x => Sys2Proof.Machine.execFence u x s
  | .ifMask u x => Sys2Proof.Machine.execIfMask u x s
  | .elseMask u x => Sys2Proof.Machine.execElseMask u x s
  | .endIf u x => Sys2Proof.Machine.execEndIf u x s
  | .loop u x => Sys2Proof.Machine.execLoop u x s
  | .bra u x => Sys2Proof.Machine.execBra u x s
  | .spr u x => Sys2Proof.Machine.execSpr u x s
  | .iadd u x => Sys2Proof.Machine.execIadd u x s
  | .isub u x => Sys2Proof.Machine.execIsub u x s
  | .imul u x => Sys2Proof.Machine.execImul u x s
  | .imad u x => Sys2Proof.Machine.execImad u x s
  | .imin u x => Sys2Proof.Machine.execImin u x s
  | .imax u x => Sys2Proof.Machine.execImax u x s
  | .andBits u x => Sys2Proof.Machine.execAndBits u x s
  | .orBits u x => Sys2Proof.Machine.execOrBits u x s
  | .xorBits u x => Sys2Proof.Machine.execXorBits u x s
  | .shl u x => Sys2Proof.Machine.execShl u x s
  | .shr u x => Sys2Proof.Machine.execShr u x s
  | .sar u x => Sys2Proof.Machine.execSar u x s
  | .addi u x => Sys2Proof.Machine.execAddi u x s
  | .lui u x => Sys2Proof.Machine.execLui u x s
  | .icmp u x => Sys2Proof.Machine.execIcmp u x s
  | .sel u x => Sys2Proof.Machine.execSel u x s
  | .fadd u x => Sys2Proof.Machine.execFadd u x s
  | .fsub u x => Sys2Proof.Machine.execFsub u x s
  | .fmul u x => Sys2Proof.Machine.execFmul u x s
  | .ffma u x => Sys2Proof.Machine.execFfma u x s
  | .fmin u x => Sys2Proof.Machine.execFmin u x s
  | .fmax u x => Sys2Proof.Machine.execFmax u x s
  | .fcmp u x => Sys2Proof.Machine.execFcmp u x s
  | .fn u x => Sys2Proof.Machine.execFn u x s
  | .cvt u x => Sys2Proof.Machine.execCvt u x s
  | .f2i u x => Sys2Proof.Machine.execF2i u x s
  | .i2f u x => Sys2Proof.Machine.execI2f u x s
  | .ldl u x => Sys2Proof.Machine.execLdl u x s
  | .stl u x => Sys2Proof.Machine.execStl u x s
  | .ldg u x => Sys2Proof.Machine.execLdg u x s
  | .stg u x => Sys2Proof.Machine.execStg u x s
  | .ldt u x => Sys2Proof.Machine.execLdt u x s
  | .prf u x => Sys2Proof.Machine.execPrf u x s
  | .atom u x => Sys2Proof.Machine.execAtom u x s
  | .red u x => Sys2Proof.Machine.execRed u x s
  | .shfl u x => Sys2Proof.Machine.execShfl u x s
  | .vote u x => Sys2Proof.Machine.execVote u x s
  | .rand u x => Sys2Proof.Machine.execRand u x s
  | .wellHaltEnd core pipe t => Sys2Proof.Machine.execWellHaltEnd core pipe t s
  | .wellHaltTimeout core pipe t => Sys2Proof.Machine.execWellHaltTimeout core pipe t s
  | .orderedContributionArrival c => Sys2Proof.Machine.execOrderedContributionArrival c s
  | .contributionResend c => Sys2Proof.Machine.execContributionResend c s
  | .completionNoticeArrival nt => Sys2Proof.Machine.execCompletionNoticeArrival nt s
  | .immediateOperationArrival o => Sys2Proof.Machine.execImmediateOperationArrival o s
  | .pressWaitTimeout ctx leg line t => Sys2Proof.Machine.execPressWaitTimeout ctx leg line t s
  | .homeRequest r => Sys2Proof.Machine.execHomeRequest r s
  | .channelRetrim k margin failing t => Sys2Proof.Machine.execChannelRetrim k margin failing t s
  | .unscheduledRetrim k before margin failing t => Sys2Proof.Machine.execUnscheduledRetrim k before margin failing t s
  | .couplerRemap k up coupler => Sys2Proof.Machine.execCouplerRemap k up coupler s
  | .columnEvacuationComplete col => Sys2Proof.Machine.execColumnEvacuationComplete col s
  | .lineCheckFailure k x up coupler t => Sys2Proof.Machine.execLineCheckFailure k x up coupler t s
  | .cellarUncorrectable line t => Sys2Proof.Machine.execCellarUncorrectable line t s
  | .cellarCorrected line t => Sys2Proof.Machine.execCellarCorrected line t s
  | .columnControllerSilent col t => Sys2Proof.Machine.execColumnControllerSilent col t s
  | .thrashIntervalEnd col => Sys2Proof.Machine.execThrashIntervalEnd col s
  | .hbmCorrectedError addr t => Sys2Proof.Machine.execHbmCorrectedError addr t s
  | .hbmReadParityFailure x t => Sys2Proof.Machine.execHbmReadParityFailure x t s
  | .hbmWriteParityFailure x t => Sys2Proof.Machine.execHbmWriteParityFailure x t s
  | .hbmUncorrectableError x t => Sys2Proof.Machine.execHbmUncorrectableError x t s
  | .temperatureReadout stackTemps cellarTemps t => Sys2Proof.Machine.execTemperatureReadout stackTemps cellarTemps t s
  | .refreshRateFall die temp t => Sys2Proof.Machine.execRefreshRateFall die temp t s
  | .outriderFetchStart ctx => Sys2Proof.Machine.execOutriderFetchStart ctx s
  | .caravanFillComplete ctx => Sys2Proof.Machine.execCaravanFillComplete ctx s
  | .caravanFillError ctx tile t => Sys2Proof.Machine.execCaravanFillError ctx tile t s
  | .tileRegenerated ctx layer tile src => Sys2Proof.Machine.execTileRegenerated ctx layer tile src s
  | .stashSpillFetch ctx => Sys2Proof.Machine.execStashSpillFetch ctx s
  | .admissionPass t => Sys2Proof.Machine.execAdmissionPass t s
  | .legComplete ctx leg t => Sys2Proof.Machine.execLegComplete ctx leg t s
  | .stepAdmission ctx t => Sys2Proof.Machine.execStepAdmission ctx t s
  | .stepClose ctx energyJ peakW t => Sys2Proof.Machine.execStepClose ctx energyJ peakW t s
  | .trailerArrival ctx tr => Sys2Proof.Machine.execTrailerArrival ctx tr s
  | .sealPublish ctx tensor => Sys2Proof.Machine.execSealPublish ctx tensor s
  | .fetchUnitArrival ctx tensor rank unit bytes sealv step => Sys2Proof.Machine.execFetchUnitArrival ctx tensor rank unit bytes sealv step s
  | .verifyRequest ctx tensor unit src buddy => Sys2Proof.Machine.execVerifyRequest ctx tensor unit src buddy s
  | .verifyReply ctx => Sys2Proof.Machine.execVerifyReply ctx s
  | .mirrorUnitArrival ctx m => Sys2Proof.Machine.execMirrorUnitArrival ctx m s
  | .mirrorAcknowledgement ctx step => Sys2Proof.Machine.execMirrorAcknowledgement ctx step s
  | .maskArrival ctx m => Sys2Proof.Machine.execMaskArrival ctx m s
  | .resumeNoticeArrival ctx owner gen => Sys2Proof.Machine.execResumeNoticeArrival ctx owner gen s
  | .resendNoticeArrival ctx owner gen => Sys2Proof.Machine.execResendNoticeArrival ctx owner gen s
  | .voidNoticeArrival ctx step => Sys2Proof.Machine.execVoidNoticeArrival ctx step s
  | .spareAdmitRequest ctx rank moduleId => Sys2Proof.Machine.execSpareAdmitRequest ctx rank moduleId s
  | .lossNoticeArrival moduleId => Sys2Proof.Machine.execLossNoticeArrival moduleId s
  | .neighbourLost x t => Sys2Proof.Machine.execNeighbourLost x t s
  | .departureNoticeArrival x => Sys2Proof.Machine.execDepartureNoticeArrival x s
  | .neighbourDeparted port t => Sys2Proof.Machine.execNeighbourDeparted port t s
  | .isolated t => Sys2Proof.Machine.execIsolated t s
  | .flitReceive port flit t => Sys2Proof.Machine.execFlitReceive port flit t s
  | .controlFlitReceive port c t => Sys2Proof.Machine.execControlFlitReceive port c t s
  | .controlFlitSend port => Sys2Proof.Machine.execControlFlitSend port s
  | .replayTimeout port t => Sys2Proof.Machine.execReplayTimeout port t s
  | .laneDown port lane t => Sys2Proof.Machine.execLaneDown port lane t s
  | .widthChangeComplete port credits => Sys2Proof.Machine.execWidthChangeComplete port credits s
  | .portTrainingComplete port own peer peerId credits => Sys2Proof.Machine.execPortTrainingComplete port own peer peerId credits s
  | .packetRoute p t => Sys2Proof.Machine.execPacketRoute p t s
  | .heldPacketTimeout p t => Sys2Proof.Machine.execHeldPacketTimeout p t s
  | .packetArrival p => Sys2Proof.Machine.execPacketArrival p s
  | .reduceScatterContributionArrival p c => Sys2Proof.Machine.execReduceScatterContributionArrival p c s
  | .packetAcknowledgement tags refused => Sys2Proof.Machine.execPacketAcknowledgement tags refused s
  | .linkTimeout tag t => Sys2Proof.Machine.execLinkTimeout tag t s
  | .shedNAssert t => Sys2Proof.Machine.execShedNAssert t s
  | .shedNRelease t => Sys2Proof.Machine.execShedNRelease t s
  | .chatterClear t => Sys2Proof.Machine.execChatterClear t s
  | .envSetSample mv t => Sys2Proof.Machine.execEnvSetSample mv t s
  | .beatEdge t highOk => Sys2Proof.Machine.execBeatEdge t highOk s
  | .beatInvalid t => Sys2Proof.Machine.execBeatInvalid t s
  | .slotBoundary t slot => Sys2Proof.Machine.execSlotBoundary t slot s
  | .leaseExpiry t => Sys2Proof.Machine.execLeaseExpiry t s
  | .inputUndervoltage t => Sys2Proof.Machine.execInputUndervoltage t s
  | .inputRecovery t => Sys2Proof.Machine.execInputRecovery t s
  | .powerLoss t => Sys2Proof.Machine.execPowerLoss t s
  | .powerOn t => Sys2Proof.Machine.execPowerOn t s
  | .bringupStepComplete fails x => Sys2Proof.Machine.execBringupStepComplete fails x s
  | .governorTick avgW t => Sys2Proof.Machine.execGovernorTick avgW t s
  | .heatModelUpdate inlet plate power t => Sys2Proof.Machine.execHeatModelUpdate inlet plate power t s
  | .inletSensorFailure t => Sys2Proof.Machine.execInletSensorFailure t s
  | .dieThrottle die temp t => Sys2Proof.Machine.execDieThrottle die temp t s
  | .throttleRelease die temp t => Sys2Proof.Machine.execThrottleRelease die temp t s
  | .thermalTrip die temp t => Sys2Proof.Machine.execThermalTrip die temp t s
  | .retentionFloorReached t => Sys2Proof.Machine.execRetentionFloorReached t s
  | .deepFloorEntry ok t => Sys2Proof.Machine.execDeepFloorEntry ok t s
  | .deepFloorExit x => Sys2Proof.Machine.execDeepFloorExit x s
  | .retentionFloorExit t => Sys2Proof.Machine.execRetentionFloorExit t s
  | .idlePointEntry t => Sys2Proof.Machine.execIdlePointEntry t s
  | .clusterRotation t => Sys2Proof.Machine.execClusterRotation t s
  | .turnGivenUp cl t => Sys2Proof.Machine.execTurnGivenUp cl t s
  | .clockStep cl t => Sys2Proof.Machine.execClockStep cl t s
  | .resetNAssert t => Sys2Proof.Machine.execResetNAssert t s
  | .resetNRelease t => Sys2Proof.Machine.execResetNRelease t s
  | .watchdogExpiry t => Sys2Proof.Machine.execWatchdogExpiry t s
  | .perstNAssert => Sys2Proof.Machine.execPerstNAssert s
  | .perstNRelease => Sys2Proof.Machine.execPerstNRelease s
  | .mcCoreWatchdog core t => Sys2Proof.Machine.execMcCoreWatchdog core t s
  | .mcCoreRestartComplete core => Sys2Proof.Machine.execMcCoreRestartComplete core s
  | .coreLogicFault core t => Sys2Proof.Machine.execCoreLogicFault core t s
  | .tier0Uncorrectable core off t => Sys2Proof.Machine.execTier0Uncorrectable core off t s
  | .tier0Corrected core off t => Sys2Proof.Machine.execTier0Corrected core off t s
  | .l1Parity core line t => Sys2Proof.Machine.execL1Parity core line t s
  | .powerStagePhaseFault stage phase holds t => Sys2Proof.Machine.execPowerStagePhaseFault stage phase holds t s
  | .sensorFault sensor t => Sys2Proof.Machine.execSensorFault sensor t s
  | .selfTestComplete unit pass t => Sys2Proof.Machine.execSelfTestComplete unit pass t s
  | .exportStart ctx => Sys2Proof.Machine.execExportStart ctx s
  | .storeOpen ctx src srcCtx size => Sys2Proof.Machine.execStoreOpen ctx src srcCtx size s
  | .storeGrant ctx base => Sys2Proof.Machine.execStoreGrant ctx base s
  | .storeRefuse ctx => Sys2Proof.Machine.execStoreRefuse ctx s
  | .storeClose ctx src srcCtx digest => Sys2Proof.Machine.execStoreClose ctx src srcCtx digest s
  | .storeDone ctx ok => Sys2Proof.Machine.execStoreDone ctx ok s
  | .storeTimeout x => Sys2Proof.Machine.execStoreTimeout x s
  | .mctpPriorityMessage vendor subtype hdr => Sys2Proof.Machine.execMctpPriorityMessage vendor subtype hdr s
  | .getVendorDefined => Sys2Proof.Machine.execGetVendorDefined s
  | .i3cDynamicAddress addr => Sys2Proof.Machine.execI3cDynamicAddress addr s
  | .getVersion => Sys2Proof.Machine.execGetVersion s
  | .getCapabilities => Sys2Proof.Machine.execGetCapabilities s
  | .negotiateAlgorithms p384 sha384 => Sys2Proof.Machine.execNegotiateAlgorithms p384 sha384 s
  | .getDigests => Sys2Proof.Machine.execGetDigests s
  | .getCertificate slot off len => Sys2Proof.Machine.execGetCertificate slot off len s
  | .challenge slot nonce => Sys2Proof.Machine.execChallenge slot nonce s
  | .getMeasurements index nonce => Sys2Proof.Machine.execGetMeasurements index nonce s
  | .getSensorReading sensor => Sys2Proof.Machine.execGetSensorReading sensor s
  | .digitalSetpointEffecter watts t => Sys2Proof.Machine.execDigitalSetpointEffecter watts t s
  | .deepFloorEffecter deep t => Sys2Proof.Machine.execDeepFloorEffecter deep t s
  | .coolantFlowEffecter flow => Sys2Proof.Machine.execCoolantFlowEffecter flow s
  | .plateLimitEffecter limit => Sys2Proof.Machine.execPlateLimitEffecter limit s
  | .firmwareUpdateTransfer component bytes => Sys2Proof.Machine.execFirmwareUpdateTransfer component bytes s
  | .activateFirmware => Sys2Proof.Machine.execActivateFirmware s
  | .extest cells => Sys2Proof.Machine.execExtest cells s
  | .samplePreload pins => Sys2Proof.Machine.execSamplePreload pins s
  | .idcode => Sys2Proof.Machine.execIdcode s
  | .testmode => Sys2Proof.Machine.execTestmode s
  | .wrapsel stack => Sys2Proof.Machine.execWrapsel stack s
  | .bypass => Sys2Proof.Machine.execBypass s
  | .snoop hostAddr invalidate => Sys2Proof.Machine.execSnoop hostAddr invalidate s
  | .irqDelayExpiry ring => Sys2Proof.Machine.execIrqDelayExpiry ring s
  | .hostLinkDown width => Sys2Proof.Machine.execHostLinkDown width s
  | .retrimComplete k t => Sys2Proof.Machine.execRetrimComplete k t s
  | .rowRetirementComplete stack pc row bad => Sys2Proof.Machine.execRowRetirementComplete stack pc row bad s
  | .takeoverQuery ctx src q => Sys2Proof.Machine.execTakeoverQuery ctx src q s
  | .takeoverQueryReply ctx r => Sys2Proof.Machine.execTakeoverQueryReply ctx r s
  | .mirrorUnitRerequest ctx tensor array unit => Sys2Proof.Machine.execMirrorUnitRerequest ctx tensor array unit s
  | .tapReset => Sys2Proof.Machine.execTapReset s
  | .setEndpointId eid => Sys2Proof.Machine.execSetEndpointId eid s
  | .pldmEventsEnable on => Sys2Proof.Machine.execPldmEventsEnable on s

end Sys2Proof.Machine
end

