-- ==== Sys2Proof/Safety.lean ====
section
/-! DEFINITION. What the claims call safe: the invariant of the block's own records (memories in canonical form, fault logs in order, the
repair map and the counters within their bounds), and what every operation leaves true of the state around it. -/

namespace Sys2Proof.Machine

open Sys2Proof

/-- Keys of a table rise strictly (host memory lists every byte written, a zero among them). -/
def keysRise (t : Tbl Byte) : Bool := decide (t.Pairwise fun a b => a.1 < b.1)

/-- Every byte memory is in its canonical form, so that equal memories are equal data. -/
def Mems.wf (m : Mems) : Bool :=
  twf 0 m.tier0 && twf 0 m.scratch && twf 0 m.side && twf 0 m.tier2 && twf 0 m.evac && twf 0 m.stash && twf 0 m.bar2
    && keysRise m.host

/-- The tables of the state's parts are canonical. -/
def State.tablesWf (s : State) : Bool :=
  twf Ctx.init s.ctx && twf Cluster.init s.cl && twf Core.init s.cores && twf Column.init s.cel.columns && twf Ring.init s.host.rings
    && twf Stack.init s.hbm.stk && twf Port.init s.fab.ports

/-- Fault records stand in the order of their numbers, all below the next number (12 R412, R414). -/
def logWf (next : Nat) (l : List FaultRec) : Prop := l.Pairwise (fun a b => a.seq < b.seq) ∧ ∀ f ∈ l, f.seq < next

/-- The invariant of a state. -/
structure State.Inv (s : State) : Prop where
  mem      : s.mem.wf = true
  tables   : s.tablesWf = true
  faultLog : logWf s.mc.faultSeq s.mc.faultLog
  flashLog : logWf s.mc.faultSeq s.mc.flashLog
  /-- The logs keep 65,536 and 4,096 records (12 R413). -/
  faultLen : s.mc.faultLog.length ≤ 65536
  flashLen : s.mc.flashLog.length ≤ 4096
  /-- The repair map holds 16,384 entries (12 R421). -/
  repairs  : s.mc.repairMap.length ≤ 16384
  /-- events_lost holds at 0xFFFF (11 R387). -/
  lost     : s.mc.eventsLost ≤ 0xFFFF
  /-- The tollgate is in one of its states (10 Table 10-13). -/
  gate     : s.tg.st ≤ 6

/-- What every operation on the state keeps: the queue is untouched, the module timer never goes back, a free value is never used twice, what was
sent stays sent, fault numbers only grow, and the invariant stands. -/
structure Sound (a s : State) : Prop where
  pending : s.pending = a.pending
  now     : a.now ≤ s.now
  free    : a.freeCtr ≤ s.freeCtr
  out     : a.out <+: s.out
  seq     : a.mc.faultSeq ≤ s.mc.faultSeq
  inv     : a.Inv → s.Inv

end Sys2Proof.Machine
end

