-- ==== Sys2Proof/Certificates/Slice0/Obligations.lean ====
section
/-! DEFINITION. The statements about the block: each cites the rules of spec/ it rests on; a clause that rests on a choice of the model names its log
entry. -/

open Sys2Proof Sys2Proof.Machine

namespace Sys2Proof.Machine

/-! ### Terms of the claims about recipes -/

/-- Strand t' is strand t after an instruction that wrote register d of the lanes `ls` with `v` and went on to the next word: g0 still reads 0,
every other register and everything else of the strand is as it was (03 R91). -/
structure RegStep (t t' : Strand) (ls : List Nat) (d : Nat) (v : Nat → Word) : Prop where
  wrote : d ≠ 0 → ∀ l ∈ ls, t'.reg l d = v l
  zero  : ∀ l, t'.reg l 0 = 0
  kept  : ∀ l r, r < 32 → (r ≠ d ∨ l ∉ ls) → t'.reg l r = t.reg l r
  rest  : { t' with regs := t.regs, pc := t.pc } = t
  pc    : t'.pc = nextPc t.pc

/-- As `RegStep`, for an instruction that wrote predicate d; p0 still reads true (03 R91). -/
structure PredStep (t t' : Strand) (ls : List Nat) (d : Nat) (v : Nat → Bool) : Prop where
  wrote : d ≠ 0 → ∀ l ∈ ls, t'.pred l d = v l
  one   : ∀ l, t'.pred l 0 = true
  kept  : ∀ l r, r < 8 → (r ≠ d ∨ l ∉ ls) → t'.pred l r = t.pred l r
  rest  : { t' with preds := t.preds, pc := t.pc } = t
  pc    : t'.pc = nextPc t.pc

/-- One lane after another, in the order given: each takes the state to the next by R. -/
inductive Lanes (R : State → Nat → State → Prop) : State → List Nat → State → Prop where
  | nil (s : State) : Lanes R s [] s
  | cons {s s' s'' : State} {l : Nat} {ls : List Nat} : R s l s' → Lanes R s' ls s'' → Lanes R s (l :: ls) s''

/-- The strand of `u` goes on to the next word. -/
def State.nextWord (s : State) (u : StrandRef) : State := s.modStrand u fun t => { t with pc := nextPc t.pc }

/-- The strand `u` becomes t. -/
def State.setStrand (s : State) (u : StrandRef) (t : Strand) : State := s.modStrand u fun _ => t

end Sys2Proof.Machine

/-! ### The queue and the whole machine -/

/-- (step, this block's form) The command at the front of the queue takes effect on the state with the queue's rest. -/
def Obligations.StepRunsFront : Prop :=
  ∀ (s : State) (c : Instr) (rest : List Instr), s.pending = c :: rest → step s = exec c { s with pending := rest }

/-- Log 15, DESIGN CHOICE: with no command waiting the block idles. -/
def Obligations.StepIdle : Prop := ∀ s : State, s.pending = [] → step s = .next s

/-- The invariant holds at reset. -/
def Obligations.InvAtReset : Prop := State.reset.Inv

/-- Every step keeps the invariant: memories and tables canonical, fault records in the order of their numbers below the next number
(12 R412), the logs, the repair map and eventsLost within their bounds (12 R413, R421; 11 R387), the tollgate in one of its states. -/
def Obligations.StepKeepsInv : Prop := ∀ s t : State, s.Inv → step s = .next t → t.Inv

/-- Every command completes: it takes one command from the front of the queue and leaves the others; what was sent stays sent, the module
timer never goes back, fault numbers never fall, and the counter of free values never falls. -/
def Obligations.EveryStepCompletes : Prop :=
  ∀ s : State, ∃ t, step s = .next t ∧ t.pending = s.pending.drop 1 ∧ s.out <+: t.out ∧ s.now ≤ t.now ∧ s.mc.faultSeq ≤ t.mc.faultSeq
    ∧ s.freeCtr ≤ t.freeCtr

/-! ### Recipe instructions (03 R90 to R100) -/

/-- The two-operand integer instructions and what each computes (03 Table 3-7): the low 32 bits of the exact result, signed order for the
extremes, shifts by b modulo 32. -/
def Sys2Proof.Machine.intOps : List ((StrandRef → FormA → Instr) × Nat × (Word → Word → Word)) :=
  [(.iadd, 0x0A, fun a b => BitVec.ofNat 32 (a.toNat + b.toNat)), (.isub, 0x0B, fun a b => BitVec.ofInt 32 (a.toInt - b.toInt)),
   (.imul, 0x0C, fun a b => BitVec.ofNat 32 (a.toNat * b.toNat)),
   (.imin, 0x0E, fun a b => BitVec.ofInt 32 (min a.toInt b.toInt)), (.imax, 0x0F, fun a b => BitVec.ofInt 32 (max a.toInt b.toInt)),
   (.andBits, 0x10, fun a b => a &&& b), (.orBits, 0x11, fun a b => a ||| b), (.xorBits, 0x12, fun a b => a ^^^ b),
   (.shl, 0x13, fun a b => BitVec.ofNat 32 (a.toNat * 2 ^ (b.toNat % 32))), (.shr, 0x14, fun a b => BitVec.ofNat 32 (a.toNat / 2 ^ (b.toNat % 32))),
   (.sar, 0x15, fun a b => BitVec.ofInt 32 (a.toInt / 2 ^ (b.toNat % 32)))]

/-- IADD, ISUB, IMUL, IMIN, IMAX, AND, OR, XOR, SHL, SHR, SAR: each guarded lane's g[d] takes the result, sources read first; nothing but
that register and the pc of the strand changes in the whole state. -/
def Sys2Proof.Claims.IntegerResults : Prop :=
  ∀ q ∈ intOps, ∀ (s : State) (u : StrandRef) (x : FormA) (t : Strand) (p : Where),
    s.ready u (encA q.2.1 x) = some (t, p) → regsBad p [x.d, x.a, x.b] = false →
    ∃ t', exec (q.1 u x) s = .next (s.setStrand u t')
      ∧ RegStep t t' (t.guarded x) x.d.toNat fun l => q.2.2 (t.reg l x.a.toNat) (t.reg l x.b.toNat)

/-- FADD, FSUB, FMUL, FMIN, FMAX: operand a takes its absolute value (m[1]) before its negation (m[0]), b its negation (m[2]). -/
def Sys2Proof.Machine.floatOps : List ((StrandRef → FormA → Instr) × Nat × (Word → Word → Word)) :=
  [(.fadd, 0x1A, fun a b => to32 ((val32 a).add (val32 b))), (.fsub, 0x1B, fun a b => to32 ((val32 a).add (val32 b).neg)),
   (.fmul, 0x1C, fun a b => to32 ((val32 a).mul (val32 b))),
   (.fmin, 0x1E, fun a b => if val32 a = .nan ∨ val32 b = .nan then 0x7FC00000 else if flt b a then b else a),
   (.fmax, 0x1F, fun a b => if val32 a = .nan ∨ val32 b = .nan then 0x7FC00000 else if flt a b then b else a)]

/-- Absolute value when `ab`, then negation when `ng`, of an FP32 word: bit 31 alone changes. -/
def Sys2Proof.Machine.signMod (ab ng : Bool) (w : Word) : Word :=
  BitVec.ofNat 32 (w.toNat % 2 ^ 31 + (if ((w.toNat / 2 ^ 31 == 1) && !ab) != ng then 2 ^ 31 else 0))

/-- FADD, FSUB, FMUL, FMIN, FMAX and FFMA (03 Table 3-7): the exact result rounded once to FP32, sources after their sign modifiers; FMIN and FMAX of a NaN
give the quiet NaN. Nothing but the register and the pc changes. -/
def Sys2Proof.Claims.FloatResults : Prop :=
  (∀ q ∈ floatOps, ∀ (s : State) (u : StrandRef) (x : FormA) (t : Strand) (p : Where),
    s.ready u (encA q.2.1 x) = some (t, p) → regsBad p [x.d, x.a, x.b] = false →
    ∃ t', exec (q.1 u x) s = .next (s.setStrand u t')
      ∧ RegStep t t' (t.guarded x) x.d.toNat fun l =>
        q.2.2 (signMod (x.m.getLsbD 1) (x.m.getLsbD 0) (t.reg l x.a.toNat)) (signMod false (x.m.getLsbD 2) (t.reg l x.b.toNat)))
  ∧ (∀ (s : State) (u : StrandRef) (x : FormA) (t : Strand) (p : Where),
    s.ready u (encA 0x1D x) = some (t, p) → regsBad p [x.d, x.a, x.b] = false →
    ∃ t', exec (.ffma u x) s = .next (s.setStrand u t')
      ∧ RegStep t t' (t.guarded x) x.d.toNat fun l =>
        to32 (((val32 (signMod (x.m.getLsbD 1) (x.m.getLsbD 0) (t.reg l x.a.toNat))).mul (val32 (signMod false (x.m.getLsbD 2) (t.reg l x.b.toNat)))).add
          (val32 (t.reg l x.d.toNat))))

/-- IMAD, SPR, SHFL, I2F, CVT, RAND and F2I: results of the other register instructions. F2I counts NaN inputs (03 R103). -/
def Sys2Proof.Claims.OtherRegisterResults : Prop :=
  ∀ (s : State) (u : StrandRef) (x : FormA) (t : Strand) (p : Where),
    (s.ready u (encA 0x0D x) = some (t, p) → regsBad p [x.d, x.a, x.b] = false →
      ∃ t', exec (.imad u x) s = .next (s.setStrand u t') ∧ RegStep t t' (t.guarded x) x.d.toNat fun l =>
        BitVec.ofNat 32 ((t.reg l x.a.toNat).toNat * (t.reg l x.b.toNat).toNat + (t.reg l x.d.toNat).toNat))
    ∧ (s.ready u (encA 0x09 x) = some (t, p) → regsBad p [x.d] = false → x.a.toNat < 16 →
      ∃ t', exec (.spr u x) s = .next (s.setStrand u t') ∧ RegStep t t' (t.guarded x) x.d.toNat fun l => s.special p u t l x.a.toNat)
    ∧ (s.ready u (encA 0x2D x) = some (t, p) → regsBad p [x.d, x.a, x.b] = false →
      ∃ t', exec (.shfl u x) s = .next (s.setStrand u t') ∧ RegStep t t' (t.guarded x) x.d.toNat fun l =>
        t.reg ((t.reg l x.b.toNat).toNat % 32) x.a.toNat)
    ∧ (s.ready u (encA 0x24 x) = some (t, p) → regsBad p [x.d, x.a] = false →
      ∃ t', exec (.i2f u x) s = .next (s.setStrand u t') ∧ RegStep t t' (t.guarded x) x.d.toNat fun l => to32 (.ofInt (t.reg l x.a.toNat).toInt))
    ∧ (s.ready u (encA 0x22 x) = some (t, p) → regsBad p [x.d, x.a] = false → ∀ g, ffmt x.f.toNat = some g → 2 ≤ x.f.toNat → x.f.toNat ≤ 5 →
      ∃ t', exec (.cvt u x) s = .next (s.setStrand u t') ∧ RegStep t t' (t.guarded x) x.d.toNat fun l =>
        if x.m.getLsbD 0 then to32 (g.decode (t.reg l x.a.toNat).toNat)
        else BitVec.ofNat 32 (g.encode .near (x.m.getLsbD 1) (val32 (t.reg l x.a.toNat))))
    ∧ (s.ready u (encA 0x2F x) = some (t, p) → regsBad p [x.d, x.a, x.b] = false → x.m.toNat ≤ 3 →
      ∃ t', exec (.rand u x) s = .next (s.setStrand u t') ∧ RegStep t t' (t.guarded x) x.d.toNat fun l =>
        blockWord (streamBlock (s.streamKey p.ctx p.d.tensor) 2 (t.reg l x.a.toNat).toNat (t.reg l x.b.toNat).toNat) x.m.toNat)
    ∧ (s.ready u (encA 0x23 x) = some (t, p) → regsBad p [x.d, x.a] = false →
      ∃ t', exec (.f2i u x) s = .next ((s.modCnt (clusterOf u.core) fun k => { k with
          cvtNan := min 0xFFFFFFFF (k.cvtNan + ((t.guarded x).filter fun l => val32 (t.reg l x.a.toNat) == .nan).length) }).setStrand u t')
        ∧ RegStep t t' (t.guarded x) x.d.toNat fun l => BitVec.ofInt 32 (toIntFmt 32 (val32 (t.reg l x.a.toNat))))

/-- FN (03 R70): the slot's table, or its derivative table; a slot that holds no table gives a free value in each lane, whatever it is. -/
def Sys2Proof.Claims.FnResult : Prop :=
  ∀ (s : State) (u : StrandRef) (x : FormA) (t : Strand) (p : Where),
    s.ready u (encA 0x21 x) = some (t, p) → regsBad p [x.d, x.a] = false →
    ∃ t' v, exec (.fn u x) s = .next ({ s with freeCtr := s.freeCtr + 32 }.setStrand u t') ∧ RegStep t t' (t.guarded x) x.d.toNat v
      ∧ ∀ g, s.fnSlot p.cl x.f.toNat = some g → ∀ l, v l = fnEval (g.table (x.m.getLsbD 0)) (t.reg l x.a.toNat)

/-- ADDI and LUI run for every active lane (03 R95). -/
def Sys2Proof.Claims.ImmediateResults : Prop :=
  ∀ (s : State) (u : StrandRef) (x : FormI) (t : Strand) (p : Where), regsBad p [x.d, x.a] = false →
    (s.ready u (encI 0x16 x) = some (t, p) →
      ∃ t', exec (.addi u x) s = .next (s.setStrand u t') ∧ RegStep t t' t.lanes x.d.toNat fun l =>
        BitVec.ofInt 32 ((t.reg l x.a.toNat).toInt + x.imm.toInt))
    ∧ (s.ready u (encI 0x17 x) = some (t, p) → x.a = 0 →
      ∃ t', exec (.lui u x) s = .next (s.setStrand u t') ∧ RegStep t t' t.lanes x.d.toNat fun _ => BitVec.ofNat 32 (x.imm.toNat * 65536))

/-- Integer comparisons by code (03 Table 3-7): equal, not equal, then signed less, less or equal, greater, greater or equal, then unsigned
less and greater or equal. -/
def Sys2Proof.Machine.icmpOf (f : Nat) (a b : Word) : Prop :=
  match f with
  | 0 => a = b
  | 1 => a ≠ b
  | 2 => a.toInt < b.toInt
  | 3 => a.toInt ≤ b.toInt
  | 4 => b.toInt < a.toInt
  | 5 => b.toInt ≤ a.toInt
  | 6 => a.toNat < b.toNat
  | _ => b.toNat ≤ a.toNat

/-- FP32 comparisons by code from the exact order of the values; with a NaN only "not equal" holds (03 Table 3-7). -/
def Sys2Proof.Machine.fcmpOf (f : Nat) (a b : Word) : Prop :=
  match f, (val32 a).cmp (val32 b) with
  | 0, o => o = some .eq
  | 1, o => o ≠ some .eq
  | 2, o => o = some .lt
  | 3, o => o = some .lt ∨ o = some .eq
  | 4, o => o = some .gt
  | _, o => o = some .gt ∨ o = some .eq

/-- ICMP and FCMP write one predicate of each guarded lane and nothing else. -/
def Sys2Proof.Claims.CompareResults : Prop :=
  ∀ (s : State) (u : StrandRef) (x : FormA) (t : Strand) (p : Where), regsBad p [x.a, x.b] = false →
    (s.ready u (encA 0x18 x) = some (t, p) → x.f.toNat ≤ 7 →
      ∃ t' v, exec (.icmp u x) s = .next (s.setStrand u t') ∧ PredStep t t' (t.guarded x) (x.d.toNat % 8) v
        ∧ ∀ l, v l = true ↔ icmpOf x.f.toNat (t.reg l x.a.toNat) (t.reg l x.b.toNat))
    ∧ (s.ready u (encA 0x20 x) = some (t, p) → x.f.toNat ≤ 5 →
      ∃ t' v, exec (.fcmp u x) s = .next (s.setStrand u t') ∧ PredStep t t' (t.guarded x) (x.d.toNat % 8) v
        ∧ ∀ l, v l = true ↔ fcmpOf x.f.toNat (t.reg l x.a.toNat) (t.reg l x.b.toNat))

/-- SEL and VOTE use their predicate as an operand: they run for every active lane (03 Table 3-7). -/
def Sys2Proof.Claims.SelectAndVote : Prop :=
  ∀ (s : State) (u : StrandRef) (x : FormA) (t : Strand) (p : Where),
    (s.ready u (encA 0x19 x) = some (t, p) → regsBad p [x.d, x.a, x.b] = false →
      ∃ t', exec (.sel u x) s = .next (s.setStrand u t') ∧ RegStep t t' t.lanes x.d.toNat fun l =>
        if t.guard l x.p x.pn then t.reg l x.a.toNat else t.reg l x.b.toNat)
    ∧ (s.ready u (encA 0x2E x) = some (t, p) → regsBad p [x.d] = false →
      ∃ t' m, exec (.vote u x) s = .next (s.setStrand u t') ∧ RegStep t t' t.lanes x.d.toNat (fun _ => m)
        ∧ ∀ l < 32, m.getLsbD l = (t.active.getLsbD l && t.guard l x.p x.pn))

/-- NOP, BRA, FENCE and EXIT (03 R95, R96): where the pc goes. A branch needs all active lanes to agree; EXIT ends the lanes whose guard holds,
and when none is left the strand takes its launch's next batch. -/
def Sys2Proof.Claims.ControlFlow : Prop :=
  ∀ (s : State) (u : StrandRef) (t : Strand) (p : Where),
    (∀ x : FormC, s.ready u (encC 0x00 x) = some (t, p) → exec (.nop u x) s = .next (s.nextWord u))
    ∧ (∀ x : FormA, s.ready u (encA 0x03 x) = some (t, p) → x.m.toNat ≤ 2 → exec (.fence u x) s = .next (s.nextWord u))
    ∧ (∀ x : FormC, s.ready u (encC 0x08 x) = some (t, p) →
      ((∀ l ∈ t.lanes, t.guard l x.p x.pn = false) → exec (.bra u x) s = .next (s.nextWord u))
      ∧ ((∀ l ∈ t.lanes, t.guard l x.p x.pn = true) → t.lanes ≠ [] →
        ∃ pc : Nat, (pc : Int) = (t.pc + 1 + x.imm.toInt) % 8192 ∧ exec (.bra u x) s = .next (s.setStrand u { t with pc := pc })))
    ∧ (∀ x : FormC, s.ready u (encC 0x01 x) = some (t, p) →
      ∃ live : BitVec 32, (∀ l < 32, live.getLsbD l = (t.live.getLsbD l && !(t.active.getLsbD l && t.guard l x.p x.pn)))
        ∧ (live ≠ 0 → exec (.exit u x) s = .next (s.setStrand u { t with live := live, pc := nextPc t.pc }))
        ∧ (live = 0 → ∀ q r, s.launchOn u.core = some (q, r) → exec (.exit u x) s = .next (s.claim p r.desc u)))

/-- IF, ELSE and ENDIF (03 R94): the active lanes after each, for every lane; the stack alone and the pc change. -/
def Sys2Proof.Claims.MaskStack : Prop :=
  ∀ (s : State) (u : StrandRef) (x : FormC) (t : Strand) (p : Where),
    (s.ready u (encC 0x04 x) = some (t, p) → t.depth < 16 →
      ∃ m, exec (.ifMask u x) s = .next (s.setStrand u { t with stack := m :: t.stack, pc := nextPc t.pc })
        ∧ ∀ l < 32, ({ t with stack := m :: t.stack } : Strand).active.getLsbD l = (t.active.getLsbD l && t.guard l x.p x.pn))
    ∧ (∀ m r, s.ready u (encC 0x05 x) = some (t, p) → t.stack = m :: r →
      ∃ m', exec (.elseMask u x) s = .next (s.setStrand u { t with stack := m' :: r, pc := nextPc t.pc })
        ∧ ∀ l < 32, ({ t with stack := m' :: r } : Strand).active.getLsbD l = (({ t with stack := r } : Strand).active.getLsbD l && !m.getLsbD l))
    ∧ (∀ m r, s.ready u (encC 0x06 x) = some (t, p) → t.stack = m :: r →
      exec (.endIf u x) s = .next (s.setStrand u { t with stack := r, pc := nextPc t.pc }))

/-- LOOP (03 R96): every active lane's g[d] falls by 1. If none is left above 0, all that waited after the loop go on; else the strand branches and
the lanes at 0 wait. -/
def Sys2Proof.Claims.LoopInstruction : Prop :=
  ∀ (s : State) (u : StrandRef) (x : FormC) (t : Strand) (p : Where),
    s.ready u (encC 0x07 x) = some (t, p) → regsBad p [x.d] = false → (t.depth < 16 ∨ t.loopAt.any (fun e => e.1 == nextPc t.pc) = true) →
    ∃ t', exec (.loop u x) s = .next (s.setStrand u t')
      ∧ (∀ l ∈ t.lanes, x.d ≠ 0 → t'.reg l x.d.toNat = t.reg l x.d.toNat - 1)
      ∧ (∀ l r, r < 32 → (r ≠ x.d.toNat ∨ l ∉ t.lanes) → t'.reg l r = t.reg l r)
      ∧ { t' with regs := t.regs, loopAt := t.loopAt, pc := t.pc } = t
      ∧ (if ∀ l ∈ t.lanes, t'.reg l x.d.toNat = 0 then
          t'.pc = nextPc t.pc ∧ t'.loopAt = t.loopAt.filter fun e => e.1 != nextPc t.pc
        else
          (t'.pc : Int) = (t.pc + 1 + x.imm.toInt) % 8192 ∧ ∀ l < 32, t'.active.getLsbD l = (t.active.getLsbD l && t'.reg l x.d.toNat != 0))

/-- BAR and BAR_RELEASE (03 R96): a strand stands at the barrier, and when every strand of the core stands at the same one all go on. -/
def Sys2Proof.Claims.Barrier : Prop :=
  (∀ (s : State) (u : StrandRef) (x : FormC) (t : Strand) (p : Where), s.ready u (encC 0x02 x) = some (t, p) →
    exec (.bar u x) s = .next (s.setStrand u { t with atBar := some t.pc }) ∧ ∀ w, (s.setStrand u { t with atBar := some t.pc }).ready u w = none)
  ∧ (∀ (s : State) (core pc : Nat), (∃ i t, (i, some t) ∈ (s.cor core).strands) →
    (∀ i t, (i, some t) ∈ (s.cor core).strands → t.atBar = some pc) →
    exec (.barRelease core) s = .next (s.modCor core fun k => { k with
      strands := k.strands.map fun e => (e.1, e.2.map fun t => { t with atBar := none, pc := nextPc t.pc }) }))

/-- The byte offset that LDL and STL use: g[a] + g[b] modulo 2^32. -/
def Sys2Proof.Machine.localOff (t : Strand) (x : FormA) (l : Nat) : Nat := (t.reg l x.a.toNat + t.reg l x.b.toNat).toNat

/-- LDL and STL (03 Table 3-7): 1, 2 or 4 bytes of the core's tier 0 below 0x38000, aligned to their size; a load reads little-endian and
zero-extended and changes no memory; a store changes its bytes and no other byte of any memory, and where lanes meet the highest lane's bytes stay. -/
def Obligations.LocalMemory : Prop :=
  ∀ (s : State) (u : StrandRef) (x : FormA) (t : Strand) (p : Where), regsBad p [x.d, x.a, x.b] = false → x.m.toNat ≤ 2 →
    (∀ l ∈ t.guarded x, localOff t x l % 2 ^ x.m.toNat = 0 ∧ localOff t x l < 0x38000) →
    (s.ready u (encA 0x25 x) = some (t, p) → s.mem.wf = true → (∀ l ∈ t.guarded x, localOff t x l / 8 ∉ (s.cor u.core).badWords) →
      ∃ t', exec (.ldl u x) s = .next (s.setStrand u t') ∧ RegStep t t' (t.guarded x) x.d.toNat fun l =>
        BitVec.ofNat 32 (natOfBytes ((List.range (2 ^ x.m.toNat)).map fun i => s.readByte .tier0 (tier0Key u.core (localOff t x l) + i))))
    ∧ (s.ready u (encA 0x26 x) = some (t, p) → (∀ l ∈ t.guarded x, s.writeCounts p 1 (localOff t x l) = true) →
      ∃ s', exec (.stl u x) s = .next s'
        ∧ (∀ sp a, (sp ≠ .tier0 ∨ ∀ l ∈ t.guarded x, a < tier0Key u.core (localOff t x l) ∨ tier0Key u.core (localOff t x l) + 2 ^ x.m.toNat ≤ a) →
          s'.readByte sp a = s.readByte sp a)
        ∧ (∀ l ∈ t.guarded x, (∀ l' ∈ t.guarded x, l < l' → localOff t x l' ≠ localOff t x l) → ∀ i < 2 ^ x.m.toNat,
          s'.readByte .tier0 (tier0Key u.core (localOff t x l) + i) = BitVec.ofNat 8 ((t.reg l x.d.toNat).toNat / 256 ^ i))
        ∧ s'.strandAt u = some { t with pc := nextPc t.pc }
        ∧ { s' with mem := s.mem, cores := s.cores } = s)

/-- One lane of LDG: an aligned address, read through the core's L1 or from a flat space. -/
def Sys2Proof.Machine.ldgLane (u : StrandRef) (x : FormA) (t : Strand) (p : Where) (s : State) (l : Nat) (s' : State) : Prop :=
  let a := (t.reg l x.a.toNat).toNat + (t.reg l x.b.toNat).toNat * 2 ^ x.f.toNat
  a % 2 ^ x.m.toNat = 0 ∧ ∃ r bs, s.loadBytes p u a (2 ^ x.m.toNat) = (.done r, bs) ∧ s' = r.setLane u l x.d.toNat (BitVec.ofNat 32 (natOfBytes bs))

/-- One lane of STG. -/
def Sys2Proof.Machine.stgLane (u : StrandRef) (x : FormA) (t : Strand) (p : Where) (s : State) (l : Nat) (s' : State) : Prop :=
  let a := (t.reg l x.a.toNat).toNat + (t.reg l x.b.toNat).toNat * 2 ^ x.f.toNat
  a % 2 ^ x.m.toNat = 0 ∧ s.storeBytes p u a (bytesOfNat (2 ^ x.m.toNat) (t.reg l x.d.toNat).toNat) = .done s'

/-- One lane of LDT: element g[b] of the tile at g[a], decoded to FP32 or INT32; for an element number past the tile the spec states no result, and
the lane takes a free value, whatever it is (log 2). -/
def Sys2Proof.Machine.ldtLane (u : StrandRef) (x : FormA) (t : Strand) (p : Where) (s : State) (l : Nat) (s' : State) : Prop :=
  let a := (t.reg l x.a.toNat).toNat
  let i := (t.reg l x.b.toNat).toNat
  a % 256 = 0
  ∧ if 4096 ≤ i then s' = s.free.2.setLane u l x.d.toNat (s.free.1.setWidth 32)
    else s.resolve p.ctx (s.muOf p) a ≠ .absent ∧ s.carWaits p.ctx a = false
      ∧ (∀ n ∈ elemLines x.f.toNat i, s.placePaused (s.resolve p.ctx (s.muOf p) (a + 256 * n)) = false) ∧ ∃ r y, s.ldtLines p a (elemLines x.f.toNat i) 0 = (.done r, y)
      ∧ s' = r.setLane u l x.d.toNat (if isIntFmt x.f.toNat then BitVec.ofInt 32 (elemInt y x.f.toNat i) else elem32 y x.f.toNat i)

/-- One lane of PRF, of a line whose column does not pause: the line comes into the L1 of the core, or nothing happens. -/
def Sys2Proof.Machine.prfLane (u : StrandRef) (x : FormA) (t : Strand) (p : Where) (s : State) (l : Nat) (s' : State) : Prop :=
  match s.resolve p.ctx (s.muOf p) ((t.reg l x.a.toNat).toNat + (t.reg l x.b.toNat).toNat) with
  | .homed id _ direct set hint =>
    s.linePaused id = false ∧ ((∃ d, s.homeStep p.ctx id direct set hint (.l1Read u.core) = (s', .data d))
    ∨ s' = s ∧ ∀ r d, s.homeStep p.ctx id direct set hint (.l1Read u.core) ≠ (r, .data d))
  | _ => s' = s

/-- One lane of ATOM outside a recompute leg: the operation leaves for the home of its word, and the lane waits for the old value (06 R192). -/
def Sys2Proof.Machine.atomLane (u : StrandRef) (x : FormA) (t : Strand) (p : Where) (s : State) (l : Nat) (s' : State) : Prop :=
  let a := (t.reg l x.a.toNat).toNat
  a % 4 = 0 ∧ s.isRecompute p = false ∧ ∃ id off, s.pressTarget p.ctx u.core 0 a = some id
    ∧ off = (match (s.atomFlag p.ctx p.leg).resolve p.ctx none a with | .homed _ off _ _ _ => off | _ => 0)
    ∧ ∃ r, r = s.atomFlag p.ctx p.leg
      ∧ s' = ({ r with cel := { r.cel with sentImm := r.cel.sentImm ++
            [⟨p.ctx, id, off / 4, atomOp x.m.toNat, t.reg l x.b.toNat, t.reg l x.d.toNat, u, l, x.d, r.cel.sendNo⟩], sendNo := r.cel.sendNo + 1 } } :
          State).modStrand u
          fun t => { t with waiting := t.waiting ++ [l] }

/-- One lane of RED: one contribution with sub-key (thread index, count of earlier REDs of the thread), which then counts (06 R186). -/
def Sys2Proof.Machine.redLane (u : StrandRef) (x : FormA) (t : Strand) (p : Where) (s : State) (l : Nat) (s' : State) : Prop :=
  let a := (t.reg l x.a.toNat).toNat
  a % 4 = 0 ∧ ∃ id off hint r, s.pressTarget p.ctx u.core 0 a = some id
    ∧ (off, hint) = (match s.resolve p.ctx none a with | .homed _ off _ _ hint => (off, hint) | _ => (0, 0))
    ∧ s.sendContribution p p.d.tensor (redOp x.m.toNat) id hint (maskOf 64 [off / 4]) (setLineWord 0 (off / 4) (t.reg l x.b.toNat)) (t.base + l)
        (tget 0 t.reds l) false = (r, .done)
    ∧ s' = r.modStrand u fun t0 => { t0 with reds := tset 0 t0.reds l (tget 0 t.reds l + 1) }

/-- LDG, STG, LDT, ATOM, RED: the guarded lanes in ascending order, each as its lane says, and then the strand goes on. PRF does so whatever its
addresses: it never faults, and it waits for nothing but the pause of a channel (06 R165). -/
def Obligations.MemoryInstructions : Prop :=
  ∀ (s s' : State) (u : StrandRef) (x : FormA) (t : Strand) (p : Where), regsBad p [x.a, x.b] = false →
    (s.ready u (encA 0x27 x) = some (t, p) → regsBad p [x.d] = false → x.m.toNat ≤ 2 → x.f.toNat ≤ 3 →
      Lanes (ldgLane u x t p) s (t.guarded x) s' → exec (.ldg u x) s = .next (s'.nextWord u))
    ∧ (s.ready u (encA 0x28 x) = some (t, p) → regsBad p [x.d] = false → x.m.toNat ≤ 2 → x.f.toNat ≤ 3 →
      Lanes (stgLane u x t p) s (t.guarded x) s' → exec (.stg u x) s = .next (s'.nextWord u))
    ∧ (s.ready u (encA 0x29 x) = some (t, p) → regsBad p [x.d] = false → 1 ≤ x.f.toNat → x.f.toNat ≤ 14 →
      Lanes (ldtLane u x t p) s (t.guarded x) s' → exec (.ldt u x) s = .next (s'.nextWord u))
    ∧ (s.ready u (encA 0x2B x) = some (t, p) → regsBad p [x.d] = false → x.m.toNat ≤ 4 →
      Lanes (atomLane u x t p) s (t.guarded x) s' → exec (.atom u x) s = .next (s'.nextWord u))
    ∧ (s.ready u (encA 0x2C x) = some (t, p) → x.m.toNat ≤ 4 →
      Lanes (redLane u x t p) s (t.guarded x) s' → exec (.red u x) s = .next (s'.nextWord u))
    ∧ (s.ready u (encA 0x2A x) = some (t, p) →
      (Lanes (prfLane u x t p) s (t.guarded x) s' → exec (.prf u x) s = .next (s'.nextWord u))
      ∧ (s.anyPause = false → ∃ r, Lanes (prfLane u x t p) s (t.guarded x) r ∧ exec (.prf u x) s = .next (r.nextWord u)))

/-- A strand fault (03 R98): it is counted, and the leg that runs the launch ends with status 0x0401 and the instruction index and core in its detail;
in a step the leg's micro-batch is dropped after that. -/
def Sys2Proof.Machine.strandFaulted (s : State) (p : Where) (u : StrandRef) (pc : Nat) (s' : State) : Prop :=
  ∀ g, s.legOf p.ctx p.leg = some g → g.status = 0 →
    ∃ (e : State) (h : LegRun), e.legOf p.ctx p.leg = some h ∧ h.status = 0x0401 ∧ h.detail = pc + 2 ^ 32 * u.core
      ∧ (e.clu p.cl).cnt.strandFaults = min 0xFFFFFFFF ((s.clu p.cl).cnt.strandFaults + 1)
      ∧ s' = (match g.inStep, g.inst.mu with
        | true, some m => e.dropMu p.ctx m 1
        | _, _ => e)

/-- What faults a strand (03 R98): a register at or beyond the launch's count, a reserved code, a special value at 16 or above, a stack over- or
underflow, a divergent BRA, a misaligned access or a tier-0 offset at 0x38000 or above. -/
def Obligations.StrandFaults : Prop :=
  ∀ (s : State) (u : StrandRef) (t : Strand) (p : Where),
    (∀ q ∈ intOps ++ floatOps, ∀ x : FormA, s.ready u (encA q.2.1 x) = some (t, p) → regsBad p [x.d, x.a, x.b] = true →
      ∃ s', exec (q.1 u x) s = .next s' ∧ strandFaulted s p u t.pc s')
    ∧ (∀ x : FormA, s.ready u (encA 0x09 x) = some (t, p) → 16 ≤ x.a.toNat → ∃ s', exec (.spr u x) s = .next s' ∧ strandFaulted s p u t.pc s')
    ∧ (∀ x : FormA, s.ready u (encA 0x18 x) = some (t, p) → 8 ≤ x.f.toNat → ∃ s', exec (.icmp u x) s = .next s' ∧ strandFaulted s p u t.pc s')
    ∧ (∀ x : FormA, s.ready u (encA 0x20 x) = some (t, p) → 6 ≤ x.f.toNat → ∃ s', exec (.fcmp u x) s = .next s' ∧ strandFaulted s p u t.pc s')
    ∧ (∀ x : FormA, s.ready u (encA 0x22 x) = some (t, p) → (x.f.toNat < 2 ∨ 5 < x.f.toNat) →
      ∃ s', exec (.cvt u x) s = .next s' ∧ strandFaulted s p u t.pc s')
    ∧ (∀ x : FormI, s.ready u (encI 0x17 x) = some (t, p) → x.a ≠ 0 → ∃ s', exec (.lui u x) s = .next s' ∧ strandFaulted s p u t.pc s')
    ∧ (∀ x : FormA, s.ready u (encA 0x03 x) = some (t, p) → 3 ≤ x.m.toNat → ∃ s', exec (.fence u x) s = .next s' ∧ strandFaulted s p u t.pc s')
    ∧ (∀ x : FormC, s.ready u (encC 0x04 x) = some (t, p) → 16 ≤ t.depth → ∃ s', exec (.ifMask u x) s = .next s' ∧ strandFaulted s p u t.pc s')
    ∧ (∀ x : FormC, s.ready u (encC 0x05 x) = some (t, p) → t.stack = [] → ∃ s', exec (.elseMask u x) s = .next s' ∧ strandFaulted s p u t.pc s')
    ∧ (∀ x : FormC, s.ready u (encC 0x06 x) = some (t, p) → t.stack = [] → ∃ s', exec (.endIf u x) s = .next s' ∧ strandFaulted s p u t.pc s')
    ∧ (∀ x : FormC, s.ready u (encC 0x08 x) = some (t, p) →
      (∃ l ∈ t.lanes, t.guard l x.p x.pn = true) → (∃ l ∈ t.lanes, t.guard l x.p x.pn = false) →
      ∃ s', exec (.bra u x) s = .next s' ∧ strandFaulted s p u t.pc s')
    ∧ (∀ x : FormA, s.ready u (encA 0x25 x) = some (t, p) →
      (∃ l ∈ t.guarded x, localOff t x l % 2 ^ x.m.toNat ≠ 0 ∨ 0x38000 ≤ localOff t x l) →
      ∃ s', exec (.ldl u x) s = .next s' ∧ strandFaulted s p u t.pc s')
    ∧ (∀ x : FormA, s.ready u (encA 0x26 x) = some (t, p) →
      (∃ l ∈ t.guarded x, localOff t x l % 2 ^ x.m.toNat ≠ 0 ∨ 0x38000 ≤ localOff t x l) →
      ∃ s', exec (.stl u x) s = .next s' ∧ strandFaulted s p u t.pc s')

/-! ### Op descriptors (03 R64 to R87) -/

/-- The descriptor commands: the kinds each carries, the unit of work of its cores, and what is prepared at issue. -/
def Sys2Proof.Machine.descRows : List ((Nat → BitVec 512 → Instr) × (Desc → Prop) × UnitStep × (BitVec 512 → Where → State → State)) :=
  [(.tileProductForward, fun d => d.kind = 0x10, productUnit, fun _ _ s => s), (.tileProductDataGradient, fun d => d.kind = 0x11, productUnit, fun _ _ s => s),
   (.tileProductWeightGradient, fun d => d.kind = 0x12, productUnit, fun _ _ s => s), (.elementwise, fun d => d.kind = 0x20, elementwiseUnit, fun _ _ s => s),
   (.reduction, fun d => d.kind = 0x30, reductionUnit, fun _ _ s => s), (.gather, fun d => d.kind = 0x40, gatherUnit, fun _ _ s => s),
   (.scatter, fun d => d.kind = 0x41, scatterUnit, fun _ _ s => s), (.rowNormForward, fun d => d.kind = 0x50, rowUnit, fun _ => rowPrep),
   (.rowNormBackward, fun d => d.kind = 0x51, rowUnit, fun _ => rowPrep), (.softmaxForward, fun d => d.kind = 0x52, rowUnit, fun _ => rowPrep),
   (.softmaxBackward, fun d => d.kind = 0x53, rowUnit, fun _ => rowPrep),
   (.reduceScatterSend, fun d => d.kind = 0x60 ∧ d.p 0 4 = 0, collectiveUnit, reducePrep),
   (.pointToPointSend, fun d => d.kind = 0x60 ∧ d.p 0 4 = 1, collectiveUnit, fun _ => closePrep),
   (.shardFetch, fun d => d.kind = 0x60 ∧ d.p 0 4 = 2, collectiveUnit, fun _ _ s => s),
   (.buddyMirror, fun d => d.kind = 0x60 ∧ d.p 0 4 = 3, collectiveUnit, fun _ => closePrep),
   (.checkpointExport, fun d => d.kind = 0x60 ∧ d.p 0 4 = 4, collectiveUnit, fun _ => closePrep), (.sweepSegment, fun d => d.kind = 0x70, sweepUnit, fun _ => closePrep),
   (.recipeLaunch, fun d => d.kind = 0x80, noUnit, launchPrep)]

/-- A descriptor at the head of its cluster's queue that passes the checks of 03 R83 and may start does so: it is issued, and every core of its mask
runs the units of its own share, in ascending position or, for a data-gradient product, in the order of its reduction slices (03 R84, R86). -/
def Obligations.DescriptorRuns : Prop :=
  ∀ q ∈ descRows, ∀ (s : State) (cl : Nat) (w : BitVec 512) (c l : Nat), (s.clu cl).leg = some (c, l) → q.2.1 (decodeDesc w) →
    s.atHead cl w = true → s.descOk cl (s.legMu c l) (decodeDesc w) = true → s.mayStart cl (decodeDesc w) = true →
    exec (q.1 cl w) s = .next (((q.2.2.2 w ⟨cl, decodeDesc w, c, l, w⟩ (s.startRun ⟨cl, decodeDesc w, c, l, w⟩ w)).runDesc q.2.2.1 ⟨cl, decodeDesc w, c, l, w⟩ w))

/-- The issue (03 R84): the descriptor leaves the head of the queue, its event counter falls by 1, a run begins; no other cluster and nothing else of
the state changes. A descriptor that is not at the head, or that passes its checks and whose event counter is 0 or that a hazard with a running
descriptor holds, stays queued and the command changes nothing (03 R65, R84). -/
def Obligations.DescriptorIssue : Prop :=
  (∀ (s : State) (p : Where) (w : BitVec 512),
    ((s.startRun p w).clu p.cl).queue = (s.clu p.cl).queue.drop 1
    ∧ (∃ r, ((s.startRun p w).clu p.cl).runs = (s.clu p.cl).runs ++ [r] ∧ r.desc = w ∧ r.ctx = p.ctx ∧ r.leg = p.leg ∧ r.halts = [])
    ∧ (∀ e, tget 0 ((s.startRun p w).clu p.cl).events e
        = if p.d.waitEn = true ∧ e = p.d.waitEvent then tget 0 (s.clu p.cl).events e - 1 else tget 0 (s.clu p.cl).events e)
    ∧ (∀ k, k ≠ p.cl → (s.startRun p w).clu k = s.clu k) ∧ { s.startRun p w with cl := s.cl } = s)
  ∧ ∀ q ∈ descRows, ∀ (s : State) (cl : Nat) (w : BitVec 512),
    ((s.clu cl).queue.head? ≠ some w
      ∨ (∀ c l, (s.clu cl).leg = some (c, l) → s.descOk cl (s.legMu c l) (decodeDesc w) = true)
        ∧ ((decodeDesc w).waitEn = true ∧ tget 0 (s.clu cl).events (decodeDesc w).waitEvent = 0
          ∨ ∃ r ∈ (s.clu cl).runs, some (r.ctx, r.leg) = (s.clu cl).leg ∧ r.desc &&& ((decodeDesc w).mask.setWidth 512 <<< 448) ≠ 0
            ∧ (r.pipe = (decodeDesc w).pipe ∨ s.hazard cl (decodeDesc r.desc) (decodeDesc w) = true))) →
    exec (q.1 cl w) s = .next s

/-- The checks of 03 R83: a descriptor at the head that fails them, whatever event it waits for, starts nothing and ends its leg with 0x0106, its seq and
the cluster in the detail. -/
def Sys2Proof.Claims.DescriptorRejected : Prop :=
  ∀ q ∈ descRows, ∀ (s : State) (cl : Nat) (w : BitVec 512) (c l : Nat), (s.clu cl).leg = some (c, l) →
    (q.2.1 (decodeDesc w) ∨ kindKnown (decodeDesc w).kind = false) → s.atHead cl w = true → s.descOk cl (s.legMu c l) (decodeDesc w) = false →
    ∃ t, exec (q.1 cl w) s = .next t ∧ t = s.rejectDesc ⟨cl, decodeDesc w, c, l, w⟩
      ∧ ∀ g, s.legOf c l = some g → g.inStep = false → ∃ h, t.legOf c l = some h ∧ h.status = 0x0106 ∧ h.detail = (decodeDesc w).seq + 2 ^ 16 * cl

/-- Reasons for which 03 R83 rejects a descriptor: a reserved kind, a context that does not own the cluster, an empty core mask or a core that does not
run, a count of 0, a reserved hint or block size. -/
def Sys2Proof.Claims.DescriptorChecks : Prop :=
  ∀ (s : State) (cl : Nat) (mu : Option Nat) (d : Desc),
    (d.kind ∉ [0x10, 0x11, 0x12, 0x20, 0x30, 0x40, 0x41, 0x50, 0x51, 0x52, 0x53, 0x60, 0x70, 0x80] ∨ 3 < d.ctx ∨ (s.clu cl).owner ≠ some d.ctx
      ∨ d.mask = 0 ∨ (∃ i < 32, d.mask.getLsbD i = true ∧ (s.clu cl).active.getLsbD i = false) ∨ (d.kind ≠ 0x80 ∧ (d.m = 0 ∨ d.n = 0))
      ∨ (d.kind ∈ [0x10, 0x11, 0x12, 0x40, 0x41] ∧ d.k = 0) ∨ d.a.hint = 3 ∨ d.b.hint = 3 ∨ d.c.hint = 3 ∨ 4 < d.bsize
      ∨ (d.splitCount ≠ 0 ∧ 2 ^ d.splitCount ≤ d.splitIndex) ∨ (d.kind = 0x20 ∧ d.p 0 3 = 4 ∧ s.fnSlot cl d.fnSlot = none)
      ∨ (d.fnEn = true ∧ s.fnSlot cl d.fnSlot = none)) →
    s.descOk cl mu d = false

/-- The running sum of 04 R109 takes its terms one by one: a sum over more terms goes on from the sum over the first ones, and each addition rounds the
exact sum once, in the mode of its own index. The mode is nearest even below the threshold or with the rounding switched off, else stochastic with the
draw of the stream (04 R111). -/
def Obligations.RunningSum : Prop :=
  (∀ (mode : Nat → RMode) (k : Nat) (z : Word) (xs : List FVal) (x : FVal),
    sumFloat mode k z (xs ++ [x]) = to32m (mode (k + xs.length)) ((val32 (sumFloat mode k z xs)).add x))
  ∧ ∀ (s : State) (c : Nat) (key : StreamKey) (e k : Nat),
    s.sumMode c key e k = if k < (s.cx c).settings.srThresh ∨ (s.cx c).settings.srOff = true then .near else .stoch (draw16 key 0 e k)

/-- DESCRIPTOR_COMPLETE (03 R84, R85): a descriptor whose cores have all finished leaves its pipe, its seq is reported, and its event counter rises by 1
and holds at 0xFFFF; no other event counter changes. -/
def Sys2Proof.Claims.DescriptorCompletes : Prop :=
  ∀ (s : State) (cl : Nat) (pipe : Pipe) (r : DescRun), s.doneRun cl pipe = some r → s.clusterRuns cl 0 = true →
    ∃ t, exec (.descriptorComplete cl pipe) s = .next t ∧ (t.clu cl).lastSeq = (decodeDesc r.desc).seq ∧ r ∉ (t.clu cl).runs
      ∧ (∀ q ∈ (s.clu cl).runs, (q.desc ≠ r.desc ∨ q.ctx ≠ r.ctx ∨ q.leg ≠ r.leg) → q ∈ (t.clu cl).runs)
      ∧ (∀ e, tget 0 (t.clu cl).events e = if (decodeDesc r.desc).signalEn = true ∧ e = (decodeDesc r.desc).signalEvent
          then min 0xFFFF (tget 0 (s.clu cl).events e + 1) else tget 0 (s.clu cl).events e)
      ∧ (t.clu cl).queue = (s.clu cl).queue ∧ (∀ k, k ≠ cl → t.clu k = s.clu k) ∧ t.mem.tier2 = s.mem.tier2 ∧ t.mem.scratch = s.mem.scratch

/-- A batch of a launch (03 R92): up to 32 thread indices in ascending order, lanes beyond the count masked off, entry at the launch's first instruction,
no register written, empty stacks; when no index is left the strand ends. -/
def Sys2Proof.Claims.LaunchBatches : Prop :=
  ∀ (s : State) (p : Where) (w : BitVec 512) (u : StrandRef) (r : DescRun), (s.clu p.cl).runs.find? (fun r => r.desc == w) = some r →
    (p.d.threads ≤ r.next → (s.claim p w u).strandAt u = none)
    ∧ (r.next < p.d.threads → ∃ t, (s.claim p w u).strandAt u = some t ∧ t.base = r.next ∧ t.pc = p.d.p 0 13
        ∧ (∀ i < 32, t.live.getLsbD i = decide (r.next + i < p.d.threads)) ∧ t.regs = [] ∧ t.preds = [] ∧ t.stack = [] ∧ t.loopAt = [] ∧ t.atBar = none
        ∧ ∃ q, ((s.claim p w u).clu p.cl).runs.find? (fun r => r.desc == w) = some q ∧ q.next = r.next + 32)

/-! ### Waits of cores and packets -/

/-- WELL_HALT_TIMEOUT, PRESS_WAIT_TIMEOUT and LINK_TIMEOUT (07 R242, 06 R193, 09 R317): past the limit the leg ends with 0x0407, 0x0404 or 0x0501 and the
tile, column or destination in its detail; before it the command changes nothing but the time. A core whose tile has come by then goes on instead. -/
def Sys2Proof.Claims.WaitLimits : Prop :=
  (∀ (s : State) (core t : Nat) (pipe : Pipe) (r : DescRun) (h : Halt), (s.tick t).haltedRun core pipe = some (r, h) → h.why = .missing ∨ h.why = .regen →
    (s.clu (clusterOf core)).frozen = false → (s.cx r.ctx).parked = false →
    let q := (s.tick t).tryHalt (clusterOf core) r h
    exec (.wellHaltTimeout core pipe t) s = .next (if t ≤ h.since + 1000000 * (s.cx r.ctx).car.haltLimit then s.tick t
      else if q.2.map Halt.why = some .missing then (q.1.faultTraining 4 r.ctx h.tile).failLeg r.ctx r.leg 0x0407 h.tile 5 else q.1))
  ∧ (∀ (s : State) (c l : Nat) (line : LineId) (t since : Nat), (s.cx c).parked = false →
    (c, l, line, since) ∈ (s.col (s.pressCol line)).waiters → (∀ w ∈ (s.col (s.pressCol line)).waiters, w.1 = c → w.2.1 = l → w.2.2.1 = line → w.2.2.2 = since) →
    ∃ e, exec (.pressWaitTimeout c l line t) s = .next (if since + 1000000 * s.cel.pressWaitMs < t then e else s.tick t)
      ∧ ∃ u : State, e = (u.faultTraining 4 c (s.pressCol line)).failLeg c l 0x0404 (s.pressCol line) 1
        ∧ (u.clu (clusterOf (s.pressCol line))).cnt.waitTimeouts = min 0xFF ((s.clu (clusterOf (s.pressCol line))).cnt.waitTimeouts + 1)
        ∧ ∀ w ∈ (u.col (s.pressCol line)).waiters, ¬(w.1 = c ∧ w.2.1 = l ∧ w.2.2.1 = line))
  ∧ (∀ (s : State) (tag t : Nat) (f : Flight) (g : LegRun), s.fab.flights.find? (fun f => f.p.tag == tag && decide (f.sent + 100000 ≤ t)) = some f →
    (s.flightStopped f = true → exec (.linkTimeout tag t) s = .next (s.tick t))
    ∧ (s.flightStopped f = false → s.legOf f.ctx f.leg = some g →
      ∃ u : State, exec (.linkTimeout tag t) s = .next (u.failLeg f.ctx f.leg 0x0501 f.p.dst 1)
        ∧ u.fab.flights = s.fab.flights.filter fun x => !(x.ctx == f.ctx && x.leg == f.leg)))

/-- WELL_HALT_END (07 R240, R243) and PACKET_ACKNOWLEDGEMENT (09 R317). The awaited tile comes if it is its turn, and the core tries again: it goes on,
and the end of a well-halt is counted, or it stands on. An acknowledged packet is no longer in flight; a refused one is counted, and sent again at once
or, of a stopped segment, once the segment goes on (09 R321). -/
def Sys2Proof.Claims.WaitsEnd : Prop :=
  (∀ (s : State) (core t : Nat) (pipe : Pipe) (r : DescRun) (h : Halt) (v u : State), (s.tick t).haltedRun core pipe = some (r, h) →
    v = (s.tick t).bringTile r.ctx h.tile → u = v.retry (clusterOf core) r.desc h.core →
    exec (.wellHaltEnd core pipe t) s = .next (v.tryHalt (clusterOf core) r h).1
    ∧ ((∀ q ∈ (u.clu (clusterOf core)).runs, q.desc = r.desc → ∀ g ∈ q.halts, h.goesOn g = false) →
      exec (.wellHaltEnd core pipe t) s = .next (if h.why = .missing ∨ h.why = .regen then u.countHalt r.ctx h.tile else u)))
  ∧ (∀ (s : State) (tag : Nat) (f : Flight), s.fab.flights.find? (fun f => f.p.tag == tag) = some f →
    ∃ u : State, u = ({ s with fab := { s.fab with flights := s.fab.flights.erase f } } : State).modCnt f.cl (fun x =>
        { x with refusals := min 0xFFFF (x.refusals + 1) })
    ∧ (s.flightStopped f = false → exec (.packetAcknowledgement [tag] [tag]) s = .next (u.launchFlight f))
    ∧ (s.flightStopped f = true → exec (.packetAcknowledgement [tag] [tag]) s = .next { u with fab := { u.fab with later := u.fab.later ++ [f] } })
    ∧ exec (.packetAcknowledgement [tag] []) s
      = .next (({ s with fab := { s.fab with flights := s.fab.flights.erase f } }.nextPart f.group).settleSegments f.ctx))

/-! ### The press and the home protocol (06 R184 to R193) -/

/-- The ordered operations word by word (06 Table 6-8): words outside the mask stay, words of the mask take the operation once. -/
def Sys2Proof.Claims.PressWords : Prop :=
  ∀ (op : PressOp) (mask : BitVec 64) (t c : Line), ∀ i < 64,
    lineWord (pressLine op mask t c) i = if mask.getLsbD i = true then
      (match op with
      | .fadd => to32 ((val32 (lineWord t i)).add (val32 (lineWord c i)))
      | .fmax => fmaxw (lineWord t i) (lineWord c i)
      | .fmin => fminw (lineWord t i) (lineWord c i)
      | .sumsq => to32 (((val32 (lineWord c i)).mul (val32 (lineWord c i))).add (val32 (lineWord t i)))
      | .iadd => lineWord t i + lineWord c i)
    else lineWord t i

/-- Contributions of one roster entry apply in ascending sub-key, each once (06 R186, R187). -/
def Sys2Proof.Claims.SubKeyOrder : Prop :=
  ∀ l : List Contribution, (keySort l).Perm l ∧ (keySort l).Pairwise fun a b => a.key.s1 < b.key.s1 ∨ (a.key.s1 = b.key.s1 ∧ a.key.s2 ≤ b.key.s2)

/-- What arrives at the press, where no ring stop refuses it (01 R28): an ordered contribution on its way reaches its home column, those of one cluster to
one line in the order they were sent (01 R16); one that was refused comes again, and its source counts the refusal (06 R188); a completion notice that is due
is kept once and moves every cursor of its context (06 R187). -/
def Sys2Proof.Claims.PressArrivals : Prop :=
  (∀ (s : State) (c : Contribution), c ∈ s.cel.sent → s.refusingStop c.line = none → s.linePaused c.line = false → c.key.coll = false →
    ((∀ x ∈ s.cel.sent, x.line = c.line → x.src = c.src → c.no ≤ x.no) →
      (∀ o ∈ s.cel.sentImm, o.line = c.line → clusterOf o.at_.core = c.src → c.no ≤ o.no) →
      exec (.orderedContributionArrival c) s
        = .next (let u : State := { s with cel := { s.cel with sent := s.cel.sent.erase c } }; u.pressArrive c (u.setFor c.ctx c.line)))
    ∧ ((∃ x ∈ s.cel.sent, x.line = c.line ∧ x.src = c.src ∧ x.no < c.no) → exec (.orderedContributionArrival c) s = .next s))
  ∧ (∀ (s : State) (c : Contribution), c ∈ (s.col (s.pressCol c.line)).refused → s.refusingStop c.line = none → s.linePaused c.line = false → c.key.coll = false →
    ∃ u : State, (u.clu c.src).cnt.refusals = (if c.src = clusterOf (s.pressCol c.line) then (s.clu c.src).cnt.refusals
        else min 0xFFFF ((s.clu c.src).cnt.refusals + 1))
      ∧ (u.col (s.pressCol c.line)).refused = (s.col (s.pressCol c.line)).refused.erase c ∧ u.mem = s.mem
      ∧ exec (.contributionResend c) s = .next (u.pressArrive c (u.setFor c.ctx c.line)))
  ∧ (∀ (s : State) (c : Contribution) (x : RingStop), s.refusingStop c.line = some x →
    ((c ∈ (s.col (s.pressCol c.line)).refused → exec (.contributionResend c) s = .next (s.emit (.ringRefusal x)))
    ∧ (c ∈ s.cel.sent → s.isFirst c.line c.src c.no = true → exec (.orderedContributionArrival c) s = .next (s.emit (.ringRefusal x)))))
  ∧ (∀ (s : State) (c : Contribution), s.refusingStop c.line = none → s.linePaused c.line = true →
    exec (.contributionResend c) s = .next s ∧ exec (.orderedContributionArrival c) s = .next s)
  ∧ (∀ (s : State) (nt : Notice) (r : StepRun), (s.cx nt.ctx).run = some r → nt ∉ r.noticesIn → s.noticeDue nt r = true →
    exec (.completionNoticeArrival nt) s = .next ((s.modRun nt.ctx fun r => { r with noticesIn := r.noticesIn ++ [nt] }).advanceAll nt.ctx))

/-- An ordered contribution outside any step applies when it arrives at a line under its lock, in arrival order (06 R189): its words take the operation,
no other scratch byte changes, and the leg is marked order-dependent. -/
def Sys2Proof.Claims.UnorderedPress : Prop :=
  ∀ (s : State) (c : Contribution) (k off : Nat), c.line = .scratch k off → c.inStep = false → c.key.coll = false → c ∈ s.cel.sent →
    s.isFirst c.line c.src c.no = true → s.refusingStop c.line = none → s.linePaused c.line = false → s.mem.wf = true → (s.homeLine c.line).st = .rl → (s.col k).leftMap = false →
    ∃ t, exec (.orderedContributionArrival c) s = .next t
      ∧ (t.homeData c.line false) = pressLine c.op c.mask (s.homeData c.line false) c.data
      ∧ (∀ a, (a < colKey k off ∨ colKey k off + 256 ≤ a) → t.readByte .scratch a = s.readByte .scratch a)
      ∧ (∀ sp a, sp ≠ .scratch → t.readByte sp a = s.readByte sp a)
      ∧ ∀ g, t.legOf c.ctx c.leg = some g → g.orderDep = true

/-- IMMEDIATE_OPERATION_ARRIVAL at a scratch line of a column in the map (06 R192, Table 6-7), first of what its cluster sent there (01 R16). Where no lock
stands and no L1 holds a copy, the word takes the result and no other byte of any memory changes, and the old value goes to the thread's register, the thread
no longer waiting; at a locked line the operation is held (06 R193). -/
def Sys2Proof.Claims.ImmediateOperations : Prop :=
  ∀ (s : State) (o : ImmReq) (k off : Nat), o ∈ s.cel.sentImm → o.line = .scratch k off → s.isFirst o.line (clusterOf o.at_.core) o.no = true →
    s.refusingStop o.line = none → s.linePaused o.line = false → (s.col k).leftMap = false →
    ((s.homeLine o.line).st = .rl → ∃ t, exec (.immediateOperationArrival o) s = .next t ∧ .imm o ∈ (t.col (t.pressCol o.line)).held ∧ t.mem = s.mem
      ∧ t.cores = s.cores)
    ∧ ((s.homeLine o.line).st ≠ .rl → (s.homeLine o.line).st ≠ .pz → (s.homeLine o.line).st ≠ .np → (∀ x ∈ s.cel.l1, x.line ≠ o.line) → s.mem.wf = true →
      o.word < 64 → ∃ t, exec (.immediateOperationArrival o) s = .next t
        ∧ lineWord (t.homeData o.line false) o.word = immWord o.op (lineWord (s.homeData o.line false) o.word) o.c o.cmp
        ∧ (∀ a, (a < colKey k off + 4 * o.word ∨ colKey k off + 4 * o.word + 4 ≤ a) → t.readByte .scratch a = s.readByte .scratch a)
        ∧ (∀ sp a, sp ≠ .scratch → t.readByte sp a = s.readByte sp a)
        ∧ ∀ y, s.strandAt o.at_ = some y → ∃ z, t.strandAt o.at_ = some z ∧ z.waiting = y.waiting.filter (fun l => l != o.lane)
          ∧ (o.d ≠ 0 → o.lane < 32 → z.reg o.lane o.d.toNat = lineWord (s.homeData o.line false) o.word) ∧ z.pc = y.pc)
    ∧ immWord o.op = fun t c cmp => match o.op with
      | .add => t + c
      | .swap => c
      | .cas => if t = cmp then c else t
      | .and => t &&& c
      | .or => t ||| c

/-- HOME_REQUEST (06 R184, Table 6-7), where no ring stop refuses it: behind a paused channel it is held (12 R416); at a line in RL a read or a write is held until the line closes (R193), a victim
request counts a deferral, and a dropped copy changes nothing; a request whose line is absent and finds no free way is held too (R194); every other request
has its effect at once. -/
def Sys2Proof.Claims.HomeRequests : Prop :=
  ∀ (s : State) (r : HomeReq) (direct : Bool) (set dflt : Nat), s.requestLine r.ctx r.line = some (direct, set, dflt) → s.refusingStop r.line = none →
    let q : HomeReq := { r with hint := if r.hint = 0 then dflt else r.hint }
    (s.linePaused r.line = true → exec (.homeRequest r) s = .next (s.holdReq q.line (.req q)))
    ∧ (s.linePaused r.line = false →
    ((s.homeLine r.line).st = .rl →
      ((∃ k, r.ev = .l1Read k ∨ r.ev = .l1Write k) ∨ r.ev = .tileRead ∨ (∃ m d, r.ev = .writeAtHome m d) ∨ (∃ d, r.ev = .fullLineWrite d)) →
      ∃ t, exec (.homeRequest r) s = .next t ∧ (t.col (s.pressCol r.line)).held = (s.col (s.pressCol r.line)).held ++ [.req q] ∧ t.mem = s.mem
        ∧ t.cel.lines = s.cel.lines ∧ t.cel.l1 = s.cel.l1)
    ∧ ((s.homeLine r.line).st = .rl → (∃ k, r.ev = .dropCopy k) → exec (.homeRequest r) s = .next s)
    ∧ ((s.homeLine r.line).st = .rl → r.ev = .victim → exec (.homeRequest r) s = .next (s.modCnt (clusterOf (colNo r.line)) fun x =>
        { x with defers := min 0xFFFF (x.defers + 1) }))
    ∧ (∀ t d, s.homeStep r.ctx r.line direct set q.hint r.ev = (t, .data d) → exec (.homeRequest r) s = .next t)
    ∧ (∀ t, s.homeStep r.ctx r.line direct set q.hint r.ev = (t, .noWay) → ∃ u, exec (.homeRequest r) s = .next u
        ∧ (u.col (s.pressCol r.line)).held = (s.col (s.pressCol r.line)).held ++ [.req q] ∧ u.mem = s.mem ∧ u.cel.lines = s.cel.lines))

/-- A core's read of a scratch line in V that no L1 holds gives it the stored data and a copy that is not writable (06 Table 6-7); the line is shared by that
core alone, and no memory changes. -/
def Sys2Proof.Claims.L1ReadOfScratch : Prop :=
  ∀ (s : State) (r : HomeReq) (k off core : Nat), r.line = .scratch k off → r.ev = .l1Read core → off < s.scratchUnits k * 65536 →
    s.refusingStop r.line = none → s.linePaused r.line = false → (s.homeLine r.line).st = .v → (s.homeLine r.line).shared = false → (∀ x ∈ s.cel.l1, x.line ≠ r.line) →
    (s.directory k).length < 8192 →
    ∃ t, exec (.homeRequest r) s = .next t ∧ t.mem = s.mem ∧ t.cel.l1 = s.cel.l1 ++ [⟨core, r.line, s.homeData r.line false, false, false⟩]
      ∧ (t.homeLine r.line).st = .s ∧ (t.homeLine r.line).sharers = [core]

/-! ### Waybills, receipts and events (11 R376 to R396) -/

/-- Waybill w starts in s: it waits, the order of 11 R393 and 13 R444 lets it, and its checks pass (11 R388) with the bytes bs of its buffer; u is the state
in which it is marked as started. -/
def Sys2Proof.Machine.begins (s : State) (w : Waybill) (op : Nat) (u : State) (bs : List Byte) : Prop :=
  w.op = op ∧ ∃ e v, s.waiting w = some e ∧ s.wbMayStart e = true ∧ s.checkWb e = (v, .go bs) ∧ u = v.markStarted e

/-- WAYBILL_FETCH (11 R377): the ring that the round robin grants gives one waybill, which joins the list of fetched ones; its ring's head moves by 1
modulo 4,096. -/
def Sys2Proof.Claims.WaybillFetched : Prop :=
  ∀ (s : State) (hdr : BitVec 512) (buf : List Byte) (err : Option DWord) (n : Nat), 5 ≤ s.mc.bringup → s.mc.coreAlive.getD 1 false = true →
    s.host.linkUp = true → s.grant = some n →
    ∃ u : State, exec (.waybillFetch hdr buf err) s = .next (({ u with host := { u.host with wbs := u.host.wbs ++ [⟨⟨n, hdr, buf⟩, false, false, err⟩] } } : State).sweepWbs)
      ∧ (u.ring n).sqHead = ((s.sweepWbs.ring n).sqHead + 1) % 4096 ∧ u.host.rrRing = n ∧ u.host.wbs = s.sweepWbs.host.wbs ∧ u.mem = s.sweepWbs.mem
      ∧ ∀ k, k ≠ n → u.ring k = s.sweepWbs.ring k

/-- The checks of a header in their order (11 R388): an opcode that no table lists gives 0x0101; a set reserved bit gives 0x0102 with the lowest bad bit; a
context field that does not fit gives 0x0104; a context that does not exist gives 0x0202. -/
def Sys2Proof.Claims.WaybillChecks : Prop :=
  ∀ (s : State) (w : Waybill),
    (opFields w.op = none → s.checkHeader w = some (0x0101, w.op))
    ∧ (∀ fs, opFields w.op = some fs → (∃ i, 41 ≤ i ∧ i < 64 ∧ w.hdr.getLsbD i = true) →
      ∃ i, s.checkHeader w = some (0x0102, i) ∧ (w.hdr.getLsbD i = true ∨ 160 ≤ i) ∧ ∀ j, 41 ≤ j → j < 64 → w.hdr.getLsbD j = true → i ≤ j)
    ∧ (∀ fs, opFields w.op = some fs → s.firstBad w fs = none → ctxNone w.op = true →
      s.checkHeader w = if w.context = 0xF then none else some (0x0104, w.context))
    ∧ (∀ fs, opFields w.op = some fs → s.firstBad w fs = none → ctxNone w.op = false → ctxAny w.op = false → 4 ≤ w.context →
      s.checkHeader w = some (0x0104, w.context))
    ∧ (∀ fs, opFields w.op = some fs → s.firstBad w fs = none → ctxNone w.op = false → ctxAny w.op = false → w.context < 4 → w.op ≠ 0x1001 →
      s.checkHeader w = if (s.cx w.context).live = true then none else some (0x0202, 0))

/-- The final receipt of a waybill (11 R378, R384, R385): the waybill leaves the list; with the link up and room in the completion ring its 32 bytes stand
at the tail, the tail moves on modulo 4,096 and the phase turns at the wrap; no other byte of any memory changes. With the link down it is held, and a quiet
waybill that succeeded gets none. -/
def Sys2Proof.Claims.FinalReceipt : Prop :=
  ∀ (s : State) (w : Waybill) (status detail detail2 : Nat) (e : WbEntry), s.host.wbs.find? (fun e => e.wb == w) = some e → e.dropped = false →
    let t := s.finish w status detail detail2
    let r := mkReceipt status w.tag w.op w.context 0 w.ring detail s.beat.slots detail2
    let a := 4096 * (s.ring w.ring).cqBase + 32 * (s.ring w.ring).cqTail
    t.host.wbs = s.host.wbs.erase e
    ∧ (t.ring w.ring).outstanding = (s.ring w.ring).outstanding - 1
    ∧ (w.quiet = true → status = 0 → t.mem = s.mem ∧ t.host.held = s.host.held)
    ∧ ((w.quiet = false ∨ status ≠ 0) → s.host.linkUp = false → t.mem = s.mem ∧ t.host.held = s.host.held ++ [(some w.ring, r, w.irq)])
    ∧ ((w.quiet = false ∨ status ≠ 0) → s.host.linkUp = true → (∀ h ∈ s.host.held, h.1 ≠ some w.ring) → (s.ring w.ring).halted = false →
        (s.ring w.ring).waiting = [] → (s.ring w.ring).full = false →
      (∀ i < 32, t.readByte .host (a + i) = BitVec.ofNat 8 ((withPhase r (s.ring w.ring).phase).toNat / 256 ^ i))
      ∧ (∀ sp b, (sp ≠ .host ∨ b < a ∨ a + 32 ≤ b) → t.readByte sp b = s.readByte sp b)
      ∧ (t.ring w.ring).cqTail = ((s.ring w.ring).cqTail + 1) % 4096
      ∧ (t.ring w.ring).phase = ((s.ring w.ring).phase != decide ((s.ring w.ring).cqTail = 4095)))

/-- The fields of a receipt (11 Table 11-3). -/
def Sys2Proof.Claims.ReceiptFields : Prop :=
  ∀ (status tag opcode ctx kind ring detail time detail2 : Nat) (ph : Bool), status < 2 ^ 16 → tag < 2 ^ 16 → opcode < 2 ^ 16 → ctx < 16 → kind < 4 →
    ring < 256 → detail < 2 ^ 64 → time < 2 ^ 64 → detail2 < 2 ^ 64 →
    let r := withPhase (mkReceipt status tag opcode ctx kind ring detail time detail2) ph
    fld r 0 16 = status ∧ fld r 16 16 = tag ∧ fld r 32 16 = opcode ∧ fld r 48 4 = ctx ∧ fld r 52 2 = kind ∧ bitAt r 54 = ph ∧ fld r 56 8 = ring
      ∧ fld r 64 64 = detail ∧ fld r 128 64 = time ∧ fld r 192 64 = detail2

/-- An event (11 R387): with its ring able to take it, it is written there as a receipt of kind 2 with its code; else it is discarded and counted, and the
count holds at 0xFFFF; one whose write would reach cq_head makes its ring wait too (R378). With the link down it is held (R374). -/
def Obligations.EventsWrittenOrLost : Prop :=
  ∀ (s : State) (code ctx detail : Nat),
    (s.host.linkUp = false → s.event code ctx detail
      = { s with host := { s.host with held := s.host.held ++ [(none, mkReceipt code 0 0 ctx 2 0 detail s.beat.slots 0, false)] } })
    ∧ (s.host.linkUp = true → (∀ h ∈ s.host.held, h.1 ≠ none) →
    ((s.host.eventEn = false ∨ (s.ring s.host.eventRing).enabled = false ∨ (s.ring s.host.eventRing).fullWait = true
        ∨ (s.ring s.host.eventRing).halted = true) →
      s.event code ctx detail = { s with mc := { s.mc with eventsLost := min 0xFFFF (s.mc.eventsLost + 1) } })
    ∧ (s.host.eventEn = true → (s.ring s.host.eventRing).enabled = true → (s.ring s.host.eventRing).fullWait = false →
        (s.ring s.host.eventRing).halted = false → (s.ring s.host.eventRing).full = true →
      ∃ u, u = s.modRing s.host.eventRing (fun x => { x with fullWait := true })
        ∧ s.event code ctx detail = { u with mc := { u.mc with eventsLost := min 0xFFFF (u.mc.eventsLost + 1) } })
    ∧ (s.host.eventEn = true → (s.ring s.host.eventRing).enabled = true → (s.ring s.host.eventRing).full = false →
        (s.ring s.host.eventRing).fullWait = false → (s.ring s.host.eventRing).halted = false → (s.ring s.host.eventRing).waiting = [] → s.host.eventRing < 64 →
      s.event code ctx detail = s.postReceipt s.host.eventRing (mkReceipt code 0 0 ctx 2 s.host.eventRing detail s.beat.slots 0) false
      ∧ (s.event code ctx detail).mc = s.mc ∧ (s.event code ctx detail).out = s.out ++ [.msix 65]))

/-- A fault record (12 R412 to R414, R424): it takes the next number before anything else happens, stands last in the log, which keeps the last 65,536, and
in flash too unless its outcome is 0; the numbers go on by 1. A cause raises the replacement request. What a fault retires enters the repair map before its
record; what finds no room there raises cause 11 (R421, R422; log 116), and the record of a unit that passed its test names the owner of its cluster (log 112). -/
def Sys2Proof.Claims.FaultRecorded : Prop :=
  (∀ (s : State) (kind outcome ctx unit sub spare detail cause : Nat),
    let t := s.fault kind outcome ctx unit sub spare detail cause
    let f : FaultRec := ⟨s.mc.faultSeq, s.beat.slots, kind, outcome, ctx, unit, sub, spare, if ctx < 4 then (s.cx ctx).step else 0, detail, cause⟩
    t.mc.faultSeq = s.mc.faultSeq + 1
    ∧ t.mc.faultLog = (s.mc.faultLog ++ [f]).drop (s.mc.faultLog.length + 1 - 65536)
    ∧ t.mc.flashLog = (if outcome = 0 then s.mc.flashLog else (s.mc.flashLog ++ [f]).drop (s.mc.flashLog.length + 1 - 4096))
    ∧ (cause ≠ 0 → t.mc.serviceReq = true ∧ cause ∈ t.mc.causes)
    ∧ (cause = 0 → t.mc.serviceReq = s.mc.serviceReq ∧ t.mc.causes = s.mc.causes)
    ∧ (∀ sp a, sp ≠ .host → t.readByte sp a = s.readByte sp a) ∧ t.ctx = s.ctx ∧ t.cl = s.cl ∧ t.legs = s.legs ∧ t.tg = s.tg)
  ∧ (∀ (s : State) (l : List Repair) (kind outcome ctx unit sub spare detail cause : Nat), ∃ u : State,
    u.mc.repairMap = (s.mc.repairMap ++ l).take (max 16384 s.mc.repairMap.length) ∧ { u with mc := { u.mc with repairMap := s.mc.repairMap } } = s
    ∧ (s.mc.repairMap.length + l.length ≤ 16384 → s.retire l kind outcome ctx unit sub spare detail cause = u.fault kind outcome ctx unit sub spare detail cause)
    ∧ (16384 < s.mc.repairMap.length + l.length → cause = 0 →
      s.retire l kind outcome ctx unit sub spare detail cause = u.fault kind outcome ctx unit sub spare detail 11)
    ∧ (16384 < s.mc.repairMap.length + l.length → cause ≠ 0 →
      s.retire l kind outcome ctx unit sub spare detail cause = (u.fault kind outcome ctx unit sub spare detail cause).service 11))
  ∧ ∀ (s : State) (x : TestRun) (k : Nat), x.kind ≠ 0 → ((∃ b, x.unit = .bank k b) ∨ x.unit = .core k ∨ x.unit = .channel k) →
    s.passUnit x = s.fault x.kind 0 ((s.clu (k / 32)).owner.getD 0xF) (TestUnit_where x.unit).1 (TestUnit_where x.unit).2 0xFFFF x.info 0

/-- IDENTIFY, REG_READ, STEP_RECORDS and FAULT_LOG (11 Table 11-6): what their receipts and buffers hold. -/
def Obligations.InfoWaybills : Prop :=
  ∀ (s u : State) (w : Waybill) (bs : List Byte),
    (begins s w 0x0001 u bs → exec (.identify w) s = .next ((u.finish w 0
      (packNat [(0, 16, u.mc.flash.stepping), (16, 32, u.mc.flash.firmware), (48, 1, b2n u.mc.image)])
      (packNat [(0, 13, u.fab.moduleId), (13, 1, b2n u.hbm.tall), (14, 1, b2n u.host.t3Cxl), (16, 16, u.mc.flash.vendorId.toNat)])).sweepWbs))
    ∧ (begins s w 0x0002 u bs → w.p 32 8 = 1 → exec (.regRead w) s
      = .next ((((u.readReg (w.p 0 22)).1.fillBuffer w (bytesOfNat 8 (u.readReg (w.p 0 22)).2.toNat)).finish w 0 0 0).sweepWbs))
    ∧ (begins s w 0x0002 u bs → ∀ v l, u.readRegs (w.p 32 8) (w.p 0 22) [] = (v, l) →
      l.length = 8 * w.p 32 8 ∧ exec (.regRead w) s = .next (((v.fillBuffer w l).finish w 0 0 0).sweepWbs))
    ∧ (begins s w 0x0003 u bs → ∃ l, l = (u.cx w.context).records.drop ((u.cx w.context).records.length - w.p 0 5) ∧ l.length ≤ w.p 0 5
      ∧ exec (.stepRecords w) s = .next (((u.fillBuffer w (l.flatMap fun r => slice r 0 4352)).finish w 0 l.length 0).sweepWbs))
    ∧ (begins s w 0x0004 u bs → ∃ l nxt, l = (u.mc.faultLog.filter fun f => decide (w.p 0 64 ≤ f.seq)).take (w.length / 64)
      ∧ (∀ f, l.getLast? = some f → nxt = f.seq + 1) ∧ (u.mc.faultLog.all (fun f => decide (f.seq < w.p 0 64)) = true → nxt = w.p 0 64)
      ∧ exec (.faultLog w) s = .next (((u.fillBuffer w (l.flatMap FaultRec.bytes)).finish w 0 l.length nxt).sweepWbs))

/-- The configuration waybills (11 R396): PLACEMENT, LSCALE_SET, HPARAM_SET, FN_LOAD, RECIPE_LOAD and MAP_SET take effect and are answered when their context
stands at a step boundary, and wait for it otherwise. -/
def Sys2Proof.Claims.ConfigurationWaybills : Prop :=
  ∀ q ∈ ([(.placement, 0x1003), (.lscaleSet, 0x1004), (.hparamSet, 0x1005), (.fnLoad, 0x1006), (.recipeLoad, 0x1007), (.mapSet, 0x2002)] :
      List ((Waybill → Instr) × Nat)),
    ∀ (s u : State) (w : Waybill) (bs : List Byte), begins s w q.2 u bs →
      ((u.cx w.context).run.isNone = true → (∀ g ∈ u.legs, g.ctx ≠ w.context) →
        exec (q.1 w) s = .next (((u.configure w).1.finish w (u.configure w).2.1 (u.configure w).2.2 0).sweepWbs))
      ∧ (((u.cx w.context).run.isSome = true ∨ ∃ g ∈ u.legs, g.ctx = w.context) →
        exec (q.1 w) s = .next ((u.modCx w.context fun x => { x with boundary := x.boundary ++ [w] }).sweepWbs))

/-- What HPARAM_SET, LSCALE_SET, FN_LOAD and RECIPE_LOAD set (08 R272; 02 R54, R63; 03 R71, R96): the set's words, with both powers back at 1.0; the exponent
with a clean count of 0, or 16 with 200 probes when the scale is unknown; the slot of every named cluster; the recipe words from the given instruction on. -/
def Sys2Proof.Claims.ConfigurationResults : Prop :=
  ∀ (s : State) (w : Waybill), w.bufModule = false →
    (w.op = 0x1005 → (s.configure w).2 = (0, 0) ∧ ∀ i,
      tget 0 ((s.configure w).1.cx w.context).hsets i = (if i = w.p 0 4 then BitVec.ofNat 256 (w.p 32 256) else tget 0 (s.cx w.context).hsets i)
      ∧ tget one32 ((s.configure w).1.cx w.context).p1 i = (if i = w.p 0 4 then one32 else tget one32 (s.cx w.context).p1 i)
      ∧ tget one32 ((s.configure w).1.cx w.context).p2 i = (if i = w.p 0 4 then one32 else tget one32 (s.cx w.context).p2 i))
    ∧ (w.op = 0x1004 → ∃ l : LScale, ((s.configure w).1.cx w.context).ls = l ∧ l.clean = 0 ∧ l.fixed = (w.p 5 1 == 1) ∧ l.skips = (s.cx w.context).ls.skips
      ∧ (w.p 6 1 = 1 → l.exp = 16 ∧ l.probe = true ∧ l.probeLeft = 200) ∧ (w.p 6 1 = 0 → l.exp = w.p 0 5 ∧ l.probe = false))
    ∧ (w.op = 0x1006 → (∀ k < 48, w.p 8 48 / 2 ^ k % 2 = 1 → (s.clu k).owner = none ∨ (s.clu k).owner = some w.context) → ∀ k < 48,
      ((s.configure w).2 = (0, 0)) ∧ ∃ f, f.compat = w.p 4 3 ∧ ((s.configure w).1.clu k).slots
        = if w.p 8 48 / 2 ^ k % 2 = 1 then tset none (s.clu k).slots (w.p 0 4) (some f) else (s.clu k).slots)
    ∧ (w.op = 0x1007 → (∀ k < 48, w.p 0 48 / 2 ^ k % 2 = 1 → (s.clu k).owner = none ∨ (s.clu k).owner = some w.context) → ∀ k < 48, ∀ i,
      tget 0 ((s.configure w).1.clu k).recipe (w.p 48 13 + i)
        = if w.p 0 48 / 2 ^ k % 2 = 1 ∧ i < w.length / 4 then BitVec.ofNat 32 (natAt (slice w.buf 0 w.length) (4 * i) 4) else tget 0 (s.clu k).recipe (w.p 48 13 + i))

/-- CTX_CREATE and CTX_END (08 R253; 11 Table 11-7). A created context has the seed and cursor of its waybill, step 0 and no placement; for an existing one
the answer is 0x0201. An ended context no longer exists and owns no cluster. -/
def Sys2Proof.Claims.ContextLifetime : Prop :=
  ∀ (s u : State) (w : Waybill) (bs : List Byte),
    (begins s w 0x1001 u bs → (u.cx w.context).live = true → exec (.ctxCreate w) s = .next ((u.finish w 0x0201 0 0).sweepWbs))
    ∧ (begins s w 0x1001 u bs → (u.cx w.context).live = false → ∃ x : Ctx, x.live = true ∧ x.seed = BitVec.ofNat 64 (w.p 0 64)
      ∧ x.cursor = BitVec.ofNat 64 (w.p 64 64) ∧ x.step = 0 ∧ x.swept = 0 ∧ x.place = none ∧ x.map = [] ∧ x.run = none ∧ x.cfg = (u.cx w.context).cfg
      ∧ exec (.ctxCreate w) s = .next (((u.modCx w.context fun _ => x).finish w 0 0 0).sweepWbs))
    ∧ (begins s w 0x1002 u bs → ∃ v : State, exec (.ctxEnd w) s = .next ((v.finish w 0 0 0).sweepWbs) ∧ (v.cx w.context).live = false
      ∧ (v.cx w.context).run = none ∧ (v.cx w.context).place = none ∧ (v.cx w.context).map = []
      ∧ ∀ k < 48, (v.clu k).owner ≠ some w.context)

/-! ### Memory waybills (06 R177, R178, R195; 11 Table 11-8) -/

/-- No copy of waybill w has started. -/
def Sys2Proof.Machine.freshWb (s : State) (w : Waybill) : Prop := ∀ e ∈ s.host.wbs, e.wb = w → e.started = false

/-- SHELF_CREATE, SHELF_RELEASE and LEG_LOAD (06 R177, R178; 11 R390). A shelf takes the lowest free number if a cache window of the context holds its range
and the quotas stay within 12 at every column that it has blocks at; its number is the receipt's detail. Quotas above 12 give 0x0302; the release of a shelf
that is not held gives 0x0102. A leg's image is written at its address once no line there is locked. -/
def Sys2Proof.Claims.ShelfAndLegLoad : Prop :=
  ∀ (s u : State) (w : Waybill) (bs : List Byte),
    (begins s w 0x2003 u bs → ∀ e i h, h = (⟨w.context, w.p 0 48, w.p 64 32, w.p 96 2, w.p 100 4⟩ : Shelf) →
      (u.cx w.context).map.find? (fun e => e.mode == 1 && decide (e.base ≤ h.base ∧ h.base + 4096 * h.pages ≤ e.base + 4096 * e.pages)) = some e →
      (u.quotaAt e h + h.quota ≤ 12 → i < 64 → tget none u.cel.shelves i = none → (∀ j < i, tget none u.cel.shelves j ≠ none) →
        exec (.shelfCreate w) s = .next (({ u with cel := { u.cel with shelves := tset none u.cel.shelves i (some h) } }.finish w 0 i 0).sweepWbs))
      ∧ (u.quotaAt e h + h.quota ≤ 12 → (∀ j < 64, tget none u.cel.shelves j ≠ none) → exec (.shelfCreate w) s = .next ((u.finish w 0x0302 1 0).sweepWbs))
      ∧ (12 < u.quotaAt e h + h.quota → exec (.shelfCreate w) s = .next ((u.finish w 0x0302 0 0).sweepWbs)))
    ∧ (begins s w 0x2003 u bs → (∀ e ∈ (u.cx w.context).map, e.mode = 1 → e.base ≤ w.p 0 48 → e.base + 4096 * e.pages < w.p 0 48 + 4096 * w.p 64 32) →
      exec (.shelfCreate w) s = .next ((u.finish w 0x0302 2 0).sweepWbs))
    ∧ (begins s w 0x2004 u bs → (∃ h, tget none u.cel.shelves (w.p 0 6) = some h) →
      ∃ v : State, exec (.shelfRelease w) s = .next ((v.finish w 0 0 0).sweepWbs) ∧ tget none v.cel.shelves (w.p 0 6) = none
        ∧ (∀ j, j ≠ w.p 0 6 → tget none v.cel.shelves j = tget none u.cel.shelves j) ∧ v.mem = u.mem)
    ∧ (begins s w 0x2004 u bs → tget none u.cel.shelves (w.p 0 6) = none → exec (.shelfRelease w) s = .next ((u.finish w 0x0102 160 0).sweepWbs))
    ∧ (begins s w 0x2001 u bs → (∀ i < w.length / 256 + 2, s.lineLocked w.context (w.p 0 48 / 256 * 256 + 256 * i) = false) →
      exec (.legLoad w) s = .next (((u.dmaWrite w.context (w.p 0 48) bs).finish w 0 0 0).sweepWbs))

/-- The addresses of the lines of a range of n bytes from address a on. -/
def Sys2Proof.Machine.rangeLines (a n : Nat) : List Nat := (List.range (n / 256)).map fun i => a + 256 * i

/-- Host traffic runs wherever one of these addresses needs it (10 R337, 11 R374). -/
def Sys2Proof.Machine.trafficRuns (u : State) (l : List Nat) : Prop := u.hostDma = true ∨ ∀ a ∈ l, isTier3 a = false

/-- RANGE_PREFETCH, RANGE_FLUSH, RANGE_INVALIDATE, RANGE_DISCARD and RANGE_CLOSE (06 R195): the lines of the range in ascending order, each as its operation
says; the receipt's detail counts the lines skipped. An address outside the map ends it with 0x0102, and nothing is touched. -/
def Sys2Proof.Claims.RangeOperations : Prop :=
  ∀ q ∈ ([(.rangePrefetch, 0), (.rangeFlush, 1), (.rangeInvalidate, 2), (.rangeDiscard, 3), (.rangeClose, 4)] : List ((Waybill → Instr) × Nat)),
    ∀ (s u : State) (w : Waybill) (bs : List Byte), begins s w 0x2005 u bs → freshWb s w → w.p 128 3 = q.2 →
      ((∃ a ∈ rangeLines (w.p 0 48) (w.p 64 48), u.resolve w.context none a = .outside) →
        exec (q.1 w) s = .next ((u.finish w 0x0102 160 0).sweepWbs).sweepWbs)
      ∧ ((∀ a ∈ rangeLines (w.p 0 48) (w.p 64 48), u.resolve w.context none a ≠ .outside ∧ (q.2 = 0 → u.noWay w.context a = false)
          ∧ u.placePaused (u.resolve w.context none a) = false) →
        trafficRuns u (rangeLines (w.p 0 48) (w.p 64 48)) →
        ∃ v n, (rangeLines (w.p 0 48) (w.p 64 48)).foldl
            (fun (r : State × Nat) a => ((r.1.rangeLine w.context q.2 (w.p 132 2) a).1, r.2 + (r.1.rangeLine w.context q.2 (w.p 132 2) a).2)) (u, 0) = (v, n)
          ∧ exec (q.1 w) s = .next ((v.finish w 0 n 0).sweepWbs).sweepWbs)

/-- One line of a range operation (06 Table 6-9): a line in RL is skipped and counted, but for a close, which closes it; a discarded scratch line reads 0 and
no other scratch byte changes; scratch lines take no prefetch, no flush and no invalidate. -/
def Sys2Proof.Claims.RangeLineResults : Prop :=
  ∀ (s : State) (c hint a k off : Nat) (o : Nat) (d : Bool) (set h : Nat), s.resolve c none a = .homed (.scratch k off) o d set h →
    ((s.homeLine (.scratch k off)).st = .rl → (∀ op < 4, s.rangeLine c op hint a = (s, 1)) ∧ s.rangeLine c 4 hint a = (s.closeLock (.scratch k off), 0))
    ∧ ((s.homeLine (.scratch k off)).st ≠ .rl →
      s.rangeLine c 0 hint a = (s, 0) ∧ s.rangeLine c 1 hint a = (s, 0) ∧ s.rangeLine c 2 hint a = (s, 0) ∧ s.rangeLine c 4 hint a = (s, 0)
      ∧ (s.rangeLine c 3 hint a).2 = 0
      ∧ (∀ i < 256, (s.rangeLine c 3 hint a).1.readByte (s.scratchSpace k) (colKey k off + i) = 0)
      ∧ (∀ sp b, (sp ≠ s.scratchSpace k ∨ b < colKey k off ∨ colKey k off + 256 ≤ b) → (s.rangeLine c 3 hint a).1.readByte sp b = s.readByte sp b)
      ∧ (∀ x ∈ (s.rangeLine c 3 hint a).1.cel.l1, x.line ≠ .scratch k off))

/-- One line copied (06 Table 6-7, 11 Table 11-8): read through the home of its source and written through that of its target; poison goes with it. -/
def Sys2Proof.Machine.copyLine (c : Nat) (s : State) (e : Nat × Nat) : State :=
  match s.takeLine c e.1 with
  | (s, some l) => s.storeLine c e.2 l
  | (s, none) => s.storeBad c e.2

/-- COPY and TILE_MOVE (11 Table 11-8, 07 R228). An address outside the map ends the waybill with 0x0102 at the field that names it, and nothing moves. With
every line there, no lock and no missing way, and host traffic running, the lines are moved in ascending order and the waybill ends with 0: in usable tier 2
the target then reads as the source did, and nothing else changes. -/
def Sys2Proof.Claims.CopyAndMove : Prop :=
  ∀ (s u : State) (w : Waybill) (bs : List Byte), freshWb s w →
    (begins s w 0x2006 u bs → ∀ src dst, src = rangeLines (w.p 0 48) (w.p 128 48) → dst = rangeLines (w.p 64 48) (w.p 128 48) →
      ((∃ a ∈ src, u.resolve w.context none a = .outside) → exec (.copyLines w) s = .next ((u.finish w 0x0102 160 0).sweepWbs).sweepWbs)
      ∧ ((∀ a ∈ src, u.resolve w.context none a ≠ .outside) → (∃ a ∈ dst, u.cannotWrite w.context a = true) →
        exec (.copyLines w) s = .next ((u.finish w 0x0102 224 0).sweepWbs).sweepWbs)
      ∧ ((∀ a ∈ src, u.resolve w.context none a ≠ .outside ∧ u.mustWait w.context a = false) →
          (∀ a ∈ dst, u.cannotWrite w.context a = false ∧ u.mustWait w.context a = false) → trafficRuns u (src ++ dst) →
        ∃ v, v = (src.zip dst).foldl (copyLine w.context) u ∧ exec (.copyLines w) s = .next ((v.finish w 0 0 0).sweepWbs).sweepWbs
          ∧ ∀ ka kb, ka = w.p 0 48 → kb = w.p 64 48 → w.p 128 48 = 256 → ka < u.tier2Size → kb < u.tier2Size → u.mapEntry w.context ka = none →
            u.mapEntry w.context kb = none → u.poisoned ka = false → u.mem.wf = true →
            (∀ i < 256, v.readByte .tier2 (kb + i) = u.readByte .tier2 (ka + i))
            ∧ ∀ sp x, (sp ≠ .tier2 ∨ x < kb ∨ kb + 256 ≤ x) → v.readByte sp x = u.readByte sp x))
    ∧ (begins s w 0x2007 u bs → ∀ f ka kb, ka = w.p 0 48 → kb = w.p 64 48 → w.p 128 32 = 1 → w.p 160 1 = 0 → tileFmt f = true → hdrFmt (lineOf (u.read .tier2 ka 256)).toNat = f →
      hdrState (lineOf (u.read .tier2 ka 256)).toNat < 2 →
      ka + tileBytes f ≤ u.tier2Size → kb + tileBytes f ≤ u.tier2Size →
      (∀ i < tileBytes f / 256, u.mapEntry w.context (ka + 256 * i) = none ∧ u.mapEntry w.context (kb + 256 * i) = none ∧ u.poisoned (ka + 256 * i) = false
        ∧ u.mustWait w.context (ka + 256 * i) = false ∧ u.mustWait w.context (kb + 256 * i) = false) →
      u.mem.wf = true →
      ∃ v : State, exec (.tileMove w) s = .next ((v.finish w 0 0 0).sweepWbs).sweepWbs
        ∧ (∀ i < tileBytes f, v.readByte .tier2 (kb + i) = u.readByte .tier2 (ka + i))
        ∧ ∀ sp x, (sp ≠ .tier2 ∨ x < kb ∨ kb + tileBytes f ≤ x) → v.readByte sp x = u.readByte sp x)
    ∧ (begins s w 0x2007 u bs → ∀ v ts, u.moveTiles w.context (w.p 0 48) (w.p 128 32) 0 [] = (v, .tiles ts) → ∀ src dst,
      src = rangeLines (w.p 0 48) (ts.map Prod.snd).sum → dst = rangeLines (w.p 64 48) (ts.map Prod.snd).sum →
      ((∃ a ∈ src, v.resolve w.context none a = .outside) → exec (.tileMove w) s = .next ((v.finish w 0x0102 160 0).sweepWbs).sweepWbs)
      ∧ ((∀ a ∈ src, v.resolve w.context none a ≠ .outside) → (∃ a ∈ dst, v.cannotWrite w.context a = true) →
        exec (.tileMove w) s = .next ((v.finish w 0x0102 224 0).sweepWbs).sweepWbs)
      ∧ ((∀ a ∈ src, v.resolve w.context none a ≠ .outside ∧ v.mustWait w.context a = false) →
          (∀ a ∈ dst, v.cannotWrite w.context a = false ∧ v.mustWait w.context a = false) → trafficRuns v (src ++ dst) →
        exec (.tileMove w) s = .next (((ts.foldl (fun r (t : Nat × Nat) =>
          r.moveTile w.context (w.p 0 48 + t.1) (w.p 64 48 + t.1) t.2 (w.p 160 1 == 1)) v).finish w 0 0 0).sweepWbs).sweepWbs))
    ∧ (begins s w 0x2007 u bs → ∀ v, u.moveTiles w.context (w.p 0 48) (w.p 128 32) 0 [] = (v, .bad) →
      exec (.tileMove w) s = .next ((v.finish w 0x0102 160 0).sweepWbs).sweepWbs)

/-! ### Control waybills -/

/-- STEP, LEG, EXPORT and PORT_RETRAIN start without a receipt: a step and a leg queue behind the earlier ones of their context, an export begins at the next
step boundary, and a port trains (08 R254; 11 Table 11-9; 12 R433; 09 R310). -/
def Sys2Proof.Claims.StartedWaybills : Prop :=
  ∀ (s u : State) (w : Waybill) (bs : List Byte),
    (begins s w 0x3001 u bs → exec (.stepWaybill w) s = .next ((u.modCx w.context fun x => { x with queue := x.queue ++ [w] }).sweepWbs))
    ∧ (begins s w 0x3002 u bs → exec (.legWaybill w) s = .next ((u.modCx w.context fun x => { x with legQ := x.legQ ++ [w] }).sweepWbs))
    ∧ (begins s w 0x5001 u bs → exec (.exportWaybill w) s = .next u.sweepWbs)
    ∧ (begins s w 0x4003 u bs → exec (.portRetrain w) s = .next ((u.modPort (w.p 0 4) fun x => { x with training := true }).sweepWbs))

/-- ROUTE_LOAD and ROUTE_DEFAULT (09 R312, R314): the 8,192 entries of the table and the dateline bit of each port, or none; packets that have not left
then take the new routes. -/
def Sys2Proof.Claims.RouteTables : Prop :=
  ∀ (s u : State) (w : Waybill) (bs : List Byte),
    (begins s w 0x4001 u bs → ∃ v : State, exec (.routeLoad w) s = .next ((v.requeueAll.finish w 0 0 0).sweepWbs) ∧ v.fab.loaded = true
      ∧ (∀ m < 8192, tget 0 v.fab.table m = BitVec.ofNat 16 (natAt bs (2 * m) 2)) ∧ (∀ p < 12, (v.port p).dateline = (w.p p 1 == 1))
      ∧ (∀ p < 12, { v.port p with dateline := (u.port p).dateline } = u.port p) ∧ v.mem = u.mem)
    ∧ (begins s w 0x4002 u bs → ∃ v : State, exec (.routeDefault w) s = .next ((v.requeueAll.finish w 0 0 0).sweepWbs) ∧ v.fab.loaded = false ∧ v.fab.table = []
      ∧ (∀ p < 12, (v.port p).dateline = false) ∧ (∀ p < 12, { v.port p with dateline := (u.port p).dateline } = u.port p) ∧ v.mem = u.mem)

/-- SETPOINT, SHED_CLEAR, COOLANT, HBM_RATE and SELF_TEST (10 R340 to R342, R368; 07 R210; 12 R416). -/
def Obligations.TollgateWaybills : Prop :=
  (∀ (s u : State) (w : Waybill) (bs : List Byte) (t : Nat), begins (s.tick t) w 0x6001 u bs →
    exec (.setpoint w t) s = .next ((({ u with tg := { u.tg with digitalW := w.p 0 12, deep := w.p 12 1 == 1, setAt := t, leaseArmed := true, leaseExpired := false } }.react).finish w 0 0 0).sweepWbs))
  ∧ (∀ (s u : State) (w : Waybill) (bs : List Byte),
    (begins s w 0x6002 u bs → exec (.shedClear w) s = .next ((({ u with tg := { u.tg with cmdShed := false } }.react).finish w 0 0 0).sweepWbs))
    ∧ (begins s w 0x6003 u bs → 20 ≤ w.p 0 6 → w.p 0 6 ≤ 40 → 40 ≤ w.p 8 8 → w.p 8 8 ≤ 85 →
      exec (.coolant w) s = .next (({ u with heat := { u.heat with flow := w.p 0 6, limit := w.p 8 8 } }.finish w 0 0 0).sweepWbs))
    ∧ (begins s w 0x7002 u bs → exec (.hbmRate w) s
      = .next (({ u with mc := { u.mc with flash := { u.mc.flash with hbmRate := w.p 0 1 == 1 } } }.finish w 0 0 0).sweepWbs))
    ∧ (begins s w 0x7001 u bs → freshWb s w → ∀ x, testUnitOf (w.p 0 3) (w.p 16 16) (w.p 32 16) = some x →
      (u.mc.tests.find? (fun r => r.unit == x) = none → exec (.selfTest w) s = .next ((u.startTest x 0 0 (some w)).sweepWbs).sweepWbs)
      ∧ (∀ r, u.mc.tests.find? (fun r => r.unit == x) = some r → r.waybill = none → ∃ v : State, exec (.selfTest w) s = .next v.sweepWbs.sweepWbs
        ∧ v.mc.tests = u.mc.tests.map (fun r => if r.unit = x then { r with waybill := some w } else r) ∧ { v with mc := u.mc } = u)))

/-- The envelope is the lowest of the terms in force (10 R332): it is one of them, and none is below it. A loss of the envelope's height lowers the allowance
at once; a floor sets it to 380 W outside the deep floor, and there the deep floor sets it to 150 W (10 R333, R349). From an operating state a floor starts the
shed path (R337). -/
def Sys2Proof.Claims.EnvelopeAndAllowance : Prop :=
  (∀ s : State, s.envelope ∈ s.terms ∧ ∀ x ∈ s.terms, s.envelope.2.rank ≤ x.2.rank)
  ∧ (∀ (s : State) (w : Rat), s.envelope.2 = .power w → s.react.tg.allowance = min s.tg.allowance w ∧ s.react.tg.st = s.tg.st)
  ∧ (∀ (s : State) (f : Floor), s.envelope.2 = .floor f → s.bringupDone = true →
    (s.tg.st ≠ 3 → s.react.tg.allowance = 380) ∧ (s.tg.st = 3 → s.react.tg.allowance = if f = .deep then 150 else s.tg.allowance)
    ∧ ((s.tg.st = 0 ∨ s.tg.st = 1) → s.react.tg.st = 4 ∧ s.react.tg.admitStop = true ∧ s.react.tg.dmaPaused = true ∧ s.react.tg.entering = some f
      ∧ (∀ k < 48, (s.react.clu k).held = true) ∧ ∀ h < 16, (s.react.stack h).selfRefresh = true))

/-! ### Priority operations (11 R398 to R403) -/

/-- Entry e is the next that core 3 serves, and it passes its checks. -/
def Sys2Proof.Machine.serves (s : State) (e : PrioEntry) (op : Nat) : Prop :=
  5 ≤ s.mc.bringup ∧ s.nextPrio = some e ∧ s.checkPrio (PrioEntry_wb e) = none ∧ fld e.hdr 0 16 = op

/-- STATUS, POWER_CAP, SHED (latch and clear), QUIESCE (depart and rejoin), FREEZE (both ways), THAW and CRASH_DUMP: the effect, then the receipt of the
entry; a freeze at tile boundary answers later. p(i, n) are the parameter bits of the entry's header. -/
def Obligations.PriorityOperations : Prop :=
  ∀ (s : State) (e : PrioEntry) (t : Nat),
    let p (lo len : Nat) : Nat := fld e.hdr (160 + lo) len
    (serves s e 0xF001 → exec (.status e) s = .next ((((s.takePrio e).write .bar2 0x800 (snapshotRegs.flatMap fun r =>
      bytesOfNat 8 ((s.takePrio e).image r).toNat)).finishPrio e 0 0).sweepPrio 64))
    ∧ (serves (s.tick t) e 0xF002 → exec (.powerCap e t) s
      = .next ((((((s.tick t).takePrio e).writeSetpoint (p 0 12) (p 12 1 == 1) t)).finishPrio e 0 0).sweepPrio 64))
    ∧ (serves (s.tick t) e 0xF003 → p 0 1 = 1 → ∃ u, u = (s.tick t).takePrio e
      ∧ exec (.shedLatch e t) s = .next ((({ u with tg := { u.tg with cmdShed := true } }.react).finishPrio e 0 0).sweepPrio 64))
    ∧ (serves s e 0xF003 → p 0 1 = 0 → ∃ u, u = s.takePrio e
      ∧ exec (.priorityShedClear e) s = .next ((({ u with tg := { u.tg with cmdShed := false } }.react).finishPrio e 0 0).sweepPrio 64))
    ∧ (serves s e 0xF005 → p 0 1 = 1 → ∃ u : State, exec (.quiesceDepart e) s = .next ((u.finishPrio e 0 0).sweepPrio 64) ∧ u.fab.selfDeparted = true
      ∧ (s.fab.selfDeparted = false → (∀ i < 12, (u.port i).width = 0 ∧ (u.port i).training = false)
          ∧ u.out = s.out ++ (s.upPorts.map fun i => .send 0 (s.port i).peerId .departure))
      ∧ (s.fab.selfDeparted = true → u = s.takePrio e))
    ∧ (serves s e 0xF005 → p 0 1 = 0 → s.fab.selfDeparted = true → s.tg.st ≠ 3 → ∃ u : State, exec (.quiesceRejoin e) s = .next ((u.finishPrio e 0 0).sweepPrio 64)
      ∧ u.fab.selfDeparted = false ∧ ∀ i < 12, (u.port i).training = true)
    ∧ (serves (s.tick t) e 0xF006 → p 4 1 = 0 → ∃ u : State, exec (.freezeTileBoundary e t) s = .next (u.sweepPrio 64) ∧ u.mc.freezeReq = some (e, t)
      ∧ ∀ c < 4, p 0 4 / 2 ^ c % 2 = 1 → (s.cx c).live = true → (u.cx c).frozen = true ∧ ∀ k < 48, (s.clu k).owner = some c → (u.clu k).frozen = true)
    ∧ (serves s e 0xF006 → p 4 1 = 1 → exec (.freezeImmediate e) s
      = .next (((((List.range 4).filter fun c => bit (p 0 4) c && (s.cx c).live).foldl State.freezeNow (s.takePrio e)).finishPrio e 0 0).sweepPrio 64))
    ∧ (serves s e 0xF007 → exec (.thaw e) s
      = .next (((((List.range 4).filter fun c => bit (p 0 4) c && (s.cx c).live).foldl State.thawCtx (s.takePrio e)).finishPrio e 0 0).sweepPrio 64))
    ∧ (serves s e 0xF008 → ∃ (u : State) (bs : List Byte) (n : Nat), exec (.crashDump e) s = .next ((u.finishPrio e 0 n).sweepPrio 64) ∧ bs.length = 65536
      ∧ u = ({ s.takePrio e with freeCtr := s.freeCtr + 1 } : State).write .bar2 0x10000 bs)
    ∧ (∀ t0, s.mc.freezeReq = some (e, t0) → exec (.freezeComplete t) s
      = .next (((({ s.tick t with mc := { s.mc with freezeReq := none } } : State).finishPrio e 0 (t - t0)).sweepPrio 64)))

/-- The receipt of a priority entry (11 R398, R400): in the 32 bytes of its slot with the phase bit turned, the head past the slot; no other byte of BAR2
changes. The two sources alternate (11 R403). -/
def Sys2Proof.Claims.PriorityReceipts : Prop :=
  (∀ (s : State) (e : PrioEntry) (status detail : Nat), e.mctp = false → e.slot < 16 →
    let t := s.finishPrio e status detail
    let w := PrioEntry_wb e
    let r := withPhase (mkReceipt status w.tag w.op w.context 0 0x40 detail s.beat.slots 0) (!bit (natOfBytes (s.read .bar2 (0x400 + 32 * e.slot) 32)) 54)
    t.host.prioBusy = false ∧ t.host.prioHead = (e.slot + 1) % 16
    ∧ (∀ i < 32, t.readByte .bar2 (0x400 + 32 * e.slot + i) = BitVec.ofNat 8 (r.toNat / 256 ^ i))
    ∧ (∀ sp a, (sp ≠ .bar2 ∨ a < 0x400 + 32 * e.slot ∨ 0x400 + 32 * e.slot + 32 ≤ a) → t.readByte sp a = s.readByte sp a)
    ∧ (s.host.linkUp = true → t.out = s.out ++ [.msix 64]))
  ∧ ∀ (s : State) (a b : PrioEntry) (l m : List PrioEntry), s.host.prioBusy = false → s.host.mctpBusy = false → s.host.prioQ = a :: l → s.host.mctpQ = b :: m →
    (s.host.barServed = true → s.nextPrio = some b) ∧ (s.host.barServed = false → s.nextPrio = some a)

/-! ### Rings and doorbells (11 R373 to R380, R399, R408) -/

/-- SQ_DOORBELL, CQ_DOORBELL, RING_ENABLE, RING_DISABLE and RING_DRAIN_COMPLETE (11 R375 to R379), from step 5 on with the host link up; with the link down
no write reaches the module (11 R374). -/
def Sys2Proof.Claims.RingCommands : Prop :=
  ∀ (s : State) (n : Nat) (v : DWord), 5 ≤ s.mc.bringup →
    (s.host.linkUp = false → ∀ i ∈ ([.sqDoorbell n v, .cqDoorbell n v, .ringEnable n v, .ringDisable n v] : List Instr), exec i s = .next s)
    ∧ (s.host.linkUp = true →
    (v.getLsbD 12 = true → v.getLsbD 28 = false → exec (.sqDoorbell n v) s = .next (s.modRing n fun r => { r with sqTail := fld v 0 12 }))
    ∧ (v.getLsbD 12 = false → v.getLsbD 28 = true → (s.ring n).halted = false → (s.ring n).waiting = [] →
      ∃ t, exec (.cqDoorbell n v) s = .next t ∧ t = (s.modRing n fun r => { r with cqHead := fld v 16 12, fullWait := false }))
    ∧ (v.getLsbD 0 = true → (s.ring n).enabled = false → ∃ r : Ring, exec (.ringEnable n v) s = .next (s.modRing n fun _ => r)
      ∧ r.enabled = true ∧ r.enable = true ∧ r.base = fld v 12 52 ∧ r.sqTail = 0 ∧ r.sqHead = 0 ∧ r.cqHead = 0 ∧ r.cqTail = 0 ∧ r.phase = true
      ∧ r.cqBase = (s.ring n).cqBase ∧ r.irqEn = (s.ring n).irqEn ∧ r.weight = (s.ring n).weight)
    ∧ (v.getLsbD 0 = true → (s.ring n).enabled = true → (s.ring n).enable = false → ∃ t, exec (.ringEnable n v) s = .next t
      ∧ (t.ring n).heldEnable = true ∧ (t.ring n).enabled = true ∧ (t.ring n).base = (s.ring n).base)
    ∧ (v.getLsbD 0 = false → (s.ring n).enabled = true → (s.ring n).outstanding ≠ 0 → ∃ t, exec (.ringDisable n v) s = .next t
      ∧ (t.ring n).enabled = true ∧ (t.ring n).enable = false ∧ (t.ring n).sqHead = (s.ring n).sqHead ∧ (t.ring n).base = (s.ring n).base)
    ∧ (v.getLsbD 0 = false → (s.ring n).enabled = true → (s.ring n).outstanding = 0 → (s.ring n).waiting = [] → (∀ h ∈ s.host.held, h.1 ≠ some n) →
      ∃ t, exec (.ringDisable n v) s = .next t ∧ (t.ring n).enabled = false))
    ∧ ((s.ring n).enabled = true → (s.ring n).enable = false → (s.ring n).heldEnable = false → (s.ring n).outstanding = 0 → (s.ring n).waiting = [] →
      (∀ h ∈ s.host.held, h.1 ≠ some n) → exec (.ringDrainComplete n) s = .next (s.modRing n fun r => { r with enabled := false }))

/-- PRIORITY_DOORBELL (11 R399): the entries between the old and the new tail are copied from BAR2 in order; a tail that would leave more than 15 standing
sets the overrun bit and copies nothing. -/
def Sys2Proof.Claims.PriorityDoorbells : Prop :=
  ∀ (s : State) (v : DWord), 5 ≤ s.mc.bringup → s.host.linkUp = true → s.host.prioTail < 16 → s.host.prioHead < 16 → v.getLsbD 14 = false →
    let posted := (fld v 0 4 + 16 - s.host.prioTail) % 16
    (posted ≠ 0 → posted + (s.host.prioTail + 16 - s.host.prioHead) % 16 ≤ 15 → exec (.priorityDoorbell v []) s
      = .next (let new := (List.range posted).map fun i => s.prioEntry ((s.host.prioTail + i) % 16)
        { s with host := { s.host with prioTail := fld v 0 4, prioQ := s.host.prioQ ++ new } }))
    ∧ (15 < posted + (s.host.prioTail + 16 - s.host.prioHead) % 16 → posted ≠ 0 →
      exec (.priorityDoorbell v []) s = .next { s with host := { s.host with overrun := true } })
    ∧ ∀ e : BitVec 512, ∀ i < 64, ∀ s', s' = s.hostEntries s.host.prioTail [e] → s'.readByte .bar2 (64 * s.host.prioTail + i) = BitVec.ofNat 8 (e.toNat / 256 ^ i)

/-- RECEIPT_WRITE_FAILURE, HELD_RECEIPTS_WRITE, HOST_LINK_DOWN, PERST_N, IRQ_DELAY_EXPIRY and SNOOP (11 R370, R373, R374, R380, R408; 07 R231). -/
def Sys2Proof.Claims.HostLink : Prop :=
  ∀ (s : State) (n : Nat),
    ((s.ring n).enabled = true → (s.ring n).halted = false → ∃ u : State, exec (.receiptWriteFailure n) s = .next (u.event 0x800D 0xF n)
      ∧ (u.ring n).halted = true ∧ (∀ k, k ≠ n → u.ring k = s.ring k) ∧ ∀ sp a, sp ≠ .host → u.readByte sp a = s.readByte sp a)
    ∧ (s.host.linkUp = false → s.linkCan = true → 8 ≤ s.mc.bringup → s.host.held = [] →
      ∃ b u, u = { s with freeCtr := s.freeCtr + 1, host := { s.host with linkUp := true, t3Cxl := b } }
        ∧ exec .heldReceiptsWrite s = .next ((List.range 4).foldl (fun s c => s.retryAll c (· == .waits)) u))
    ∧ (s.host.linkUp = true → exec (.hostLinkDown 0) s = .next { s with host := { s.host with linkUp := false } }
      ∧ ∀ w ∈ [1, 2, 4, 8], w < s.host.linkWidth → exec (.hostLinkDown w) s = .next { s with host := { s.host with linkWidth := w } })
    ∧ (∃ t, exec .perstNAssert s = .next t ∧ t.host.linkUp = false ∧ t.host.perst = true ∧ (∀ k, t.ring k = Ring.init)
      ∧ (∀ e ∈ t.host.wbs, e.dropped = true) ∧ t.host.wbs.map WbEntry.wb = s.host.wbs.map WbEntry.wb ∧ { t with host := s.host } = s)
    ∧ (s.host.linkUp = true → exec .perstNRelease s = .next { s with host := { s.host with perst := false } })
    ∧ ((s.ring n).gathered ≠ 0 → (s.ring n).irqDelay ≠ 0 → (s.ring n).irqEn = true →
      exec (.irqDelayExpiry n) s = .next ((s.modRing n fun x => { x with gathered := 0 }).emit (.msix n)))
    ∧ (∀ h inv, s.host.t3Cxl = false → exec (.snoop h inv) s = .next s)
    ∧ (∀ h inv, s.host.t3Cxl = true → s.snooped h = [] → exec (.snoop h inv) s = .next (s.emit (.snoopAnswer h none)))
    ∧ (∀ h k a id, id = .window k a → s.host.t3Cxl = true → s.snooped h = [id] →
      ((s.homeLine id).st = .rl → ∃ c, exec (.snoop h true) s = .next ((s.holdReq id (.req ⟨c, id, 0, .victim⟩)).emit (.snoopAnswer h none)))
      ∧ ((s.homeLine id).st ≠ .rl → s.isDirect id = false → exec (.snoop h true) s = .next ((s.evict id).emit (.snoopAnswer h (s.dirtyData id))))
      ∧ ((s.homeLine id).st ≠ .rl → (s.homeLine id).st ≠ .pz →
        exec (.snoop h false) s = .next ((s.cleanLine id (s.isDirect id)).emit (.snoopAnswer h (s.dirtyData id))))
      ∧ ((s.homeLine id).st ≠ .rl → s.isDirect id = false → (∀ x ∈ s.cel.l1, x.line ≠ id) →
        s.dirtyData id = if (s.homeLine id).dirty then some (s.homeLine id).data else none))

/-! ### Registers (00 R4 to R8, 11 R372, R404) -/

/-- The RC fields of each register (11 Table 11-16 and the register tables), as (lowest bit, length). -/
def Sys2Proof.Machine.rcFields : Reg → List (Nat × Nat)
  | .mcStatus => [(32, 16)]
  | .lscale _ => [(32, 16)]
  | .stashstat _ => [(56, 8)]
  | .caravan _ => [(32, 16), (48, 16)]
  | .fetchstat _ => [(0, 16), (16, 16), (32, 8), (40, 8)]
  | .tgBeat => [(32, 16), (48, 8)]
  | .shedstat => [(32, 16), (48, 8)]
  | .fabricCfg => [(32, 16), (48, 16)]
  | .portStat _ => [(32, 16), (48, 16)]
  | .stackStat _ => [(32, 16), (48, 8), (56, 8)]
  | .dispStatus _ => [(32, 32)]
  | .cvtNan _ => [(0, 32)]
  | .accStatus _ => [(0, 32), (32, 16)]
  | .rowengCnt _ => [(0, 32), (32, 32)]
  | .pressStat _ => [(0, 16), (16, 16), (32, 8), (40, 8), (48, 11)]
  | .chanStat _ => [(32, 16), (48, 16)]
  | _ => []

/-- RC_READ, LOW_HALF_READ and HIGH_HALF_READ (00 R4, R8; 13 R443): a read returns the register's fields as they were; the RC fields then read 0 and every
other field reads as before; the low half of a register latches its high half, which the next high half read returns; an offset that no table lists, and
every offset before bring-up step 5, reads 0. With the host link down no read arrives (01 R20, 11 R374). -/
def Sys2Proof.Claims.RegisterReads : Prop :=
  ∀ (s : State) (off : Nat),
    (5 ≤ s.mc.bringup → s.host.linkUp = true → ∀ r, regAt (off / 8 * 8) = some r →
      (∃ t : State, exec (.rcRead off) s = .next t ∧ t.out = s.out ++ [.barRead off (pack 64 (s.regFields r))]
        ∧ t.regFields r = (s.regFields r).map (fun f => if (f.1, f.2.1) ∈ rcFields r then (f.1, f.2.1, 0) else f) ∧ t.mem = s.mem ∧ t.cores = s.cores ∧ t.legs = s.legs)
      ∧ ∃ t u : State, exec (.lowHalfRead off) s = .next t ∧ t.out = s.out ++ [.barRead off (BitVec.ofNat 64 ((s.image r).toNat % 2 ^ 32))]
        ∧ exec (.highHalfRead off) t = .next u ∧ u.out = t.out ++ [.barRead off (BitVec.ofNat 64 ((s.image r).toNat / 2 ^ 32))])
    ∧ (5 ≤ s.mc.bringup → s.host.linkUp = true → regAt (off / 8 * 8) = none → exec (.rcRead off) s = .next (s.emit (.barRead off 0)))
    ∧ (s.mc.bringup < 5 → ∀ i ∈ ([.rcRead off, .lowHalfRead off, .highHalfRead off] : List Instr), exec i s = .next (s.emit (.barRead off 0)))
    ∧ (5 ≤ s.mc.bringup → s.host.linkUp = false → ∀ i ∈ ([.rcRead off, .lowHalfRead off, .highHalfRead off] : List Instr), exec i s = .next s)
    ∧ (5 ≤ s.mc.bringup → s.host.linkUp = true → ∀ r, regAt (off / 8 * 8) = some r → tget none s.host.latch (off / 8 * 8) = none →
        ∃ t : State, exec (.highHalfRead off) s = .next t
          ∧ t.out = s.out ++ [.barRead off (BitVec.ofNat 64 ((s.image r).toNat / 2 ^ 32))] ∧ t.mem = s.mem)

/-- Registers without a writable field. -/
def Sys2Proof.Machine.readOnly : Reg → Prop
  | .ringStat _ => True | .mcStatus => True | .lscale _ => True | .seed _ => True | .stashstat _ => True | .step _ => True | .fetchstat _ => True
  | .tgStatus => True | .tgBeat => True | .slotcnt => True | .shedstat => True | .fabricCfg => True | .fabricDim => True | .portStat _ => True
  | .ctxMask _ => True | .hbmCfg => True | .stackStat _ => True | .coreMap _ => True | .dispStatus _ => True | .cvtNan _ => True | .accStatus _ => True
  | .roweng _ => True | .rowengCnt _ => True | .celStatus => True | .pressStat _ => True | .clSplit _ => True | .chanStat _ => True
  | _ => False

/-- REGISTER_WRITE, LEASE_S_WRITE and TIER3_WINDOW_APPLY (00 R5, R6; 10 R341; 07 R252): a write sets the register's writable fields; a reserved value leaves
its field as it was; a write of a read-only or unlisted register, before bring-up step 5, or with the host link down changes nothing. -/
def Sys2Proof.Claims.RegisterWrites : Prop :=
  ∀ (s : State) (off : Nat) (v : DWord) (a : Access),
    ((s.mc.bringup < 5 ∨ s.host.linkUp = false ∨ regAt (off / 8 * 8) = none ∨ ∃ r, regAt (off / 8 * 8) = some r ∧ readOnly r) → exec (.registerWrite off a v) s = .next s)
    ∧ (5 ≤ s.mc.bringup → s.host.linkUp = true →
      (∀ c, regAt (off / 8 * 8) = some (.acccfg c) → exec (.registerWrite off .full v) s
        = .next (s.modCx c fun x => { x with cfg := { x.cfg with srThresh := fld v 0 24, srOff := v.getLsbD 24 } }))
      ∧ (∀ c, regAt (off / 8 * 8) = some (.stashcfg c) → exec (.registerWrite off .full v) s
        = .next (s.modCx c fun x => { x with cfg := { x.cfg with areaMib := fld v 0 16, quotaMib := fld v 32 20 } }))
      ∧ (∀ c, regAt (off / 8 * 8) = some (.bscfg c) → exec (.registerWrite off .full v) s
        = .next (s.modCx c fun x => { x with cfg := { x.cfg with tols := [fld v 0 3, fld v 4 3, fld v 8 3, fld v 12 3, fld v 16 3] } }))
      ∧ (∀ n, regAt (off / 8 * 8) = some (.ringCfg n) → fld v 0 4 ≠ 0 → exec (.registerWrite off .full v) s
        = .next (s.modRing n fun x => { x with weight := fld v 0 4, irqCount := fld v 8 8, irqDelay := fld v 16 16 }))
      ∧ (off / 8 * 8 = 0x1008 → exec (.registerWrite off .full v) s
        = .next { s with host := { s.host with eventRing := fld v 0 6, eventEn := v.getLsbD 6 } })
      ∧ (regAt (off / 8 * 8) = some .celCfg → ∃ t : State, exec (.registerWrite off .full v) s = .next t
        ∧ t.cel.keepCap = (if fld v 0 4 ≤ 12 then fld v 0 4 else s.cel.keepCap) ∧ t.cel.thrashEn = v.getLsbD 4 ∧ t.cel.thrashWarn = v.getLsbD 5
        ∧ t.cel.pressWaitMs = (if fld v 16 16 = 0 then s.cel.pressWaitMs else fld v 16 16) ∧ { t with cel := s.cel } = s))
    ∧ (∀ t, 5 ≤ s.mc.bringup → s.host.linkUp = true → ∃ u : State, exec (.leaseSWrite .full v t) s = .next u.react ∧ u.tg.cfg.lease = fld v 32 16
        ∧ u.tg.setAt = (if fld v 32 16 = s.tg.cfg.lease then s.tg.setAt else t) ∧ u.tg.cfg.slot = fld v 6 6 ∧ u.tg.cfg.slotEn = v.getLsbD 4
        ∧ u.tg.cfg.envSrc = (if fld v 0 2 = 3 then s.tg.cfg.envSrc else fld v 0 2) ∧ u.tg.cfg.ramp = (if fld v 16 16 < 10 then s.tg.cfg.ramp else fld v 16 16)
        ∧ u.tg.cfg.fallback = (if 3300 < fld v 48 16 then s.tg.cfg.fallback else fld v 48 16) ∧ u.tg.allowance = s.tg.allowance ∧ u.mem = s.mem)
    ∧ (∀ b n, s.host.t3Pending = some (b, n) → s.mapsTier3 = false →
      exec .tier3WindowApply s = .next { s with host := { s.host with t3Base := b, t3Size := n, t3Pending := none } })
    ∧ (s.mapsTier3 = true → exec .tier3WindowApply s = .next s)

/-! ### Vertical channels and columns (06 R164 to R168, R179, R196 to R199) -/

/-- CHANNEL_RETRIM, UNSCHEDULED_RETRIM and RETRIM_COMPLETE (06 R165, R166; 01 R23): the retrim of channel k falls due (k mod 64) × 31.25 ms into a 2 s period,
that of a margin below 6 taps at once, and counts as an extra one. A channel that carries traffic then pauses with the margin that is found, at most 31, and
couplers that stay below 3 taps are failing; the trims it finds are free values (log 113). While a clock change or another retrim of the cluster runs, the
retrim waits for its end; at the end of the pause what queued goes on. -/
def Sys2Proof.Claims.Retrims : Prop :=
  (∀ (s : State) (k margin t : Nat) (l : List (Bool × Nat)), t % 2000000000 = k % 64 * 31250000 → (s.tick t).canRetrim k = true →
    ((s.tick t).retrimFree k = true → (margin < 3 → l = []) →
      exec (.channelRetrim k margin l t) s
        = .next (((s.tick t).newTrims k).modCol k fun x => { x with retrim := true, retrimDue := none, margin := min margin 31 }))
    ∧ ((s.tick t).retrimFree k = false → exec (.channelRetrim k margin l t) s = .next ((s.tick t).modCol k fun x => { x with retrimDue := some (margin, l) }))
    ∧ (∀ up coupler, (s.tick t).retrimFree k = true → margin < 3 → l = [(up, coupler)] → (s.col k).failing = [] → (s.col k).evacuating = false →
        (s.col k).spares up < 16 → ∃ u : State, exec (.channelRetrim k margin l t) s = .next u ∧ (u.col k).retrim = true ∧ (u.col k).margin = margin
          ∧ (u.col k).failing = [(up, coupler)] ∧ ∀ j, j ≠ k → u.col j = s.col j))
  ∧ (∀ (s : State) (k margin t : Nat) (l : List (Bool × Nat)), t % 2000000000 ≠ k % 64 * 31250000 → exec (.channelRetrim k margin l t) s = .next (s.tick t))
  ∧ (∀ (s : State) (k before margin t : Nat) (l : List (Bool × Nat)), (s.tick t).canRetrim k = true → before < 6 → (margin < 3 → l = []) →
    ∃ u : State, exec (.unscheduledRetrim k before margin l t) s = .next u ∧ (u.col k).extraRetrims = min 0xFFFF ((s.col k).extraRetrims + 1)
      ∧ (∀ j, j ≠ k → u.col j = s.col j) ∧ u.mem = s.mem
      ∧ ((s.tick t).retrimFree k = true → (u.col k).retrim = true ∧ (u.col k).margin = min margin 31)
      ∧ ((s.tick t).retrimFree k = false → (u.col k).retrim = false ∧ (u.col k).margin = before ∧ (u.col k).retrimDue = some (margin, l)))
  ∧ (∀ (s : State) (k before margin t : Nat) (l : List (Bool × Nat)), 6 ≤ before → exec (.unscheduledRetrim k before margin l t) s = .next (s.tick t))
  ∧ (∀ (s u : State) (k t : Nat), u = (s.tick t).modCol k (fun x => { x with retrim := false }) →
    ((∀ i < 32, (s.col (clusterOf k * 32 + i)).retrimDue = none) → exec (.retrimComplete k t) s = .next u.endPause)
    ∧ (∀ i m f, i < 32 → (u.col (clusterOf k * 32 + i)).retrimDue = some (m, f) → (∀ j < i, (u.col (clusterOf k * 32 + j)).retrimDue = none) →
        u.canRetrim (clusterOf k * 32 + i) = true → u.retrimFree (clusterOf k * 32 + i) = true →
      exec (.retrimComplete k t) s = .next (u.startRetrim (clusterOf k * 32 + i) m f).endPause))

/-- COUPLER_REMAP and LINE_CHECK_FAILURE (06 R166, R167, R196): a failing coupler is remapped to the next spare of its direction, recorded in the repair map
and with fault kind 0x05, outcome 1, of the cluster's owner (log 112), and the pause of its channel ends; a line that fails its check is sent again up to three times, counted for each transfer; the fourth failure tests the
channel, and until that test ends the transfer is held. -/
def Sys2Proof.Claims.ChannelEvents : Prop :=
  (∀ (s : State) (k coupler : Nat) (up : Bool), (up, coupler) ∈ (s.col k).failing →
    ∃ u v : State, exec (.couplerRemap k up coupler) s = .next v.endPause
      ∧ v = u.retire [.coupler k up coupler] 0x05 1 (s.ownerCtx (clusterOf k)) k coupler (if up then (s.col k).upSpares else (s.col k).downSpares) 0 0
      ∧ (s.mc.repairMap.length < 16384 → v.mc.repairMap = s.mc.repairMap ++ [.coupler k up coupler])
      ∧ (u.col k).failing = (s.col k).failing.erase (up, coupler)
      ∧ (u.col k).upSpares = (s.col k).upSpares + (if up then 1 else 0) ∧ (u.col k).downSpares = (s.col k).downSpares + (if up then 0 else 1)
      ∧ u.mem = s.mem)
  ∧ ∀ (s : State) (k coupler t : Nat) (up : Bool) (x : LineCheck), (s.col k).leftMap = false → (s.col k).couplerFails = [] →
    let m := (((s.col k).crcTries.find? fun e => e.1 == x.line).map Prod.snd).getD 0
    let n := if x.first then 1 else m + 1
    (m ≠ 4 → n < 4 → ∃ u : State, exec (.lineCheckFailure k x up coupler t) s = .next u ∧ (u.col k).crcResends = min 0xFFFF ((s.col k).crcResends + 1)
      ∧ (x.line, n) ∈ (u.col k).crcTries ∧ (∀ j, j ≠ k → u.col j = s.col j) ∧ u.mc = s.mc ∧ u.mem = s.mem)
    ∧ (m ≠ 4 → 4 ≤ n → ∃ u : State, exec (.lineCheckFailure k x up coupler t) s = .next (u.startTest (.channel k) 0x05 (coupler * 2 + b2n up) none)
      ∧ (u.col k).crcResends = (s.col k).crcResends ∧ (x.line, n) ∈ (u.col k).crcTries ∧ u.mc = s.mc)
    ∧ (m = 4 → exec (.lineCheckFailure k x up coupler t) s = .next (s.tick t))

/-- COLUMN_EVACUATION_COMPLETE, COLUMN_CONTROLLER_SILENT, CELLAR_UNCORRECTABLE and CELLAR_CORRECTED (06 R168, R198; 12 Table
12-2, R423). -/
def Sys2Proof.Claims.ColumnEvents : Prop :=
  (∀ (s : State) (k : Nat), (s.col k).evacuating = true → (s.atFloor = false ∨ s.bringupDone = false) → ∃ t : State,
    exec (.columnEvacuationComplete k) s = .next ((((s.col k).substitute.elim t t.serveColumn).evacDone k).countLost)
      ∧ (t.col k).leftMap = true ∧ (t.col k).evacuating = false)
  ∧ (∀ (s : State) (k : Nat), ((s.col k).evacuating = false ∨ (s.atFloor = true ∧ s.bringupDone = true)) → exec (.columnEvacuationComplete k) s = .next s)
  ∧ (∀ (s : State) (k t : Nat), (s.col k).silent = false → (s.col k).leftMap = false → ∃ (u v : State),
    u = (s.tick t).retire [.column k] 0x08 3 (s.ownerCtx (clusterOf k)) k 0 0xFFFF 0 0 ∧ v = u.leaveMap k
    ∧ exec (.columnControllerSilent k t) s = .next (v.loseColumn k) ∧ ((s.col k).leaving = false → (v.col k).evacuating = true))
  ∧ (∀ (s : State) (line : LineId) (t : Nat), s.inCellar line = true →
    exec (.cellarUncorrectable line t) s = .next (((s.tick t).poisonLine line).startTest (.channel (colNo line)) 0x06 (lineInfo line) none))
  ∧ (∀ (s : State) (line : LineId) (t : Nat), s.inCellar line = true →
    let l := (s.col (colNo line)).corrected.filter (fun e => decide (t < e.2 + 3600000000000))
    ((l.filter fun e => e.1 == line).length < 3 → exec (.cellarCorrected line t) s
      = .next ((s.tick t).modCol (colNo line) fun x => { x with corrected := l ++ [(line, t)] }))
    ∧ (3 ≤ (l.filter fun e => e.1 == line).length → ∃ u : State, exec (.cellarCorrected line t) s = .next (u.repairLine line 0x07)
      ∧ (∀ e ∈ (u.col (colNo line)).corrected, e.1 ≠ line) ∧ u.mc = s.mc))

/-- THRASH_INTERVAL_END (06 R179, R180): a thrash interval has at least 256 fills and fewer than four fills an eviction. With thrash_en set each one raises the
column's reduction by 2, up to 12; the sixteenth interval in a row that is not one lowers it by 2, down to 0; the shelves and every other column stay. -/
def Obligations.ThrashReduction : Prop :=
  ∀ (s : State) (k : Nat), ∃ u : State,
    exec (.thrashIntervalEnd k) s = .next (if 256 ≤ (s.col k).fills ∧ (s.col k).fills < 4 * (s.col k).evictions ∧ (s.col k).thrashing = false ∧ s.cel.thrashWarn = true
      then u.event 0x8002 0xF k else u)
    ∧ (u.col k).fills = 0 ∧ (u.col k).evictions = 0 ∧ (u.col k).thrashing = decide (256 ≤ (s.col k).fills ∧ (s.col k).fills < 4 * (s.col k).evictions)
    ∧ (256 ≤ (s.col k).fills → (s.col k).fills < 4 * (s.col k).evictions → (u.col k).quiet = 0
      ∧ (u.col k).reduction = if s.cel.thrashEn = true then min 12 ((s.col k).reduction + 2) else (s.col k).reduction)
    ∧ (((s.col k).fills < 256 ∨ 4 * (s.col k).evictions ≤ (s.col k).fills) →
      ((s.col k).quiet = 15 → (u.col k).quiet = 0 ∧ (u.col k).reduction = (s.col k).reduction - 2)
      ∧ ((s.col k).quiet ≠ 15 → (u.col k).quiet = (s.col k).quiet + 1 ∧ (u.col k).reduction = (s.col k).reduction))
    ∧ u.cel.shelves = s.cel.shelves ∧ (∀ j, j ≠ k → u.col j = s.col j) ∧ { u with cel := s.cel } = s

/-! ### HBM stacks (07 R216 to R221) -/

/-- HBM_READ_PARITY_FAILURE, HBM_WRITE_PARITY_FAILURE, HBM_UNCORRECTABLE_ERROR and HBM_CORRECTED_ERROR (07 Table 7-5, R218 to R220), of a line of usable
tier 2 or the MC area: a parity failure of an access is retried three times; the fourth of a read is an uncorrectable error, the fourth of a write poisons its
line and tests the pseudo-channel; the second uncorrectable error of an access does so and retires the row; the fourth corrected error of a row within an hour
retires it. The counters of the stack hold at their top. -/
def Sys2Proof.Claims.HbmErrors : Prop :=
  ∀ (s : State) (x : HbmAccess) (t : Nat), x.addr < s.hbmSize →
    let a := x.addr
    let h := stackOf a
    let tries (kind : Nat) : Nat := if x.first then 0 else (((s.stack h).tries.find? fun e => e.1 == triesKey a kind).map Prod.snd).getD 0
    (tries 0 < 3 → ∃ u : State, exec (.hbmReadParityFailure x t) s = .next u ∧ (u.stack h).retries = min 0xFF ((s.stack h).retries + 1)
      ∧ (triesKey a 0, tries 0 + 1) ∈ (u.stack h).tries ∧ (u.stack h).poison = (s.stack h).poison ∧ (∀ j, j ≠ h → u.stack j = s.stack j)
      ∧ u.mem = s.mem ∧ u.mc = s.mc)
    ∧ (3 ≤ tries 0 → ∃ u : State, exec (.hbmReadParityFailure x t) s = .next (u.uncorrectable a) ∧ u.mem = s.mem ∧ (u.stack h).retries = (s.stack h).retries
      ∧ (∀ e ∈ (u.stack h).tries, e.1 ≠ triesKey a 0) ∧ u.mc = s.mc)
    ∧ (tries 1 < 3 → ∃ u : State, exec (.hbmWriteParityFailure x t) s = .next u ∧ (u.stack h).retries = min 0xFF ((s.stack h).retries + 1)
      ∧ (triesKey a 1, tries 1 + 1) ∈ (u.stack h).tries ∧ (u.stack h).poison = (s.stack h).poison ∧ (∀ j, j ≠ h → u.stack j = s.stack j)
      ∧ u.mem = s.mem ∧ u.mc = s.mc)
    ∧ (3 ≤ tries 1 → ∃ u : State, exec (.hbmWriteParityFailure x t) s = .next ((u.enterPoison a).startTest (.pc h (pcOf a)) 0x09 a none)
      ∧ (u.stack h).retries = (s.stack h).retries ∧ u.mem = s.mem)
    ∧ (tries 2 < 1 → ∃ u : State, exec (.hbmUncorrectableError x t) s = .next u ∧ (u.stack h).uncorrectable = min 0xFF ((s.stack h).uncorrectable + 1)
      ∧ (triesKey a 2, 1) ∈ (u.stack h).tries ∧ (u.stack h).poison = (s.stack h).poison ∧ (∀ j, j ≠ h → u.stack j = s.stack j) ∧ u.mem = s.mem)
    ∧ (1 ≤ tries 2 → ∃ u : State, exec (.hbmUncorrectableError x t) s
        = .next (((u.enterPoison a).retireRow h (pcOf a) (rowOf a)).startTest (.pc h (pcOf a)) 0x09 a none)
      ∧ (u.stack h).uncorrectable = min 0xFF ((s.stack h).uncorrectable + 1) ∧ u.mem = s.mem)
    ∧ (let l := (s.stack h).history.filter (fun e => decide (t < e.2 + 3600000000000))
      ((l.filter fun e => e.1 == rowOf a * 64 + pcOf a).length < 3 → ∃ u : State, exec (.hbmCorrectedError a t) s = .next u
        ∧ (u.stack h).corrected = min 0xFFFF ((s.stack h).corrected + 1) ∧ (u.stack h).history = l ++ [(rowOf a * 64 + pcOf a, t)]
        ∧ (∀ j, j ≠ h → u.stack j = s.stack j) ∧ u.mc = s.mc)
      ∧ (3 ≤ (l.filter fun e => e.1 == rowOf a * 64 + pcOf a).length → ∃ u : State, exec (.hbmCorrectedError a t) s = .next (u.retireRow h (pcOf a) (rowOf a))
        ∧ (u.stack h).corrected = min 0xFFFF ((s.stack h).corrected + 1)))

/-- ROW_RETIREMENT_COMPLETE, TEMPERATURE_READOUT and REFRESH_RATE_FALL (07 R216, R219): a moved row is in the remap list and the repair map; a die warmer than
85 or 95 °C takes the higher rate at once, and a lower rate only 100 ms after it was last within 3 °C of the threshold. -/
def Sys2Proof.Claims.RowsAndRefresh : Prop :=
  (∀ (s : State) (h pc row : Nat), (pc, row) ∈ (s.stack h).moving → (s.atFloor = false ∨ s.bringupDone = false) →
    ∃ u v : State, exec (.rowRetirementComplete h pc row []) s = .next v
      ∧ v = u.retire [.row h pc row] 0x09 1 0xF (h * 64 + pc) row (((s.stack h).remap.filter fun e => e.1 == pc).length) 0 0
      ∧ (s.mc.repairMap.length < 16384 → v.mc.repairMap = s.mc.repairMap ++ [.row h pc row])
      ∧ (u.stack h).remap = (s.stack h).remap ++ [(pc, row)] ∧ (u.stack h).moving = (s.stack h).moving.erase (pc, row)
      ∧ u.mem = s.mem)
  ∧ (∀ (s : State) (l : List Nat) (cs : List (Nat × Nat)) (t : Nat), ∃ u : State, exec (.temperatureReadout l cs t) s = .next u
    ∧ (∀ h x, l[h]? = some x → (u.stack h).temp = x ∧ (u.stack h).mult = max (s.stack h).mult (if x ≤ 85 then 0 else if x ≤ 95 then 1 else 2))
    ∧ (∀ h, l[h]? = none → u.stack h = s.stack h)
    ∧ (∀ c x, cs[c]? = some x → (u.clu c).tempC1 = x.1 ∧ (u.clu c).tempC4 = x.2
      ∧ (s.pwr.sensorsBad = [] → (u.clu c).refreshC = max (s.clu c).refreshC (if max x.1 x.2 ≤ 85 then 0 else if max x.1 x.2 ≤ 95 then 1 else 2)))
    ∧ (∀ c, cs[c]? = none → u.clu c = s.clu c) ∧ u.mem = s.mem ∧ u.tg = s.tg)
  ∧ (∀ (s : State) (h temp t : Nat), ∃ u : State, exec (.refreshRateFall (.hbm h) temp t) s = .next u ∧ (u.stack h).temp = temp
    ∧ (∀ j, j ≠ h → u.stack j = s.stack j)
    ∧ (temp ≤ 82 → (s.stack h).above.1 + 100000000 ≤ t → (u.stack h).mult = 0)
    ∧ (82 < temp → temp ≤ 85 → (s.stack h).mult = 1 → (u.stack h).mult = 1)
    ∧ (temp ≤ 92 → 85 < temp → (s.stack h).above.2 + 100000000 ≤ t → 1 ≤ (s.stack h).mult → 0 < t → (u.stack h).mult = 1))
  ∧ ∀ (s : State) (c temp t : Nat), ∃ u : State, exec (.refreshRateFall (.cellar c) temp t) s = .next u
    ∧ (temp ≤ 82 → (s.clu c).refreshOver.1 + 100000000 ≤ t → (u.clu c).refreshC = 0) ∧ (∀ j, j ≠ c → u.clu j = s.clu j)

/-! ### Caravans and saddlebags (07 R238 to R247) -/

/-- OUTRIDER_FETCH_START (07 R238): with no fetch in flight, a step running and no floor, the outrider fetches the layer of the next visit that is in no slot,
if it lies within the distance in force and the window, into the free slot that was used longest ago; no byte of memory changes. -/
def Sys2Proof.Claims.OutriderFetch : Prop :=
  ∀ (s : State) (c x layer i : Nat), s.nextVisit c = some (x, layer) →
    ((s.cx c).car.fetch = none → (s.cx c).run.isSome = true → s.atFloor = false → s.tg.st ≠ 6 → x ≤ (s.cx c).car.inForce → x ≤ (s.cx c).car.latchedW →
      s.freeSlot c x = some i → ∃ t : State, exec (.outriderFetchStart c) s = .next t ∧ (t.cx c).car.fetch = some (i, layer, x)
        ∧ tget none (t.cx c).car.slots i = some ⟨layer, false, [], (s.cx c).car.running + x⟩
        ∧ (∀ j, j ≠ i → tget none (t.cx c).car.slots j = tget none (s.cx c).car.slots j) ∧ { t with ctx := s.ctx } = s)
    ∧ (min (s.cx c).car.inForce (s.cx c).car.latchedW < x → exec (.outriderFetchStart c) s = .next s)

/-- CARAVAN_FILL_COMPLETE and CARAVAN_FILL_ERROR (07 R238, R244): the fill ends with the layer whole in its slot; it waits for a line that has to be waited for.
A tile whose read has failed twice is poisoned; in usable tier 2 the row of its failed line is retired and its pseudo-channel tested. -/
def Sys2Proof.Claims.CaravanFills : Prop :=
  ∀ (s : State) (c i layer x : Nat), (s.cx c).car.fetch = some (i, layer, x) →
    ((∀ e, s.carEntry c layer = some e → s.tilesToFill c layer e = []) → exec (.caravanFillComplete c) s
      = .next (s.modCx c fun y => { y with car := { y.car with
          fetch := none, slots := tmod none y.car.slots i fun v => v.map fun q => { q with full := true } } }))
    ∧ (∀ e v, s.carEntry c layer = some e → tget none (s.cx c).car.slots i = some v → (∀ n ∈ s.tilesToFill c layer e, s.fillWaits c layer e n = false) →
      ∃ (t : State) (q : CarSlot), exec (.caravanFillComplete c) s = .next t ∧ (t.cx c).car.fetch = none ∧ tget none (t.cx c).car.slots i = some q
        ∧ q.full = true ∧ q.layer = v.layer ∧ q.last = v.last)
    ∧ (∀ e n, s.carEntry c layer = some e → n ∈ s.tilesToFill c layer e → s.fillWaits c layer e n = true → exec (.caravanFillComplete c) s = .next s)
    ∧ (∀ e tile t, s.carEntry c layer = some e → tile ∈ s.tilesToFill c layer e → ∃ (u : State) (a : Nat), (layer, tile) ∈ (u.cx c).car.poisoned
      ∧ e.src + tile * tileBytes e.fmt ≤ a ∧ a < e.src + (tile + 1) * tileBytes e.fmt
      ∧ exec (.caravanFillError c tile t) s = .next (if a < s.tier2Size then
          (((u.modStack (stackOf a) fun y => { y with uncorrectable := min 0xFF (y.uncorrectable + 2) }).enterPoison a).retireRow (stackOf a) (pcOf a)
            (rowOf a)).startTest (.pc (stackOf a) (pcOf a)) 0x09 a none else u))

/-- TILE_REGENERATED (07 R245 to R247), of a poisoned tile at address a: the local master comes first, then the source that the event names; the tile is written
in its place and is poisoned no more, with a record of the source. With none left the context freezes and stays so, with event 0x8007. -/
def Sys2Proof.Claims.TileRegeneration : Prop :=
  ∀ (s : State) (c layer tile src : Nat) (e : CaravanEntry), s.carEntry c layer = some e → (layer, tile) ∈ (s.cx c).car.poisoned →
    ∀ a, a = e.src + tile * tileBytes e.fmt →
    (s.workingOf c a = none → 4 ≤ src → ∃ u : State, exec (.tileRegenerated c layer tile src) s = .next (u.event 0x8007 c a)
      ∧ (u.cx c).frozen = true ∧ (u.cx c).stuck = true ∧ u.mem.tier2 = s.mem.tier2)
    ∧ (∀ k g, s.workingOf c a = some (k, g) →
      (∀ v w, s.tryRegen c k g a 0 = some (v, w) → exec (.tileRegenerated c layer tile src) s = .next (v.regenerated c layer tile 0 a e.fmt w))
      ∧ (∀ v w, s.tryRegen c k g a 0 = none → 1 ≤ src → src < 4 → s.tryRegen c k g a src = some (v, w) →
        exec (.tileRegenerated c layer tile src) s = .next (v.regenerated c layer tile src a e.fmt w))
      ∧ (s.tryRegen c k g a 0 = none → 4 ≤ src → ∃ u : State, exec (.tileRegenerated c layer tile src) s = .next (u.event 0x8007 c a)
        ∧ (u.cx c).frozen = true ∧ (u.cx c).stuck = true))
    ∧ ∀ (v : State) (w : List Byte), ∃ z : State, v.regenerated c layer tile src a e.fmt w = z.fault 0x10 4 c 0 src 0xFFFF a 0
        ∧ (z.cx c).car.poisoned = (v.cx c).car.poisoned.erase (layer, tile)

/-- STASH_SPILL_FETCH (07 R243): a spilled tile of the backward legs that are due comes back into the saddlebag area where that has room for it; where it has
none, nothing changes. -/
def Sys2Proof.Claims.SpillFetch : Prop :=
  ∀ (s : State) (c : Nat), s.inDeep = false →
    ((s.cx c).stash.filter (s.spillWanted c) = [] → exec (.stashSpillFetch c) s = .next s)
    ∧ ∀ x, (s.cx c).stash.filter (s.spillWanted c) = [x] →
      ((s.cx c).areaRoom x.bytes = none → exec (.stashSpillFetch c) s = .next s)
      ∧ (∀ p u, (s.cx c).areaRoom x.bytes = some p →
        u = s.modCx c (fun y => { y with stash := y.stash.map fun z => if z = x then { x with fetched := true, area := some p } else z }) →
        (∀ i < x.bytes / 256, u.writeWaits (u.stashPlace c x.slot x.mu (x.off + 256 * i)) = none) →
        ∃ t : State, exec (.stashSpillFetch c) s = .next t ∧ (t.cx c).stash = (u.cx c).stash)

/-! ### The tollgate (chapter 10) -/

/-- Commands of the always-on domain: without power they change nothing but the time and, for a die's readout, its last temperature. -/
def Sys2Proof.Machine.tollCommands (t : Nat) : List Instr :=
  [.shedNAssert t, .shedNRelease t, .chatterClear t, .leaseExpiry t, .beatInvalid t, .inputUndervoltage t, .inputRecovery t, .inletSensorFailure t,
    .retentionFloorReached t, .deepFloorExit ⟨[], t⟩, .retentionFloorExit t, .idlePointEntry t, .clusterRotation t, .watchdogExpiry t]

/-- The state in which an event of the always-on domain at time t acts: the time has moved on, and an exit from a floor that has ended by then is over. -/
def Sys2Proof.Machine.now (s : State) (t : Nat) : State := (s.tick t).settleFloor

/-- SHED_N_ASSERT, SHED_N_RELEASE, CHATTER_CLEAR, ENV_SET_SAMPLE, LEASE_EXPIRY, INPUT_UNDERVOLTAGE and INPUT_RECOVERY (10 R331, R336 to R341): each
changes its term of the envelope, and the allowance follows. A ninth change of SHED_N within a second raises the chatter event. The end of an exit from a floor
(R349) leaves the retention floor after the deep one, else the idle point. -/
def Sys2Proof.Claims.TollgateSignals : Prop :=
  (∀ (s : State) (t : Nat), s.powered = false → ∀ i ∈ tollCommands t, exec i s = .next (s.tick t))
  ∧ (∀ s : State, (s.tg.st ≠ 5 → s.settleFloor = s)
      ∧ ∀ t deep, s.tg.st = 5 → s.tg.leaving = some (t, deep) → (s.now < t → s.settleFloor = s)
        ∧ (t ≤ s.now → s.settleFloor = ({ s with tg := { s.tg with leaving := none } } : State).setTg (if deep then 2 else 1)))
  ∧ (∀ (s w : State) (t : Nat), s.powered = true → w = now s t → w.tg.shed = false → ∃ u : State,
      (exec (.shedNAssert t) s = .next (if 8 ≤ (lastSecond s.tg.changes t).length ∧ s.tg.chatter = false then
        (u.event 0x8003 0xF ((lastSecond s.tg.changes t).length + 1)).react else u.react))
      ∧ u.tg.shed = true ∧ u.tg.shedSince = t ∧ u.tg.sheds = min 0xFFFF (s.tg.sheds + 1) ∧ u.tg.changes = lastSecond s.tg.changes t ++ [t]
      ∧ u.tg.chatter = (s.tg.chatter || decide (8 ≤ (lastSecond s.tg.changes t).length)) ∧ u.tg.allowance = s.tg.allowance ∧ u.mem = s.mem)
  ∧ (∀ (s : State) (t : Nat), s.powered = true → s.tg.shed = true → (lastSecond s.tg.changes t).length < 8 → ∃ u : State,
      exec (.shedNRelease t) s = .next u.react ∧ u.tg.shed = false ∧ u.tg.shedMs = (t - s.tg.shedSince) / 1000000 ∧ u.tg.sheds = s.tg.sheds)
  ∧ (∀ (s w : State) (t : Nat), s.powered = true → w = now s t → ((lastSecond s.tg.changes t).length ≤ 8 →
      exec (.chatterClear t) s = .next { w with tg := { w.tg with chatter := false } })
      ∧ (8 < (lastSecond s.tg.changes t).length → exec (.chatterClear t) s = .next w))
  ∧ (∀ (s w : State) (mv t : Nat), s.powered = true → w = now s t →
      exec (.envSetSample mv t) s = .next ({ w with tg := { w.tg with samples := s.tg.samples.drop 1 ++ [min mv 4095] } } : State).react)
  ∧ (∀ (s : State) (t : Nat), s.powered = true → s.tg.cfg.lease ≠ 0 → s.tg.leaseArmed = true → s.tg.setAt + 1000000000 * s.tg.cfg.lease ≤ t → ∃ u : State,
      exec (.leaseExpiry t) s = .next ((u.event 0x8005 0xF s.tg.cfg.fallback).react) ∧ u.tg.digitalW = s.tg.cfg.fallback ∧ u.tg.deep = false
      ∧ u.tg.leaseExpired = true ∧ u.tg.leaseArmed = false)
  ∧ (∀ (s : State) (t : Nat), s.powered = true → (s.tg.cfg.lease = 0 ∨ s.tg.leaseArmed = false ∨ t < s.tg.setAt + 1000000000 * s.tg.cfg.lease) →
      exec (.leaseExpiry t) s = .next (now s t))
  ∧ ∀ (s w : State) (t : Nat), s.powered = true → w = now s t →
      exec (.inputUndervoltage t) s = .next ({ w with tg := { w.tg with inputTerm := true } } : State).react
      ∧ exec (.inputRecovery t) s = .next ({ w with tg := { w.tg with inputTerm := false } } : State).react

/-- The last eight of a list. -/
def Sys2Proof.Machine.lastEight (l : List Nat) : List Nat := l.drop (l.length - 8)

/-- BEAT_EDGE, BEAT_INVALID and SLOT_BOUNDARY (10 R333, R343 to R347). An edge in range with BEAT valid gives the period as the mean of the last eight
intervals; a pulse too short or too early is rejected and counted; 40 ms without an edge make BEAT invalid. A slot boundary, unless it would make the slot more
than 2 % too short, counts the slot, ends a relock once the phase is within 5 µs of the last accepted edge's, and at the start of the owned slot the allowance
rises by at most the ramp, never above the envelope. -/
def Obligations.BeatAndSlots : Prop :=
  (∀ (s w : State) (t e : Nat), s.powered = true → w = now s t → s.beat.valid = true → s.beat.lastEdge = some e → e + 15385000 ≤ t / 10 * 10 →
      t / 10 * 10 ≤ e + 22222000 →
    ∃ b : Beat, exec (.beatEdge t true) s = .next { w with beat := b } ∧ b.lastEdge = some (t / 10 * 10) ∧ b.valid = true
      ∧ b.intervals = lastEight (s.beat.intervals ++ [(t / 10 * 10 - e) / 10]) ∧ b.period = b.intervals.sum / b.intervals.length
      ∧ b.slots = s.beat.slots ∧ b.rejects = s.beat.rejects)
  ∧ (∀ (s w : State) (t e : Nat) (ok : Bool), s.powered = true → w = now s t → s.beat.valid = true → s.beat.lastEdge = some e →
      (ok = false ∨ t / 10 * 10 < e + 12000000) → t / 10 * 10 ≤ e + 40000000 → (lastSecond s.beat.rejTimes t).length < 8 →
    ∃ b : Beat, exec (.beatEdge t ok) s = .next { w with beat := b } ∧ b.rejects = min 0xFFFF (s.beat.rejects + 1) ∧ b.lastEdge = some e
      ∧ b.valid = true ∧ b.period = s.beat.period ∧ b.intervals = s.beat.intervals)
  ∧ (∀ (s : State) (t e : Nat), s.powered = true → s.beat.valid = true → s.beat.lastEdge = some e → (lastSecond s.beat.rejTimes t).length ≤ 8 →
      (e + 40000000 < t / 10 * 10 → ∃ u : State, exec (.beatInvalid t) s = .next (u.event 0x8004 0xF 1) ∧ u.beat.valid = false ∧ u.beat.relock = false
        ∧ u.beat.invalids = min 0xFF (s.beat.invalids + 1) ∧ u.beat.period = s.beat.period)
      ∧ (t / 10 * 10 ≤ e + 40000000 → exec (.beatInvalid t) s = .next (now s t)))
  ∧ (∀ (s w : State) (t slot : Nat), s.powered = true → w = now s t →
      (6400 * (t - s.beat.slotAt) < 980 * s.beat.period ∨ slot ≠ (s.beat.slot + 1) % 64 → exec (.slotBoundary t slot) s = .next w)
      ∧ (980 * s.beat.period ≤ 6400 * (t - s.beat.slotAt) → slot = (s.beat.slot + 1) % 64 → ∃ b : Beat, b.slots = (s.beat.slots + 1) % 2 ^ 64 ∧ b.slot = slot
        ∧ b.slotAt = t ∧ b.relock = (s.beat.relock && decide (64 * 5000 ≤ s.beat.phaseError t slot)) ∧ b.period = s.beat.period
        ∧ exec (.slotBoundary t slot) s = .next (if slot = s.ownedSlot ∧ s.bringupDone = true
            then ({ w with beat := b } : State).rise.applyUp else { w with beat := b })))
  ∧ ∀ s : State, (∀ e, s.envelope.2 = .power e → s.tg.st ≠ 3 → s.tg.st ≠ 6 → s.tg.entering ≠ some .deep → s.tg.allowance ≤ e →
      s.tg.allowance ≤ s.rise.tg.allowance ∧ s.rise.tg.allowance ≤ e
        ∧ s.rise.tg.allowance ≤ s.tg.allowance + (s.tg.cfg.ramp : Rat) * s.beat.period / 100000000)
    ∧ (∀ f, s.envelope.2 = .floor f → s.rise = s) ∧ { s.rise with tg := s.tg } = s

/-- GOVERNOR_TICK, HEAT_MODEL_UPDATE, INLET_SENSOR_FAILURE, SENSOR_FAULT, DIE_THROTTLE, THROTTLE_RELEASE and THERMAL_TRIP (10 R356 to R360; 12 Table
12-2). The governor acts above 102 % of the allowance until the average is back at it, on running clusters only. -/
def Obligations.GovernorAndHeat : Prop :=
  (∀ (s w : State) (avg t : Nat), s.powered = true → w = now s t → (w.tg.st = 0 ∨ w.tg.st = 1) →
    (s.tg.allowance * 102 / 100 < avg →
      exec (.governorTick avg t) s = .next ({ w with tg := { w.tg with inputW := avg, governing := true } } : State).govern)
    ∧ ((avg : Rat) ≤ s.tg.allowance → 0 ≤ s.tg.allowance →
      exec (.governorTick avg t) s = .next { w with tg := { w.tg with inputW := avg, governing := false } }))
  ∧ (∀ s : State, (∃ k < 48, (s.clu k).held = false ∧ 24 < (s.clu k).clock) → ∀ k < 48, s.govern.clu k
      = if (s.clu k).held = false then { s.clu k with target := max 24 (min (s.clu k).clock (s.clu k).target - 1) } else s.clu k)
  ∧ (∀ s : State, (∀ k < 48, (s.clu k).held = false → (s.clu k).clock ≤ 24) →
      ∀ k < 48, (s.clu k).held = false → (∀ j, k < j → j < 48 → (s.clu j).held = true) → s.govern = s.holdCluster k)
  ∧ (∀ (s w : State) (inlet plate power t : Nat), s.powered = true → w = now s t → ∃ h : Heat,
      exec (.heatModelUpdate inlet plate power t) s = .next ({ w with heat := h } : State).react
      ∧ h.inlet = inlet ∧ h.plate = plate ∧ h.flow = s.heat.flow ∧ h.limit = s.heat.limit ∧ h.cap = some h.cap_
      ∧ h.model = max ((if s.heat.started = true then s.heat.model else (plate : Rat)) + ((if s.heat.fault = true then 45 else (inlet : Rat))
          + power * thetaOf s.heat.flow - (if s.heat.started = true then s.heat.model else (plate : Rat))) * 125 / 100000) plate)
  ∧ (∀ (s : State) (x : Sensor) (t : Nat), s.powered = true →
      (x ∈ s.pwr.sensorsBad → exec (.sensorFault x t) s = .next (now s t))
      ∧ (x ∉ s.pwr.sensorsBad → ∃ u : State, exec (.sensorFault x t) s = .next (u.retire [.sensor x] 0x0C 2 0xF (sensorUnit x) 0 0xFFFF 0 8)
        ∧ u.pwr.sensorsBad = s.pwr.sensorsBad ++ [x] ∧ u.heat.fault = (s.heat.fault || decide (x = .inlet)))
      ∧ (x = .inlet → exec (.inletSensorFailure t) s = exec (.sensorFault x t) s))
  ∧ (∀ (s : State) (d : Die) (temp t : Nat), s.powered = true → (100 < temp ∨ (97 ≤ temp ∧ ∃ e ∈ s.pwr.throttles, e.1 = d)) →
      ∃ u : State, exec (.dieThrottle d temp t) s = .next u
      ∧ (d, t) ∈ u.pwr.throttles ∧ (∀ k, k ∈ Die.clusters d → (u.clu k).throttled = true ∧ (u.clu k).clock = (s.clu k).clock
        ∧ (u.clu k).target = max 24 (min (s.clu k).clock (s.clu k).target - 1))
      ∧ (∀ k, k ∉ Die.clusters d → u.clu k = s.clu k) ∧ (∀ h, d = .hbm h → (u.stack h).halfRate = true) ∧ u.mem = s.mem)
  ∧ (∀ (s : State) (d : Die) (temp t : Nat), s.powered = true →
      (s.inWindow t = false ∨ 97 < temp ∨ ∀ e ∈ s.pwr.throttles, e.1 = d → t < e.2 + 100000000) →
      exec (.throttleRelease d temp t) s = .next ((s.tick t).noteTemp d temp).settleFloor)
  ∧ (∀ (s : State) (d : Die) (temp t since : Nat), s.powered = true → s.inWindow t = true → temp ≤ 97 → (d, since) ∈ s.pwr.throttles →
      since + 100000000 ≤ t → ∃ u : State, exec (.throttleRelease d temp t) s = .next u.applyUp ∧ (∀ e ∈ u.pwr.throttles, e.1 ≠ d)
      ∧ (∀ k, (∀ e ∈ u.pwr.throttles, k ∉ Die.clusters e.1) → k ∈ Die.clusters d → (u.clu k).throttled = false))
  ∧ (∀ (s : State) (d : Die) (temp t : Nat), s.powered = true →
      (temp ≤ tripLimit d → exec (.thermalTrip d temp t) s = .next ((s.tick t).noteTemp d temp).settleFloor)
      ∧ (tripLimit d < temp → s.pwr.trip = false → ∃ u : State, exec (.thermalTrip d temp t) s = .next u ∧ u.tg.st = 6 ∧ u.pwr.trip = true
        ∧ u.pwr.stages = [.off, .off, .off, .off, .off, .off, .off, .up] ∧ u.mem.tier2 = [] ∧ u.mem.bar2 = s.mem.bar2 ∧ u.legs = []
        ∧ u.mc.faultLog = s.mc.faultLog ∧ u.mc.faultSeq = s.mc.faultSeq))

/-- RETENTION_FLOOR_REACHED, DEEP_FLOOR_ENTRY, DEEP_FLOOR_EXIT, RETENTION_FLOOR_EXIT and IDLE_POINT_ENTRY (10 R348 to R354): the state changes only from
the state named, exits only in a step window; from the deep floor the module is leaving it for 5 ms, with its channels trained and its ports in training, from
the retention floor for 3 ms, with what was parked going on. -/
def Sys2Proof.Claims.FloorTransitions : Prop :=
  (∀ (s : State) (t : Nat), s.powered = true → s.tg.st = 4 → ∃ u : State, exec (.retentionFloorReached t) s = .next u ∧ u.tg.st = 2
      ∧ (u.tg.entering = some .deep ↔ s.tg.entering = some .deep) ∧ u.tg.allowance = s.tg.allowance ∧ u.mem = s.mem ∧ u.cl = s.cl)
  ∧ (∀ (s : State) (t : Nat), s.powered = true → s.tg.st = 2 → s.bringupDone = true → s.wantsDeep = true →
      exec (.deepFloorEntry false t) s = .next (({ s.tick t with tg := { s.tg with entering := none } } : State).faultTraining 4 0xF 0)
      ∧ ∃ u : State, exec (.deepFloorEntry true t) s = .next u ∧ u.tg.st = 3 ∧ u.tg.allowance = 150 ∧ u.host.linkUp = false ∧ u.cel.trained = false
        ∧ (∀ k < 48, (u.clu k).retention = true) ∧ u.fab.selfDeparted = true ∧ u.tg.entering = none)
  ∧ (∀ (s : State) (ok : Bool) (t : Nat), s.powered = true →
      ((now s t).tg.st ≠ 2 ∨ s.bringupDone = false ∨ (s.wantsDeep = false ∧ s.tg.entering ≠ some .deep)) →
      exec (.deepFloorEntry ok t) s = .next (now s t))
  ∧ (∀ (s : State) (x : Training), s.powered = true → (s.tg.st ≠ 3 ∨ s.wantsDeep = true ∨ s.inWindow x.t = false) →
      exec (.deepFloorExit x) s = .next (now s x.t))
  ∧ (∀ (s : State) (x : Training), s.powered = true → s.tg.st = 3 → s.wantsDeep = false → s.inWindow x.t = true → ∃ u : State,
      exec (.deepFloorExit x) s = .next u ∧ u.tg.st = 5 ∧ u.tg.leaving = some (x.t + 5000000, true) ∧ u.tg.allowance = 380 ∧ u.fab.selfDeparted = false
      ∧ u.cel.trained = true ∧ (∀ k < 48, (u.clu k).retention = false) ∧ ∀ p < 12, (u.port p).training = true)
  ∧ (∀ (s : State) (t : Nat) (w : Rat), s.powered = true → s.tg.st = 2 → s.bringupDone = true → s.tg.entering ≠ some .deep → s.inWindow t = true →
      s.envelope.2 = .power w → (s.fits (Config.basePower 24 0 true 4) = true → ∃ u : State,
        exec (.retentionFloorExit t) s = .next ((List.range 4).foldl State.unpark u) ∧ u.tg.st = 5 ∧ u.tg.leaving = some (t + 3000000, false)
        ∧ u.tg.admitStop = false ∧ u.tg.dmaPaused = false ∧ u.tg.shedWork = [] ∧ ∀ h < 16, (u.stack h).selfRefresh = false)
      ∧ (s.fits (Config.basePower 24 0 true 4) = false → exec (.retentionFloorExit t) s = .next (s.tick t)))
  ∧ ∀ (s : State) (t : Nat), s.powered = true →
      (((now s t).tg.st ≠ 0 ∨ s.legs ≠ [] ∨ t < s.tg.lastLeg + 10000000) → exec (.idlePointEntry t) s = .next (now s t))
      ∧ (s.tg.st = 0 → s.legs = [] → s.tg.lastLeg + 10000000 ≤ t → ∃ u : State, exec (.idlePointEntry t) s = .next u ∧ u.tg.st = 1
        ∧ ∀ k < 48, (u.clu k).held = true)

/-- CLUSTER_ROTATION, TURN_GIVEN_UP and CLOCK_STEP (10 R355, 01 R23): after a rotation as many clusters with work run as the running clusters allow, and no
more clusters run than before; a turn given up passes to the next waiting cluster; a clock moves one step toward its target, and not while a retrim runs in its
cluster. -/
def Sys2Proof.Claims.TurnsAndClocks : Prop :=
  (∀ (s : State) (t : Nat), s.powered = true → s.tg.st = 0 → ∃ u : State, exec (.clusterRotation t) s = .next u ∧ u.tg.yielded = []
      ∧ (u.workClusters.filter fun k => !(u.clu k).held).length = min s.running.length s.workClusters.length
      ∧ u.running.length ≤ s.running.length ∧ ∀ k, { u.clu k with held := (s.clu k).held } = s.clu k)
  ∧ (∀ (s : State) (cl t : Nat), s.powered = true → ((s.clu cl).held = true ∨ s.haltedLong cl t = false) → exec (.turnGivenUp cl t) s = .next (now s t))
  ∧ (∀ (s : State) (cl t k : Nat), s.powered = true → s.tg.st = 0 → (s.clu cl).held = false → s.haltedLong cl t = true →
      (s.workAfter cl).find? (fun k => (s.clu k).held && !(s.tg.yielded.contains k)) = some k → ∃ u : State, exec (.turnGivenUp cl t) s = .next u
      ∧ (u.clu cl).held = true ∧ (u.clu k).held = false ∧ u.tg.yielded = s.tg.yielded ++ [cl] ∧ ∀ j, j ≠ cl → j ≠ k → u.clu j = s.clu j)
  ∧ ∀ (s : State) (cl t : Nat), s.powered = true →
      (s.retrimming cl = true → exec (.clockStep cl t) s = .next (now s t))
      ∧ (s.retrimming cl = false → ∃ u : State, exec (.clockStep cl t) s = .next (u.startDue cl) ∧ (∀ j, j ≠ cl → u.clu j = s.clu j)
        ∧ (u.clu cl).target = (s.clu cl).target ∧ u.cel = s.cel
        ∧ ((s.clu cl).clock = (s.clu cl).target → (u.clu cl).clock = (s.clu cl).clock)
        ∧ ((s.clu cl).clock < (s.clu cl).target → (u.clu cl).clock = (s.clu cl).clock + 1)
        ∧ ((s.clu cl).target < (s.clu cl).clock → (u.clu cl).clock + 1 = (s.clu cl).clock))

/-! ### Ports and routing (09 R299 to R315) -/

/-- FLIT_RECEIVE (09 R303, R307): a flit whose CRC fails is counted and refused with a NAK; one in sequence moves the expected number on by 1 modulo 2,048,
gives its credits, to one of the two hop classes of its channel (which one the link word does not say: a free value, log 2), and enters its receive buffer, where
a packet of one flit is then whole; a gap asks for a NAK; one out of sequence while a NAK stands, an old one or one with the reserved bit set changes nothing. -/
def Sys2Proof.Claims.FlitReceive : Prop :=
  ∀ (s : State) (n : Nat) (f : BitVec 2048) (t : Nat), n < 12 → (s.port n).width ≠ 0 →
    (crc32 (slice (lineBytes f) 0 252) ≠ BitVec.ofNat 32 (natAt (lineBytes f) 252 4) → ∃ u : State, exec (.flitReceive n f t) s = .next u
      ∧ (u.port n).rxSeq = (s.port n).rxSeq ∧ (u.port n).nakSent = true ∧ (u.port n).fecBad = min 0xFFFF ((s.port n).fecBad + 1)
      ∧ ((s.port n).sends = true → ∃ o, u.out = s.out ++ .control n o :: [] ∧ o.nak = some (s.port n).rxSeq)
      ∧ ((s.port n).sends = false → u.out = s.out) ∧ ∀ k, k ≠ n → u.port k = s.port k)
    ∧ (crc32 (slice (lineBytes f) 0 252) = BitVec.ofNat 32 (natAt (lineBytes f) 252 4) →
      (f.getLsbD 15 = true → exec (.flitReceive n f t) s = .next (s.tick t))
      ∧ (f.getLsbD 15 = false → fld f 0 11 = (s.port n).rxSeq →
        ∃ (i : Nat) (u : State), (i = fld f 28 2 * 2 ∨ i = fld f 28 2 * 2 + 1) ∧ exec (.flitReceive n f t) s = .next ((u.storeFlit n f).pumpAll n)
          ∧ (u.port n).rxSeq = ((s.port n).rxSeq + 1) % 2048 ∧ (u.port n).nakSent = false ∧ (u.port n).rxAny = true
          ∧ (u.port n).credits = (s.port n).credits.set i ((s.port n).credits.getD i 0 + 8 * fld f 30 2) ∧ (u.port n).waiting = (s.port n).waiting
          ∧ (f.getLsbD 27 = false → (u.port n).replay = (s.port n).replay) ∧ ∀ k, k ≠ n → u.port k = s.port k)
      ∧ (f.getLsbD 15 = false → fld f 0 11 ≠ (s.port n).rxSeq → ((s.port n).nakSent = true ∨ 1024 ≤ (fld f 0 11 + 2048 - (s.port n).rxSeq) % 2048) →
        exec (.flitReceive n f t) s = .next (s.tick t))
      ∧ (f.getLsbD 15 = false → fld f 0 11 ≠ (s.port n).rxSeq → (s.port n).nakSent = false → (fld f 0 11 + 2048 - (s.port n).rxSeq) % 2048 < 1024 →
        ∃ u : State, exec (.flitReceive n f t) s = .next u ∧ (u.port n).rxSeq = (s.port n).rxSeq ∧ (u.port n).nakSent = true
          ∧ ∀ k, k ≠ n → u.port k = s.port k))
    ∧ ∀ p, p = packetOf (fld f 11 2) (slice (lineBytes f) 4 248) → f.getLsbD 13 = true → f.getLsbD 14 = true → (fld f 11 2 ≠ 2 ∨ p.dst ≠ s.fab.moduleId) →
      ((s.storeFlit n f).port n).got = (s.port n).got ++ [p] ∧ (s.storeFlit n f).out = s.out

/-- The credit counts of a next hop less the flits of x that it has not acknowledged (09 R302, R305). -/
def Sys2Proof.Machine.creditsLeft (x : Port) (counts : List Nat) : List Nat := (List.range 8).map fun i => counts.getD i 0 - (x.replay.filter fun e => e.2.2 == i).length

/-- CONTROL_FLIT_RECEIVE, CONTROL_FLIT_SEND and REPLAY_TIMEOUT (09 R302, R305, R307): an acknowledgement clears the replay buffer up to its flit, the
credit counts are taken over less the flits still unacknowledged, a control flit gives the room in the own buffers, and a timeout sends every unacknowledged
flit again in order. -/
def Sys2Proof.Claims.ControlFlits : Prop :=
  (∀ (s : State) (n : Nat) (c : CtlFlit) (t : Nat), n < 12 → (s.port n).width ≠ 0 → c.nak = none → ∃ u : State,
      exec (.controlFlitReceive n c t) s = .next (u.pumpAll n) ∧ (u.port n).credits = creditsLeft (u.port n) c.credits
      ∧ (u.port n).rxSeq = (s.port n).rxSeq ∧ (u.port n).txSeq = (s.port n).txSeq
      ∧ (c.ack = none → (u.port n).replay = (s.port n).replay)
      ∧ (∀ a i, c.ack = some a → (∀ j < i, ∀ e, (s.port n).replay[j]? = some e → e.1 ≠ a) → (∃ f, (s.port n).replay[i]? = some (a, f)) →
          (u.port n).replay = (s.port n).replay.drop (i + 1))
      ∧ (∀ k, k ≠ n → u.port k = s.port k) ∧ u.out = s.out)
  ∧ (∀ (s : State) (n : Nat), n < 12 → (s.port n).sends = true → ∃ u : State, exec (.controlFlitSend n) s = .next u
        ∧ u.out = s.out ++ [.control n ⟨if (s.port n).rxAny = true then some (((s.port n).rxSeq + 2047) % 2048) else none,
            if (s.port n).nakSent = true then some (s.port n).rxSeq else none, (s.port n).room⟩]
        ∧ { u.port n with owed := (s.port n).owed } = s.port n ∧ ∀ k, k ≠ n → u.port k = s.port k)
  ∧ (∀ (s : State) (n : Nat), (12 ≤ n ∨ (s.port n).sends = false) → exec (.controlFlitSend n) s = .next s)
  ∧ (∀ (s : State) (n t : Nat), ((s.port n).replay = [] ∨ (s.port n).sends = false) → exec (.replayTimeout n t) s = .next (s.tick t))
  ∧ ∀ (s : State) (n t : Nat), (s.port n).replay ≠ [] → (s.port n).sends = true →
      ∃ u : State, exec (.replayTimeout n t) s = .next u ∧ u.out = s.out ++ (s.port n).replay.map (fun e => .flit n e.2.1)
        ∧ (u.port n).replays = min 0xFFFF ((s.port n).replays + 1) ∧ (u.port n).replay = (s.port n).replay

/-- LANE_DOWN, WIDTH_CHANGE_COMPLETE and PORT_TRAINING_COMPLETE (09 R299, R309, R310; 10 R347): a trained port runs over the lanes that are healthy on
both sides, retired ones not among them, and stays down without any; eight lanes give width 4, lanes 0 to 3 alone width 3. A port that was up widens in a step
window only. -/
def Sys2Proof.Claims.PortWidths : Prop :=
  (∀ (s : State) (n lane t : Nat), n < 12 → lane < 8 → (s.port n).own.getLsbD lane = true → ∃ u : State,
      u = (s.tick t).startTest (.lane n lane) 0x0A 0 none
      ∧ exec (.laneDown n lane t) s = .next (if (s.port n).width ≠ 0 ∧ (u.port n).width = 0 then u.portDown n else u)
      ∧ (∀ i < 8, (u.port n).own.getLsbD i = ((s.port n).own.getLsbD i && decide (i ≠ lane)))
      ∧ ((s.port n).width ≠ 0 → (u.port n).width = min (s.port n).width (s.widthNow (u.port n).lanes)) ∧ (∀ k, k ≠ n → u.port k = s.port k))
  ∧ (∀ (s : State) (n lane t : Nat), (12 ≤ n ∨ 8 ≤ lane ∨ (s.port n).own.getLsbD lane = false) → exec (.laneDown n lane t) s = .next (s.tick t))
  ∧ (∀ (s : State) (n : Nat) (l : List Nat), ((s.port n).paused = false → exec (.widthChangeComplete n l) s = .next s)
      ∧ ((s.port n).paused = true → ∃ u : State, exec (.widthChangeComplete n l) s = .next (u.pumpAll n) ∧ (u.port n).paused = false
        ∧ (u.port n).credits = creditsLeft (s.port n) l ∧ (u.port n).replay = (s.port n).replay
        ∧ ((s.port n).nakSent = false → (s.port n).width ≠ 0 → (s.port n).training = false →
          u.out = s.out ++ (s.port n).replay.map (fun e => .flit n e.2.1))))
  ∧ (∀ (s : State) (n : Nat) (own peer : BitVec 8) (id : Nat) (l : List Nat), n < 12 → s.tg.st ≠ 3 → s.fab.selfDeparted = false →
      ((s.port n).training = true ∨ (s.port n).width = 0) → (own &&& ~~~(s.port n).retired) &&& peer = 0 → ∃ u : State,
        exec (.portTrainingComplete n own peer id l) s = .next (u.endRetrain n) ∧ (u.port n).width = 0 ∧ (u.port n).peerId = id % 8192
        ∧ (u.port n).training = false ∧ (u.port n).peerAlive = true ∧ (u.port n).downSince = some s.now)
  ∧ (∀ (s : State) (n : Nat) (own peer : BitVec 8) (id : Nat) (l : List Nat), n < 12 → s.tg.st ≠ 3 → s.fab.selfDeparted = false →
      ((s.port n).training = true ∨ (s.port n).width = 0) → (own &&& ~~~(s.port n).retired) &&& peer ≠ 0 → ∃ u : State,
        exec (.portTrainingComplete n own peer id l) s = .next (((u.resendFlits n).pumpAll n).routeHeld.endRetrain n)
        ∧ (u.port n).own = own &&& ~~~(s.port n).retired ∧ (u.port n).peer = peer
        ∧ (u.port n).width = (if (s.port n).width ≠ 0 ∧ s.mayWiden = false then min (s.port n).width (s.widthNow ((u.port n).own &&& peer))
            else s.widthNow ((u.port n).own &&& peer))
        ∧ (u.port n).width ≠ 0 ∧ u.fab.isolated = false ∧ (id % 8192) ∉ u.fab.departed ∧ (id % 8192) ∉ u.fab.lost ∧ (∀ k, k ≠ n → u.port k = s.port k))
  ∧ (∀ (s : State) (n : Nat) (own peer : BitVec 8) (id : Nat) (l : List Nat),
      (12 ≤ n ∨ s.tg.st = 3 ∨ s.fab.selfDeparted = true ∨ ((s.port n).training = false ∧ (s.port n).width ≠ 0)) →
      exec (.portTrainingComplete n own peer id l) s = .next s)
  ∧ widthOf 0xFF = 4 ∧ (∀ h, widthOf h ≤ 4 ∧ (widthOf h = 0 ↔ h = 0)) ∧ ∀ h : BitVec 8, h ≠ 0xFF → h &&& 0x0F = 0x0F → widthOf h = 3

/-- PACKET_ROUTE, HELD_PACKET_TIMEOUT (09 R305, R312 to R314, R325). A packet leaves the receive buffer that it stands in. One for this module goes to the ring;
one for a module that is lost, departed or in no table, or that has made 64 hops, is discarded and counted; default routing corrects the lowest differing
dimension, the shorter way round. -/
def Sys2Proof.Claims.Routing : Prop :=
  (∀ (s : State) (p : Packet), (∀ n < 12, p ∉ (s.port n).got) → s.takeBuffered p = s)
  ∧ (∀ (s u : State) (p : Packet) (t : Nat), u = (s.tick t).takeBuffered p → p.dst = s.fab.moduleId → exec (.packetRoute p t) s = .next (u.emit (.toRing p)))
  ∧ (∀ (s u : State) (p : Packet) (t : Nat), u = (s.tick t).takeBuffered p → p.dst ≠ s.fab.moduleId →
      (p.dst ∈ s.fab.lost ∨ p.dst ∈ s.fab.departed ∨ s.fab.candidates p.dst = none ∨ p.hops = 64) → ∃ v : State, exec (.packetRoute p t) s = .next v
        ∧ v.fab = { u.fab with unreachable := min 0xFFFF (s.fab.unreachable + 1) }
        ∧ (p.type ≠ 2 → v.out = s.out) ∧ (p.type = 2 → v.out = s.out ++ [.send p.ctx p.src (.unreachable p.tag)]))
  ∧ (∀ (s u : State) (p : Packet) (t : Nat) (c : List Nat) (b : Bool), u = (s.tick t).takeBuffered p → p.dst ≠ s.fab.moduleId → p.dst ∉ s.fab.lost →
      p.dst ∉ s.fab.departed → s.fab.candidates p.dst = some (c, b) → p.hops ≠ 64 →
      (s.outPort p c b = none → exec (.packetRoute p t) s = .next { u with fab := { u.fab with holding := s.fab.holding ++ [(p, max s.now t)] } })
      ∧ ∀ n, s.outPort p c b = some n → exec (.packetRoute p t) s = .next ((u.modPort n fun x => { x with waiting := x.waiting ++ [(p, 0)] }).pumpAll n))
  ∧ (∀ (s : State) (p : Packet) (c : List Nat) (b : Bool) (n : Nat), s.outPort p c b = some n → n ∈ c ∧ n < 12 ∧ (s.port n).width ≠ 0
      ∧ ((s.port n).suspect = true → ∀ k ∈ c, k < 12 → (s.port k).width ≠ 0 → (s.port k).suspect = true))
  ∧ (∀ (f : Fabric) (dst i : Nat) (up : Bool), f.defaultHop dst = some (i, up) → i < 3 ∧ dst < f.dx * f.dy * f.dz
      ∧ (f.coords f.moduleId).getD i 0 ≠ (f.coords dst).getD i 0 ∧ ∀ j < i, (f.coords f.moduleId).getD j 0 = (f.coords dst).getD j 0)
  ∧ ∀ (s : State) (p : Packet) (t : Nat),
      ((∀ e ∈ s.fab.holding, e.1 = p → t < e.2 + 100000) → exec (.heldPacketTimeout p t) s = .next (s.tick t))
      ∧ (∀ e, s.fab.holding.find? (fun e => e.1 == p && decide (e.2 + 100000 ≤ t)) = some e → ∃ u : State, exec (.heldPacketTimeout p t) s = .next u
        ∧ u.fab = { s.fab with holding := s.fab.holding.erase e, unreachable := min 0xFFFF (s.fab.unreachable + 1) })

/-- PACKET_ARRIVAL and REDUCE_SCATTER_CONTRIBUTION_ARRIVAL (09 R303, R317, R318; 01 R28): packets for other modules change nothing; responses and control
packets go to the ring; a write whose lines all land is acknowledged, and a read request whose lines can be had and wait for no pause is answered; a contribution of an earlier step is
acknowledged as stale, and one that comes before its step runs is refused; a stop without power refuses it. -/
def Obligations.PacketArrivals : Prop :=
  (∀ (s : State) (p : Packet), (p.dst ≠ s.fab.moduleId → exec (.packetArrival p) s = .next s)
    ∧ (p.dst = s.fab.moduleId → (p.type = 3 ∨ p.type = 4) → exec (.packetArrival p) s = .next ((s.takeBuffered p).emit (.toRing p)))
    ∧ (p.dst = s.fab.moduleId → p.type = 0 →
      (∀ u, s.landLines p.ctx p.addr p.data = some u → exec (.packetArrival p) s = .next ((u.takeBuffered p).tell p.ctx p.src (.ack p.tag false false)))
      ∧ (s.landLines p.ctx p.addr p.data = none → exec (.packetArrival p) s = .next s))
    ∧ (p.dst = s.fab.moduleId → p.type = 2 → (∀ i ≤ fld p.hdr 32 4, s.placePaused (s.resolve p.ctx none (p.addr + 256 * i)) = false) → ∀ u bs, s.readLines p.ctx none none (fld p.hdr 32 4 + 1) p.addr [] = (u, none, bs) → ∃ q : Packet,
      exec (.packetArrival p) s = .next ((u.takeBuffered p).route q) ∧ q.data = (chunks 256 16 bs).map lineOf ∧ q.vc = p.vc ∧ q.type = 3 ∧ q.dst = p.src
        ∧ q.tag = p.tag)
    ∧ (p.dst = s.fab.moduleId → p.type = 0 → ∀ l, p.data = [l] → p.addr < s.tier2Size → s.placePaused (.flat .tier2 p.addr) = false → s.mapEntry p.ctx p.addr = none →
        ∃ u : State, s.landLines p.ctx p.addr p.data = some u
        ∧ (∀ i < 256, u.readByte .tier2 (p.addr + i) = BitVec.ofNat 8 (l.toNat / 256 ^ i))
        ∧ ∀ sp x, (sp ≠ .tier2 ∨ x < p.addr ∨ p.addr + 256 ≤ x) → u.readByte sp x = s.readByte sp x))
  ∧ ∀ (s u : State) (p : Packet) (c : Contribution) (l : List Contribution), p.type = 1 → p.dst = s.fab.moduleId → s.spelled p = some l →
      (∃ x ∈ l, x = { c with leg := x.leg, hint := x.hint, src := x.src, no := x.no }) → u = s.takeBuffered p →
      let ahead := (p.step8 + 256 - (s.cx p.ctx).step % 256) % 256
      (∀ stop, s.refusingStop c.line = some stop → exec (.reduceScatterContributionArrival p c) s = .next (s.emit (.ringRefusal stop)))
      ∧ (s.refusingStop c.line = none → s.linePaused c.line = true → exec (.reduceScatterContributionArrival p c) s = .next s)
      ∧ (s.refusingStop c.line = none → s.linePaused c.line = false →
        (128 ≤ ahead → exec (.reduceScatterContributionArrival p c) s = .next (u.tell p.ctx p.src (.ack p.tag false true)))
        ∧ (ahead < 128 → ((s.cx p.ctx).run = none ∨ 0 < ahead) →
          exec (.reduceScatterContributionArrival p c) s = .next (u.tell p.ctx p.src (.ack p.tag true false)))
        ∧ (∀ r, ahead = 0 → (s.cx p.ctx).run = some r →
          (p.gen < (s.cx p.ctx).restartNow ∨ ((s.cx p.ctx).maskNow = true ∧ ∃ x ∈ l, x.key.r ∉ (s.cx p.ctx).mask.members)) →
          exec (.reduceScatterContributionArrival p c) s = .next (u.tell p.ctx p.src (.ack p.tag false true)))
        ∧ (∀ r, ahead = 0 → (s.cx p.ctx).run = some r → (s.cx p.ctx).restartNow ≤ p.gen →
          ((s.cx p.ctx).maskNow = true → ∀ x ∈ l, x.key.r ∈ (s.cx p.ctx).mask.members) →
          exec (.reduceScatterContributionArrival p c) s = .next (u.takePacket p l r)))

/-! ### Steps and legs (08 R254 to R293, 10 R361) -/

/-- ADMISSION_PASS (10 R361, 00 R9): nothing is admitted before step 14, at a floor or on the way out of one, in a trip, with admission stopped, a failed
stack or core 0 down; else every context has its turn, from the one after the last admitted on. A leg fits while the draws in flight and its own stay within the
allowance and 3,600 W, in FP32; a leg that starts gives each of its clusters its descriptors, with event counters cleared, and counts its draws (03 R84, R85). -/
def Sys2Proof.Claims.LegAdmission : Prop :=
  (∀ (s : State) (t : Nat), ((now s t).bringupDone = false ∨ (now s t).mc.coreAlive.getD 0 false = false ∨ (now s t).stackFailed = true
      ∨ (now s t).tg.admitStop = true ∨ (now s t).atFloor = true ∨ (now s t).tg.st = 5 ∨ (now s t).tg.st = 6) → exec (.admissionPass t) s = .next (now s t))
  ∧ (∀ (s : State) (t : Nat), (now s t).bringupDone = true → (now s t).mc.coreAlive.getD 0 false = true → (now s t).stackFailed = false →
      (now s t).tg.admitStop = false → (now s t).atFloor = false → (now s t).tg.st ≠ 5 → (now s t).tg.st ≠ 6 → (now s t).tg.lastCtx < 4 →
      ∃ l : List Nat, l.Perm [0, 1, 2, 3] ∧ l.getLast? = some (now s t).tg.lastCtx
        ∧ exec (.admissionPass t) s = .next (l.foldl State.admitContext (now s t)))
  ∧ (∀ (s : State) (p q : Rat), s.legFits p q = true ↔
      r32 (r32 (r32 ((Config.basePower s.opPoint.1 s.opPoint.2 true 4 : Rat) / 1000) + s.tg.committed) + p) ≤ s.tg.allowance ∧ r32 (s.tg.peak + q) ≤ 3600)
  ∧ ∀ (s : State) (c : Nat) (inst : LegInst) (w : Waybill) (g : LegProg) (p q : Rat), (g.lists.map Prod.fst).Nodup →
      let u := s.startLeg c inst (some w) g p q
      (∀ e ∈ g.lists, (u.clu e.1).queue = e.2 ∧ (u.clu e.1).events = [] ∧ (u.clu e.1).leg = some (c, s.nextLeg) ∧ (u.clu e.1).rejected = false
        ∧ (u.clu e.1).suspended = (s.clu e.1).leg.map (fun y => (y, (s.clu e.1).queue, (s.clu e.1).events))
        ∧ (u.clu e.1).runs = (s.clu e.1).runs ∧ (u.clu e.1).slots = (s.clu e.1).slots)
      ∧ (∀ k, k ∉ g.lists.map Prod.fst → u.clu k = s.clu k) ∧ u.tg.committed = r32 (s.tg.committed + p) ∧ u.tg.peak = r32 (s.tg.peak + q) ∧ u.tg.lastCtx = c
      ∧ u.nextLeg = s.nextLeg + 1 ∧ (∃ r : LegRun, u.legs = s.legs ++ [r] ∧ r.ctx = c ∧ r.id = s.nextLeg ∧ r.status = 0 ∧ r.wb = some w
        ∧ r.clusters = g.clusters ∧ r.inStep = false ∧ r.committed = p ∧ r.peak = q) ∧ u.mem = s.mem

/-- LEG_COMPLETE (08 R262, R278, R291; 11 R390). A leg of a step whose clusters are done leaves; one outside a step gets its final receipt, status 1 when it
was order-dependent; the detail of a leg that ends well counts the rows whose index lies outside (03 R81). A failed collective leg withdraws the member, a
failed forward or backward leg drops its micro-batch; a failed sweep leg runs again once, and a fetch leg again. -/
def Obligations.LegCompletes : Prop :=
  ∀ (s : State) (c l t : Nat),
    (s.legOf c l = none → exec (.legComplete c l t) s = .next (s.tick t))
    ∧ ∀ g, s.legOf c l = some g →
      (g.status = 0 → s.legDone g = false → exec (.legComplete c l t) s = .next (s.tick t))
      ∧ (g.status = 0 → s.legDone g = true → g.inStep = true →
        exec (.legComplete c l t) s = .next (((s.tick t).legReceiptOf g 0 g.outRows).dropLeg g t))
      ∧ (∀ w, g.inStep = false → g.wb = some w → (g.status ≠ 0 ∨ s.legDone g = true) →
        let st := if g.status = 0 ∧ g.orderDep = true then 1 else g.status
        let d := if st = 1 then g.inst.idx else if g.status = 0 then g.outRows else g.detail
        exec (.legComplete c l t) s
          = .next ((((((s.tick t).closeLegLocks g).legReceiptOf g st d).dropLeg g t).finish w st d 0).applyBoundary g.ctx))
      ∧ (g.inStep = true → g.status ≠ 0 →
        (g.inst.entry.phase = 2 →
          exec (.legComplete c l t) s = .next ((((s.tick t).withdraw g.ctx).legReceiptOf g g.status g.detail).dropLeg g t))
        ∧ (∀ m, g.inst.entry.phase < 2 → g.inst.mu = some m →
          exec (.legComplete c l t) s = .next ((((s.tick t).dropMu g.ctx m 1).legReceiptOf g g.status g.detail).dropLeg g t))
        ∧ (g.inst.entry.phase = 3 → g.status = 0x0604 → exec (.legComplete c l t) s = .next (s.tick t))
        ∧ (g.inst.entry.phase = 3 → g.status ≠ 0x0604 →
          ((∀ e ∈ g.resume, (e.1, fld e.2.1 16 16) ∉ g.failed) → g.clusters ≠ [] → exec (.legComplete c l t) s
            = .next (((s.tick t).legReceiptOf g g.status g.detail).goOn g (g.resume.map fun e => (e.1, fld e.2.1 16 16))))
          ∧ ((∃ e ∈ g.resume, (e.1, fld e.2.1 16 16) ∈ g.failed) → ∃ e ∈ g.resume, (e.1, fld e.2.1 16 16) ∈ g.failed
            ∧ exec (.legComplete c l t) s = .next ((s.tick t).sweepFailed g (fld e.2.1 16 16)))
          ∧ ((∀ e ∈ g.resume, (e.1, fld e.2.1 16 16) ∉ g.failed) → g.clusters = [] → exec (.legComplete c l t) s = .next ((s.tick t).sweepFailed g 0)))
        ∧ (g.inst.entry.phase = 4 → ((s.tick t).legReceiptOf g g.status g.detail |>.cx g.ctx).fetching = none → g.clusters ≠ [] →
          exec (.legComplete c l t) s = .next (((s.tick t).legReceiptOf g g.status g.detail).goOn g [])))
    ∧ (∀ (u : State) (g : LegRun), (∀ x ∈ (u.dropLeg g t).legs, ¬(x.ctx = g.ctx ∧ x.id = g.id)) ∧ (u.dropLeg g t).tg.lastLeg = t
      ∧ ∀ x ∈ u.legs, ¬(x.ctx = g.ctx ∧ x.id = g.id) → x ∈ (u.dropLeg g t).legs)
    ∧ ∀ (u : State) (g : LegRun) (seq : Nat), ∃ v : State, u.sweepFailed g seq = v.event 0x800A g.ctx (v.cx g.ctx).step ∧ (v.cx g.ctx).stuck = true
      ∧ (v.cx g.ctx).frozen = true ∧ ∀ x ∈ v.legs, x.ctx = g.ctx → x.id = g.id → x.status = 0x0604 ∧ x.detail = seq

/-- A step of context c may be admitted now. -/
def Sys2Proof.Machine.State.stepReady (s : State) (c : Nat) : Bool :=
  (s.cx c).live && !(s.cx c).frozen && !s.inDeep && s.atBoundary c && s.bringupDone && !s.exportDue c && !(s.cx c).restore.isSome
    && !((s.cx c).take.any fun k => k.stage != 9)

/-- STEP_ADMISSION (08 R254, R261, R263; 09 R322; 11 Table 11-9). The STEP waybills of a context take their turn as they were fetched, over all rings (11 R393). Without a placement the step is refused with 0x0308; an admitted step latches the settings
(02 R53, 04 R112, 05 R159, 07 R236, 08 R253) and stands with its legs in the order of R261; a spare that takes part from the middle of the step runs only what
follows the backward pass, withdrawn. -/
def Sys2Proof.Claims.StepAdmission : Prop :=
  ∀ (s : State) (c t : Nat),
    ((s.nextStep c = none ∨ s.stepReady c = false) → exec (.stepAdmission c t) s = .next (s.tick t))
    ∧ ∀ w, s.nextStep c = some w → s.stepReady c = true →
      ((s.cx c).place = none → exec (.stepAdmission c t) s = .next (((s.tick t).modCx c fun x => { x with queue := x.queue.erase w }).finish w 0x0308 1 0))
      ∧ ∀ u bs, (s.tick t).buffer w = (u, bs) → (s.cx c).place ≠ none →
        (∀ e, parseStep bs = .error e → exec (.stepAdmission c t) s = .next ((u.modCx c fun x => { x with queue := x.queue.erase w }).finish w e.1 e.2 0))
        ∧ (∀ legs rosters e, parseStep bs = .ok (legs, rosters) → u.stepBad c (w.p 0 16) legs = some e →
          exec (.stepAdmission c t) s = .next ((u.modCx c fun x => { x with queue := x.queue.erase w }).finish w e.1 e.2 0))
        ∧ ∀ legs rosters, parseStep bs = .ok (legs, rosters) → u.stepBad c (w.p 0 16) legs = none → ∃ (v : State) (y : StepRun),
          let spare := (u.cx c).take.any fun k => k.stage == 9
          exec (.stepAdmission c t) s = .next ((v.clearRosters c legs rosters).openMask c) ∧ (v.cx c).run = some y ∧ y.wb = w ∧ y.mcount = w.p 0 16
          ∧ y.lr = BitVec.ofNat 32 (w.p 32 32) ∧ y.advance = BitVec.ofNat 64 (w.p 64 64) ∧ y.decision = none ∧ y.withdrawn = spare
          ∧ y.todo = (if spare then (legSequence legs (w.p 0 16)).filter fun l => decide (2 ≤ l.entry.phase) else legSequence legs (w.p 0 16))
          ∧ y.trailers = ((u.cx c).early.filter fun m => m.step8 == (u.cx c).step % 256) ∧ y.voidNotice = (u.cx c).earlyVoid.contains (u.cx c).step
          ∧ (v.cx c).queue = (u.cx c).queue.erase w ∧ (v.cx c).stash = [] ∧ (v.cx c).latched = ⟨(u.cx c).cfg.tols, (u.cx c).cfg.srThresh, (u.cx c).cfg.srOff,
            (u.cx c).cfg.areaMib, (u.cx c).cfg.quotaMib, (u.cx c).hsets⟩
          ∧ (v.cx c).car.latchedW = (u.cx c).car.window ∧ (v.cx c).car.inForce = (u.cx c).car.distance ∧ (v.cx c).step = (u.cx c).step
          ∧ (∀ d, d ≠ c → v.cx d = u.cx d) ∧ v.mem = u.mem ∧ v.legs = u.legs

/-- STEP_CLOSE (08 R292, R293; 11 R374; 13 R453): a step with a decision and no leg left moves the context to the next step: the cursor by its advance, the
count of swept steps and the last swept step only after a sweep, the loss scale not after a void step; its record joins the last 16. It waits while its record
cannot be written to the host. -/
def Sys2Proof.Claims.StepClose : Prop :=
  ∀ (s : State) (c energy peak t : Nat),
    (((s.cx c).stuck = true ∨ s.host.linkUp = false ∨ s.tg.dmaPaused = true ∨ (s.cx c).run = none) → exec (.stepClose c energy peak t) s = .next (s.tick t))
    ∧ ((s.cx c).stuck = false → s.host.linkUp = true → s.tg.dmaPaused = false → ∀ v r, v = (s.tick t).settleStep c → (v.cx c).run = some r →
      ((r.decision = none ∨ r.todo ≠ [] ∨ ∃ g ∈ v.legs, g.ctx = c ∧ g.inStep = true) → exec (.stepClose c energy peak t) s = .next v)
      ∧ (r.decision ≠ none → r.todo = [] → (∀ g ∈ v.legs, g.ctx = c → g.inStep = false) →
        (r.lostRank = true → exec (.stepClose c energy peak t) s = .next ((v.voidStep c t).loseRank c))
        ∧ (r.lostRank = false → ∃ u : State,
          exec (.stepClose c energy peak t) s
            = .next ((if r.decision = some .sweep then u.sendMirror c (v.cx c).step (u.ctxBlock c) else u).applyBoundary c)
          ∧ (u.cx c).run = none ∧ (u.cx c).step = (v.cx c).step + 1 ∧ (u.cx c).cursor = (v.cx c).cursor + r.advance
          ∧ (u.cx c).swept = (v.cx c).swept + (if r.decision = some .sweep then 1 else 0)
          ∧ (u.cx c).lastSwept = (if r.decision = some .sweep then (v.cx c).step else (v.cx c).lastSwept)
          ∧ (u.cx c).ls = (if r.decision = some .void_ then (v.cx c).ls else ((v.cx c).ls.update r).1)
          ∧ (∃ x : List Byte, x.length = 256 + 16 * r.mcount ∧ (u.cx c).records = ((v.cx c).records ++ [x]).drop ((v.cx c).records.length + 1 - 16))
          ∧ (u.cx c).stash = [] ∧ (u.cx c).car.slots = [] ∧ (∀ k < 48, ∀ b ∈ (u.clu k).blocks, b.ctx ≠ c)
          ∧ (∀ d, d ≠ c → u.cx d = v.cx d) ∧ u.legs = v.legs)))

/-- The loss scale (02 R59): a skip halves the scale (its exponent falls by 1, not below 0) and clears the clean count, after a mismatch from the lowest
exponent of the group (R60); 2,000 clean steps, or 50 while probing, raise it by 1, not above 24; a fixed scale that does not probe changes only by counting its
skips. -/
def Sys2Proof.Claims.LossScale : Prop :=
  ∀ (l : LScale) (r : StepRun),
    (r.decision = some .skip → let e := if r.mismatch = true then r.minExp else l.exp
      (l.update r).1.skips = min (l.skips + 1) 0xFFFF ∧ (l.update r).1.clean = 0 ∧ ((l.update r).2 = true ↔ e = 0)
      ∧ ((l.fixed = false ∨ l.probe = true) → (l.update r).1.exp = e - 1) ∧ (l.fixed = true → l.probe = false → (l.update r).1.exp = e))
    ∧ (r.decision ≠ some .skip → (l.update r).2 = false ∧ (l.update r).1.skips = l.skips
      ∧ (l.fixed = true → l.probe = false → (l.update r).1 = l)
      ∧ (l.fixed = false → l.probe = false → (l.clean = 1999 → (l.update r).1 = { l with exp := if l.exp < 24 then l.exp + 1 else l.exp, clean := 0 })
          ∧ (l.clean ≠ 1999 → (l.update r).1 = { l with clean := l.clean + 1 }))
      ∧ (l.probe = true → (l.clean = 49 → (l.update r).1.exp = if l.exp < 24 then l.exp + 1 else l.exp) ∧ (l.clean ≠ 49 → (l.update r).1.exp = l.exp)))
    ∧ (l.probe = true → ((l.update r).1.probe = false ↔ l.probeLeft = 1) ∧ (l.update r).1.probeLeft = l.probeLeft - 1)

/-! ### Replica groups (08 R269, 09 R320 to R326) -/

/-- TRAILER_ARRIVAL, VOID_NOTICE_ARRIVAL, RESUME_NOTICE_ARRIVAL, RESEND_NOTICE_ARRIVAL, MASK_ARRIVAL and SPARE_ADMIT_REQUEST. A trailer or a void notice of a
step that this member has not admitted yet is kept for it; a mask that is not newer than the one held is ignored; a notice of a lower generation is ignored and
one of a higher is kept; only the leader admits a spare. -/
def Obligations.GroupMessages : Prop :=
  (∀ (s : State) (c : Nat) (tr : Trailer),
    (∀ r, (s.cx c).run = some r → tr.step8 = (s.cx c).step % 256 → exec (.trailerArrival c tr) s = .next ((s.modRun c fun r => r.keepTrailer tr).advanceAll c))
    ∧ (∀ n, (((s.cx c).run = none ∧ n = (s.cx c).step) ∨ ((s.cx c).run.isSome = true ∧ n = (s.cx c).step + 1)) →
      (tr.step8 = n % 256 →
        exec (.trailerArrival c tr) s = .next (s.modCx c fun x => { x with early := (x.early.filter fun t => t.rank != tr.rank) ++ [tr] }))
      ∧ (tr.step8 ≠ n % 256 → ((s.cx c).run = none ∨ tr.step8 ≠ (s.cx c).step % 256) → exec (.trailerArrival c tr) s = .next s)))
  ∧ (∀ (s : State) (c step : Nat),
    (∀ r, (s.cx c).run = some r → step = (s.cx c).step → exec (.voidNoticeArrival c step) s = .next (s.modRun c fun r => { r with voidNotice := true }))
    ∧ (∀ n, (((s.cx c).run = none ∧ n = (s.cx c).step) ∨ ((s.cx c).run.isSome = true ∧ n = (s.cx c).step + 1)) →
      (step = n → exec (.voidNoticeArrival c step) s = .next (s.modCx c fun x => { x with earlyVoid := x.earlyVoid.filter (· != step) ++ [step] }))
      ∧ (step ≠ n → ((s.cx c).run = none ∨ step ≠ (s.cx c).step) → exec (.voidNoticeArrival c step) s = .next s)))
  ∧ (∀ (s : State) (c owner gen : Nat), ∀ q ∈ ([(.resumeNoticeArrival c owner gen, false), (.resendNoticeArrival c owner gen, true)] : List (Instr × Bool)),
      (gen < (s.cx c).mask.gen → exec q.1 s = .next s)
      ∧ ((s.cx c).mask.gen < gen → exec q.1 s = .next (s.modCx c fun x => { x with notices := x.notices ++ [(owner, gen, q.2)] }))
      ∧ ((s.cx c).mask.gen = gen → exec q.1 s = .next (s.takeNotice c owner q.2)))
  ∧ (∀ (s : State) (c : Nat) (m : MaskMsg),
      (((s.cx c).live = false ∨ (s.cx c).place = none) → exec (.maskArrival c m) s = .next s)
      ∧ ((s.cx c).take = none → (s.cx c).mask.members ≠ [] →
          (m.step < (s.cx c).mask.step ∨ m.step = (s.cx c).mask.step ∧ m.gen ≤ (s.cx c).mask.gen) → exec (.maskArrival c m) s = .next s)
      ∧ ((s.cx c).live = true → (s.cx c).place ≠ none → (s.cx c).take = none → m.admits = none →
          ((s.cx c).mask.step < m.step ∨ (s.cx c).mask.members = []) → ∃ u : State,
          exec (.maskArrival c m) s = .next (((u.retryAll c (· == .waits)).advanceAll c).admitted c m)
          ∧ (u.cx c).mask = ⟨m.step, m.gen, m.members, false, 0⟩ ∧ (u.cx c).notices = [] ∧ (∀ d, d ≠ c → u.cx d = s.cx d) ∧ u.mem = s.mem))
  ∧ ∀ (s : State) (c rank m : Nat),
      ((s.leads c = false ∨ rank ∈ (s.cx c).mask.members ∨ s.groupSize c ≤ rank ∨ (rank ∉ (s.cx c).lost ∧ rank ∉ (s.cx c).departed)) →
        exec (.spareAdmitRequest c rank m) s = .next s)
      ∧ (s.leads c = true → rank ∉ (s.cx c).mask.members → rank < s.groupSize c → (rank ∈ (s.cx c).lost ∨ rank ∈ (s.cx c).departed) → ∃ l : List Nat,
        (∀ x, x ∈ l ↔ x < s.groupSize c ∧ (x ∈ (s.cx c).present ∨ x = rank)) ∧ exec (.spareAdmitRequest c rank m) s = .next (s.publishMask c l (some (rank, m))))

/-- LOSS_NOTICE_ARRIVAL, NEIGHBOUR_LOST, DEPARTURE_NOTICE_ARRIVAL, NEIGHBOUR_DEPARTED and ISOLATED (09 R323 to R326, Table 9-9): a loss is taken up
once; a neighbour is lost when its pin has been released or every port to it has been down for 20 µs without a notice; a departed one counts as departed then; a
module with every port down for 20 µs freezes its contexts. A departure passed on to other modules is the model's choice (log 40). -/
def Obligations.LossAndDeparture : Prop :=
  (∀ (s : State) (m : Nat), ((m ∈ s.fab.lost ∨ m = s.fab.moduleId) → exec (.lossNoticeArrival m) s = .next s)
      ∧ (m ∉ s.fab.lost → m ≠ s.fab.moduleId → ∃ u : State, exec (.lossNoticeArrival m) s = .next (u.loseModule m)
        ∧ u.fab = { s.fab with lostSeen := min 0xFFFF (s.fab.lostSeen + 1) }))
  ∧ (∀ (s : State) (n t : Nat) (r : Bool), let m := (s.port n).peerId
      ((12 ≤ n ∨ (s.port n).known = false) → exec (.neighbourLost ⟨n, r⟩ t) s = .next (s.tick t))
      ∧ (n < 12 → (s.port n).known = true →
        (r = false → (m ∈ s.fab.lost ∨ (s.port n).departed = true ∨ (s.tick t).downLong m = false) → exec (.neighbourLost ⟨n, r⟩ t) s = .next (s.tick t))
        ∧ ((r = true ∨ ((s.port n).departed = false ∧ (s.tick t).downLong m = true)) → ∃ u : State,
          (m ∈ s.fab.lost → r = true → exec (.neighbourLost ⟨n, r⟩ t) s = .next u)
          ∧ (m ∉ s.fab.lost → exec (.neighbourLost ⟨n, r⟩ t) s = .next ((u.fault 0x0F 4 0xF n 0 0xFFFF m 0).loseModule m))
          ∧ (∀ p < 12, (s.port p).known = true → (s.port p).peerId = m → u.port p = { s.port p with peerAlive := (s.port p).peerAlive && !r, departed := false })
          ∧ (∀ p, ((s.port p).known = false ∨ (s.port p).peerId ≠ m) → u.port p = s.port p) ∧ { u with fab := s.fab, now := s.now } = s)))
  ∧ (∀ (s : State) (n m : Nat),
      ((m ∈ s.fab.departed ∨ m ∈ s.fab.lost ∨ m = s.fab.moduleId) → exec (.departureNoticeArrival ⟨n, some m⟩) s = .next s)
      ∧ (m ∉ s.fab.departed → m ∉ s.fab.lost → m ≠ s.fab.moduleId → exec (.departureNoticeArrival ⟨n, some m⟩) s = .next (s.departModule m))
      ∧ ((12 ≤ n ∨ (s.port n).known = false) → exec (.departureNoticeArrival ⟨n, none⟩) s = .next s)
      ∧ (n < 12 → (s.port n).known = true → ∃ u : State, exec (.departureNoticeArrival ⟨n, none⟩) s = .next u
        ∧ (∀ p < 12, (u.port p).departed = ((s.port p).departed || ((s.port p).known && (s.port p).peerId == (s.port n).peerId)))
        ∧ (∀ p, { u.port p with departed := (s.port p).departed } = s.port p) ∧ { u with fab := s.fab } = s))
  ∧ (∀ (s : State) (n t : Nat), let m := (s.port n).peerId
      let gone := n < 12 ∧ (s.port n).departed = true ∧ (s.port n).peerAlive = true ∧ m ∉ s.fab.departed ∧ m ∉ s.fab.lost ∧ (s.tick t).downLong m = true
      (gone → exec (.neighbourDeparted n t) s = .next ((s.tick t).departModule m)) ∧ (¬gone → exec (.neighbourDeparted n t) s = .next (s.tick t)))
  ∧ (∀ (s : State) (m : Nat), ∃ u : State, s.departModule m = (((u.flood (.departed m)).dropHeld m).requeueAll).excludeModule m false
      ∧ u = { s with fab := { s.fab with departed := s.fab.departed ++ [m] } })
  ∧ (∀ (s : State) (m : Nat), s.downLong m = true ↔ ∀ p < 12, (s.port p).known = true → (s.port p).peerId = m →
      ∃ u, (s.port p).downSince = some u ∧ u + 20000 ≤ s.now)
  ∧ ∀ (s : State) (t : Nat),
      ((s.fab.isolated = true ∨ s.fab.selfDeparted = true ∨ s.mc.bringup < 8 ∨ ∃ n < 12, (s.port n).width ≠ 0 ∨ ∃ u, (s.port n).downSince = some u ∧ t < u + 20000) →
        exec (.isolated t) s = .next (s.tick t))
      ∧ (s.fab.isolated = false → s.fab.selfDeparted = false → 8 ≤ s.mc.bringup →
        (∀ n < 12, (s.port n).width = 0 ∧ ∀ u, (s.port n).downSince = some u → u + 20000 ≤ t) → ∃ u : State, exec (.isolated t) s = .next (u.event 0x800B 0xF 0)
        ∧ u.fab.isolated = true ∧ ∀ c < 4, (s.cx c).live = true → (u.cx c).frozen = true)

/-! ### Shards, seals and mirrors (08 R280 to R288) -/

/-- SEAL_PUBLISH, FETCH_UNIT_ARRIVAL, VERIFY_REQUEST and VERIFY_REPLY (08 R280 to R284). -/
def Sys2Proof.Claims.SealsAndFetches : Prop :=
  (∀ (s : State) (c i : Nat),
      (∀ (step k : Nat) (t : Tensor), s.sealStep c = some step → (s.tensorsOf c)[i]? = some (t, k) →
        exec (.sealPublish c i) s = .next (if s.sweptShard c t = true then s.publish c t step else s))
      ∧ ((s.sealStep c = none ∨ (s.tensorsOf c)[i]? = none) → exec (.sealPublish c i) s = .next s))
  ∧ (∀ (tile start : Nat) (a b : List Byte), a.length = b.length →
      (∀ i < a.length, (start + i) % tile < 256 ∨ a[i]? = b[i]?) → sealOf tile start a = sealOf tile start b)
  ∧ (∀ (s : State) (c tn rank unit step : Nat) (bs : List Byte) (sv : DWord),
      (((s.cx c).fetching = none ∨ (s.tensorsOf c)[tn]? = none) → exec (.fetchUnitArrival c tn rank unit bs sv step) s = .next s)
      ∧ ∀ (f : Fetching) (t : Tensor) (k : Nat), (s.cx c).fetching = some f → (s.tensorsOf c)[tn]? = some (t, k) →
        ((f.tensor ≠ tn ∨ f.rank ≠ rank ∨ f.unit ≠ unit ∨ f.verify = true) → exec (.fetchUnitArrival c tn rank unit bs sv step) s = .next s)
        ∧ (f.tensor = tn → f.rank = rank → f.unit = unit → f.verify = false →
          ((∀ n, s.fetchStep c t = some n → n = step) → exec (.fetchUnitArrival c tn rank unit bs sv step) s
            = .next ((s.takeUnit c f t (slice bs 0 (unitBytes (workingArea t (s.groupSize c) rank).2 unit)) sv).afterUnit c f))
          ∧ (∀ n, s.fetchStep c t = some n → n ≠ step →
            (∀ w, (s.cx c).restore = some w → exec (.fetchUnitArrival c tn rank unit bs sv step) s = .next (s.restoreFails c w 0xFFFFFFF3 0))
            ∧ ((s.cx c).restore = none → exec (.fetchUnitArrival c tn rank unit bs sv step) s = .next s))))
  ∧ (∀ (s : State) (c : Nat) (f : Fetching) (t : Tensor) (bs : List Byte) (sv : DWord), sealOf (tileBytes t.fmt) (f.unit * sealUnit) bs ≠ sv → f.tries < 2 →
      ∃ u : State, s.takeUnit c f t bs sv = u.askUnit c { f with tries := f.tries + 1 } ∧ (u.cx c).fetching = some { f with tries := f.tries + 1 }
        ∧ (u.cx c).cnt.sealMismatch = min 0xFFFF ((s.cx c).cnt.sealMismatch + 1) ∧ (u.cx c).cnt.refetches = min 0xFFFF ((s.cx c).cnt.refetches + 1)
        ∧ u.mem = s.mem)
  ∧ (∀ (s : State) (c : Nat),
      ((s.cx c).fetching = none → exec (.verifyReply c) s = .next s)
      ∧ ∀ f, (s.cx c).fetching = some f → (f.verify = false → exec (.verifyReply c) s = .next s)
        ∧ (f.verify = true → ∃ u : State, exec (.verifyReply c) s = .next (u.askUnit c { f with verify := false, path := 1, tries := 0 })
          ∧ (u.cx c).fetching = some { f with verify := false, path := 1, tries := 0 }
          ∧ (u.cx c).cnt.refetches = min 0xFFFF ((s.cx c).cnt.refetches + 1) ∧ u.mem = s.mem))
  ∧ (∀ (s : State) (c i unit src : Nat) (b : Option Buffer), ((s.tensorsOf c)[i]? = none ∨ (s.cx c).lastSweep = none) →
      exec (.verifyRequest c i unit src b) s = .next s)
  ∧ ∀ (s u v : State) (c i unit src k : Nat) (b : Option Buffer) (t : Tensor) (l : LastSweep) (seals : List DWord) (w : List Byte),
      (s.tensorsOf c)[i]? = some (t, k) → (s.cx c).lastSweep = some l → s.published c t = (u, some seals) →
      u.readAll c ((workingArea t (s.groupSize c) (s.ownRank c)).1 + unit * sealUnit) (unitBytes (workingArea t (s.groupSize c) (s.ownRank c)).2 unit) = (v, some w) →
      (some (sealOf (tileBytes t.fmt) (unit * sealUnit) w) = seals[unit]? →
        exec (.verifyRequest c i unit src b) s = .next (v.tell c src (.verifyReply t.id unit)))
      ∧ (some (sealOf (tileBytes t.fmt) (unit * sealUnit) w) ≠ seals[unit]? → ∀ x m,
          v.readAll c t.master (masterBytes t (s.groupSize c) (s.ownRank c)) = (x, some m) →
          (((x.cx c).masterSeals.find? fun e => e.1 == t.id).map Prod.snd = some (sealsOf (tileBytes 1) m) →
            exec (.verifyRequest c i unit src b) s = .next ((x.regenShard c t l.step).repaired c src t l.step unit))
          ∧ (((x.cx c).masterSeals.find? fun e => e.1 == t.id).map Prod.snd ≠ some (sealsOf (tileBytes 1) m) →
            (∀ d, b = some d → d.complete = false ∨ d.owner ≠ s.ownRank c ∨ some d.step ≠ l.before) →
            exec (.verifyRequest c i unit src b) s = .next (x.shardLost c)))

/-- MIRROR_UNIT_ARRIVAL, MIRROR_ACKNOWLEDGEMENT and MIRROR_UNIT_REREQUEST (08 R287, R288; 12 R432): a start empties the buffer of its parity; a unit that passes
its seal goes into it; one that fails is asked for again, up to twice; the context block comes last. -/
def Sys2Proof.Claims.BuddyMirrors : Prop :=
  (∀ (s : State) (c owner step : Nat), exec (.mirrorUnitArrival c (.start owner step)) s = .next (s.modCx c fun x => { x with
      buffers := (x.buffers.filter fun b => !(b.owner == owner && b.step % 2 == step % 2)) ++ [⟨owner, step, false, [], none⟩], again := [] }))
  ∧ (∀ (s : State) (c owner step array u : Nat) (id : Word) (bs : List Byte) (sv : DWord),
      (array ≠ 0 → exec (.mirrorUnitArrival c (.unit owner step id array u bs sv)) s
        = .next ((s.modBuffer c owner step fun b => Buffer.put b id array u bs sv).settleBuffer c owner step))
      ∧ (array = 0 → sealOf (tileBytes 1) (u * sealUnit) bs = sv → exec (.mirrorUnitArrival c (.unit owner step id array u bs sv)) s
        = .next (((s.modBuffer c owner step fun b => Buffer.put b id 0 u bs sv).modCx c fun x =>
            { x with again := x.again.filter fun e => !(e.1 == id && e.2.1 == u) }).settleBuffer c owner step)))
  ∧ (∀ (s : State) (c owner step u m n : Nat) (id : Word) (bs : List Byte) (sv : DWord), sealOf (tileBytes 1) (u * sealUnit) bs ≠ sv →
      n = (((s.cx c).again.find? fun e => e.1 == id && e.2.1 == u).map fun e => e.2.2).getD 0 → s.groupModule c owner = some m → ∃ v : State,
        exec (.mirrorUnitArrival c (.unit owner step id 0 u bs sv)) s = .next (if n < 2 then v.tell c m (.mirrorAgain id 0 u) else v)
        ∧ (id, u, n + 1) ∈ (v.cx c).again ∧ (v.cx c).buffers = (s.cx c).buffers)
  ∧ (∀ (s : State) (c owner step : Nat) (b : CtxBlock), exec (.mirrorUnitArrival c (.finish owner step b)) s
      = .next ((s.modBuffer c owner step fun x => { x with block := some b }).settleBuffer c owner step))
  ∧ (∀ (s : State) (c owner step : Nat) (b : Buffer), (s.cx c).buffers = [b] → b.owner = owner → b.step = step → b.block.isSome = true → b.complete = false →
      (s.cx c).again = [] → ∀ m, s.groupModule c owner = some m → ∃ v : State, s.settleBuffer c owner step = v.tell c m (.mirrorAck step)
        ∧ (v.cx c).buffers = [{ b with complete := true }] ∧ v.mem = s.mem)
  ∧ (∀ (s : State) (c step : Nat), ((s.cx c).mirroring.map Prod.fst ≠ some step → exec (.mirrorAcknowledgement c step) s = .next s)
      ∧ ((s.cx c).mirroring.map Prod.fst = some step → ∃ u : State, exec (.mirrorAcknowledgement c step) s = .next (u.retryAll c (· == .undoHeld))
        ∧ (u.cx c).mirroring = none ∧ (u.cx c).mirrorValid = true ∧ u.mem = s.mem))
  ∧ ∀ (s : State) (c array unit : Nat) (id : Word),
      (((s.cx c).mirroring = none ∨ s.buddyModule c = none ∨ s.trained c id = none) → exec (.mirrorUnitRerequest c id array unit) s = .next s)
      ∧ ∀ (m step : Nat) (b : CtxBlock) (t : Tensor), (s.cx c).mirroring = some (step, b) → s.buddyModule c = some m →
        s.trained c id = some t → exec (.mirrorUnitRerequest c id array unit) s = .next (s.mirrorUnit c m step t array unit)

/-! ### Exports, stores, restores and takeovers (12 R427 to R439) -/

/-- STORE_GRANT, STORE_REFUSE, STORE_DONE, STORE_TIMEOUT, EXPORT_START, STORE_OPEN and STORE_CLOSE (12 R433 to R435). An export fails 100 ms after the message
that no grant, or no acknowledgement, answered; a store checks the digest of the header, directory and seal lists that have arrived. -/
def Obligations.CheckpointStores : Prop :=
  (∀ (s : State) (c base : Nat) (e : Export), (s.cx c).exp = some e →
      (e.base = none → ∃ u : State, exec (.storeGrant c base) s = .next (u.retryAll c (· == .undoHeld))
        ∧ (u.cx c).exp = some { e with base := some base, closed := true, since := s.now }
        ∧ u.out = s.out ++ [.lines c (e.wb.p 0 13) 3 base e.record, .send c (e.wb.p 0 13) (.storeClose e.digest)] ∧ u.mem = s.mem)
      ∧ (e.base ≠ none → exec (.storeGrant c base) s = .next s)
      ∧ (e.base = none → exec (.storeRefuse c) s = .next (s.exportFails c e.wb) ∧ ∀ ok, exec (.storeDone c ok) s = .next s)
      ∧ (∀ b, e.base = some b → exec (.storeDone c true) s = .next ((s.modCx c fun x => { x with exp := none }).finish e.wb 0 b e.step)
        ∧ exec (.storeDone c false) s = .next (s.exportFails c e.wb) ∧ exec (.storeRefuse c) s = .next s)
      ∧ (∀ t, e.since + 100000000 ≤ t → exec (.storeTimeout ⟨c, t⟩) s = .next ((s.tick t).exportFails c e.wb))
      ∧ (∀ t, t < e.since + 100000000 → exec (.storeTimeout ⟨c, t⟩) s = .next (s.tick t)))
  ∧ (∀ (s : State) (c : Nat), (s.cx c).exp = none → exec (.storeRefuse c) s = .next s ∧ (∀ t, exec (.storeTimeout ⟨c, t⟩) s = .next (s.tick t))
      ∧ (∀ b, exec (.storeGrant c b) s = .next s) ∧ ∀ b, exec (.storeDone c b) s = .next s)
  ∧ (∀ (s : State) (c : Nat), (s.exportWb c = none ∨ (s.cx c).live = false ∨ (s.cx c).run.isSome = true ∨ (s.cx c).exp.isSome = true
      ∨ (s.cx c).restore.isSome = true) → exec (.exportStart c) s = .next s)
  ∧ (∀ (s : State) (c : Nat) (w : Waybill), s.exportWb c = some w → (s.cx c).live = true → (s.cx c).run = none → (s.cx c).exp = none → (s.cx c).restore = none →
      (s.reachable (w.p 0 13) = false → exec (.exportStart c) s = .next (s.exportFails c w))
      ∧ (s.reachable (w.p 0 13) = true →
        (∀ u, s.readParts c (s.ownShards c) = (u, none) → exec (.exportStart c) s = .next (u.exportFails c w))
        ∧ ∀ u parts p, s.readParts c (s.ownShards c) = (u, some parts) → (s.cx c).place = some p → ∃ (v : State) (x : Export),
          exec (.exportStart c) s = .next (v.tell c (w.p 0 13) (.storeOpen x.record.length (w.p 13 2))) ∧ (v.cx c).exp = some x
          ∧ x.wb = w ∧ x.step = (s.cx c).step ∧ x.base = none ∧ x.since = v.now ∧ v.now = u.now ∧ v.mem = u.mem))
  ∧ (∀ (s : State) (c src sc size : Nat),
      ((s.cx c).storeWindow = none → exec (.storeOpen c src sc size) s = .next (s.tell sc src .storeRefuse))
      ∧ ∀ e, (s.cx c).storeWindow = some e →
        let b := (s.cx c).storeNext e
        (∀ g ∈ (s.cx c).grants, g.base + g.size ≤ b)
        ∧ (b + size ≤ e.base + 4096 * e.pages → exec (.storeOpen c src sc size) s
          = .next ((s.modCx c fun x => { x with grants := x.grants ++ [⟨src, sc, b, size⟩] }).tell sc src (.storeGrant b)))
        ∧ (e.base + 4096 * e.pages < b + size → exec (.storeOpen c src sc size) s = .next (s.tell sc src .storeRefuse)))
  ∧ ∀ (s : State) (c src sc : Nat) (d : BitVec 384),
      ((∀ g ∈ (s.cx c).grants, ¬(g.src = src ∧ g.srcCtx = sc)) → exec (.storeClose c src sc d) s = .next (s.tell sc src (.storeDone false)))
      ∧ ∀ g, (s.cx c).grants.reverse.find? (fun g => g.src == src && g.srcCtx == sc) = some g →
        (∀ u, s.readHead c g.base g.size = (u, none) → exec (.storeClose c src sc d) s = .next (u.tell sc src (.storeDone false)))
        ∧ ∀ u bs, s.readHead c g.base g.size = (u, some bs) →
          exec (.storeClose c src sc d) s = .next (u.tell sc src (.storeDone (sha384Field (recordHead bs).1 == d)))

/-- RESTORE, TAKEOVER, TAKEOVER_QUERY and TAKEOVER_QUERY_REPLY (12 R428 to R430, R438, R439). -/
def Obligations.RestoreAndTakeover : Prop :=
  (∀ (s u : State) (w : Waybill) (bs img : List Byte), begins s w 0x5002 u bs → ∀ v, v = ((u.giveWay w.context).stopForRestore w.context).modCx w.context
        (fun x => { x with fetched := [], fetching := none }) →
      (∀ d, v.recordBad w.context img = some d → exec (.restore w img) s = .next ((v.restoreFails w.context w d 0).sweepWbs))
      ∧ (v.recordBad w.context img = none → ∀ z, v.restoreShards w.context img (natAt img 72 2) 0 0 = (z, none) → ∃ y : State,
        exec (.restore w img) s = .next ((y.nextFetch w.context).sweepWbs) ∧ (y.cx w.context).restore = some w)
      ∧ (v.recordBad w.context img = none → ∀ z e, v.restoreShards w.context img (natAt img 72 2) 0 0 = (z, some e) →
        exec (.restore w img) s = .next ((z.restoreFails w.context w e.1 e.2).sweepWbs)))
  ∧ (∀ (x : Ctx) (img : List Byte), (x.restored img).step = natAt img 8 8 ∧ (x.restored img).lastSwept = natAt img 16 8
      ∧ (x.restored img).seed = BitVec.ofNat 64 (natAt img 24 8) ∧ (x.restored img).cursor = BitVec.ofNat 64 (natAt img 32 8)
      ∧ (x.restored img).swept = natAt img 40 8 ∧ (x.restored img).place = x.place ∧ (x.restored img).cfg = x.cfg
      ∧ ∀ h < 16, tget one32 (x.restored img).p1 h = BitVec.ofNat 32 (natAt img (96 + 4 * h) 4)
        ∧ tget one32 (x.restored img).p2 h = BitVec.ofNat 32 (natAt img (160 + 4 * h) 4)
        ∧ tget 0 (x.restored img).hsets h = BitVec.ofNat 256 (natAt img (224 + 32 * h) 32))
  ∧ (∀ (s u : State) (w : Waybill) (bs : List Byte), begins s w 0x5003 u bs →
      (∀ p m, (u.cx w.context).place = some p → u.leaderOf w.context = some m → p.rank = w.p 0 13 → (u.cx w.context).run = none →
        (u.cx w.context).restore = none → (u.cx w.context).take = none → ∃ (v : State) (k : Takeover),
        exec (.takeover w) s = .next ((v.tell w.context m (.takeoverQuery (.rankState p.rank))).sweepWbs) ∧ (v.cx w.context).take = some k
          ∧ k.wb = w ∧ k.rank = p.rank ∧ k.stage = 1 ∧ v.mem = u.mem)
      ∧ (((u.cx w.context).place = none ∨ u.leaderOf w.context = none ∨ (u.cx w.context).run.isSome = true ∨ (u.cx w.context).restore.isSome = true
          ∨ (u.cx w.context).take.isSome = true ∨ ∃ p, (u.cx w.context).place = some p ∧ p.rank ≠ w.p 0 13) →
        exec (.takeover w) s = .next ((u.takeFails w.context w 9).sweepWbs)))
  ∧ (∀ (s : State) (c src r : Nat),
      exec (.takeoverQuery c src (.rankState r)) s = .next (s.tell c src (.takeoverReply (.rankState ((s.cx c).mask.members.contains r)
        ((s.cx c).lost.contains r || (s.cx c).departed.contains r) (s.cx c).lastSwept)))
      ∧ (∃ o : Option Buffer, exec (.takeoverQuery c src (.buffer r)) s = .next (s.tell c src (.takeoverReply (.buffer o)))
        ∧ (∀ b, o = some b → b ∈ (s.cx c).buffers ∧ b.complete = true ∧ b.owner = r
          ∧ ∀ d ∈ (s.cx c).buffers, d.complete = true → d.owner = r → d.step ≤ b.step)
        ∧ (o = none → ∀ d ∈ (s.cx c).buffers, d.complete = true → d.owner ≠ r))
      ∧ ∀ id, (s.trained c id = none → exec (.takeoverQuery c src (.seals r id)) s = .next (s.tell c src (.takeoverReply (.seals id []))))
        ∧ ∀ t u l, s.trained c id = some t → s.workingSeals c t r = (u, l) →
          exec (.takeoverQuery c src (.seals r id)) s = .next (u.tell c src (.takeoverReply (.seals id (l.getD [])))))
  ∧ ∀ (s : State) (c : Nat) (r : TakeoverReply),
      ((s.cx c).take = none → exec (.takeoverQueryReply c r) s = .next s)
      ∧ ∀ k, (s.cx c).take = some k →
        (∀ inMask gone last, r = .rankState inMask gone last → k.stage = 1 →
          (inMask = true → exec (.takeoverQueryReply c r) s = .next (s.takeFails c k.wb 1))
          ∧ (inMask = false → gone = false → exec (.takeoverQueryReply c r) s = .next (s.takeFails c k.wb 2))
          ∧ (inMask = false → gone = true → (∀ m, s.buddyModule c = some m → s.reachable m = false) →
            exec (.takeoverQueryReply c r) s = .next (s.takeFails c k.wb 3))
          ∧ (inMask = false → gone = true → ∀ m, s.buddyModule c = some m → s.reachable m = true → ∃ u : State,
            exec (.takeoverQueryReply c r) s = .next (u.tell c m (.takeoverQuery (.buffer k.rank))) ∧ (u.cx c).take = some { k with stage := 2, swept := last }))
        ∧ (r = .buffer none → k.stage = 2 → exec (.takeoverQueryReply c r) s = .next (s.takeFails c k.wb 4))
        ∧ (∀ b, r = .buffer (some b) → k.stage = 2 → (b.complete = false ∨ b.owner ≠ k.rank ∨ b.step ≠ k.swept) →
          exec (.takeoverQueryReply c r) s = .next (s.takeFails c k.wb 4))
        ∧ (∀ id l t, r = .seals id l → k.stage = 3 → k.wanted.head? = some id → s.trained c id = some t → ∀ u m, s.workingSeals c t k.rank = (u, some m) →
          exec (.takeoverQueryReply c r) s = .next (if m = l then u.askSeals c { k with wanted := k.wanted.drop 1 } else u.takeFails c k.wb 7))

/-! ### Faults and self-tests (12 Table 12-2, R415 to R418) -/

/-- MC_CORE_WATCHDOG, MC_CORE_RESTART_COMPLETE, CORE_LOGIC_FAULT, TIER0_UNCORRECTABLE, TIER0_CORRECTED and L1_PARITY. The third watchdog of a core within an
hour raises cause 9; a bad word of tier 0 stays bad; the eighth corrected error of a bank within an hour tests it. -/
def Sys2Proof.Claims.CoreFaults : Prop :=
  (∀ (s : State) (core t : Nat), (3 ≤ core ∨ s.mc.coreAlive.getD core false = false) → exec (.mcCoreWatchdog core t) s = .next (s.tick t))
  ∧ (∀ (s : State) (core t : Nat), core < 3 → core ≠ 1 → s.mc.coreAlive.getD core false = true → ∃ u : State,
      let n := ((s.mc.coreRestarts.filter fun e => decide (t < e.2 + 3600000000000)).filter fun e => e.1 == core).length
      exec (.mcCoreWatchdog core t) s = .next (u.fault 0x0D 4 0xF core 0 0xFFFF 0 (if 2 ≤ n then 9 else 0))
      ∧ u.mc.coreAlive = s.mc.coreAlive.set core false ∧ (core, t) ∈ u.mc.coreRestarts ∧ u.ctx = s.ctx ∧ u.legs = s.legs ∧ u.mem = s.mem)
  ∧ (∀ (s : State) (t : Nat), s.mc.coreAlive.getD 1 false = true → ∃ u : State, exec (.mcCoreWatchdog 1 t) s
      = .next ((u.abandonAll.abortWbs (fun e => e.started) 0).sweepWbs) ∧ u.mc.coreAlive = s.mc.coreAlive.set 1 false ∧ u.legs = s.legs
      ∧ ∀ c, (u.abandonAll.cx c).run = (s.cx c).run)
  ∧ (∀ (s : State) (core : Nat), exec (.mcCoreRestartComplete core) s
      = .next (if core < 3 ∧ 5 ≤ s.mc.bringup then { s with mc := { s.mc with coreAlive := s.mc.coreAlive.set core true } } else s))
  ∧ (∀ (s : State) (core t : Nat),
      (s.coresUp = true → s.coreInUse core = true →
        exec (.coreLogicFault core t) s = .next (((s.tick t).endLaunch core).startTest (.core core) 0x01 0 none))
      ∧ ((s.coresUp = false ∨ s.coreInUse core = false) → exec (.coreLogicFault core t) s = .next (s.tick t)))
  ∧ (∀ (s : State) (core off t : Nat), s.coresUp = true → s.coreInUse core = true → off < 262144 → ∃ u : State,
      exec (.tier0Uncorrectable core off t) s = .next (u.startTest (.bank core (off / 32768)) 0x02 off none)
      ∧ (off / 8) ∈ (u.cor core).badWords ∧ (∀ w ∈ (s.cor core).badWords, w ∈ (u.cor core).badWords) ∧ u.mem = s.mem ∧ u.mc = s.mc)
  ∧ (∀ (s : State) (core off t : Nat), s.coresUp = true → s.coreInUse core = true → off < 262144 →
      let l := (s.cor core).corrected.filter (fun e => decide (t < e.2 + 3600000000000))
      ((l.filter fun e => e.1 == off / 32768).length < 7 → ∃ u : State, exec (.tier0Corrected core off t) s = .next u
        ∧ (u.cor core).corrected = l ++ [(off / 32768, t)] ∧ u.mc = s.mc ∧ u.mem = s.mem)
      ∧ (7 ≤ (l.filter fun e => e.1 == off / 32768).length → ∃ u : State,
        exec (.tier0Corrected core off t) s = .next (u.startTest (.bank core (off / 32768)) 0x03 off none)
        ∧ ∀ e ∈ (u.cor core).corrected, e.1 ≠ off / 32768))
  ∧ (∀ (s : State) (core off t : Nat), (s.coresUp = false ∨ s.coreInUse core = false ∨ 262144 ≤ off) →
      exec (.tier0Uncorrectable core off t) s = .next (s.tick t) ∧ exec (.tier0Corrected core off t) s = .next (s.tick t))
  ∧ ∀ (s : State) (core t : Nat) (line : LineId),
      ((∀ x ∈ s.cel.l1, ¬(x.core = core ∧ x.line = line)) → exec (.l1Parity core line t) s = .next (s.tick t))
      ∧ ∀ x, s.cel.l1.find? (fun x => x.core == core && x.line == line) = some x →
        (x.modified = true → exec (.l1Parity core line t) s = .next (((s.tick t).loseCopy line).startTest (.core core) 0x04 (lineAddr line) none))
        ∧ (x.modified = false → exec (.l1Parity core line t) s
          = .next (((s.tick t).serve line ((s.tick t).isDirect line) 0 (.dropCopy core)).1.startTest (.core core) 0x04 (lineAddr line) none))

/-- What the end of a self-test of a unit does besides its outcome: a port is suspect no more once no test of its lanes is left (09 R308), and what waited
for a channel's test is replayed (06 R167). -/
def Sys2Proof.Machine.State.afterTest (s : State) (u : TestUnit) : State :=
  match u with
  | .lane p _ => s.clearSuspect p
  | .channel k => s.modCol k fun y => { y with crcTries := y.crcTries.filter fun e => e.2 != 4 }
  | _ => s

/-- What had queued for the test goes on: requests, cores and waybills for the pause of a channel or a pseudo-channel (01 R27), waybills for any other. -/
def Sys2Proof.Machine.State.goesOn (s : State) (u : TestUnit) : State :=
  match u with
  | .channel _ => s.endPause
  | .pc _ _ => s.endPause
  | _ => s.sweepWbs

/-- SELF_TEST_COMPLETE (12 R416 to R418, R420). A test that passes is recorded with outcome 0, and the fourth of a unit within 24 h is handled as failed. A
remount takes over from a failed core, 32 before 33, one that has failed its own test skipped; with none left the position is inactive (01 R11), and what
names it is rejected (03 R83). A launch that runs on a failed core ends (03 R90). Which context c the records name is left open here (log 112). -/
def Obligations.SelfTests : Prop :=
  (∀ (s : State) (x : TestUnit) (pass : Bool) (t : Nat), (∀ r ∈ s.mc.tests, r.unit ≠ x) → exec (.selfTestComplete x pass t) s = .next (s.tick t))
  ∧ (∀ (s : State) (x : TestRun) (pass : Bool) (t : Nat), s.mc.tests.find? (fun r => r.unit == x.unit) = some x →
      (s.mc.coreAlive.getD 2 false = true → x.unit ∉ s.tg.shedWork → exec (.selfTestComplete x.unit pass t) s = .next ((s.tick t).testDone x pass t))
      ∧ ((s.mc.coreAlive.getD 2 false = false ∨ x.unit ∈ s.tg.shedWork) → exec (.selfTestComplete x.unit pass t) s = .next (s.tick t)))
  ∧ (∀ (s : State) (x : TestRun) (pass : Bool) (t : Nat), x.waybill = none → s.unitRetired x.unit = false → ∃ u : State,
      (∀ r ∈ u.mc.tests, r.unit ≠ x.unit) ∧ { u with mc := s.mc } = s ∧ u.mc.faultLog = s.mc.faultLog ∧ u.mc.faultSeq = s.mc.faultSeq
      ∧ (pass = true → ((recentTests s.mc.testHistory t).filter fun e => e.1 == x.unit).length < 3 →
        s.testDone x pass t = ((u.passUnit x).afterTest x.unit).goesOn x.unit)
      ∧ ((pass = false ∨ 3 ≤ ((recentTests s.mc.testHistory t).filter fun e => e.1 == x.unit).length) → s.testDone x pass t
        = ((u.failUnit x.unit (if x.kind = 0 then TestUnit_kind x.unit else x.kind) x.info).afterTest x.unit).goesOn x.unit))
  ∧ (∀ (s : State) (x : TestRun), (∀ p l, x.unit ≠ .lane p l) → ∃ c, s.passUnit x
      = if x.kind = 0 then s else s.fault x.kind 0 c (TestUnit_where x.unit).1 (TestUnit_where x.unit).2 0xFFFF x.info 0)
  ∧ (∀ (s : State) (cl pos : Nat), let x := s.clu cl
      (x.rem32 = pos → x.dropRemount pos = { x with rem32 := 0x3F, failed32 := true } ∧ s.remountNote cl pos = [.remountFailed cl 32])
      ∧ (x.rem32 ≠ pos → x.rem33 = pos → x.dropRemount pos = { x with rem33 := 0x3F, failed33 := true } ∧ s.remountNote cl pos = [.remountFailed cl 33])
      ∧ (x.rem32 ≠ pos → x.rem33 ≠ pos → x.dropRemount pos = x ∧ s.remountNote cl pos = []))
  ∧ ∀ (s : State) (core kind info : Nat) (x : Cluster), x = (s.clu (clusterOf core)).dropRemount (core % 32) →
      let cl := clusterOf core
      let note := s.remountNote cl (core % 32)
      (x.rem32 = 0x3F → x.failed32 = false → ∃ (u : State) (c : Nat),
        s.failCore core kind info = ((u.retire (note ++ [.remount core 32]) kind 1 c core 0 32 info 0).endLaunch core).recoverSweep core
        ∧ u.clu cl = { x with rem32 := core % 32 } ∧ (u.cor core).bankMoved = none ∧ u.mem = s.mem ∧ u.mc = s.mc)
      ∧ ((x.rem32 ≠ 0x3F ∨ x.failed32 = true) → x.rem33 = 0x3F → x.failed33 = false → ∃ (u : State) (c : Nat),
        s.failCore core kind info = ((u.retire (note ++ [.remount core 33]) kind 1 c core 0 33 info 0).endLaunch core).recoverSweep core
        ∧ u.clu cl = { x with rem33 := core % 32 } ∧ (u.cor core).bankMoved = none ∧ u.mem = s.mem ∧ u.mc = s.mc)
      ∧ ((x.rem32 ≠ 0x3F ∨ x.failed32 = true) → (x.rem33 ≠ 0x3F ∨ x.failed33 = true) → ∃ (u v : State) (c cause : Nat),
        s.failCore core kind info = (v.runsOf cl (core % 32)).foldl (fun s r => s.failLeg r.ctx r.leg 0x0106 (fld r.desc 16 16 + 2 ^ 16 * cl) 1)
          (v.modCor core (fun y => { y with strands := [] }))
        ∧ v = (u.retire (note ++ [.position core]) kind 3 c core 0 0xFFFF info cause).endLaunch core
        ∧ (∀ i < 32, (u.clu cl).active.getLsbD i = (x.active.getLsbD i && decide (i ≠ core % 32)))
        ∧ (cause = 2 ↔ u.coresShort = true) ∧ (cause = 0 ∨ cause = 2) ∧ u.mem = s.mem ∧ u.mc = s.mc)

/-! ### Resets and bring-up (chapter 13) -/

/-- POWER_LOSS, POWER_ON, POWER_STAGE_PHASE_FAULT, RESET_N_ASSERT, RESET_N_RELEASE, WATCHDOG_EXPIRY and the three RESET levels of the priority ring (10 R331, R360;
11 R401; 12 Table 12-2; 13 R451 to R454). -/
def Obligations.Resets : Prop :=
  (∀ (s : State) (t : Nat),
    (s.pwr.switch = false → exec (.powerLoss t) s = .next (s.tick t)
      ∧ exec (.powerOn t) s = .next { s.tick t with pwr := { s.pwr with switch := true }, mc := { s.mc with bringup := 1 } })
    ∧ (s.pwr.switch = true → exec (.powerOn t) s = .next (s.tick t) ∧ ∃ u : State, exec (.powerLoss t) s = .next u ∧ u.pwr.switch = false ∧ u.mc.bringup = 0
      ∧ u.pwr.stages = List.replicate 8 .off ∧ u.mem.tier2 = [] ∧ u.mem.scratch = [] ∧ u.mem.tier0 = [] ∧ u.mem.host = s.mem.host ∧ u.ctx = [] ∧ u.legs = []
      ∧ u.mc.flashLog = s.mc.flashLog ∧ u.mc.repairMap = s.mc.repairMap ∧ u.mc.faultSeq = s.mc.faultSeq ∧ u.pwr.alive = false
      ∧ u.mc.serviceReq = false))
  ∧ (∀ (s : State) (st ph t : Nat) (holds : Bool), s.powered = true → st < 8 → (st, ph) ∉ s.pwr.stageBad → ∃ u : State,
      exec (.powerStagePhaseFault st ph holds t) s = .next (if holds = true then u.retire [.phase st ph] 0x0B 2 0xF st ph 0xFFFF 0 7
        else (u.retire [.phase st ph] 0x0B 2 0xF st ph 0xFFFF 0 7).losePower)
      ∧ u.pwr.stageBad = s.pwr.stageBad ++ [(st, ph)] ∧ u.mem = s.mem)
  ∧ (∀ (s : State) (t : Nat), let u : State := { s.tick t with mc := { s.mc with resetNLow := true } }
      (s.powered = false → exec (.resetNAssert t) s = .next u)
      ∧ (s.powered = true → s.pwr.trip = false → exec (.resetNAssert t) s = .next (u.coldStart 1))
      ∧ (s.powered = true → s.pwr.trip = true → u.plateCool = false → exec (.resetNAssert t) s = .next u)
      ∧ (s.powered = true → s.pwr.trip = true → u.plateCool = true →
        exec (.resetNAssert t) s = .next { u with mc := { u.mc with resetting := some 3, resetCause := 5 } }))
  ∧ (∀ (s : State) (t : Nat), let u : State := { s.tick t with mc := { s.mc with resetNLow := false, testMode := false } }
      exec (.resetNRelease t) s = .next (if s.powered = true ∧ s.pwr.trip = true ∧ s.mc.resetting.isSome = true then u.endTrip else u))
  ∧ (∀ (s : State) (t : Nat), s.powered = true → s.pwr.trip = false → s.mc.resetNLow = false → exec (.watchdogExpiry t) s = .next ((now s t).coldStart 2))
  ∧ (∀ (s : State) (e : PrioEntry), serves s e 0xF004 → fld e.hdr 160 2 = 1 →
      exec (.resetContext e) s = .next ((if s.mc.resetting.isSome = true then (s.takePrio e).joinReset e
        else (((s.takePrio e).contextReset (PrioEntry_wb e).context).finishPrio e 0 0).sweepWbs).sweepPrio 64))
  ∧ (∀ (s : State) (e : PrioEntry) (t : Nat), serves (s.tick t) e 0xF004 → fld e.hdr 160 2 = 2 →
      exec (.resetWarm e t) s = .next ((if s.mc.resetting.isSome = true then ((s.tick t).takePrio e).joinReset e
        else ((s.tick t).takePrio e).warmReset.finishPrio e 0 0).sweepPrio 64))
  ∧ (∀ (s : State) (e : PrioEntry) (t : Nat), serves (s.tick t) e 0xF004 → fld e.hdr 160 2 = 3 → s.mc.resetting = none →
      (s.pwr.trip = false → exec (.resetCold e t) s = .next (((((s.tick t).takePrio e).joinReset e).coldStart 3).sweepPrio 64))
      ∧ (s.pwr.trip = true → (s.tick t).plateCool = true →
        exec (.resetCold e t) s = .next (((((s.tick t).takePrio e).joinReset e).endTrip).sweepPrio 64))
      ∧ (s.pwr.trip = true → (s.tick t).plateCool = false →
        exec (.resetCold e t) s = .next ((((s.tick t).takePrio e).finishPrio e 0x0206 s.heat.plate).sweepPrio 64)))
  ∧ ∀ (s : State) (cause : Nat), (s.coldStart cause).mc.bringup = 3 ∧ (s.coldStart cause).mc.resetCause = cause ∧ (s.coldStart cause).mc.resetting = some 3
      ∧ (s.coldStart cause).beat = { State.reset.beat with period := if s.mc.flash.nominal60 = true then 1666667 else 2000000 }
      ∧ (s.coldStart cause).heat = { State.reset.heat with fault := s.pwr.sensorsBad.contains .inlet } ∧ (s.coldStart cause).mc.eventsLost = 0
      ∧ (s.coldStart cause).mc.coreAlive = [false, false, false] ∧ (s.coldStart cause).tg.cfg = State.reset.tg.cfg
      ∧ s.endTrip.mc.bringup = min 5 s.mc.bringup ∧ s.endTrip.mc.resetCause = 5 ∧ s.endTrip.mc.zeroDone = false
      ∧ s.endTrip.beat = (s.coldStart cause).beat ∧ s.endTrip.heat = (s.coldStart cause).heat

/-- BRINGUP_STEP_COMPLETE (13 R442 to R448, Table 13-1): the steps complete in order; step 4 takes the configuration block, with the factory torus
where its dimensions break 09 R478, and chooses the image, step 5 starts the cores and restores the fault
log from flash, step 9 drives ALIVE_N, step 12 trains the channels, step 13 zeroes HBM and cellar once, step 14 ends the reset. -/
def Obligations.BringUp : Prop :=
  (∀ (s : State) (l : List TestUnit) (x : Training), s.bringReady = false → exec (.bringupStepComplete l x) s = .next (s.tick x.t))
  ∧ (∀ (s : State) (l : List TestUnit) (x : Training), s.bringReady = true → s.mc.bringup ≠ 3 → s.mc.bringup ≠ 13 → ∃ u : State,
      exec (.bringupStepComplete l x) s = .next u ∧ u.mc.bringup = s.mc.bringup + 1
      ∧ (s.mc.bringup = 4 → u.mc.coreAlive = [true, true, true] ∧ u.mc.faultLog = s.mc.flashLog)
      ∧ (s.mc.bringup = 8 → u.pwr.alive = true)
      ∧ (s.mc.bringup = 11 → u.cel.trained = true)
      ∧ (s.mc.bringup = 12 → u.mc.zeroDone = true ∧ (s.mc.zeroDone = false → u.mem.scratch = [] ∧ u.mem.tier2 = [] ∧ u.mem.stash = [] ∧ u.mem.evac = [])
        ∧ (s.mc.zeroDone = true → u.mem = s.mem)))
  ∧ (∀ (s : State) (l : List TestUnit) (x : Training), s.bringReady = true → s.mc.bringup = 3 → s.mgmt.pendingCfg = none → ∃ u : State,
      exec (.bringupStepComplete l x) s = .next u ∧ u.mc.flash.attempts = s.mc.flash.attempts + 1
      ∧ u.fab.moduleId = (if s.mc.flash.idSource = true then s.mc.flash.moduleId else s.mc.geoId % 8192)
      ∧ u.beat.period = (if s.mc.flash.nominal60 = true then 1666667 else 2000000)
      ∧ (u.fab.dx, u.fab.dy, u.fab.dz) = (if 1 ≤ s.mc.flash.dx ∧ 1 ≤ s.mc.flash.dy ∧ 1 ≤ s.mc.flash.dz
          ∧ s.mc.flash.dx * s.mc.flash.dy * s.mc.flash.dz ≤ 8192 then (s.mc.flash.dx, s.mc.flash.dy, s.mc.flash.dz) else (16, 16, 32))
      ∧ ((u.mc.bringup = 4 ∧ u.mc.romHalt = s.mc.romHalt ∧ s.mc.flash.imageOk u.mc.image = true)
        ∨ (u.mc.bringup = 3 ∧ u.mc.romHalt = true ∧ ∀ b, s.mc.flash.imageOk b = false)))
  ∧ (∀ (s : State) (l : List TestUnit) (x : Training), s.bringReady = true → s.mc.bringup = 13 → exec (.bringupStepComplete l x) s = .next (s.tick x.t).step14)
  ∧ ∀ (f : Flash) (b : Bool), f.imageOk b = true → f.minSecurity ≤ f.secVersion b ∧ f.isRejected b = false ∧ (b = f.active → f.attempts < 3)

/-! ### Management and test access (13 R459 to R466) -/

/-- MCTP_PRIORITY_MESSAGE, GET_VENDOR_DEFINED_MESSAGE_SUPPORT, I3C_DYNAMIC_ADDRESS, SET_ENDPOINT_ID, PLDM_EVENTS_ENABLE, GET_SENSOR_READING, the four effecters,
FIRMWARE_UPDATE_TRANSFER and ACTIVATE_FIRMWARE. A bus that is not served answers nothing. -/
def Obligations.Management : Prop :=
  (∀ s : State, s.busServed = false → (∀ v x h, exec (.mctpPriorityMessage v x h) s = .next s) ∧ (∀ b, exec (.pldmEventsEnable b) s = .next s)
    ∧ (∀ x, exec (.getSensorReading x) s = .next s) ∧ (∀ n, exec (.coolantFlowEffecter n) s = .next s ∧ exec (.plateLimitEffecter n) s = .next s)
    ∧ ∀ n t, exec (.digitalSetpointEffecter n t) s = .next (s.tick t))
  ∧ (∀ s : State, s.busServed = true →
    (∀ (v : BitVec 16) (x : Byte) (h : BitVec 512), ((v ≠ s.mc.flash.vendorId ∨ x ≠ 1) → exec (.mctpPriorityMessage v x h) s = .next (s.emit .mctpError))
      ∧ (v = s.mc.flash.vendorId → x = 1 → exec (.mctpPriorityMessage v x h) s
        = .next { s with host := { s.host with mctpQ := s.host.mctpQ ++ [⟨true, 0, h⟩] } }))
    ∧ exec .getVendorDefined s = .next (s.emit (.mctpVendor s.mc.flash.vendorId))
    ∧ (∀ a, exec (.i3cDynamicAddress a) s = .next { s with mgmt := { s.mgmt with i3c := some a } })
    ∧ (∀ e, exec (.setEndpointId e) s = .next { s with mgmt := { s.mgmt with eid := e } })
    ∧ (∀ b, exec (.pldmEventsEnable b) s = .next { s with mgmt := { s.mgmt with events := b } })
    ∧ (∀ x : PldmSensor, ∃ (u : State) (v : Int), exec (.getSensorReading x) s = .next (u.emit (.pldmReading (some v)))
      ∧ { u with freeCtr := s.freeCtr } = s ∧ (x ≠ .inputVoltage → u = s)
      ∧ (x = .inputPower → v = s.tg.inputW) ∧ (x = .allowance → v ≤ s.tg.allowance ∧ s.tg.allowance < v + 1) ∧ (x = .coolantInlet → v = s.heat.inlet)
      ∧ (x = .coldPlate → v = s.heat.plate) ∧ (x = .modelPlate → v ≤ s.heat.model ∧ s.heat.model < v + 1) ∧ (∀ h, x = .hbmStack h → v = (s.stack h).temp)
      ∧ (x = .tollgateState → v = s.tg.st) ∧ (x = .beatValid → v = if s.beat.valid = true then 1 else 0))
    ∧ (∀ n t, (n ≤ 3300 → exec (.digitalSetpointEffecter n t) s = .next ((s.tick t).writeSetpoint n s.tg.deep t))
      ∧ (3300 < n → exec (.digitalSetpointEffecter n t) s = .next (s.tick t)))
    ∧ (∀ b t, exec (.deepFloorEffecter b t) s = .next ((s.tick t).writeSetpoint s.tg.digitalW b t))
    ∧ (∀ n, ∃ h : Heat, exec (.coolantFlowEffecter n) s = .next { s with heat := h } ∧ (20 ≤ n → n ≤ 40 → h.flow = n) ∧ ((n < 20 ∨ 40 < n) → h.flow = s.heat.flow)
      ∧ { h with flow := s.heat.flow } = s.heat)
    ∧ (∀ n, ∃ h : Heat, exec (.plateLimitEffecter n) s = .next { s with heat := h } ∧ (40 ≤ n → n ≤ 85 → h.limit = n) ∧ ((n < 40 ∨ 85 < n) → h.limit = s.heat.limit)
      ∧ { h with limit := s.heat.limit } = s.heat))
  ∧ (∀ (s : State) (bs : List Byte), s.romServed = true → ∃ f : Flash,
      exec (.firmwareUpdateTransfer 1 bs) s = .next { s with mc := { s.mc with flash := f }, mgmt := { s.mgmt with update := if s.mc.flash.accepts bs = true then some (1, bs) else none } }
      ∧ f.image (!s.mc.flash.active) = bs ∧ f.image s.mc.flash.active = s.mc.flash.image s.mc.flash.active ∧ f.active = s.mc.flash.active
      ∧ f.isRejected (!s.mc.flash.active) = !s.mc.flash.accepts bs
      ∧ exec (.firmwareUpdateTransfer 2 bs) s = .next { s with mgmt := { s.mgmt with update := some (2, bs) } }
      ∧ ∀ n, n ≠ 1 → n ≠ 2 → exec (.firmwareUpdateTransfer n bs) s = .next s)
  ∧ ∀ s : State, s.romServed = true →
      (s.mgmt.update = none → exec .activateFirmware s = .next s)
      ∧ (∀ bs, s.mgmt.update = some (1, bs) → exec .activateFirmware s = .next { s with mgmt := { s.mgmt with update := none }, mc := { s.mc with flash := { s.mc.flash with active := !s.mc.flash.active, attempts := 0 } } })
      ∧ ∀ bs, s.mgmt.update = some (2, bs) → exec .activateFirmware s = .next { s with mgmt := { s.mgmt with update := none, pendingCfg := some bs } }

/-- The bytes of the SPDM reply that a command gave: the model's layout bytes (log 13), then the content. -/
def Sys2Proof.Machine.spdmReplied (s : State) (i : Instr) (stage : Nat) (old content : List Byte) : Prop :=
  ∃ bs pre : List Byte, bs = pre ++ content ∧ exec i s = .next { s with freeCtr := s.freeCtr + 1, out := s.out ++ [.spdm bs], mgmt := { s.mgmt with spdm := stage, transcript := old ++ bs } }

/-- GET_VERSION, GET_CAPABILITIES, NEGOTIATE_ALGORITHMS, GET_DIGESTS, GET_CERTIFICATE, CHALLENGE and GET_MEASUREMENTS (13 R459, R460): the exchange goes in
order; only ECDSA P-384 with SHA-384 is agreed; digests are of slot 0; signed replies end with a signature over the transcript, the nonce and the content. The
layout bytes of SPDM replies are free (log 13). -/
def Sys2Proof.Claims.Spdm : Prop :=
  ∀ s : State, s.busServed = true →
    spdmReplied s .getVersion 1 [] [0x12]
    ∧ (s.mgmt.spdm = 1 → spdmReplied s .getCapabilities 2 s.mgmt.transcript [])
    ∧ (s.mgmt.spdm ≠ 1 → exec .getCapabilities s = .next (s.emit .spdmError))
    ∧ (s.mgmt.spdm = 2 → spdmReplied s (.negotiateAlgorithms true true) 3 s.mgmt.transcript [])
    ∧ (∀ a b, (s.mgmt.spdm ≠ 2 ∨ a = false ∨ b = false) → exec (.negotiateAlgorithms a b) s = .next (s.emit .spdmError))
    ∧ (s.mgmt.spdm = 3 →
      spdmReplied s .getDigests 3 s.mgmt.transcript (sha384 s.mc.flash.certs)
      ∧ (∀ off len, spdmReplied s (.getCertificate 0 off len) 3 s.mgmt.transcript ((s.mc.flash.certs.drop off).take len))
      ∧ (∀ nonce, spdmReplied s (.challenge 0 nonce) 3 s.mgmt.transcript (sha384 s.mc.flash.certs
        ++ Config.sign (s.mgmt.transcript ++ bytesOfNat 32 nonce.toNat ++ sha384 s.mc.flash.certs)))
      ∧ (∀ nonce i d, 1 ≤ i → i < 255 → s.mgmt.measured[i - 1]? = some d → spdmReplied s (.getMeasurements i nonce) 3 s.mgmt.transcript (d
        ++ Config.sign (s.mgmt.transcript ++ bytesOfNat 32 nonce.toNat ++ d)))
      ∧ (∀ nonce, spdmReplied s (.getMeasurements 0 nonce) 3 s.mgmt.transcript ([6] ++ Config.sign (s.mgmt.transcript ++ bytesOfNat 32 nonce.toNat ++ [6]))))
    ∧ ((s.mgmt.spdm ≠ 3) → exec .getDigests s = .next (s.emit .spdmError) ∧ (∀ a b c, exec (.getCertificate a b c) s = .next (s.emit .spdmError))
      ∧ (∀ a b, exec (.challenge a b) s = .next (s.emit .spdmError)) ∧ ∀ a b, exec (.getMeasurements a b) s = .next (s.emit .spdmError))
    ∧ (∀ slot, slot ≠ 0 → (∀ b c, exec (.getCertificate slot b c) s = .next (s.emit .spdmError)) ∧ ∀ b, exec (.challenge slot b) s = .next (s.emit .spdmError))

/-- EXTEST, SAMPLE_PRELOAD, IDCODE, TESTMODE, WRAPSEL, BYPASS and TAP_RESET (13 R465, R466, Table 13-8): the instruction selected and what is shifted out; test
mode begins only with RESET_N low. -/
def Sys2Proof.Claims.TestAccess : Prop :=
  ∀ s : State, s.pwr.switch = true →
    (∀ p, exec (.samplePreload p) s = .next { s with out := s.out ++ [.jtag p], mgmt := { s.mgmt with tap := .sample } })
    ∧ (∃ l : List Bool, exec .idcode s = .next { s with out := s.out ++ [.jtag l], mgmt := { s.mgmt with tap := .idcode } } ∧ l.length = 32
      ∧ ∀ i < 32, l[i]? = some ((0xE1600B5 + 2 ^ 28 * (s.mc.flash.stepping % 16)) / 2 ^ i % 2 == 1))
    ∧ (∀ x, exec (.wrapsel x) s = .next { s with mgmt := { s.mgmt with tap := .wrapsel, stackSel := x } })
    ∧ exec .bypass s = .next { s with out := s.out ++ [.jtag [false]], mgmt := { s.mgmt with tap := .bypass } }
    ∧ exec .tapReset s = .next { s with mgmt := { s.mgmt with tap := .idcode } }
    ∧ (∀ c, (s.mc.testMode = true → exec (.extest c) s = .next { s with mgmt := { s.mgmt with tap := .extest, cells := c } })
      ∧ (s.mc.testMode = false → exec (.extest c) s = .next s))
    ∧ (s.mc.resetNLow = false → exec .testmode s = .next s)
    ∧ (s.mc.resetNLow = true → ∃ u : State, exec .testmode s = .next u ∧ u.mc.testMode = true ∧ u.mgmt.tap = .testmode ∧ u.pwr.alive = false
      ∧ (∀ n < 12, (u.port n).width = 0) ∧ u.host.linkUp = false ∧ u.mem = s.mem)

/-! ### Statements made of several claims -/

/-- Integer and FP32 arithmetic of recipes (03 Table 3-7). -/
def Obligations.ArithmeticResults : Prop := Sys2Proof.Claims.IntegerResults ∧ Sys2Proof.Claims.FloatResults

/-- The other instructions that write one register (03 R70, Table 3-7). -/
def Obligations.RegisterResults : Prop := Sys2Proof.Claims.OtherRegisterResults ∧ Sys2Proof.Claims.FnResult ∧ Sys2Proof.Claims.ImmediateResults

/-- Comparisons, SEL and VOTE (03 Table 3-7). -/
def Obligations.PredicateResults : Prop := Sys2Proof.Claims.CompareResults ∧ Sys2Proof.Claims.SelectAndVote

/-- Where a strand goes on: NOP, FENCE, BRA, EXIT and the barrier (03 R95, R96). -/
def Obligations.StrandControl : Prop := Sys2Proof.Claims.ControlFlow ∧ Sys2Proof.Claims.Barrier

/-- IF, ELSE, ENDIF and LOOP (03 R94, R96). -/
def Obligations.MasksAndLoops : Prop := Sys2Proof.Claims.MaskStack ∧ Sys2Proof.Claims.LoopInstruction

/-- The checks of 03 R83 and what a descriptor that fails them does. -/
def Obligations.RejectedDescriptors : Prop := Sys2Proof.Claims.DescriptorRejected ∧ Sys2Proof.Claims.DescriptorChecks

/-- The end of a descriptor (03 R84, R85) and the batches of a launch (03 R92). -/
def Obligations.DescriptorsAndBatches : Prop := Sys2Proof.Claims.DescriptorCompletes ∧ Sys2Proof.Claims.LaunchBatches

/-- Waits of cores and packets: their limits (06 R193, 07 R242, 09 R317) and their ends. -/
def Obligations.WaitsAndLimits : Prop := Sys2Proof.Claims.WaitLimits ∧ Sys2Proof.Claims.WaitsEnd

/-- What an ordered operation does to a line, and the order of sub-keys (06 R186, Table 6-8). -/
def Obligations.PressOperations : Prop := Sys2Proof.Claims.PressWords ∧ Sys2Proof.Claims.SubKeyOrder

/-- Contributions, resends and notices as they arrive (06 R187 to R189). -/
def Obligations.PressTraffic : Prop := Sys2Proof.Claims.PressArrivals ∧ Sys2Proof.Claims.UnorderedPress

/-- Requests at a line's home (06 R184, R192, Table 6-7). -/
def Obligations.HomeProtocol : Prop := Sys2Proof.Claims.ImmediateOperations ∧ Sys2Proof.Claims.HomeRequests ∧ Sys2Proof.Claims.L1ReadOfScratch

/-- Fetching a waybill (11 R377) and the checks of its header (11 R388). -/
def Obligations.WaybillsFetchedAndChecked : Prop := Sys2Proof.Claims.WaybillFetched ∧ Sys2Proof.Claims.WaybillChecks

/-- The final receipt and its fields (11 R378, R384, R385, Table 11-3). -/
def Obligations.Receipts : Prop := Sys2Proof.Claims.FinalReceipt ∧ Sys2Proof.Claims.ReceiptFields

/-- Configuration waybills, what they set, and the life of a context (08 R253, 11 R396). -/
def Obligations.ConfigurationAndContexts : Prop := Sys2Proof.Claims.ConfigurationWaybills ∧ Sys2Proof.Claims.ConfigurationResults ∧ Sys2Proof.Claims.ContextLifetime

/-- SHELF_CREATE, SHELF_RELEASE, LEG_LOAD, COPY and TILE_MOVE (11 Table 11-8). -/
def Obligations.MemoryWaybills : Prop := Sys2Proof.Claims.ShelfAndLegLoad ∧ Sys2Proof.Claims.CopyAndMove

/-- Range operations and what each does to one line (06 R195, Table 6-9). -/
def Obligations.RangeWaybills : Prop := Sys2Proof.Claims.RangeOperations ∧ Sys2Proof.Claims.RangeLineResults

/-- STEP, LEG, EXPORT, PORT_RETRAIN, ROUTE_LOAD and ROUTE_DEFAULT (11 Tables 11-9 and 11-10). -/
def Obligations.ControlWaybills : Prop := Sys2Proof.Claims.StartedWaybills ∧ Sys2Proof.Claims.RouteTables

/-- The envelope as the lowest term, and the signals that change its terms (10 R332 to R341). -/
def Obligations.EnvelopeTerms : Prop := Sys2Proof.Claims.EnvelopeAndAllowance ∧ Sys2Proof.Claims.TollgateSignals

/-- The priority ring: its doorbell, its receipts and its two sources (11 R398 to R403). -/
def Obligations.PriorityRing : Prop := Sys2Proof.Claims.PriorityReceipts ∧ Sys2Proof.Claims.PriorityDoorbells

/-- Submission rings and the host link (11 R370 to R380, R408). -/
def Obligations.RingsAndHostLink : Prop := Sys2Proof.Claims.RingCommands ∧ Sys2Proof.Claims.HostLink

/-- Reads and writes of registers (00 R4 to R8, 11 R404). -/
def Obligations.RegisterAccess : Prop := Sys2Proof.Claims.RegisterReads ∧ Sys2Proof.Claims.RegisterWrites

/-- Vertical channels and columns (06 R165 to R168, R196 to R199). -/
def Obligations.CellarEvents : Prop := Sys2Proof.Claims.Retrims ∧ Sys2Proof.Claims.ChannelEvents ∧ Sys2Proof.Claims.ColumnEvents

/-- HBM errors, row retirement and refresh (07 R216 to R221). -/
def Obligations.HbmEvents : Prop := Sys2Proof.Claims.HbmErrors ∧ Sys2Proof.Claims.RowsAndRefresh

/-- The caravan's fills, tiles under regeneration, and spilled stash tiles (07 R238 to R247). -/
def Obligations.CaravanEvents : Prop := Sys2Proof.Claims.OutriderFetch ∧ Sys2Proof.Claims.CaravanFills ∧ Sys2Proof.Claims.TileRegeneration ∧ Sys2Proof.Claims.SpillFetch

/-- Floors, the idle point, turns of clusters and clock steps (10 R348 to R355, 01 R23). -/
def Obligations.FloorsAndTurns : Prop := Sys2Proof.Claims.FloorTransitions ∧ Sys2Proof.Claims.TurnsAndClocks

/-- Data and control flits, replay and credits (09 R302 to R307). -/
def Obligations.FlitTraffic : Prop := Sys2Proof.Claims.FlitReceive ∧ Sys2Proof.Claims.ControlFlits

/-- Widths and training of ports (09 R299, R309, R310), and routes (09 R312 to R314). -/
def Obligations.PortsAndRoutes : Prop := Sys2Proof.Claims.PortWidths ∧ Sys2Proof.Claims.Routing

/-- Admission of legs (10 R361) and of steps (08 R254, R261, R263). -/
def Obligations.Admission : Prop := Sys2Proof.Claims.LegAdmission ∧ Sys2Proof.Claims.StepAdmission

/-- The close of a step (08 R292, R293) and the loss scale after it (02 R59). -/
def Obligations.StepEnds : Prop := Sys2Proof.Claims.StepClose ∧ Sys2Proof.Claims.LossScale

/-- Seals, fetches, verification and buddy mirrors (08 R280 to R288). -/
def Obligations.ShardTraffic : Prop := Sys2Proof.Claims.SealsAndFetches ∧ Sys2Proof.Claims.BuddyMirrors

/-- Fault records (12 R412 to R414) and the faults of cores (12 Table 12-2). -/
def Obligations.FaultHandling : Prop := Sys2Proof.Claims.FaultRecorded ∧ Sys2Proof.Claims.CoreFaults

/-- SPDM (13 R459, R460) and the test access port (13 R465, R466). -/
def Obligations.SpdmAndTestAccess : Prop := Sys2Proof.Claims.Spdm ∧ Sys2Proof.Claims.TestAccess
end

