-- ==== Sys2Proof/Laws/Tables.lean ====
section
/-! SUPPORT. The sparse tables: their canonical form is kept by every operation, a read after a write gives the value written, and a write leaves
every other key alone. -/

namespace Sys2Proof.Machine

open Sys2Proof

variable {α : Type}

/-- The canonical form: keys rise strictly, and no entry is at the default. -/
theorem twf_iff [DecidableEq α] (d : α) (t : Tbl α) : twf d t = true ↔ t.Pairwise (fun a b => a.1 < b.1) ∧ ∀ e ∈ t, e.2 ≠ d := by
  induction t with
  | nil => simp [twf]
  | cons e r ih =>
    obtain ⟨k, v⟩ := e
    cases r with
    | nil => simp [twf]
    | cons e' r' =>
      obtain ⟨k', v'⟩ := e'
      rw [twf, Bool.and_eq_true, Bool.and_eq_true, ih, decide_eq_true_eq, decide_eq_true_eq]
      constructor
      · rintro ⟨⟨hv, hk⟩, hp, hd⟩
        refine ⟨List.pairwise_cons.2 ⟨?_, hp⟩, ?_⟩
        · intro x hx
          rcases List.mem_cons.1 hx with rfl | hx
          · exact hk
          · exact lt_trans hk ((List.pairwise_cons.1 hp).1 x hx)
        · intro x hx
          rcases List.mem_cons.1 hx with rfl | hx
          · exact hv
          · exact hd x hx
      · rintro ⟨hp, hd⟩
        have hp' := List.pairwise_cons.1 hp
        exact ⟨⟨hd (k, v) (List.mem_cons_self ..), hp'.1 (k', v') (List.mem_cons_self ..)⟩, hp'.2, fun x hx => hd x (List.mem_cons_of_mem _ hx)⟩

theorem twf_nil [DecidableEq α] (d : α) : twf d ([] : Tbl α) = true := rfl

/-- Two canonical parts, the first below the second, make a canonical table. -/
theorem twf_append [DecidableEq α] (d : α) {s t : Tbl α} (hs : twf d s = true) (ht : twf d t = true) (h : ∀ a ∈ s, ∀ b ∈ t, a.1 < b.1) :
    twf d (s ++ t) = true := by
  rw [twf_iff] at *
  refine ⟨List.pairwise_append.2 ⟨hs.1, ht.1, h⟩, fun e he => ?_⟩
  rcases List.mem_append.1 he with he | he
  · exact hs.2 e he
  · exact ht.2 e he

theorem twf_filter [DecidableEq α] (d : α) {t : Tbl α} (p : Nat × α → Bool) (h : twf d t = true) : twf d (t.filter p) = true := by
  rw [twf_iff] at *
  exact ⟨h.1.filter _, fun e he => h.2 e (List.mem_filter.1 he).1⟩

theorem mem_tbelow {t : Tbl α} {a : Nat} {e : Nat × α} (h : e ∈ tbelow t a) : e ∈ t ∧ e.1 < a := by simpa [tbelow] using h
theorem mem_tfrom {t : Tbl α} {a : Nat} {e : Nat × α} (h : e ∈ tfrom t a) : e ∈ t ∧ a ≤ e.1 := by simpa [tfrom] using h

theorem twf_tbelow [DecidableEq α] (d : α) {t : Tbl α} (a : Nat) (h : twf d t = true) : twf d (tbelow t a) = true := twf_filter d _ h
theorem twf_tfrom [DecidableEq α] (d : α) {t : Tbl α} (a : Nat) (h : twf d t = true) : twf d (tfrom t a) = true := twf_filter d _ h

/-- A range taken out of a table. -/
theorem twf_cut [DecidableEq α] (d : α) {t : Tbl α} {a b : Nat} (hab : a ≤ b) (h : twf d t = true) : twf d (tbelow t a ++ tfrom t b) = true :=
  twf_append d (twf_tbelow d a h) (twf_tfrom d b h) fun _ hx _ hy => lt_of_lt_of_le (mem_tbelow hx).2 (le_trans hab (mem_tfrom hy).2)

theorem mem_cells {a : Nat} {vs : List α} {e : Nat × α} (h : e ∈ cells a vs) : a ≤ e.1 ∧ e.1 < a + vs.length := by
  induction vs generalizing a with
  | nil => simp [cells] at h
  | cons v r ih =>
    simp only [cells, List.mem_cons] at h
    rcases h with rfl | h
    · simp
    · have := ih h
      simp only [List.length_cons]
      omega

theorem pairwise_cells (a : Nat) (vs : List α) : (cells a vs).Pairwise (fun x y => x.1 < y.1) := by
  induction vs generalizing a with
  | nil => simp [cells]
  | cons v r ih =>
    refine List.pairwise_cons.2 ⟨fun x hx => ?_, ih (a + 1)⟩
    have := (mem_cells hx).1
    simp only
    omega

theorem twf_twrite [DecidableEq α] (d : α) {t : Tbl α} (a : Nat) (vs : List α) (h : twf d t = true) : twf d (twrite d t a vs) = true := by
  refine twf_append d (twf_tbelow d a h) (twf_append d ?_ (twf_tfrom d _ h) ?_) ?_
  · rw [twf_iff]
    exact ⟨(pairwise_cells a vs).filter _, fun e he => by simpa using (List.mem_filter.1 he).2⟩
  · intro x hx y hy
    exact lt_of_lt_of_le (mem_cells (List.mem_filter.1 hx).1).2 (mem_tfrom hy).2
  · intro x hx y hy
    have hx := (mem_tbelow hx).2
    rcases List.mem_append.1 hy with hy | hy
    · exact lt_of_lt_of_le hx (mem_cells (List.mem_filter.1 hy).1).1
    · have := (mem_tfrom hy).2
      omega

theorem twf_tset [DecidableEq α] (d : α) {t : Tbl α} (k : Nat) (v : α) (h : twf d t = true) : twf d (tset d t k v) = true := by
  refine twf_append d (twf_tbelow d k h) (twf_append d ?_ (twf_tfrom d _ h) ?_) ?_
  · split <;> simp_all [twf]
  · intro x hx y hy
    have := (mem_tfrom hy).2
    split at hx
    · simp at hx
    · simp at hx; subst hx; simp only; omega
  · intro x hx y hy
    have hx := (mem_tbelow hx).2
    rcases List.mem_append.1 hy with hy | hy
    · split at hy
      · simp at hy
      · simp at hy; subst hy; simpa using hx
    · have := (mem_tfrom hy).2
      omega

theorem twf_tmod [DecidableEq α] (d : α) {t : Tbl α} (k : Nat) (f : α → α) (h : twf d t = true) : twf d (tmod d t k f) = true := twf_tset d k _ h

/-! ### Reads -/

theorem tget_none (d : α) {t : Tbl α} {k : Nat} (h : ∀ e ∈ t, e.1 ≠ k) : tget d t k = d := by
  induction t with
  | nil => rfl
  | cons e r ih =>
    obtain ⟨k', v⟩ := e
    have h' : k' ≠ k := h (k', v) (List.mem_cons_self ..)
    simp only [tget, h', ↓reduceIte]
    exact ih fun e he => h e (List.mem_cons_of_mem _ he)

theorem tget_append_left (d : α) {s t : Tbl α} {k : Nat} (h : ∀ e ∈ t, e.1 ≠ k) : tget d (s ++ t) k = tget d s k := by
  induction s with
  | nil => simpa [tget] using tget_none d h
  | cons e r ih => simp only [List.cons_append, tget, ih]

theorem tget_append_right (d : α) {s t : Tbl α} {k : Nat} (h : ∀ e ∈ s, e.1 ≠ k) : tget d (s ++ t) k = tget d t k := by
  induction s with
  | nil => rfl
  | cons e r ih =>
    have h' : e.1 ≠ k := h e (List.mem_cons_self ..)
    simp only [List.cons_append, tget, h', ↓reduceIte]
    exact ih fun e he => h e (List.mem_cons_of_mem _ he)

theorem tget_filter (d : α) (t : Tbl α) (k : Nat) (p : Nat × α → Bool) (hp : ∀ v, p (k, v) = true) : tget d (t.filter p) k = tget d t k := by
  induction t with
  | nil => rfl
  | cons e r ih =>
    obtain ⟨k', v⟩ := e
    by_cases hk : k' = k
    · subst hk
      simp [hp v, tget]
    · by_cases h : p (k', v)
      · simp [h, tget, hk, ih]
      · simp [h, tget, hk, ih]

theorem tget_tbelow (d : α) (t : Tbl α) {a k : Nat} (h : k < a) : tget d (tbelow t a) k = tget d t k := tget_filter d t k _ fun _ => by simpa using h
theorem tget_tfrom (d : α) (t : Tbl α) {a k : Nat} (h : a ≤ k) : tget d (tfrom t a) k = tget d t k := tget_filter d t k _ fun _ => by simpa using h

/-- A read after a write: the value written at its key, every other key as before. -/
theorem tget_tset [DecidableEq α] (d : α) (t : Tbl α) (k j : Nat) (v : α) : tget d (tset d t k v) j = if j = k then v else tget d t j := by
  have hmid : ∀ e ∈ (if v = d then ([] : Tbl α) else [(k, v)]), e.1 = k := by
    intro e he
    split at he <;> simp_all
  rcases lt_trichotomy j k with h | h | h
  · rw [if_neg (by omega), tset, tget_append_left d, tget_tbelow d t h]
    intro e he
    rcases List.mem_append.1 he with he | he
    · rw [hmid e he]; omega
    · have := (mem_tfrom he).2; omega
  · subst h
    rw [if_pos rfl, tset, tget_append_right d (fun e he => by have := (mem_tbelow he).2; omega),
      tget_append_left d (fun e he => by have := (mem_tfrom he).2; omega)]
    split <;> simp_all [tget]
  · rw [if_neg (by omega), tset, tget_append_right d (fun e he => by have := (mem_tbelow he).2; omega),
      tget_append_right d (fun e he => by rw [hmid e he]; omega), tget_tfrom d t (by omega)]

theorem tget_tmod [DecidableEq α] (d : α) (t : Tbl α) (k j : Nat) (f : α → α) : tget d (tmod d t k f) j = if j = k then f (tget d t k) else tget d t j :=
  tget_tset d t k j _

theorem tget_cells (d : α) (a : Nat) (vs : List α) {j : Nat} (h : a ≤ j ∧ j < a + vs.length) : tget d (cells a vs) j = vs.getD (j - a) d := by
  induction vs generalizing a with
  | nil => simp only [List.length_nil] at h; omega
  | cons v r ih =>
    simp only [cells, tget, List.length_cons] at *
    by_cases hj : a = j
    · subst hj; simp
    · have h3 : j - a = (j - (a + 1)) + 1 := by omega
      rw [if_neg hj, ih (a + 1) (by omega), h3, List.getD_cons_succ]

theorem tget_drop_default [DecidableEq α] (d : α) {t : Tbl α} (h : t.Pairwise fun x y => x.1 < y.1) (k : Nat) :
    tget d (t.filter fun e => decide (e.2 ≠ d)) k = tget d t k := by
  induction t with
  | nil => rfl
  | cons e r ih =>
    have hp := List.pairwise_cons.1 h
    by_cases hv : e.2 = d
    · simp only [List.filter_cons, hv, ne_eq, not_true_eq_false, decide_false, Bool.false_eq_true, ↓reduceIte, ih hp.2, tget]
      split
      · rename_i hk
        exact tget_none d fun x hx => by have := hp.1 x hx; omega
      · rfl
    · simp only [List.filter_cons, hv, ne_eq, not_false_eq_true, decide_true, ↓reduceIte, tget, ih hp.2]

/-- A read after a write of consecutive values. -/
theorem tget_twrite [DecidableEq α] (d : α) (t : Tbl α) (a : Nat) (vs : List α) (j : Nat) :
    tget d (twrite d t a vs) j = if a ≤ j ∧ j < a + vs.length then vs.getD (j - a) d else tget d t j := by
  have hmid : ∀ e ∈ (cells a vs).filter (fun e => decide (e.2 ≠ d)), a ≤ e.1 ∧ e.1 < a + vs.length := fun e he =>
    mem_cells (List.mem_filter.1 he).1
  split
  next h =>
    rw [twrite, tget_append_right d (fun e he => by have := (mem_tbelow he).2; omega),
      tget_append_left d (fun e he => by have := (mem_tfrom he).2; omega), tget_drop_default d (pairwise_cells a vs), tget_cells d a vs h]
  next h =>
    by_cases hlt : j < a
    · rw [twrite, tget_append_left d, tget_tbelow d t hlt]
      intro e he
      rcases List.mem_append.1 he with he | he
      · have := hmid e he; omega
      · have := (mem_tfrom he).2; omega
    · rw [twrite, tget_append_right d (fun e he => by have := (mem_tbelow he).2; omega),
        tget_append_right d (fun e he => by have := hmid e he; omega), tget_tfrom d t (by omega)]

/-- Reading a range value by value. -/
theorem tread_eq [DecidableEq α] (d : α) (t : Tbl α) (h : twf d t = true) (a n : Nat) : tread d t a n = (List.range n).map fun i => tget d t (a + i) := by
  have key : ∀ (n a : Nat) (u : Tbl α), u.Pairwise (fun x y => x.1 < y.1) → (∀ e ∈ u, a ≤ e.1) →
      tfill d a n u = (List.range n).map fun i => tget d u (a + i) := by
    intro n
    induction n with
    | zero => intro a u _ _; cases u <;> rfl
    | succ n ih =>
      intro a u hp ha
      rw [List.range_succ_eq_map, List.map_cons, List.map_map]
      have hshift : ∀ w : Tbl α, ((fun i => tget d w (a + i)) ∘ Nat.succ) = fun i => tget d w (a + 1 + i) := by
        intro w; funext i; simp only [Function.comp_apply]; congr 1; omega
      cases u with
      | nil =>
        rw [tfill, ih (a + 1) [] List.Pairwise.nil (by simp), hshift]
        rfl
      | cons e r =>
        obtain ⟨k, v⟩ := e
        have hp' := List.pairwise_cons.1 hp
        have hk : a ≤ k := ha (k, v) (List.mem_cons_self ..)
        rw [tfill, hshift]
        by_cases hka : k = a
        · subst hka
          have hr : ∀ e ∈ r, k + 1 ≤ e.1 := fun e he => hp'.1 e he
          rw [if_pos rfl, ih (k + 1) r hp'.2 hr]
          simp only [Nat.add_zero, tget, ↓reduceIte]
          congr 1
          refine List.map_congr_left fun i _ => ?_
          rw [if_neg (by omega)]
        · have hr : ∀ e ∈ (k, v) :: r, a + 1 ≤ e.1 := by
            intro e he
            rcases List.mem_cons.1 he with rfl | he
            · simp only; omega
            · have := hp'.1 e he; simp only at this; omega
          rw [if_neg hka, ih (a + 1) _ hp hr, tget_none d (fun e he => by have := hr e he; omega)]
  rw [twf_iff] at h
  rw [tread, key n a _ (h.1.filter _) (fun e he => by have := (List.mem_filter.1 he).2; simp at this; exact this.1)]
  refine List.map_congr_left fun i hi => ?_
  refine tget_filter d t _ _ fun v => ?_
  have := List.mem_range.1 hi
  simp; omega

end Sys2Proof.Machine
end

