-- ==== Sys2Proof/Laws/State.lean ====
section
/-! SUPPORT. One lemma per part of the state and update: what each update leaves as it was, and what its own part reads afterwards. -/

namespace Sys2Proof.Machine

open Sys2Proof

variable (s : State)

@[simp] theorem State.modCx_pending (c : Nat) (f : Ctx → Ctx) : (s.modCx c f).pending = s.pending := rfl
@[simp] theorem State.modCx_now (c : Nat) (f : Ctx → Ctx) : (s.modCx c f).now = s.now := rfl
@[simp] theorem State.modCx_freeCtr (c : Nat) (f : Ctx → Ctx) : (s.modCx c f).freeCtr = s.freeCtr := rfl
@[simp] theorem State.modCx_out (c : Nat) (f : Ctx → Ctx) : (s.modCx c f).out = s.out := rfl
@[simp] theorem State.modCx_mem (c : Nat) (f : Ctx → Ctx) : (s.modCx c f).mem = s.mem := rfl
@[simp] theorem State.modCx_cel (c : Nat) (f : Ctx → Ctx) : (s.modCx c f).cel = s.cel := rfl
@[simp] theorem State.modCx_host (c : Nat) (f : Ctx → Ctx) : (s.modCx c f).host = s.host := rfl
@[simp] theorem State.modCx_mc (c : Nat) (f : Ctx → Ctx) : (s.modCx c f).mc = s.mc := rfl
@[simp] theorem State.modCx_cl (c : Nat) (f : Ctx → Ctx) : (s.modCx c f).cl = s.cl := rfl
@[simp] theorem State.modCx_cores (c : Nat) (f : Ctx → Ctx) : (s.modCx c f).cores = s.cores := rfl
@[simp] theorem State.modCx_legs (c : Nat) (f : Ctx → Ctx) : (s.modCx c f).legs = s.legs := rfl
@[simp] theorem State.modCx_nextLeg (c : Nat) (f : Ctx → Ctx) : (s.modCx c f).nextLeg = s.nextLeg := rfl
@[simp] theorem State.modCx_hbm (c : Nat) (f : Ctx → Ctx) : (s.modCx c f).hbm = s.hbm := rfl
@[simp] theorem State.modCx_fab (c : Nat) (f : Ctx → Ctx) : (s.modCx c f).fab = s.fab := rfl
@[simp] theorem State.modCx_tg (c : Nat) (f : Ctx → Ctx) : (s.modCx c f).tg = s.tg := rfl
@[simp] theorem State.modCx_beat (c : Nat) (f : Ctx → Ctx) : (s.modCx c f).beat = s.beat := rfl
@[simp] theorem State.modCx_heat (c : Nat) (f : Ctx → Ctx) : (s.modCx c f).heat = s.heat := rfl
@[simp] theorem State.modCx_pwr (c : Nat) (f : Ctx → Ctx) : (s.modCx c f).pwr = s.pwr := rfl
@[simp] theorem State.modCx_mgmt (c : Nat) (f : Ctx → Ctx) : (s.modCx c f).mgmt = s.mgmt := rfl

@[simp] theorem State.modClu_pending (c : Nat) (f : Cluster → Cluster) : (s.modClu c f).pending = s.pending := rfl
@[simp] theorem State.modClu_now (c : Nat) (f : Cluster → Cluster) : (s.modClu c f).now = s.now := rfl
@[simp] theorem State.modClu_freeCtr (c : Nat) (f : Cluster → Cluster) : (s.modClu c f).freeCtr = s.freeCtr := rfl
@[simp] theorem State.modClu_out (c : Nat) (f : Cluster → Cluster) : (s.modClu c f).out = s.out := rfl
@[simp] theorem State.modClu_mem (c : Nat) (f : Cluster → Cluster) : (s.modClu c f).mem = s.mem := rfl
@[simp] theorem State.modClu_cel (c : Nat) (f : Cluster → Cluster) : (s.modClu c f).cel = s.cel := rfl
@[simp] theorem State.modClu_host (c : Nat) (f : Cluster → Cluster) : (s.modClu c f).host = s.host := rfl
@[simp] theorem State.modClu_mc (c : Nat) (f : Cluster → Cluster) : (s.modClu c f).mc = s.mc := rfl
@[simp] theorem State.modClu_ctx (c : Nat) (f : Cluster → Cluster) : (s.modClu c f).ctx = s.ctx := rfl
@[simp] theorem State.modClu_cores (c : Nat) (f : Cluster → Cluster) : (s.modClu c f).cores = s.cores := rfl
@[simp] theorem State.modClu_legs (c : Nat) (f : Cluster → Cluster) : (s.modClu c f).legs = s.legs := rfl
@[simp] theorem State.modClu_nextLeg (c : Nat) (f : Cluster → Cluster) : (s.modClu c f).nextLeg = s.nextLeg := rfl
@[simp] theorem State.modClu_hbm (c : Nat) (f : Cluster → Cluster) : (s.modClu c f).hbm = s.hbm := rfl
@[simp] theorem State.modClu_fab (c : Nat) (f : Cluster → Cluster) : (s.modClu c f).fab = s.fab := rfl
@[simp] theorem State.modClu_tg (c : Nat) (f : Cluster → Cluster) : (s.modClu c f).tg = s.tg := rfl
@[simp] theorem State.modClu_beat (c : Nat) (f : Cluster → Cluster) : (s.modClu c f).beat = s.beat := rfl
@[simp] theorem State.modClu_heat (c : Nat) (f : Cluster → Cluster) : (s.modClu c f).heat = s.heat := rfl
@[simp] theorem State.modClu_pwr (c : Nat) (f : Cluster → Cluster) : (s.modClu c f).pwr = s.pwr := rfl
@[simp] theorem State.modClu_mgmt (c : Nat) (f : Cluster → Cluster) : (s.modClu c f).mgmt = s.mgmt := rfl

@[simp] theorem State.modCnt_pending (c : Nat) (f : ClCnt → ClCnt) : (s.modCnt c f).pending = s.pending := rfl
@[simp] theorem State.modCnt_now (c : Nat) (f : ClCnt → ClCnt) : (s.modCnt c f).now = s.now := rfl
@[simp] theorem State.modCnt_freeCtr (c : Nat) (f : ClCnt → ClCnt) : (s.modCnt c f).freeCtr = s.freeCtr := rfl
@[simp] theorem State.modCnt_out (c : Nat) (f : ClCnt → ClCnt) : (s.modCnt c f).out = s.out := rfl
@[simp] theorem State.modCnt_mem (c : Nat) (f : ClCnt → ClCnt) : (s.modCnt c f).mem = s.mem := rfl
@[simp] theorem State.modCnt_cel (c : Nat) (f : ClCnt → ClCnt) : (s.modCnt c f).cel = s.cel := rfl
@[simp] theorem State.modCnt_host (c : Nat) (f : ClCnt → ClCnt) : (s.modCnt c f).host = s.host := rfl
@[simp] theorem State.modCnt_mc (c : Nat) (f : ClCnt → ClCnt) : (s.modCnt c f).mc = s.mc := rfl
@[simp] theorem State.modCnt_ctx (c : Nat) (f : ClCnt → ClCnt) : (s.modCnt c f).ctx = s.ctx := rfl
@[simp] theorem State.modCnt_cores (c : Nat) (f : ClCnt → ClCnt) : (s.modCnt c f).cores = s.cores := rfl
@[simp] theorem State.modCnt_legs (c : Nat) (f : ClCnt → ClCnt) : (s.modCnt c f).legs = s.legs := rfl
@[simp] theorem State.modCnt_nextLeg (c : Nat) (f : ClCnt → ClCnt) : (s.modCnt c f).nextLeg = s.nextLeg := rfl
@[simp] theorem State.modCnt_hbm (c : Nat) (f : ClCnt → ClCnt) : (s.modCnt c f).hbm = s.hbm := rfl
@[simp] theorem State.modCnt_fab (c : Nat) (f : ClCnt → ClCnt) : (s.modCnt c f).fab = s.fab := rfl
@[simp] theorem State.modCnt_tg (c : Nat) (f : ClCnt → ClCnt) : (s.modCnt c f).tg = s.tg := rfl
@[simp] theorem State.modCnt_beat (c : Nat) (f : ClCnt → ClCnt) : (s.modCnt c f).beat = s.beat := rfl
@[simp] theorem State.modCnt_heat (c : Nat) (f : ClCnt → ClCnt) : (s.modCnt c f).heat = s.heat := rfl
@[simp] theorem State.modCnt_pwr (c : Nat) (f : ClCnt → ClCnt) : (s.modCnt c f).pwr = s.pwr := rfl
@[simp] theorem State.modCnt_mgmt (c : Nat) (f : ClCnt → ClCnt) : (s.modCnt c f).mgmt = s.mgmt := rfl

@[simp] theorem State.modCor_pending (k : Nat) (f : Core → Core) : (s.modCor k f).pending = s.pending := rfl
@[simp] theorem State.modCor_now (k : Nat) (f : Core → Core) : (s.modCor k f).now = s.now := rfl
@[simp] theorem State.modCor_freeCtr (k : Nat) (f : Core → Core) : (s.modCor k f).freeCtr = s.freeCtr := rfl
@[simp] theorem State.modCor_out (k : Nat) (f : Core → Core) : (s.modCor k f).out = s.out := rfl
@[simp] theorem State.modCor_mem (k : Nat) (f : Core → Core) : (s.modCor k f).mem = s.mem := rfl
@[simp] theorem State.modCor_cel (k : Nat) (f : Core → Core) : (s.modCor k f).cel = s.cel := rfl
@[simp] theorem State.modCor_host (k : Nat) (f : Core → Core) : (s.modCor k f).host = s.host := rfl
@[simp] theorem State.modCor_mc (k : Nat) (f : Core → Core) : (s.modCor k f).mc = s.mc := rfl
@[simp] theorem State.modCor_ctx (k : Nat) (f : Core → Core) : (s.modCor k f).ctx = s.ctx := rfl
@[simp] theorem State.modCor_cl (k : Nat) (f : Core → Core) : (s.modCor k f).cl = s.cl := rfl
@[simp] theorem State.modCor_legs (k : Nat) (f : Core → Core) : (s.modCor k f).legs = s.legs := rfl
@[simp] theorem State.modCor_nextLeg (k : Nat) (f : Core → Core) : (s.modCor k f).nextLeg = s.nextLeg := rfl
@[simp] theorem State.modCor_hbm (k : Nat) (f : Core → Core) : (s.modCor k f).hbm = s.hbm := rfl
@[simp] theorem State.modCor_fab (k : Nat) (f : Core → Core) : (s.modCor k f).fab = s.fab := rfl
@[simp] theorem State.modCor_tg (k : Nat) (f : Core → Core) : (s.modCor k f).tg = s.tg := rfl
@[simp] theorem State.modCor_beat (k : Nat) (f : Core → Core) : (s.modCor k f).beat = s.beat := rfl
@[simp] theorem State.modCor_heat (k : Nat) (f : Core → Core) : (s.modCor k f).heat = s.heat := rfl
@[simp] theorem State.modCor_pwr (k : Nat) (f : Core → Core) : (s.modCor k f).pwr = s.pwr := rfl
@[simp] theorem State.modCor_mgmt (k : Nat) (f : Core → Core) : (s.modCor k f).mgmt = s.mgmt := rfl

@[simp] theorem State.modCol_pending (k : Nat) (f : Column → Column) : (s.modCol k f).pending = s.pending := rfl
@[simp] theorem State.modCol_now (k : Nat) (f : Column → Column) : (s.modCol k f).now = s.now := rfl
@[simp] theorem State.modCol_freeCtr (k : Nat) (f : Column → Column) : (s.modCol k f).freeCtr = s.freeCtr := rfl
@[simp] theorem State.modCol_out (k : Nat) (f : Column → Column) : (s.modCol k f).out = s.out := rfl
@[simp] theorem State.modCol_mem (k : Nat) (f : Column → Column) : (s.modCol k f).mem = s.mem := rfl
@[simp] theorem State.modCol_host (k : Nat) (f : Column → Column) : (s.modCol k f).host = s.host := rfl
@[simp] theorem State.modCol_mc (k : Nat) (f : Column → Column) : (s.modCol k f).mc = s.mc := rfl
@[simp] theorem State.modCol_ctx (k : Nat) (f : Column → Column) : (s.modCol k f).ctx = s.ctx := rfl
@[simp] theorem State.modCol_cl (k : Nat) (f : Column → Column) : (s.modCol k f).cl = s.cl := rfl
@[simp] theorem State.modCol_cores (k : Nat) (f : Column → Column) : (s.modCol k f).cores = s.cores := rfl
@[simp] theorem State.modCol_legs (k : Nat) (f : Column → Column) : (s.modCol k f).legs = s.legs := rfl
@[simp] theorem State.modCol_nextLeg (k : Nat) (f : Column → Column) : (s.modCol k f).nextLeg = s.nextLeg := rfl
@[simp] theorem State.modCol_hbm (k : Nat) (f : Column → Column) : (s.modCol k f).hbm = s.hbm := rfl
@[simp] theorem State.modCol_fab (k : Nat) (f : Column → Column) : (s.modCol k f).fab = s.fab := rfl
@[simp] theorem State.modCol_tg (k : Nat) (f : Column → Column) : (s.modCol k f).tg = s.tg := rfl
@[simp] theorem State.modCol_beat (k : Nat) (f : Column → Column) : (s.modCol k f).beat = s.beat := rfl
@[simp] theorem State.modCol_heat (k : Nat) (f : Column → Column) : (s.modCol k f).heat = s.heat := rfl
@[simp] theorem State.modCol_pwr (k : Nat) (f : Column → Column) : (s.modCol k f).pwr = s.pwr := rfl
@[simp] theorem State.modCol_mgmt (k : Nat) (f : Column → Column) : (s.modCol k f).mgmt = s.mgmt := rfl

@[simp] theorem State.modRing_pending (n : Nat) (f : Ring → Ring) : (s.modRing n f).pending = s.pending := rfl
@[simp] theorem State.modRing_now (n : Nat) (f : Ring → Ring) : (s.modRing n f).now = s.now := rfl
@[simp] theorem State.modRing_freeCtr (n : Nat) (f : Ring → Ring) : (s.modRing n f).freeCtr = s.freeCtr := rfl
@[simp] theorem State.modRing_out (n : Nat) (f : Ring → Ring) : (s.modRing n f).out = s.out := rfl
@[simp] theorem State.modRing_mem (n : Nat) (f : Ring → Ring) : (s.modRing n f).mem = s.mem := rfl
@[simp] theorem State.modRing_cel (n : Nat) (f : Ring → Ring) : (s.modRing n f).cel = s.cel := rfl
@[simp] theorem State.modRing_mc (n : Nat) (f : Ring → Ring) : (s.modRing n f).mc = s.mc := rfl
@[simp] theorem State.modRing_ctx (n : Nat) (f : Ring → Ring) : (s.modRing n f).ctx = s.ctx := rfl
@[simp] theorem State.modRing_cl (n : Nat) (f : Ring → Ring) : (s.modRing n f).cl = s.cl := rfl
@[simp] theorem State.modRing_cores (n : Nat) (f : Ring → Ring) : (s.modRing n f).cores = s.cores := rfl
@[simp] theorem State.modRing_legs (n : Nat) (f : Ring → Ring) : (s.modRing n f).legs = s.legs := rfl
@[simp] theorem State.modRing_nextLeg (n : Nat) (f : Ring → Ring) : (s.modRing n f).nextLeg = s.nextLeg := rfl
@[simp] theorem State.modRing_hbm (n : Nat) (f : Ring → Ring) : (s.modRing n f).hbm = s.hbm := rfl
@[simp] theorem State.modRing_fab (n : Nat) (f : Ring → Ring) : (s.modRing n f).fab = s.fab := rfl
@[simp] theorem State.modRing_tg (n : Nat) (f : Ring → Ring) : (s.modRing n f).tg = s.tg := rfl
@[simp] theorem State.modRing_beat (n : Nat) (f : Ring → Ring) : (s.modRing n f).beat = s.beat := rfl
@[simp] theorem State.modRing_heat (n : Nat) (f : Ring → Ring) : (s.modRing n f).heat = s.heat := rfl
@[simp] theorem State.modRing_pwr (n : Nat) (f : Ring → Ring) : (s.modRing n f).pwr = s.pwr := rfl
@[simp] theorem State.modRing_mgmt (n : Nat) (f : Ring → Ring) : (s.modRing n f).mgmt = s.mgmt := rfl

@[simp] theorem State.modStack_pending (h : Nat) (f : Stack → Stack) : (s.modStack h f).pending = s.pending := rfl
@[simp] theorem State.modStack_now (h : Nat) (f : Stack → Stack) : (s.modStack h f).now = s.now := rfl
@[simp] theorem State.modStack_freeCtr (h : Nat) (f : Stack → Stack) : (s.modStack h f).freeCtr = s.freeCtr := rfl
@[simp] theorem State.modStack_out (h : Nat) (f : Stack → Stack) : (s.modStack h f).out = s.out := rfl
@[simp] theorem State.modStack_mem (h : Nat) (f : Stack → Stack) : (s.modStack h f).mem = s.mem := rfl
@[simp] theorem State.modStack_cel (h : Nat) (f : Stack → Stack) : (s.modStack h f).cel = s.cel := rfl
@[simp] theorem State.modStack_host (h : Nat) (f : Stack → Stack) : (s.modStack h f).host = s.host := rfl
@[simp] theorem State.modStack_mc (h : Nat) (f : Stack → Stack) : (s.modStack h f).mc = s.mc := rfl
@[simp] theorem State.modStack_ctx (h : Nat) (f : Stack → Stack) : (s.modStack h f).ctx = s.ctx := rfl
@[simp] theorem State.modStack_cl (h : Nat) (f : Stack → Stack) : (s.modStack h f).cl = s.cl := rfl
@[simp] theorem State.modStack_cores (h : Nat) (f : Stack → Stack) : (s.modStack h f).cores = s.cores := rfl
@[simp] theorem State.modStack_legs (h : Nat) (f : Stack → Stack) : (s.modStack h f).legs = s.legs := rfl
@[simp] theorem State.modStack_nextLeg (h : Nat) (f : Stack → Stack) : (s.modStack h f).nextLeg = s.nextLeg := rfl
@[simp] theorem State.modStack_fab (h : Nat) (f : Stack → Stack) : (s.modStack h f).fab = s.fab := rfl
@[simp] theorem State.modStack_tg (h : Nat) (f : Stack → Stack) : (s.modStack h f).tg = s.tg := rfl
@[simp] theorem State.modStack_beat (h : Nat) (f : Stack → Stack) : (s.modStack h f).beat = s.beat := rfl
@[simp] theorem State.modStack_heat (h : Nat) (f : Stack → Stack) : (s.modStack h f).heat = s.heat := rfl
@[simp] theorem State.modStack_pwr (h : Nat) (f : Stack → Stack) : (s.modStack h f).pwr = s.pwr := rfl
@[simp] theorem State.modStack_mgmt (h : Nat) (f : Stack → Stack) : (s.modStack h f).mgmt = s.mgmt := rfl

@[simp] theorem State.modPort_pending (p : Nat) (f : Port → Port) : (s.modPort p f).pending = s.pending := rfl
@[simp] theorem State.modPort_now (p : Nat) (f : Port → Port) : (s.modPort p f).now = s.now := rfl
@[simp] theorem State.modPort_freeCtr (p : Nat) (f : Port → Port) : (s.modPort p f).freeCtr = s.freeCtr := rfl
@[simp] theorem State.modPort_out (p : Nat) (f : Port → Port) : (s.modPort p f).out = s.out := rfl
@[simp] theorem State.modPort_mem (p : Nat) (f : Port → Port) : (s.modPort p f).mem = s.mem := rfl
@[simp] theorem State.modPort_cel (p : Nat) (f : Port → Port) : (s.modPort p f).cel = s.cel := rfl
@[simp] theorem State.modPort_host (p : Nat) (f : Port → Port) : (s.modPort p f).host = s.host := rfl
@[simp] theorem State.modPort_mc (p : Nat) (f : Port → Port) : (s.modPort p f).mc = s.mc := rfl
@[simp] theorem State.modPort_ctx (p : Nat) (f : Port → Port) : (s.modPort p f).ctx = s.ctx := rfl
@[simp] theorem State.modPort_cl (p : Nat) (f : Port → Port) : (s.modPort p f).cl = s.cl := rfl
@[simp] theorem State.modPort_cores (p : Nat) (f : Port → Port) : (s.modPort p f).cores = s.cores := rfl
@[simp] theorem State.modPort_legs (p : Nat) (f : Port → Port) : (s.modPort p f).legs = s.legs := rfl
@[simp] theorem State.modPort_nextLeg (p : Nat) (f : Port → Port) : (s.modPort p f).nextLeg = s.nextLeg := rfl
@[simp] theorem State.modPort_hbm (p : Nat) (f : Port → Port) : (s.modPort p f).hbm = s.hbm := rfl
@[simp] theorem State.modPort_tg (p : Nat) (f : Port → Port) : (s.modPort p f).tg = s.tg := rfl
@[simp] theorem State.modPort_beat (p : Nat) (f : Port → Port) : (s.modPort p f).beat = s.beat := rfl
@[simp] theorem State.modPort_heat (p : Nat) (f : Port → Port) : (s.modPort p f).heat = s.heat := rfl
@[simp] theorem State.modPort_pwr (p : Nat) (f : Port → Port) : (s.modPort p f).pwr = s.pwr := rfl
@[simp] theorem State.modPort_mgmt (p : Nat) (f : Port → Port) : (s.modPort p f).mgmt = s.mgmt := rfl

@[simp] theorem State.modRun_pending (c : Nat) (f : StepRun → StepRun) : (s.modRun c f).pending = s.pending := rfl
@[simp] theorem State.modRun_now (c : Nat) (f : StepRun → StepRun) : (s.modRun c f).now = s.now := rfl
@[simp] theorem State.modRun_freeCtr (c : Nat) (f : StepRun → StepRun) : (s.modRun c f).freeCtr = s.freeCtr := rfl
@[simp] theorem State.modRun_out (c : Nat) (f : StepRun → StepRun) : (s.modRun c f).out = s.out := rfl
@[simp] theorem State.modRun_mem (c : Nat) (f : StepRun → StepRun) : (s.modRun c f).mem = s.mem := rfl
@[simp] theorem State.modRun_cel (c : Nat) (f : StepRun → StepRun) : (s.modRun c f).cel = s.cel := rfl
@[simp] theorem State.modRun_host (c : Nat) (f : StepRun → StepRun) : (s.modRun c f).host = s.host := rfl
@[simp] theorem State.modRun_mc (c : Nat) (f : StepRun → StepRun) : (s.modRun c f).mc = s.mc := rfl
@[simp] theorem State.modRun_cl (c : Nat) (f : StepRun → StepRun) : (s.modRun c f).cl = s.cl := rfl
@[simp] theorem State.modRun_cores (c : Nat) (f : StepRun → StepRun) : (s.modRun c f).cores = s.cores := rfl
@[simp] theorem State.modRun_legs (c : Nat) (f : StepRun → StepRun) : (s.modRun c f).legs = s.legs := rfl
@[simp] theorem State.modRun_nextLeg (c : Nat) (f : StepRun → StepRun) : (s.modRun c f).nextLeg = s.nextLeg := rfl
@[simp] theorem State.modRun_hbm (c : Nat) (f : StepRun → StepRun) : (s.modRun c f).hbm = s.hbm := rfl
@[simp] theorem State.modRun_fab (c : Nat) (f : StepRun → StepRun) : (s.modRun c f).fab = s.fab := rfl
@[simp] theorem State.modRun_tg (c : Nat) (f : StepRun → StepRun) : (s.modRun c f).tg = s.tg := rfl
@[simp] theorem State.modRun_beat (c : Nat) (f : StepRun → StepRun) : (s.modRun c f).beat = s.beat := rfl
@[simp] theorem State.modRun_heat (c : Nat) (f : StepRun → StepRun) : (s.modRun c f).heat = s.heat := rfl
@[simp] theorem State.modRun_pwr (c : Nat) (f : StepRun → StepRun) : (s.modRun c f).pwr = s.pwr := rfl
@[simp] theorem State.modRun_mgmt (c : Nat) (f : StepRun → StepRun) : (s.modRun c f).mgmt = s.mgmt := rfl

@[simp] theorem State.emit_pending (o : Output) : (s.emit o).pending = s.pending := rfl
@[simp] theorem State.emit_now (o : Output) : (s.emit o).now = s.now := rfl
@[simp] theorem State.emit_freeCtr (o : Output) : (s.emit o).freeCtr = s.freeCtr := rfl
@[simp] theorem State.emit_mem (o : Output) : (s.emit o).mem = s.mem := rfl
@[simp] theorem State.emit_cel (o : Output) : (s.emit o).cel = s.cel := rfl
@[simp] theorem State.emit_host (o : Output) : (s.emit o).host = s.host := rfl
@[simp] theorem State.emit_mc (o : Output) : (s.emit o).mc = s.mc := rfl
@[simp] theorem State.emit_ctx (o : Output) : (s.emit o).ctx = s.ctx := rfl
@[simp] theorem State.emit_cl (o : Output) : (s.emit o).cl = s.cl := rfl
@[simp] theorem State.emit_cores (o : Output) : (s.emit o).cores = s.cores := rfl
@[simp] theorem State.emit_legs (o : Output) : (s.emit o).legs = s.legs := rfl
@[simp] theorem State.emit_nextLeg (o : Output) : (s.emit o).nextLeg = s.nextLeg := rfl
@[simp] theorem State.emit_hbm (o : Output) : (s.emit o).hbm = s.hbm := rfl
@[simp] theorem State.emit_fab (o : Output) : (s.emit o).fab = s.fab := rfl
@[simp] theorem State.emit_tg (o : Output) : (s.emit o).tg = s.tg := rfl
@[simp] theorem State.emit_beat (o : Output) : (s.emit o).beat = s.beat := rfl
@[simp] theorem State.emit_heat (o : Output) : (s.emit o).heat = s.heat := rfl
@[simp] theorem State.emit_pwr (o : Output) : (s.emit o).pwr = s.pwr := rfl
@[simp] theorem State.emit_mgmt (o : Output) : (s.emit o).mgmt = s.mgmt := rfl

@[simp] theorem State.tick_pending (t : Nat) : (s.tick t).pending = s.pending := rfl
@[simp] theorem State.tick_freeCtr (t : Nat) : (s.tick t).freeCtr = s.freeCtr := rfl
@[simp] theorem State.tick_out (t : Nat) : (s.tick t).out = s.out := rfl
@[simp] theorem State.tick_mem (t : Nat) : (s.tick t).mem = s.mem := rfl
@[simp] theorem State.tick_cel (t : Nat) : (s.tick t).cel = s.cel := rfl
@[simp] theorem State.tick_host (t : Nat) : (s.tick t).host = s.host := rfl
@[simp] theorem State.tick_mc (t : Nat) : (s.tick t).mc = s.mc := rfl
@[simp] theorem State.tick_ctx (t : Nat) : (s.tick t).ctx = s.ctx := rfl
@[simp] theorem State.tick_cl (t : Nat) : (s.tick t).cl = s.cl := rfl
@[simp] theorem State.tick_cores (t : Nat) : (s.tick t).cores = s.cores := rfl
@[simp] theorem State.tick_legs (t : Nat) : (s.tick t).legs = s.legs := rfl
@[simp] theorem State.tick_nextLeg (t : Nat) : (s.tick t).nextLeg = s.nextLeg := rfl
@[simp] theorem State.tick_hbm (t : Nat) : (s.tick t).hbm = s.hbm := rfl
@[simp] theorem State.tick_fab (t : Nat) : (s.tick t).fab = s.fab := rfl
@[simp] theorem State.tick_tg (t : Nat) : (s.tick t).tg = s.tg := rfl
@[simp] theorem State.tick_beat (t : Nat) : (s.tick t).beat = s.beat := rfl
@[simp] theorem State.tick_heat (t : Nat) : (s.tick t).heat = s.heat := rfl
@[simp] theorem State.tick_pwr (t : Nat) : (s.tick t).pwr = s.pwr := rfl
@[simp] theorem State.tick_mgmt (t : Nat) : (s.tick t).mgmt = s.mgmt := rfl

@[simp] theorem State.modLeg_pending (c l : Nat) (f : LegRun → LegRun) : (s.modLeg c l f).pending = s.pending := rfl
@[simp] theorem State.modLeg_now (c l : Nat) (f : LegRun → LegRun) : (s.modLeg c l f).now = s.now := rfl
@[simp] theorem State.modLeg_freeCtr (c l : Nat) (f : LegRun → LegRun) : (s.modLeg c l f).freeCtr = s.freeCtr := rfl
@[simp] theorem State.modLeg_out (c l : Nat) (f : LegRun → LegRun) : (s.modLeg c l f).out = s.out := rfl
@[simp] theorem State.modLeg_mem (c l : Nat) (f : LegRun → LegRun) : (s.modLeg c l f).mem = s.mem := rfl
@[simp] theorem State.modLeg_cel (c l : Nat) (f : LegRun → LegRun) : (s.modLeg c l f).cel = s.cel := rfl
@[simp] theorem State.modLeg_host (c l : Nat) (f : LegRun → LegRun) : (s.modLeg c l f).host = s.host := rfl
@[simp] theorem State.modLeg_mc (c l : Nat) (f : LegRun → LegRun) : (s.modLeg c l f).mc = s.mc := rfl
@[simp] theorem State.modLeg_ctx (c l : Nat) (f : LegRun → LegRun) : (s.modLeg c l f).ctx = s.ctx := rfl
@[simp] theorem State.modLeg_cl (c l : Nat) (f : LegRun → LegRun) : (s.modLeg c l f).cl = s.cl := rfl
@[simp] theorem State.modLeg_cores (c l : Nat) (f : LegRun → LegRun) : (s.modLeg c l f).cores = s.cores := rfl
@[simp] theorem State.modLeg_nextLeg (c l : Nat) (f : LegRun → LegRun) : (s.modLeg c l f).nextLeg = s.nextLeg := rfl
@[simp] theorem State.modLeg_hbm (c l : Nat) (f : LegRun → LegRun) : (s.modLeg c l f).hbm = s.hbm := rfl
@[simp] theorem State.modLeg_fab (c l : Nat) (f : LegRun → LegRun) : (s.modLeg c l f).fab = s.fab := rfl
@[simp] theorem State.modLeg_tg (c l : Nat) (f : LegRun → LegRun) : (s.modLeg c l f).tg = s.tg := rfl
@[simp] theorem State.modLeg_beat (c l : Nat) (f : LegRun → LegRun) : (s.modLeg c l f).beat = s.beat := rfl
@[simp] theorem State.modLeg_heat (c l : Nat) (f : LegRun → LegRun) : (s.modLeg c l f).heat = s.heat := rfl
@[simp] theorem State.modLeg_pwr (c l : Nat) (f : LegRun → LegRun) : (s.modLeg c l f).pwr = s.pwr := rfl
@[simp] theorem State.modLeg_mgmt (c l : Nat) (f : LegRun → LegRun) : (s.modLeg c l f).mgmt = s.mgmt := rfl

@[simp] theorem State.modFlash_pending (f : Flash → Flash) : (s.modFlash f).pending = s.pending := rfl
@[simp] theorem State.modFlash_now (f : Flash → Flash) : (s.modFlash f).now = s.now := rfl
@[simp] theorem State.modFlash_freeCtr (f : Flash → Flash) : (s.modFlash f).freeCtr = s.freeCtr := rfl
@[simp] theorem State.modFlash_out (f : Flash → Flash) : (s.modFlash f).out = s.out := rfl
@[simp] theorem State.modFlash_mem (f : Flash → Flash) : (s.modFlash f).mem = s.mem := rfl
@[simp] theorem State.modFlash_cel (f : Flash → Flash) : (s.modFlash f).cel = s.cel := rfl
@[simp] theorem State.modFlash_host (f : Flash → Flash) : (s.modFlash f).host = s.host := rfl
@[simp] theorem State.modFlash_ctx (f : Flash → Flash) : (s.modFlash f).ctx = s.ctx := rfl
@[simp] theorem State.modFlash_cl (f : Flash → Flash) : (s.modFlash f).cl = s.cl := rfl
@[simp] theorem State.modFlash_cores (f : Flash → Flash) : (s.modFlash f).cores = s.cores := rfl
@[simp] theorem State.modFlash_legs (f : Flash → Flash) : (s.modFlash f).legs = s.legs := rfl
@[simp] theorem State.modFlash_nextLeg (f : Flash → Flash) : (s.modFlash f).nextLeg = s.nextLeg := rfl
@[simp] theorem State.modFlash_hbm (f : Flash → Flash) : (s.modFlash f).hbm = s.hbm := rfl
@[simp] theorem State.modFlash_fab (f : Flash → Flash) : (s.modFlash f).fab = s.fab := rfl
@[simp] theorem State.modFlash_tg (f : Flash → Flash) : (s.modFlash f).tg = s.tg := rfl
@[simp] theorem State.modFlash_beat (f : Flash → Flash) : (s.modFlash f).beat = s.beat := rfl
@[simp] theorem State.modFlash_heat (f : Flash → Flash) : (s.modFlash f).heat = s.heat := rfl
@[simp] theorem State.modFlash_pwr (f : Flash → Flash) : (s.modFlash f).pwr = s.pwr := rfl
@[simp] theorem State.modFlash_mgmt (f : Flash → Flash) : (s.modFlash f).mgmt = s.mgmt := rfl

@[simp] theorem State.emit_out (o : Output) : (s.emit o).out = s.out ++ [o] := rfl
@[simp] theorem State.tick_now (t : Nat) : (s.tick t).now = max s.now t := rfl
@[simp] theorem State.modFlash_flash (f : Flash → Flash) : (s.modFlash f).mc.flash = f s.mc.flash := rfl

/-! ### A part read after it is changed -/

theorem State.cx_modCx (i j : Nat) (f : Ctx → Ctx) : (s.modCx i f).cx j = if j = i then f (s.cx i) else s.cx j := tget_tmod _ _ _ _ _
@[simp] theorem State.cx_modCx_self (i : Nat) (f : Ctx → Ctx) : (s.modCx i f).cx i = f (s.cx i) := by rw [State.cx_modCx, if_pos rfl]
theorem State.cx_modCx_of_ne {i j : Nat} (h : j ≠ i) (f : Ctx → Ctx) : (s.modCx i f).cx j = s.cx j := by rw [State.cx_modCx, if_neg h]
theorem State.clu_modClu (i j : Nat) (f : Cluster → Cluster) : (s.modClu i f).clu j = if j = i then f (s.clu i) else s.clu j := tget_tmod _ _ _ _ _
@[simp] theorem State.clu_modClu_self (i : Nat) (f : Cluster → Cluster) : (s.modClu i f).clu i = f (s.clu i) := by rw [State.clu_modClu, if_pos rfl]
theorem State.clu_modClu_of_ne {i j : Nat} (h : j ≠ i) (f : Cluster → Cluster) : (s.modClu i f).clu j = s.clu j := by rw [State.clu_modClu, if_neg h]
theorem State.cor_modCor (i j : Nat) (f : Core → Core) : (s.modCor i f).cor j = if j = i then f (s.cor i) else s.cor j := tget_tmod _ _ _ _ _
@[simp] theorem State.cor_modCor_self (i : Nat) (f : Core → Core) : (s.modCor i f).cor i = f (s.cor i) := by rw [State.cor_modCor, if_pos rfl]
theorem State.cor_modCor_of_ne {i j : Nat} (h : j ≠ i) (f : Core → Core) : (s.modCor i f).cor j = s.cor j := by rw [State.cor_modCor, if_neg h]
theorem State.col_modCol (i j : Nat) (f : Column → Column) : (s.modCol i f).col j = if j = i then f (s.col i) else s.col j := tget_tmod _ _ _ _ _
@[simp] theorem State.col_modCol_self (i : Nat) (f : Column → Column) : (s.modCol i f).col i = f (s.col i) := by rw [State.col_modCol, if_pos rfl]
theorem State.col_modCol_of_ne {i j : Nat} (h : j ≠ i) (f : Column → Column) : (s.modCol i f).col j = s.col j := by rw [State.col_modCol, if_neg h]
theorem State.ring_modRing (i j : Nat) (f : Ring → Ring) : (s.modRing i f).ring j = if j = i then f (s.ring i) else s.ring j := tget_tmod _ _ _ _ _
@[simp] theorem State.ring_modRing_self (i : Nat) (f : Ring → Ring) : (s.modRing i f).ring i = f (s.ring i) := by rw [State.ring_modRing, if_pos rfl]
theorem State.ring_modRing_of_ne {i j : Nat} (h : j ≠ i) (f : Ring → Ring) : (s.modRing i f).ring j = s.ring j := by rw [State.ring_modRing, if_neg h]
theorem State.stack_modStack (i j : Nat) (f : Stack → Stack) : (s.modStack i f).stack j = if j = i then f (s.stack i) else s.stack j := tget_tmod _ _ _ _ _
@[simp] theorem State.stack_modStack_self (i : Nat) (f : Stack → Stack) : (s.modStack i f).stack i = f (s.stack i) := by rw [State.stack_modStack, if_pos rfl]
theorem State.stack_modStack_of_ne {i j : Nat} (h : j ≠ i) (f : Stack → Stack) : (s.modStack i f).stack j = s.stack j := by rw [State.stack_modStack, if_neg h]
theorem State.port_modPort (i j : Nat) (f : Port → Port) : (s.modPort i f).port j = if j = i then f (s.port i) else s.port j := tget_tmod _ _ _ _ _
@[simp] theorem State.port_modPort_self (i : Nat) (f : Port → Port) : (s.modPort i f).port i = f (s.port i) := by rw [State.port_modPort, if_pos rfl]
theorem State.port_modPort_of_ne {i j : Nat} (h : j ≠ i) (f : Port → Port) : (s.modPort i f).port j = s.port j := by rw [State.port_modPort, if_neg h]

end Sys2Proof.Machine
end

