-- ==== Sys2Proof/Laws/Sound.lean ====
section
/-! SUPPORT. What every operation keeps (Sound), for the updates that all others are made of. -/

namespace Sys2Proof.Machine

open Sys2Proof

variable {a s : State}

theorem Sound.refl (s : State) : Sound s s := ⟨rfl, le_refl _, le_refl _, List.prefix_refl _, le_refl _, id⟩

theorem Sound.trans {b : State} (h : Sound a b) (g : Sound b s) : Sound a s :=
  ⟨g.pending.trans h.pending, h.now.trans g.now, h.free.trans g.free, h.out.trans g.out, h.seq.trans g.seq, fun i => g.inv (h.inv i)⟩

/-- A state that differs from s only in parts that no clause names. -/
theorem Sound.upd (h : Sound a s) {C : Cellar} {H : HostIf} {M : Mc} {L : List LegRun} {N : Nat} {B : Hbm} {F : Fabric} {T : Toll} {Be : Beat}
    {He : Heat} {P : Power} {G : Mgmt} (e1 : C.columns = s.cel.columns) (e2 : H.rings = s.host.rings) (e3 : M.faultSeq = s.mc.faultSeq)
    (e4 : M.faultLog = s.mc.faultLog) (e5 : M.flashLog = s.mc.flashLog) (e6 : M.repairMap = s.mc.repairMap) (e7 : M.eventsLost = s.mc.eventsLost)
    (e8 : B.stk = s.hbm.stk) (e9 : F.ports = s.fab.ports) (e10 : T.st = s.tg.st) :
    Sound a ⟨s.pending, s.now, s.freeCtr, s.out, s.mem, C, H, M, s.ctx, s.cl, s.cores, L, N, B, F, T, Be, He, P, G⟩ := by
  refine ⟨h.pending, h.now, h.free, h.out, by simpa [e3] using h.seq, fun i => ?_⟩
  have j := h.inv i
  refine ⟨j.mem, ?_, ?_, ?_, ?_, ?_, ?_, ?_, ?_⟩
  · have := j.tables
    simpa only [State.tablesWf, e1, e2, e8, e9] using this
  · simpa only [e3, e4] using j.faultLog
  · simpa only [e3, e5] using j.flashLog
  · simpa only [e4] using j.faultLen
  · simpa only [e5] using j.flashLen
  · simpa only [e6] using j.repairs
  · simpa only [e7] using j.lost
  · simpa only [e10] using j.gate

/-- The tables of the parts with one of them changed to a canonical one. -/
theorem Sound.tables (h : Sound a s) {C : Cellar} {H : HostIf} {x : Tbl Ctx} {y : Tbl Cluster} {z : Tbl Core} {B : Hbm} {F : Fabric}
    (e : ∀ _ : s.tablesWf = true, (twf Ctx.init x && twf Cluster.init y && twf Core.init z && twf Column.init C.columns && twf Ring.init H.rings
      && twf Stack.init B.stk && twf Port.init F.ports) = true) :
    Sound a { s with cel := C, host := H, ctx := x, cl := y, cores := z, hbm := B, fab := F } := by
  refine ⟨h.pending, h.now, h.free, h.out, h.seq, fun i => ?_⟩
  have j := h.inv i
  exact ⟨j.mem, e j.tables, j.faultLog, j.flashLog, j.faultLen, j.flashLen, j.repairs, j.lost, j.gate⟩

theorem tables_and (s : State) : s.tablesWf = true ↔ twf Ctx.init s.ctx = true ∧ twf Cluster.init s.cl = true ∧ twf Core.init s.cores = true
    ∧ twf Column.init s.cel.columns = true ∧ twf Ring.init s.host.rings = true ∧ twf Stack.init s.hbm.stk = true ∧ twf Port.init s.fab.ports = true := by
  simp only [State.tablesWf, Bool.and_eq_true, and_assoc]

theorem Sound.modCx (h : Sound a s) (c : Nat) (f : Ctx → Ctx) : Sound a (s.modCx c f) :=
  h.tables fun e => by
    simp only [Bool.and_eq_true]
    obtain ⟨e1, e2, e3, e4, e5, e6, e7⟩ := (tables_and s).1 e
    exact ⟨⟨⟨⟨⟨⟨twf_tmod _ _ _ e1, e2⟩, e3⟩, e4⟩, e5⟩, e6⟩, e7⟩

theorem Sound.modClu (h : Sound a s) (c : Nat) (f : Cluster → Cluster) : Sound a (s.modClu c f) :=
  h.tables fun e => by
    simp only [Bool.and_eq_true]
    obtain ⟨e1, e2, e3, e4, e5, e6, e7⟩ := (tables_and s).1 e
    exact ⟨⟨⟨⟨⟨⟨e1, twf_tmod _ _ _ e2⟩, e3⟩, e4⟩, e5⟩, e6⟩, e7⟩

theorem Sound.modCor (h : Sound a s) (c : Nat) (f : Core → Core) : Sound a (s.modCor c f) :=
  h.tables fun e => by
    simp only [Bool.and_eq_true]
    obtain ⟨e1, e2, e3, e4, e5, e6, e7⟩ := (tables_and s).1 e
    exact ⟨⟨⟨⟨⟨⟨e1, e2⟩, twf_tmod _ _ _ e3⟩, e4⟩, e5⟩, e6⟩, e7⟩

theorem Sound.modCol (h : Sound a s) (c : Nat) (f : Column → Column) : Sound a (s.modCol c f) :=
  h.tables fun e => by
    simp only [Bool.and_eq_true]
    obtain ⟨e1, e2, e3, e4, e5, e6, e7⟩ := (tables_and s).1 e
    exact ⟨⟨⟨⟨⟨⟨e1, e2⟩, e3⟩, twf_tmod _ _ _ e4⟩, e5⟩, e6⟩, e7⟩

theorem Sound.modRing (h : Sound a s) (c : Nat) (f : Ring → Ring) : Sound a (s.modRing c f) :=
  h.tables fun e => by
    simp only [Bool.and_eq_true]
    obtain ⟨e1, e2, e3, e4, e5, e6, e7⟩ := (tables_and s).1 e
    exact ⟨⟨⟨⟨⟨⟨e1, e2⟩, e3⟩, e4⟩, twf_tmod _ _ _ e5⟩, e6⟩, e7⟩

theorem Sound.modStack (h : Sound a s) (c : Nat) (f : Stack → Stack) : Sound a (s.modStack c f) :=
  h.tables fun e => by
    simp only [Bool.and_eq_true]
    obtain ⟨e1, e2, e3, e4, e5, e6, e7⟩ := (tables_and s).1 e
    exact ⟨⟨⟨⟨⟨⟨e1, e2⟩, e3⟩, e4⟩, e5⟩, twf_tmod _ _ _ e6⟩, e7⟩

theorem Sound.modPort (h : Sound a s) (c : Nat) (f : Port → Port) : Sound a (s.modPort c f) :=
  h.tables fun e => by
    simp only [Bool.and_eq_true]
    obtain ⟨e1, e2, e3, e4, e5, e6, e7⟩ := (tables_and s).1 e
    exact ⟨⟨⟨⟨⟨⟨e1, e2⟩, e3⟩, e4⟩, e5⟩, e6⟩, twf_tmod _ _ _ e7⟩

theorem Sound.modCnt (h : Sound a s) (c : Nat) (f : ClCnt → ClCnt) : Sound a (s.modCnt c f) := h.modClu _ _

theorem Sound.modRun (h : Sound a s) (c : Nat) (f : StepRun → StepRun) : Sound a (s.modRun c f) := h.modCx _ _

theorem Sound.emit (h : Sound a s) (o : Output) : Sound a (s.emit o) :=
  ⟨h.pending, h.now, h.free, h.out.trans (List.prefix_append _ _), h.seq, fun i => let j := h.inv i
    ⟨j.mem, j.tables, j.faultLog, j.flashLog, j.faultLen, j.flashLen, j.repairs, j.lost, j.gate⟩⟩

theorem Sound.tick (h : Sound a s) (t : Nat) : Sound a (s.tick t) :=
  ⟨h.pending, h.now.trans (Nat.le_max_left _ _), h.free, h.out, h.seq, fun i => let j := h.inv i
    ⟨j.mem, j.tables, j.faultLog, j.flashLog, j.faultLen, j.flashLen, j.repairs, j.lost, j.gate⟩⟩

/-- The counter of free values moves on. -/
theorem Sound.count (h : Sound a s) (n : Nat) : Sound a { s with freeCtr := s.freeCtr + n } :=
  ⟨h.pending, h.now, h.free.trans (Nat.le_add_right _ _), h.out, h.seq, fun i => let j := h.inv i
    ⟨j.mem, j.tables, j.faultLog, j.flashLog, j.faultLen, j.flashLen, j.repairs, j.lost, j.gate⟩⟩

theorem Sound.freeVal (h : Sound a s) : Sound a s.free.2 := h.count 1

/-- The management controller's records changed within their bounds. -/
theorem Sound.setMc (h : Sound a s) {M : Mc} (hq : s.mc.faultSeq ≤ M.faultSeq) (e : s.Inv → logWf M.faultSeq M.faultLog ∧ logWf M.faultSeq M.flashLog
    ∧ M.faultLog.length ≤ 65536 ∧ M.flashLog.length ≤ 4096 ∧ M.repairMap.length ≤ 16384 ∧ M.eventsLost ≤ 0xFFFF) : Sound a { s with mc := M } :=
  ⟨h.pending, h.now, h.free, h.out, h.seq.trans hq, fun i => let j := h.inv i; let k := e j
    ⟨j.mem, j.tables, k.1, k.2.1, k.2.2.1, k.2.2.2.1, k.2.2.2.2.1, k.2.2.2.2.2, j.gate⟩⟩

/-- The tollgate in another of its states. -/
theorem Sound.setToll (h : Sound a s) {T : Toll} (e : T.st ≤ 6) : Sound a { s with tg := T } :=
  ⟨h.pending, h.now, h.free, h.out, h.seq, fun i => let j := h.inv i
    ⟨j.mem, j.tables, j.faultLog, j.flashLog, j.faultLen, j.flashLen, j.repairs, j.lost, e⟩⟩

theorem logWf_append {n : Nat} {l : List FaultRec} (h : logWf n l) {f : FaultRec} (hf : f.seq = n) : logWf (n + 1) (l ++ [f]) := by
  refine ⟨List.pairwise_append.2 ⟨h.1, by simp, fun x hx y hy => ?_⟩, fun x hx => ?_⟩
  · have := h.2 x hx
    rw [List.mem_singleton] at hy
    subst hy
    omega
  · rcases List.mem_append.1 hx with hx | hx
    · have := h.2 x hx
      omega
    · rw [List.mem_singleton] at hx
      subst hx
      omega

theorem logWf_succ {n : Nat} {l : List FaultRec} (h : logWf n l) : logWf (n + 1) l := ⟨h.1, fun x hx => by have := h.2 x hx; omega⟩

theorem logWf_drop {n : Nat} {l : List FaultRec} (h : logWf n l) (k : Nat) : logWf n (l.drop k) :=
  ⟨h.1.sublist (List.drop_sublist _ _), fun x hx => h.2 x (List.mem_of_mem_drop hx)⟩

theorem logWf_nil (n : Nat) : logWf n [] := ⟨List.Pairwise.nil, by simp⟩

/-- Memories changed to canonical ones. -/
theorem Sound.mems (h : Sound a s) {m : Mems} (e : s.mem.wf = true → m.wf = true) : Sound a { s with mem := m } :=
  ⟨h.pending, h.now, h.free, h.out, h.seq, fun i => let j := h.inv i
    ⟨e j.mem, j.tables, j.faultLog, j.flashLog, j.faultLen, j.flashLen, j.repairs, j.lost, j.gate⟩⟩

theorem mems_and (m : Mems) : m.wf = true ↔ twf 0 m.tier0 = true ∧ twf 0 m.scratch = true ∧ twf 0 m.side = true ∧ twf 0 m.tier2 = true
    ∧ twf 0 m.evac = true ∧ twf 0 m.stash = true ∧ twf 0 m.bar2 = true ∧ keysRise m.host = true := by
  simp only [Mems.wf, Bool.and_eq_true, and_assoc]

theorem keysRise_iff (t : Tbl Byte) : keysRise t = true ↔ t.Pairwise fun x y => x.1 < y.1 := by simp [keysRise]

theorem keysRise_hostPut {t : Tbl Byte} (h : keysRise t = true) (k : Nat) (vs : List Byte) : keysRise (hostPut t k vs) = true := by
  rw [keysRise_iff] at *
  refine List.pairwise_append.2 ⟨h.filter _, List.pairwise_append.2 ⟨pairwise_cells k vs, h.filter _, ?_⟩, ?_⟩
  · intro x hx y hy
    exact lt_of_lt_of_le (mem_cells hx).2 (mem_tfrom hy).2
  · intro x hx y hy
    have hx := (mem_tbelow hx).2
    rcases List.mem_append.1 hy with hy | hy
    · exact lt_of_lt_of_le hx (mem_cells hy).1
    · have := (mem_tfrom hy).2
      omega

theorem keysRise_cut {t : Tbl Byte} (h : keysRise t = true) {k j : Nat} (hkj : k ≤ j) : keysRise (tbelow t k ++ tfrom t j) = true := by
  rw [keysRise_iff] at *
  exact List.pairwise_append.2 ⟨h.filter _, h.filter _, fun x hx y hy => lt_of_lt_of_le (mem_tbelow hx).2 (le_trans hkj (mem_tfrom hy).2)⟩

/-- A byte space replaced by a canonical one. -/
theorem Mems.wf_put {m : Mems} (h : m.wf = true) (sp : Space) {t : Tbl Byte} (ht : if sp = .host then keysRise t = true else twf 0 t = true) :
    (m.put sp t).wf = true := by
  rw [mems_and] at *
  obtain ⟨h1, h2, h3, h4, h5, h6, h7, h8⟩ := h
  cases sp <;> simp only [Mems.put, reduceCtorEq, ↓reduceIte] at * <;> exact ⟨by assumption, by assumption, by assumption, by assumption, by assumption,
    by assumption, by assumption, by assumption⟩

theorem Mems.wf_sp {m : Mems} (h : m.wf = true) {sp : Space} (hs : sp ≠ .host) : twf 0 (m.sp sp) = true := by
  rw [mems_and] at h
  obtain ⟨h1, h2, h3, h4, h5, h6, h7, h8⟩ := h
  cases sp <;> simp only [Mems.sp] <;> first | assumption | exact absurd rfl hs

theorem Mems.wf_host {m : Mems} (h : m.wf = true) : keysRise m.host = true := by
  rw [mems_and] at h
  exact h.2.2.2.2.2.2.2

/-- Every write keeps the memories canonical. -/
theorem Sound.write (h : Sound a s) (sp : Space) (k : Nat) (bs : List Byte) : Sound a (s.write sp k bs) := by
  unfold State.write
  split
  next hs => exact h.mems fun e => Mems.wf_put e .host (by simpa using keysRise_hostPut (Mems.wf_host e) k bs)
  next hs => exact h.mems fun e => Mems.wf_put e sp (by rw [if_neg hs]; exact twf_twrite 0 k bs (Mems.wf_sp e hs))

theorem Sound.clear (h : Sound a s) (sp : Space) (k n : Nat) : Sound a (s.clear sp k n) := by
  refine h.mems fun e => Mems.wf_put e sp ?_
  split
  next hs => subst hs; exact keysRise_cut (Mems.wf_host e) (Nat.le_add_right _ _)
  next hs => exact twf_cut 0 (Nat.le_add_right _ _) (Mems.wf_sp e hs)

/-! ### Composition -/

theorem Sound.elim {β : Type} {f : β → State} (o : Option β) (h : Sound a s) (hf : ∀ x, Sound a (f x)) : Sound a (o.elim s f) := by
  cases o with
  | none => exact h
  | some x => exact hf x

theorem Sound.foldl {β : Type} {f : State → β → State} (hf : ∀ (t : State) (x : β), Sound a t → Sound a (f t x)) (l : List β) (h : Sound a s) :
    Sound a (l.foldl f s) := by
  induction l generalizing s with
  | nil => exact h
  | cons x r ih => exact ih (hf s x h)

theorem Sound.foldl_fst {β γ : Type} {f : State × γ → β → State × γ} (hf : ∀ (t : State × γ) (x : β), Sound a t.1 → Sound a (f t x).1) (l : List β)
    {p : State × γ} (h : Sound a p.1) : Sound a (l.foldl f p).1 := by
  induction l generalizing p with
  | nil => exact h
  | cons x r ih => exact ih (hf p x h)

theorem Sound.getD {o : Option State} (h : Sound a s) (ho : ∀ t, o = some t → Sound a t) : Sound a (o.getD s) := by
  cases o with
  | none => exact h
  | some t => exact ho t rfl

/-- The state of a pair that an equation names. -/
theorem Sound.of_eq {β : Type} {p : State × β} {t : State} {x : β} (e : p = (t, x)) (h : Sound a p.1) : Sound a t := by
  rw [e] at h
  exact h

theorem Sound.optMap {o : Option State} {f : State → State} {t : State} (ho : ∀ u, o = some u → Sound a u) (hf : ∀ u, Sound a u → Sound a (f u))
    (e : o.map f = some t) : Sound a t := by
  cases o with
  | none => cases e
  | some u =>
    cases e
    exact hf u (ho u rfl)

theorem Sound.of_eq_snd {β : Type} {p : β × State} {t : State} {x : β} (e : p = (x, t)) (h : Sound a p.2) : Sound a t := by
  rw [e] at h
  exact h

/-- The host interface changed, its rings dropped. -/
theorem Sound.noRings (h : Sound a s) {H : HostIf} (e : H.rings = []) : Sound a { s with host := H } :=
  h.tables fun w => by
    obtain ⟨e1, e2, e3, e4, e5, e6, e7⟩ := (tables_and s).1 w
    rw [e1, e2, e3, e4, e, e6, e7]
    rfl

/-- A fact proved first and then used. -/
theorem Sound.cut {P Q : Prop} (hq : Q) (hp : Q → P) : P := hp hq

/-- An outcome that is a next state keeps what Sound says. -/
def SoundOut (a : State) (o : Host.Outcome State Fault Refusal) : Prop := ∀ t, o = .next t → Sound a t

theorem SoundOut.next {t : State} (h : Sound a t) : SoundOut a (.next t) := fun u e => by
  injection e with e
  exact e ▸ h

end Sys2Proof.Machine
end

