-- ==== Sys2Proof/Laws/SoundOps.lean ====
section
/-! SUPPORT. What every operation of Machine/Ops.lean keeps (Sound). -/

namespace Sys2Proof.Machine

open Sys2Proof

theorem State.dropAreaBytes_sound {s₀ : State} {s : State} (c : Nat) (hs : Sound s₀ s) : Sound s₀ (State.dropAreaBytes s c) := by
  unfold State.dropAreaBytes
  repeat' first
    | with_reducible assumption
    | with_reducible apply Sound.clear

theorem State.irq_sound {s₀ : State} {s : State} (n : Nat) (ev now : Bool) (hs : Sound s₀ s) : Sound s₀ (State.irq s n ev now) := by
  unfold State.irq
  repeat' first
    | with_reducible assumption
    | (extract_lets +onlyGivenNames t; guard_hyp t : State := _; refine Sound.cut (Q := Sound s₀ t) ?_ ?_; (on_goal 1 => (subst t)); (on_goal 2 => (clear_value t; intro _)))
    | (fail_if_no_progress extract_lets +onlyGivenNames t; first | clear_value t)
    | with_reducible apply Sound.modRing
    | with_reducible apply Sound.emit
    | split

theorem State.postReceipt_sound {s₀ : State} {s : State} (n : Nat) (r : BitVec 256) (irqNow : Bool) (hs : Sound s₀ s) : Sound s₀ (State.postReceipt s n r irqNow) := by
  unfold State.postReceipt
  repeat' first
    | with_reducible assumption
    | (extract_lets +onlyGivenNames t; guard_hyp t : State := _; refine Sound.cut (Q := Sound s₀ t) ?_ ?_; (on_goal 1 => (subst t)); (on_goal 2 => (clear_value t; intro _)))
    | (fail_if_no_progress extract_lets +onlyGivenNames t; first | clear_value t)
    | with_reducible apply Sound.modRing
    | with_reducible apply Sound.write
    | with_reducible apply State.irq_sound
    | split

theorem State.receiptDue_sound {s₀ : State} {s : State} (n : Nat) (r : BitVec 256) (irqNow : Bool) (hs : Sound s₀ s) : Sound s₀ (State.receiptDue s n r irqNow) := by
  unfold State.receiptDue
  repeat' first
    | with_reducible assumption
    | with_reducible apply State.postReceipt_sound
    | split
    | with_reducible rfl
    | (with_reducible apply Sound.upd)

theorem State.postEvent_sound {a s : State} (r : BitVec 256) (h : Sound a s) : Sound a (s.postEvent r) := by
  unfold State.postEvent
  extract_lets n open_ s1
  have h1 : Sound a s1 := by
    unfold s1
    split
    · exact h.modRing _ _
    · exact h
  clear_value s1
  split
  · exact State.postReceipt_sound _ _ _ h
  · exact h1.setMc (le_refl _) fun j => ⟨j.faultLog, j.flashLog, j.faultLen, j.flashLen, j.repairs, by simp [satAdd]⟩

theorem State.event_sound {s₀ : State} {s : State} (code ctx detail : Nat) (hs : Sound s₀ s) : Sound s₀ (State.event s code ctx detail) := by
  unfold State.event
  repeat' first
    | with_reducible assumption
    | (fail_if_no_progress extract_lets +onlyGivenNames t; first | guard_hyp t : HostIf := _ | clear_value t)
    | with_reducible apply State.postEvent_sound
    | split
    | with_reducible rfl
    | (with_reducible apply Sound.upd)

theorem State.finish_sound {s₀ : State} {s : State} (w : Waybill) (status detail detail2 : Nat) (hs : Sound s₀ s) : Sound s₀ (State.finish s w status detail detail2) := by
  unfold State.finish
  repeat' first
    | with_reducible assumption
    | (extract_lets +onlyGivenNames t; guard_hyp t : State := _; refine Sound.cut (Q := Sound s₀ t) ?_ ?_; (on_goal 1 => (subst t)); (on_goal 2 => (clear_value t; intro _)))
    | (fail_if_no_progress extract_lets +onlyGivenNames t; first | guard_hyp t : HostIf := _ | clear_value t)
    | with_reducible apply Sound.modRing
    | with_reducible apply State.receiptDue_sound
    | split
    | with_reducible rfl
    | (with_reducible apply Sound.upd)

theorem State.legReceipt_sound {s₀ : State} {s : State} (w : Waybill) (status detail idx mu : Nat) (hs : Sound s₀ s) : Sound s₀ (State.legReceipt s w status detail idx mu) := by
  unfold State.legReceipt
  repeat' first
    | with_reducible assumption
    | with_reducible apply State.receiptDue_sound
    | split

theorem State.setService_sound {a s : State} (b : Bool) (h : Sound a s) : Sound a (s.setService b) := by
  have hm : Sound a { s with mc := { s.mc with serviceReq := b } } :=
    h.setMc (le_refl _) fun j => ⟨j.faultLog, j.flashLog, j.faultLen, j.flashLen, j.repairs, j.lost⟩
  unfold State.setService
  split
  · exact h
  · exact hm.emit _

theorem State.setCauses_sound {a s : State} (l : List Nat) (h : Sound a s) : Sound a (s.setCauses l) := by
  have hm : Sound a { s with mc := { s.mc with causes := l } } :=
    h.setMc (le_refl _) fun j => ⟨j.faultLog, j.flashLog, j.faultLen, j.flashLen, j.repairs, j.lost⟩
  unfold State.setCauses
  split
  · exact h
  · dsimp only
    split
    · exact hm.emit _
    · exact hm

theorem State.service_sound {a s : State} (cause : Nat) (h : Sound a s) : Sound a (s.service cause) := by
  have hm : Sound a { s with mc := { s.mc with
      repairMap := if (cause = 4 ∨ cause = 9 ∨ cause = 10) ∧ s.mc.repairMap.length < 16384 ∧ Repair.cause cause ∉ s.mc.repairMap
        then s.mc.repairMap ++ [.cause cause] else s.mc.repairMap } } := by
    refine h.setMc (le_refl _) fun j => ⟨j.faultLog, j.flashLog, j.faultLen, j.flashLen, ?_, j.lost⟩
    have := j.repairs
    dsimp only
    split
    · rw [List.length_append, List.length_singleton]; omega
    · exact this
  unfold State.service
  exact State.event_sound _ _ _ (State.setCauses_sound _ (State.setService_sound _ hm))

theorem State.fault_sound {a s : State} (kind outcome ctx unit sub spare detail cause : Nat) (h : Sound a s) :
    Sound a (s.fault kind outcome ctx unit sub spare detail cause) := by
  unfold State.fault
  extract_lets step f lastN src s1 s2
  have hw : ∀ (n : Nat) (l : List FaultRec), logWf (s.mc.faultSeq + 1) l → logWf (s.mc.faultSeq + 1) (lastN n l) := fun n l hl => logWf_drop hl _
  have hl : ∀ (n : Nat) (l : List FaultRec), (lastN n l).length ≤ n := fun n l => by unfold lastN; rw [List.length_drop]; omega
  have h1 : Sound a s1 := by
    clear_value lastN
    refine h.setMc (Nat.le_succ _) fun j => ⟨hw _ _ (logWf_append j.faultLog rfl), ?_, hl _ _, ?_, j.repairs, j.lost⟩
    · dsimp only
      split
      · exact logWf_succ j.flashLog
      · exact hw _ _ (logWf_append j.flashLog rfl)
    · dsimp only
      split
      · exact j.flashLen
      · exact hl _ _
  have h2 : Sound a s2 := State.event_sound _ _ _ h1
  split
  · exact h2
  · exact State.service_sound _ h2

theorem State.faultTraining_sound {s₀ : State} {s : State} (outcome ctx detail : Nat) (hs : Sound s₀ s) : Sound s₀ (State.faultTraining s outcome ctx detail) := by
  unfold State.faultTraining
  repeat' first
    | with_reducible assumption
    | with_reducible apply State.fault_sound

theorem State.repairNote_sound {a s : State} (l : List Repair) (h : Sound a s) : Sound a (s.repairNote l) := by
  unfold State.repairNote
  refine h.setMc (le_refl _) fun j => ⟨j.faultLog, j.flashLog, j.faultLen, j.flashLen, ?_, j.lost⟩
  have := j.repairs
  dsimp only
  rw [List.length_append, List.length_take]
  omega

theorem State.retire_sound {s₀ : State} {s : State} (l : List Repair) (kind outcome ctx unit sub spare detail cause : Nat) (hs : Sound s₀ s) : Sound s₀ (State.retire s l kind outcome ctx unit sub spare detail cause) := by
  unfold State.retire
  repeat' first
    | with_reducible assumption
    | (extract_lets +onlyGivenNames t; guard_hyp t : State := _; refine Sound.cut (Q := Sound s₀ t) ?_ ?_; (on_goal 1 => (subst t)); (on_goal 2 => (clear_value t; intro _)))
    | (fail_if_no_progress extract_lets +onlyGivenNames t; first | clear_value t)
    | with_reducible apply State.service_sound
    | with_reducible apply State.fault_sound
    | with_reducible apply State.repairNote_sound
    | split

theorem State.setAlive_sound {s₀ : State} {s : State} (b : Bool) (hs : Sound s₀ s) : Sound s₀ (State.setAlive s b) := by
  unfold State.setAlive
  repeat' first
    | with_reducible assumption
    | with_reducible apply Sound.emit
    | split
    | with_reducible rfl
    | (with_reducible apply Sound.upd)

theorem State.setTg_sound {a s : State} (st : Nat) (h : Sound a s) (hst : st ≤ 6 := by decide) : Sound a (s.setTg st) := by
  unfold State.setTg
  have h1 : Sound a { s with tg := { s.tg with st := st } } := h.setToll hst
  split
  · exact h
  · dsimp only
    split
    · exact h1.emit _
    · exact h1

theorem State.modLeg_sound {s₀ : State} {s : State} (c l : Nat) (f : LegRun → LegRun) (hs : Sound s₀ s) : Sound s₀ (State.modLeg s c l f) := by
  unfold State.modLeg
  repeat' first
    | with_reducible assumption
    | with_reducible rfl
    | (with_reducible apply Sound.upd)

theorem State.legReceiptOf_sound {s₀ : State} {s : State} (g : LegRun) (status detail : Nat) (hs : Sound s₀ s) : Sound s₀ (State.legReceiptOf s g status detail) := by
  unfold State.legReceiptOf
  repeat' first
    | with_reducible assumption
    | with_reducible apply State.legReceipt_sound
    | split

theorem State.clearStrands_sound {s₀ : State} {s : State} (k : Nat) (hs : Sound s₀ s) : Sound s₀ (State.clearStrands s k) := by
  unfold State.clearStrands
  repeat' first
    | with_reducible assumption
    | with_reducible apply Sound.modCor
    | with_reducible apply Sound.foldl
    | intro _ _ _

theorem State.countHalt_sound {s₀ : State} {s : State} (c tile : Nat) (hs : Sound s₀ s) : Sound s₀ (State.countHalt s c tile) := by
  unfold State.countHalt
  repeat' first
    | with_reducible assumption
    | with_reducible apply Sound.modCx

theorem State.endHalts_sound {s₀ : State} {s : State} (l : List DescRun) (hs : Sound s₀ s) : Sound s₀ (State.endHalts s l) := by
  unfold State.endHalts
  repeat' first
    | with_reducible assumption
    | with_reducible apply State.countHalt_sound
    | with_reducible apply Sound.foldl
    | intro _ _ _

theorem State.stopIn_sound {s₀ : State} {s : State} (c l : Nat) (keep : Bool) (k : Nat) (hs : Sound s₀ s) : Sound s₀ (State.stopIn s c l keep k) := by
  unfold State.stopIn
  repeat' first
    | with_reducible assumption
    | (extract_lets +onlyGivenNames t; guard_hyp t : State := _; refine Sound.cut (Q := Sound s₀ t) ?_ ?_; (on_goal 1 => (subst t)); (on_goal 2 => (clear_value t; intro _)))
    | (fail_if_no_progress extract_lets +onlyGivenNames t; first | clear_value t)
    | with_reducible apply Sound.modClu
    | with_reducible apply State.clearStrands_sound
    | with_reducible apply State.endHalts_sound
    | split

theorem State.endLeg_sound {s₀ : State} {s : State} (c l status detail : Nat) (hs : Sound s₀ s) : Sound s₀ (State.endLeg s c l status detail) := by
  unfold State.endLeg
  repeat' first
    | with_reducible assumption
    | (extract_lets +onlyGivenNames t; guard_hyp t : State := _; refine Sound.cut (Q := Sound s₀ t) ?_ ?_; (on_goal 1 => (subst t)); (on_goal 2 => (clear_value t; intro _)))
    | (fail_if_no_progress extract_lets +onlyGivenNames t; first | clear_value t)
    | with_reducible apply State.modLeg_sound
    | with_reducible apply State.stopIn_sound
    | with_reducible apply Sound.foldl
    | intro _ _ _
    | split

theorem State.freeze_sound {s₀ : State} {s : State} (c : Nat) (hs : Sound s₀ s) : Sound s₀ (State.freeze s c) := by
  unfold State.freeze
  repeat' first
    | with_reducible assumption
    | (extract_lets +onlyGivenNames t; guard_hyp t : State := _; refine Sound.cut (Q := Sound s₀ t) ?_ ?_; (on_goal 1 => (subst t)); (on_goal 2 => (clear_value t; intro _)))
    | with_reducible apply Sound.modCx
    | with_reducible apply Sound.modClu
    | with_reducible apply Sound.foldl
    | intro _ _ _

theorem State.shiftHalts_sound {s₀ : State} {s : State} (c start : Nat) (hs : Sound s₀ s) : Sound s₀ (State.shiftHalts s c start) := by
  unfold State.shiftHalts
  repeat' first
    | with_reducible assumption
    | (extract_lets +onlyGivenNames t; guard_hyp t : State := _; refine Sound.cut (Q := Sound s₀ t) ?_ ?_; (on_goal 1 => (subst t)); (on_goal 2 => (clear_value t; intro _)))
    | (fail_if_no_progress extract_lets +onlyGivenNames t; first | clear_value t)
    | with_reducible apply Sound.modClu
    | with_reducible apply Sound.modCol
    | with_reducible apply Sound.foldl
    | intro _ _ _

theorem State.park_sound {s₀ : State} {s : State} (c : Nat) (hs : Sound s₀ s) : Sound s₀ (State.park s c) := by
  unfold State.park
  repeat' first
    | with_reducible assumption
    | with_reducible apply Sound.modCx

theorem State.unpark_sound {s₀ : State} {s : State} (c : Nat) (hs : Sound s₀ s) : Sound s₀ (State.unpark s c) := by
  unfold State.unpark
  repeat' first
    | with_reducible assumption
    | with_reducible apply Sound.modCx
    | with_reducible apply State.shiftHalts_sound
    | split

theorem State.thawCtx_sound {s₀ : State} {s : State} (c : Nat) (hs : Sound s₀ s) : Sound s₀ (State.thawCtx s c) := by
  unfold State.thawCtx
  repeat' first
    | with_reducible assumption
    | (extract_lets +onlyGivenNames t; guard_hyp t : State := _; refine Sound.cut (Q := Sound s₀ t) ?_ ?_; (on_goal 1 => (subst t)); (on_goal 2 => (clear_value t; intro _)))
    | with_reducible apply Sound.modCx
    | with_reducible apply Sound.modClu
    | with_reducible apply State.shiftHalts_sound
    | with_reducible apply Sound.foldl
    | intro _ _ _
    | split

end Sys2Proof.Machine
end

