-- ==== Sys2Proof/Laws/SoundCellar.lean ====
section
/-! SUPPORT. What every operation of Machine/Cellar.lean keeps (Sound). -/

namespace Sys2Proof.Machine

open Sys2Proof

theorem State.enterPoison_sound {s₀ : State} {s : State} (a : Nat) (hs : Sound s₀ s) : Sound s₀ (State.enterPoison s a) := by
  unfold State.enterPoison
  repeat' first
    | with_reducible assumption
    | (fail_if_no_progress extract_lets +onlyGivenNames t; first | clear_value t)
    | with_reducible apply Sound.modStack
    | with_reducible apply State.fault_sound
    | split

theorem State.leavePoison_sound {s₀ : State} {s : State} (a : Nat) (hs : Sound s₀ s) : Sound s₀ (State.leavePoison s a) := by
  unfold State.leavePoison
  repeat' first
    | with_reducible assumption
    | (fail_if_no_progress extract_lets +onlyGivenNames t; first | clear_value t)
    | with_reducible apply Sound.modStack
    | split

theorem State.putTier_sound {s₀ : State} {s : State} (a : Nat) (l : Line) (hs : Sound s₀ s) : Sound s₀ (State.putTier s a l) := by
  unfold State.putTier
  repeat' first
    | with_reducible assumption
    | with_reducible apply Sound.write
    | with_reducible apply State.leavePoison_sound
    | split

theorem State.putHome_sound {s₀ : State} {s : State} (id : LineId) (h : HomeLine) (hs : Sound s₀ s) : Sound s₀ (State.putHome s id h) := by
  unfold State.putHome
  repeat' first
    | with_reducible assumption
    | (fail_if_no_progress extract_lets +onlyGivenNames t; first | guard_hyp t : Cellar := _ | clear_value t)
    | with_reducible rfl
    | (with_reducible apply Sound.upd)

theorem State.putData_sound {s₀ : State} {s : State} (id : LineId) (direct : Bool) (l : Line) (hs : Sound s₀ s) : Sound s₀ (State.putData s id direct l) := by
  unfold State.putData
  repeat' first
    | with_reducible assumption
    | (extract_lets +onlyGivenNames t; guard_hyp t : State := _; refine Sound.cut (Q := Sound s₀ t) ?_ ?_; (on_goal 1 => (subst t)); (on_goal 2 => (clear_value t; intro _)))
    | (fail_if_no_progress extract_lets +onlyGivenNames t; first | guard_hyp t : Cellar := _ | clear_value t)
    | with_reducible apply Sound.write
    | with_reducible apply State.putTier_sound
    | with_reducible apply State.putHome_sound
    | split
    | with_reducible rfl
    | (with_reducible apply Sound.upd)

theorem State.recallAll_sound {s₀ : State} {s : State} (id : LineId) (direct : Bool) (hs : Sound s₀ s) : Sound s₀ (State.recallAll s id direct) := by
  unfold State.recallAll
  repeat' first
    | with_reducible assumption
    | (extract_lets +onlyGivenNames t; guard_hyp t : State := _; refine Sound.cut (Q := Sound s₀ t) ?_ ?_; (on_goal 1 => (subst t)); (on_goal 2 => (clear_value t; intro _)))
    | (fail_if_no_progress extract_lets +onlyGivenNames t; first | guard_hyp t : Cellar := _ | clear_value t)
    | with_reducible apply State.putData_sound
    | with_reducible apply Sound.foldl
    | intro _ _ _
    | split
    | with_reducible rfl
    | (with_reducible apply Sound.upd)

theorem State.dropAll_sound {s₀ : State} {s : State} (id : LineId) (hs : Sound s₀ s) : Sound s₀ (State.dropAll s id) := by
  unfold State.dropAll
  repeat' first
    | with_reducible assumption
    | with_reducible rfl
    | (with_reducible apply Sound.upd)

theorem State.demote_sound {s₀ : State} {s : State} (id : LineId) (direct : Bool) (hs : Sound s₀ s) : Sound s₀ (State.demote s id direct) := by
  unfold State.demote
  repeat' first
    | with_reducible assumption
    | (extract_lets +onlyGivenNames t; guard_hyp t : State := _; refine Sound.cut (Q := Sound s₀ t) ?_ ?_; (on_goal 1 => (subst t)); (on_goal 2 => (clear_value t; intro _)))
    | (fail_if_no_progress extract_lets +onlyGivenNames t; first | guard_hyp t : Cellar := _ | clear_value t)
    | with_reducible apply State.putData_sound
    | with_reducible apply Sound.foldl
    | intro _ _ _
    | split
    | with_reducible rfl
    | (with_reducible apply Sound.upd)

theorem State.evict_sound {s₀ : State} {s : State} (id : LineId) (hs : Sound s₀ s) : Sound s₀ (State.evict s id) := by
  unfold State.evict
  repeat' first
    | with_reducible assumption
    | (extract_lets +onlyGivenNames t; guard_hyp t : State := _; refine Sound.cut (Q := Sound s₀ t) ?_ ?_; (on_goal 1 => (subst t)); (on_goal 2 => (clear_value t; intro _)))
    | (fail_if_no_progress extract_lets +onlyGivenNames t; first | clear_value t)
    | with_reducible apply Sound.write
    | with_reducible apply State.enterPoison_sound
    | with_reducible apply State.putTier_sound
    | with_reducible apply State.putHome_sound
    | with_reducible apply State.recallAll_sound
    | with_reducible apply State.dropAll_sound
    | split

theorem State.trimKeeps_sound {s₀ : State} {s : State} (k set : Nat) (hs : Sound s₀ s) : Sound s₀ (State.trimKeeps s k set) := by
  unfold State.trimKeeps
  repeat' first
    | with_reducible assumption
    | (fail_if_no_progress extract_lets +onlyGivenNames t; first | clear_value t)
    | with_reducible apply State.putHome_sound
    | with_reducible apply Sound.foldl
    | intro _ _ _

theorem State.makeRoom_sound {s₀ : State} {s : State} (k set : Nat) (hs : Sound s₀ s) {t : State} (e : State.makeRoom s k set = some t) : Sound s₀ t := by
  unfold State.makeRoom at e
  revert e
  repeat' first
    | with_reducible assumption
    | (intro e; guard_hyp e : _ = _; cases e)
    | (extract_lets +onlyGivenNames t; guard_hyp t : State := _; refine Sound.cut (Q := Sound s₀ t) ?_ ?_; (on_goal 1 => (subst t)); (on_goal 2 => (clear_value t; intro _)))
    | (fail_if_no_progress extract_lets +onlyGivenNames t; first | clear_value t)
    | with_reducible apply Sound.modCnt
    | with_reducible apply Sound.modCol
    | with_reducible apply State.evict_sound
    | split

theorem State.passOver_sound {s₀ : State} {s : State} (k set : Nat) (hs : Sound s₀ s) : Sound s₀ (State.passOver s k set) := by
  unfold State.passOver
  repeat' first
    | with_reducible assumption
    | with_reducible apply Sound.modCnt

theorem State.allocate_sound {s₀ : State} {s : State} (c k a set hint : Nat) (st : LineSt) (fills : Nat) (dirty : Bool) (data : Line) (hs : Sound s₀ s) {t : State} (e : State.allocate s c k a set hint st fills dirty data = some t) : Sound s₀ t := by
  unfold State.allocate at e
  revert e
  repeat' first
    | with_reducible assumption
    | (intro e; guard_hyp e : _ = _; cases e)
    | (extract_lets +onlyGivenNames t; guard_hyp t : State := _; refine Sound.cut (Q := Sound s₀ t) ?_ ?_; (on_goal 1 => (subst t)); (on_goal 2 => (clear_value t; intro _)))
    | (fail_if_no_progress extract_lets +onlyGivenNames t; first | guard_hyp t : Cellar := _ | clear_value t)
    | with_reducible apply Sound.modCol
    | with_reducible apply State.putHome_sound
    | with_reducible apply State.trimKeeps_sound
    | (with_reducible refine State.makeRoom_sound _ _ ?_ (by assumption))
    | split
    | with_reducible rfl
    | (with_reducible apply Sound.upd)

theorem State.fill_sound {s₀ : State} {s : State} (c k a set hint : Nat) (hs : Sound s₀ s) {t : State} (e : State.fill s c k a set hint = some t) : Sound s₀ t := by
  unfold State.fill at e
  revert e
  repeat' first
    | with_reducible assumption
    | (with_reducible refine fun e => State.allocate_sound _ _ _ _ _ _ _ _ _ ?_ e)

theorem State.bringEvac_sound {s₀ : State} {s : State} (id : LineId) (hint : Nat) (full : Option Line) (hs : Sound s₀ s) {t : State} (e : State.bringEvac s id hint full = some t) : Sound s₀ t := by
  unfold State.bringEvac at e
  revert e
  repeat' first
    | with_reducible assumption
    | with_reducible refine Sound.optMap ?_ ?_
    | (extract_lets +onlyGivenNames t; guard_hyp t : State := _; refine Sound.cut (Q := Sound s₀ t) ?_ ?_; (on_goal 1 => (subst t)); (on_goal 2 => (clear_value t; intro _)))
    | (fail_if_no_progress extract_lets +onlyGivenNames t; first | guard_hyp t : Cellar := _ | clear_value t)
    | with_reducible apply Sound.modCol
    | with_reducible apply State.putHome_sound
    | with_reducible apply State.trimKeeps_sound
    | (with_reducible refine fun _ e => State.makeRoom_sound _ _ ?_ e)
    | intro _ _
    | with_reducible rfl
    | (with_reducible apply Sound.upd)

theorem State.bring_sound {s₀ : State} {s : State} (c : Nat) (id : LineId) (set hint : Nat) (hs : Sound s₀ s) {t : State} (e : State.bring s c id set hint = some t) : Sound s₀ t := by
  unfold State.bring at e
  revert e
  repeat' first
    | with_reducible assumption
    | (with_reducible refine fun e => State.fill_sound _ _ _ _ _ ?_ e)
    | (with_reducible refine fun e => State.bringEvac_sound _ _ _ ?_ e)
    | split

theorem State.touch_sound {s₀ : State} {s : State} (id : LineId) (hint : Nat) (hs : Sound s₀ s) : Sound s₀ (State.touch s id hint) := by
  unfold State.touch
  repeat' first
    | with_reducible assumption
    | (extract_lets +onlyGivenNames t; guard_hyp t : State := _; refine Sound.cut (Q := Sound s₀ t) ?_ ?_; (on_goal 1 => (subst t)); (on_goal 2 => (clear_value t; intro _)))
    | (fail_if_no_progress extract_lets +onlyGivenNames t; first | guard_hyp t : Cellar := _ | clear_value t)
    | with_reducible apply State.putHome_sound
    | split
    | with_reducible rfl
    | (with_reducible apply Sound.upd)

theorem State.makePz_sound {s₀ : State} {s : State} (id : LineId) (hs : Sound s₀ s) : Sound s₀ (State.makePz s id) := by
  unfold State.makePz
  repeat' first
    | with_reducible assumption
    | (extract_lets +onlyGivenNames t; guard_hyp t : State := _; refine Sound.cut (Q := Sound s₀ t) ?_ ?_; (on_goal 1 => (subst t)); (on_goal 2 => (clear_value t; intro _)))
    | (fail_if_no_progress extract_lets +onlyGivenNames t; first | clear_value t)
    | with_reducible apply State.enterPoison_sound
    | with_reducible apply State.putHome_sound
    | with_reducible apply State.dropAll_sound
    | split

theorem State.settleCopies_sound {s₀ : State} {s : State} (id : LineId) (direct : Bool) (hint : Nat) (hs : Sound s₀ s) : Sound s₀ (State.settleCopies s id direct hint) := by
  unfold State.settleCopies
  repeat' first
    | with_reducible assumption
    | (extract_lets +onlyGivenNames t; guard_hyp t : State := _; refine Sound.cut (Q := Sound s₀ t) ?_ ?_; (on_goal 1 => (subst t)); (on_goal 2 => (clear_value t; intro _)))
    | (fail_if_no_progress extract_lets +onlyGivenNames t; first | clear_value t)
    | with_reducible apply State.putHome_sound
    | with_reducible apply State.touch_sound
    | split

theorem State.cleanLine_sound {s₀ : State} {s : State} (id : LineId) (direct : Bool) (hs : Sound s₀ s) : Sound s₀ (State.cleanLine s id direct) := by
  unfold State.cleanLine
  repeat' first
    | with_reducible assumption
    | (extract_lets +onlyGivenNames t; guard_hyp t : State := _; refine Sound.cut (Q := Sound s₀ t) ?_ ?_; (on_goal 1 => (subst t)); (on_goal 2 => (clear_value t; intro _)))
    | (fail_if_no_progress extract_lets +onlyGivenNames t; first | clear_value t)
    | with_reducible apply State.putTier_sound
    | with_reducible apply State.putHome_sound
    | with_reducible apply State.demote_sound
    | with_reducible apply State.settleCopies_sound
    | split

theorem State.settle_sound {s₀ : State} {s : State} (id : LineId) (direct : Bool) (hint : Nat) (hs : Sound s₀ s) : Sound s₀ (State.settle s id direct hint) := by
  unfold State.settle
  repeat' first
    | with_reducible assumption
    | (extract_lets +onlyGivenNames t; guard_hyp t : State := _; refine Sound.cut (Q := Sound s₀ t) ?_ ?_; (on_goal 1 => (subst t)); (on_goal 2 => (clear_value t; intro _)))
    | (fail_if_no_progress extract_lets +onlyGivenNames t; first | guard_hyp t : Cellar := _ | clear_value t)
    | with_reducible apply State.putHome_sound
    | with_reducible apply State.recallAll_sound
    | with_reducible apply State.settleCopies_sound
    | split
    | with_reducible rfl
    | (with_reducible apply Sound.upd)

theorem State.giveL1_sound {s₀ : State} {s : State} (core : Nat) (id : LineId) (d : Line) (w : Bool) (hs : Sound s₀ s) : Sound s₀ (State.giveL1 s core id d w) := by
  unfold State.giveL1
  repeat' first
    | with_reducible assumption
    | (fail_if_no_progress extract_lets +onlyGivenNames t; first | guard_hyp t : Cellar := _ | clear_value t)
    | with_reducible rfl
    | (with_reducible apply Sound.upd)

theorem State.serve_sound {s₀ : State} {s : State} (id : LineId) (direct : Bool) (hint : Nat) (ev : HomeEvent) (hs : Sound s₀ s) : Sound s₀ (State.serve s id direct hint ev).1 := by
  cases ev <;> dsimp -zeta only [State.serve]
  repeat' first
    | with_reducible assumption
    | (extract_lets +onlyGivenNames t; guard_hyp t : State := _; refine Sound.cut (Q := Sound s₀ t) ?_ ?_; (on_goal 1 => (subst t)); (on_goal 2 => (clear_value t; intro _)))
    | (fail_if_no_progress extract_lets +onlyGivenNames t; first | guard_hyp t : Cellar := _ | clear_value t)
    | with_reducible apply Sound.modCol
    | with_reducible apply State.putHome_sound
    | with_reducible apply State.putData_sound
    | with_reducible apply State.recallAll_sound
    | with_reducible apply State.demote_sound
    | with_reducible apply State.evict_sound
    | with_reducible apply State.settle_sound
    | with_reducible apply State.giveL1_sound
    | split
    | with_reducible rfl
    | (with_reducible apply Sound.upd)

theorem State.waitOver_sound {s₀ : State} {s : State} (id : LineId) (hs : Sound s₀ s) : Sound s₀ (State.waitOver s id) := by
  unfold State.waitOver
  repeat' first
    | with_reducible assumption
    | (fail_if_no_progress extract_lets +onlyGivenNames t; first | clear_value t)
    | with_reducible apply Sound.modCol
    | split

theorem State.homeServe_sound {s₀ : State} {s : State} (c : Nat) (id : LineId) (direct : Bool) (set hint : Nat) (ev : HomeEvent) (hs : Sound s₀ s) : Sound s₀ (State.homeServe s c id direct set hint ev).1 := by
  cases ev <;> dsimp -zeta only [State.homeServe]
  repeat' first
    | with_reducible assumption
    | (extract_lets +onlyGivenNames t; guard_hyp t : State := _; refine Sound.cut (Q := Sound s₀ t) ?_ ?_; (on_goal 1 => (subst t)); (on_goal 2 => (clear_value t; intro _)))
    | (fail_if_no_progress extract_lets +onlyGivenNames t; first | clear_value t)
    | with_reducible apply Sound.modCnt
    | with_reducible apply State.leavePoison_sound
    | with_reducible apply State.putHome_sound
    | with_reducible apply State.putData_sound
    | with_reducible apply State.evict_sound
    | with_reducible apply State.passOver_sound
    | (with_reducible refine State.allocate_sound _ _ _ _ _ _ _ _ _ ?_ (by assumption))
    | (with_reducible refine State.fill_sound _ _ _ _ _ ?_ (by assumption))
    | (with_reducible refine State.bringEvac_sound _ _ _ ?_ (by assumption))
    | with_reducible apply State.settle_sound
    | with_reducible apply State.serve_sound
    | split

theorem State.homeStep_sound {s₀ : State} {s : State} (c : Nat) (id : LineId) (direct : Bool) (set hint : Nat) (ev : HomeEvent) (hs : Sound s₀ s) : Sound s₀ (State.homeStep s c id direct set hint ev).1 := by
  cases ev <;> dsimp -zeta only [State.homeStep]
  repeat' first
    | with_reducible assumption
    | (extract_lets +onlyGivenNames t; guard_hyp t : State × _ := _; refine Sound.cut (Q := Sound s₀ t.1) ?_ ?_; (on_goal 1 => (subst t)); (on_goal 2 => (clear_value t; intro _)))
    | with_reducible apply State.waitOver_sound
    | with_reducible apply State.homeServe_sound
    | split

theorem State.holdReq_sound {s₀ : State} {s : State} (id : LineId) (h : HeldReq) (hs : Sound s₀ s) : Sound s₀ (State.holdReq s id h) := by
  unfold State.holdReq
  repeat' first
    | with_reducible assumption
    | with_reducible apply Sound.modCol

theorem State.readPlace_sound {s₀ : State} {s : State} (c : Nat) (p : Place) (hint : Option Nat) (hs : Sound s₀ s) : Sound s₀ (State.readPlace s c p hint).1 := by
  unfold State.readPlace
  repeat' first
    | with_reducible assumption
    | with_reducible apply State.homeStep_sound
    | split

theorem State.writePlace_sound {s₀ : State} {s : State} (c : Nat) (p : Place) (hint : Option Nat) (l : Line) (hs : Sound s₀ s) : Sound s₀ (State.writePlace s c p hint l).1 := by
  unfold State.writePlace
  repeat' first
    | with_reducible assumption
    | (extract_lets +onlyGivenNames t; guard_hyp t : State := _; refine Sound.cut (Q := Sound s₀ t) ?_ ?_; (on_goal 1 => (subst t)); (on_goal 2 => (clear_value t; intro _)))
    | with_reducible apply Sound.modCor
    | with_reducible apply Sound.write
    | with_reducible apply State.leavePoison_sound
    | with_reducible apply State.homeStep_sound
    | split

theorem State.readLines_sound {s₀ : State} (c : Nat) (mu hint : Option Nat) (n : Nat) {s : State} (k : Nat) (acc : List Byte) (h : Sound s₀ s) :
    Sound s₀ (State.readLines s c mu hint n k acc).1 := by
  induction n generalizing s k acc with
  | zero => exact h
  | succ n ih =>
    unfold State.readLines
    have hp := State.readPlace_sound c (s.resolve c mu k) hint h
    split
    next e => exact ih _ _ (Sound.of_eq e hp)
    next e => exact Sound.of_eq e hp

theorem State.dmaRead_sound {s₀ : State} {s : State} (c : Nat) (a n : Nat) (hs : Sound s₀ s) : Sound s₀ (State.dmaRead s c a n).1 := by
  unfold State.dmaRead
  repeat' first
    | with_reducible assumption
    | (fail_if_no_progress extract_lets +onlyGivenNames t; first | clear_value t)
    | with_reducible apply State.readLines_sound

theorem State.dmaLine_sound {s₀ : State} {s : State} (c : Nat) (a la : Nat) (bs : List Byte) (hs : Sound s₀ s) : Sound s₀ (State.dmaLine s c a la bs) := by
  unfold State.dmaLine
  repeat' first
    | with_reducible assumption
    | (extract_lets +onlyGivenNames t; guard_hyp t : State := _; refine Sound.cut (Q := Sound s₀ t) ?_ ?_; (on_goal 1 => (subst t)); (on_goal 2 => (clear_value t; intro _)))
    | (fail_if_no_progress extract_lets +onlyGivenNames t; first | clear_value t)
    | with_reducible apply Sound.write
    | with_reducible apply State.leavePoison_sound
    | with_reducible apply State.homeStep_sound
    | with_reducible apply State.holdReq_sound
    | (with_reducible refine Sound.of_eq (by assumption) ?_)
    | split

theorem State.dmaWrite_sound {s₀ : State} {s : State} (c : Nat) (a : Nat) (bs : List Byte) (hs : Sound s₀ s) : Sound s₀ (State.dmaWrite s c a bs) := by
  unfold State.dmaWrite
  repeat' first
    | with_reducible assumption
    | with_reducible apply State.dmaLine_sound
    | with_reducible apply Sound.foldl
    | intro _ _ _
    | split

theorem State.takeLine_sound {s₀ : State} {s : State} (c a : Nat) (hs : Sound s₀ s) : Sound s₀ (State.takeLine s c a).1 := by
  unfold State.takeLine
  repeat' first
    | with_reducible assumption
    | with_reducible apply State.readPlace_sound
    | (with_reducible refine Sound.of_eq (by assumption) ?_)
    | split

theorem State.storeLine_sound {s₀ : State} {s : State} (c a : Nat) (l : Line) (hs : Sound s₀ s) : Sound s₀ (State.storeLine s c a l) := by
  unfold State.storeLine
  repeat' first
    | with_reducible assumption
    | with_reducible apply State.writePlace_sound

end Sys2Proof.Machine
end

