-- ==== Sys2Proof/Laws/SoundPress.lean ====
section
/-! SUPPORT. What every operation of Machine/Press.lean keeps (Sound). -/

namespace Sys2Proof.Machine

open Sys2Proof

theorem State.notFinite_sound {s₀ : State} {s : State} (c : Nat) (hs : Sound s₀ s) : Sound s₀ (State.notFinite s c) := by
  unfold State.notFinite
  repeat' first
    | with_reducible assumption
    | with_reducible apply Sound.modRun

theorem State.pressApply_sound {s₀ : State} {s : State} (c : Contribution) (hs : Sound s₀ s) : Sound s₀ (State.pressApply s c) := by
  unfold State.pressApply
  repeat' first
    | with_reducible assumption
    | (extract_lets +onlyGivenNames t; guard_hyp t : State := _; refine Sound.cut (Q := Sound s₀ t) ?_ ?_; (on_goal 1 => (subst t)); (on_goal 2 => (clear_value t; intro _)))
    | (fail_if_no_progress extract_lets +onlyGivenNames t; first | clear_value t)
    | with_reducible apply Sound.modRun
    | with_reducible apply State.putHome_sound
    | with_reducible apply State.putData_sound
    | with_reducible apply State.notFinite_sound
    | split

theorem State.keepWaiting_sound {s₀ : State} {s : State} (id : LineId) (p : Contribution → Bool) (hs : Sound s₀ s) : Sound s₀ (State.keepWaiting s id p) := by
  unfold State.keepWaiting
  repeat' first
    | with_reducible assumption
    | with_reducible apply Sound.modCol

theorem State.immApply_sound {s₀ : State} {s : State} (o : ImmReq) (hs : Sound s₀ s) : Sound s₀ (State.immApply s o) := by
  unfold State.immApply
  repeat' first
    | with_reducible assumption
    | (extract_lets +onlyGivenNames t; guard_hyp t : State := _; refine Sound.cut (Q := Sound s₀ t) ?_ ?_; (on_goal 1 => (subst t)); (on_goal 2 => (clear_value t; intro _)))
    | (fail_if_no_progress extract_lets +onlyGivenNames t; first | clear_value t)
    | with_reducible apply Sound.modCor
    | with_reducible apply State.putData_sound
    | with_reducible apply State.recallAll_sound
    | with_reducible apply State.settle_sound

theorem State.tryHeld_sound {s₀ : State} {s : State} (h : HeldReq) (hs : Sound s₀ s) : Sound s₀ (State.tryHeld s h) := by
  unfold State.tryHeld
  repeat' first
    | with_reducible assumption
    | with_reducible apply State.homeStep_sound
    | with_reducible apply State.holdReq_sound
    | with_reducible apply State.immApply_sound
    | (with_reducible refine Sound.of_eq (by assumption) ?_)
    | split
    | with_reducible rfl
    | (with_reducible apply Sound.upd)

theorem State.serveColumn_sound {s₀ : State} {s : State} (k : Nat) (hs : Sound s₀ s) : Sound s₀ (State.serveColumn s k) := by
  unfold State.serveColumn
  repeat' first
    | with_reducible assumption
    | with_reducible apply Sound.modCol
    | with_reducible apply State.tryHeld_sound
    | with_reducible apply Sound.foldl

theorem State.serveHeld_sound {s₀ : State} {s : State} (id : LineId) (hs : Sound s₀ s) : Sound s₀ (State.serveHeld s id) := by
  unfold State.serveHeld
  repeat' first
    | with_reducible assumption
    | with_reducible apply Sound.modCol
    | with_reducible apply State.serveColumn_sound

theorem State.closeLock_sound {s₀ : State} {s : State} (id : LineId) (hs : Sound s₀ s) : Sound s₀ (State.closeLock s id) := by
  unfold State.closeLock
  repeat' first
    | with_reducible assumption
    | (extract_lets +onlyGivenNames t; guard_hyp t : State := _; refine Sound.cut (Q := Sound s₀ t) ?_ ?_; (on_goal 1 => (subst t)); (on_goal 2 => (clear_value t; intro _)))
    | (fail_if_no_progress extract_lets +onlyGivenNames t; first | clear_value t)
    | with_reducible apply State.putHome_sound
    | with_reducible apply State.keepWaiting_sound
    | with_reducible apply State.serveHeld_sound
    | split

theorem State.moveCursor_sound {s₀ : State} {s : State} (id : LineId) (n : Nat) (fuel : Nat) (hs : Sound s₀ s) : Sound s₀ (State.moveCursor s id n fuel) := by
  induction fuel generalizing s id n  with
  | zero => exact hs
  | succ _ ih =>
    unfold State.moveCursor
    repeat' first
      | with_reducible assumption
      | with_reducible apply hf
      | (extract_lets +onlyGivenNames t; guard_hyp t : State := _; refine Sound.cut (Q := Sound s₀ t) ?_ ?_; (on_goal 1 => (subst t)); (on_goal 2 => (clear_value t; intro _)))
      | (extract_lets +onlyGivenNames t; guard_hyp t : State → State := _; refine Sound.cut (Q := ∀ x, Sound s₀ x → Sound s₀ (t x)) ?_ ?_; (on_goal 1 => (intro x hx; subst t)); (on_goal 2 => (clear_value t; intro hf)))
      | (fail_if_no_progress extract_lets +onlyGivenNames t; first | clear_value t)
      | with_reducible apply State.putHome_sound
      | with_reducible apply State.pressApply_sound
      | with_reducible apply State.keepWaiting_sound
      | with_reducible apply Sound.foldl
      | with_reducible apply ih
      | split

theorem State.moveRanks_sound {s₀ : State} {s : State} (id : LineId) (fuel : List Nat) (hs : Sound s₀ s) : Sound s₀ (State.moveRanks s id fuel) := by
  induction fuel generalizing s id  with
  | nil => exact hs
  | cons _ _ ih =>
    unfold State.moveRanks
    repeat' first
      | with_reducible assumption
      | (extract_lets +onlyGivenNames t; guard_hyp t : State := _; refine Sound.cut (Q := Sound s₀ t) ?_ ?_; (on_goal 1 => (subst t)); (on_goal 2 => (clear_value t; intro _)))
      | (fail_if_no_progress extract_lets +onlyGivenNames t; first | clear_value t)
      | with_reducible apply State.pressApply_sound
      | with_reducible apply State.keepWaiting_sound
      | with_reducible apply Sound.foldl
      | with_reducible apply ih
      | split

theorem State.advance_sound {s₀ : State} {s : State} (id : LineId) (hs : Sound s₀ s) : Sound s₀ (State.advance s id) := by
  unfold State.advance
  repeat' first
    | with_reducible assumption
    | (extract_lets +onlyGivenNames t; guard_hyp t : State := _; refine Sound.cut (Q := Sound s₀ t) ?_ ?_; (on_goal 1 => (subst t)); (on_goal 2 => (clear_value t; intro _)))
    | (fail_if_no_progress extract_lets +onlyGivenNames t; first | clear_value t)
    | with_reducible apply State.closeLock_sound
    | with_reducible apply State.moveCursor_sound
    | with_reducible apply State.moveRanks_sound
    | split

theorem State.advanceAll_sound {s₀ : State} {s : State} (c : Nat) (hs : Sound s₀ s) : Sound s₀ (State.advanceAll s c) := by
  unfold State.advanceAll
  repeat' first
    | with_reducible assumption
    | with_reducible apply State.advance_sound
    | with_reducible apply Sound.foldl

theorem State.closeAtCursor_sound {s₀ : State} {s : State} (id : LineId) (hs : Sound s₀ s) : Sound s₀ (State.closeAtCursor s id) := by
  unfold State.closeAtCursor
  repeat' first
    | with_reducible assumption
    | with_reducible apply State.putHome_sound
    | with_reducible apply State.closeLock_sound
    | split

theorem State.dropMu_sound {s₀ : State} {s : State} (c mu cause : Nat) (hs : Sound s₀ s) : Sound s₀ (State.dropMu s c mu cause) := by
  unfold State.dropMu
  repeat' first
    | with_reducible assumption
    | (extract_lets +onlyGivenNames t; guard_hyp t : State := _; refine Sound.cut (Q := Sound s₀ t) ?_ ?_; (on_goal 1 => (subst t)); (on_goal 2 => (clear_value t; intro _)))
    | (fail_if_no_progress extract_lets +onlyGivenNames t; first | guard_hyp t : Cellar := _ | clear_value t)
    | with_reducible apply Sound.modCx
    | with_reducible apply Sound.modClu
    | with_reducible apply Sound.modCol
    | with_reducible apply Sound.modRun
    | with_reducible apply State.advanceAll_sound
    | with_reducible apply Sound.foldl
    | intro _ _ _
    | split
    | with_reducible rfl
    | (with_reducible apply Sound.upd)

theorem State.failLeg_sound {s₀ : State} {s : State} (c l status detail cause : Nat) (hs : Sound s₀ s) : Sound s₀ (State.failLeg s c l status detail cause) := by
  unfold State.failLeg
  repeat' first
    | with_reducible assumption
    | (extract_lets +onlyGivenNames t; guard_hyp t : State := _; refine Sound.cut (Q := Sound s₀ t) ?_ ?_; (on_goal 1 => (subst t)); (on_goal 2 => (clear_value t; intro _)))
    | (fail_if_no_progress extract_lets +onlyGivenNames t; first | clear_value t)
    | with_reducible apply State.endLeg_sound
    | with_reducible apply State.dropMu_sound
    | split

theorem State.stopLegs_sound {s₀ : State} {s : State} (c : Nat) (hs : Sound s₀ s) : Sound s₀ (State.stopLegs s c) := by
  unfold State.stopLegs
  repeat' first
    | with_reducible assumption
    | with_reducible apply State.failLeg_sound
    | with_reducible apply Sound.foldl
    | intro _ _ _

theorem State.cutLegs_sound {s₀ : State} {s : State} (c : Nat) (hs : Sound s₀ s) : Sound s₀ (State.cutLegs s c) := by
  unfold State.cutLegs
  repeat' first
    | with_reducible assumption
    | (extract_lets +onlyGivenNames t; guard_hyp t : State := _; refine Sound.cut (Q := Sound s₀ t) ?_ ?_; (on_goal 1 => (subst t)); (on_goal 2 => (clear_value t; intro _)))
    | with_reducible apply State.finish_sound
    | with_reducible apply State.legReceiptOf_sound
    | with_reducible apply State.stopLegs_sound
    | with_reducible apply Sound.foldl
    | intro _ _ _
    | split

theorem State.takeLock_sound {s₀ : State} {s : State} (c : Contribution) (set : Nat) (hs : Sound s₀ s) {t : State} (e : State.takeLock s c set = some t) : Sound s₀ t := by
  unfold State.takeLock at e
  revert e
  repeat' first
    | with_reducible assumption
    | (intro e; guard_hyp e : _ = _; cases e)
    | with_reducible refine Sound.optMap ?_ ?_
    | (extract_lets +onlyGivenNames t; guard_hyp t : State := _; refine Sound.cut (Q := Sound s₀ t) ?_ ?_; (on_goal 1 => (subst t)); (on_goal 2 => (clear_value t; intro _)))
    | (extract_lets +onlyGivenNames t; guard_hyp t : Option State := _; refine Sound.cut (Q := ∀ u, t = some u → Sound s₀ u) ?_ ?_; (on_goal 1 => (intro u hu; revert hu; subst t)); (on_goal 2 => (clear_value t; intro _)))
    | (fail_if_no_progress extract_lets +onlyGivenNames t; first | clear_value t)
    | with_reducible apply State.putHome_sound
    | with_reducible apply State.recallAll_sound
    | (with_reducible refine fun e => State.bring_sound _ _ _ _ ?_ e)
    | with_reducible apply State.waitOver_sound
    | with_reducible apply State.advance_sound
    | intro _ _
    | split

theorem State.addWaiter_sound {s₀ : State} {s : State} (c l : Nat) (id : LineId) (hs : Sound s₀ s) : Sound s₀ (State.addWaiter s c l id) := by
  unfold State.addWaiter
  repeat' first
    | with_reducible assumption
    | with_reducible apply Sound.modCol

theorem State.waitWay_sound {s₀ : State} {s : State} (c l : Nat) (id : LineId) (set : Nat) (hs : Sound s₀ s) : Sound s₀ (State.waitWay s c l id set) := by
  unfold State.waitWay
  repeat' first
    | with_reducible assumption
    | with_reducible apply State.passOver_sound
    | with_reducible apply State.addWaiter_sound
    | split

theorem State.hold_sound {s₀ : State} {s : State} (k : Nat) (c : Contribution) (hs : Sound s₀ s) : Sound s₀ (State.hold s k c) := by
  unfold State.hold
  repeat' first
    | with_reducible assumption
    | (extract_lets +onlyGivenNames t; guard_hyp t : State := _; refine Sound.cut (Q := Sound s₀ t) ?_ ?_; (on_goal 1 => (subst t)); (on_goal 2 => (clear_value t; intro _)))
    | with_reducible apply Sound.modCnt
    | with_reducible apply Sound.modCol

theorem State.countRefusal_sound {s₀ : State} {s : State} (cl : Nat) (hs : Sound s₀ s) : Sound s₀ (State.countRefusal s cl) := by
  unfold State.countRefusal
  repeat' first
    | with_reducible assumption
    | with_reducible apply Sound.modCnt

theorem State.placeContribution_sound {s₀ : State} {s : State} (c : Contribution) (hs : Sound s₀ s) : Sound s₀ (State.placeContribution s c) := by
  unfold State.placeContribution
  repeat' first
    | with_reducible assumption
    | (extract_lets +onlyGivenNames t; guard_hyp t : State := _; refine Sound.cut (Q := Sound s₀ t) ?_ ?_; (on_goal 1 => (subst t)); (on_goal 2 => (clear_value t; intro _)))
    | (fail_if_no_progress extract_lets +onlyGivenNames t; first | clear_value t)
    | with_reducible apply Sound.modCnt
    | with_reducible apply Sound.modCol
    | with_reducible apply State.pressApply_sound
    | with_reducible apply State.failLeg_sound
    | with_reducible apply State.hold_sound
    | with_reducible apply State.countRefusal_sound
    | split

theorem State.noRoom_sound {s₀ : State} {s : State} (c : Contribution) (set : Nat) (hs : Sound s₀ s) : Sound s₀ (State.noRoom s c set) := by
  unfold State.noRoom
  repeat' first
    | with_reducible assumption
    | (extract_lets +onlyGivenNames t; guard_hyp t : State := _; refine Sound.cut (Q := Sound s₀ t) ?_ ?_; (on_goal 1 => (subst t)); (on_goal 2 => (clear_value t; intro _)))
    | (fail_if_no_progress extract_lets +onlyGivenNames t; first | guard_hyp t : Cellar := _ | clear_value t)
    | with_reducible apply State.waitWay_sound
    | split
    | with_reducible rfl
    | (with_reducible apply Sound.upd)

theorem State.pressArrive_sound {s₀ : State} {s : State} (c : Contribution) (set : Nat) (hs : Sound s₀ s) : Sound s₀ (State.pressArrive s c set) := by
  unfold State.pressArrive
  repeat' first
    | with_reducible assumption
    | (extract_lets +onlyGivenNames t; guard_hyp t : State := _; refine Sound.cut (Q := Sound s₀ t) ?_ ?_; (on_goal 1 => (subst t)); (on_goal 2 => (clear_value t; intro _)))
    | (fail_if_no_progress extract_lets +onlyGivenNames t; first | clear_value t)
    | with_reducible apply State.modLeg_sound
    | with_reducible apply State.pressApply_sound
    | with_reducible apply State.failLeg_sound
    | (with_reducible refine State.takeLock_sound _ _ ?_ (by assumption))
    | with_reducible apply State.placeContribution_sound
    | with_reducible apply State.noRoom_sound
    | split

end Sys2Proof.Machine
end

