-- ==== Sys2Proof/Laws/SoundTiles.lean ====
section
/-! SUPPORT. What every operation of Machine/Tiles.lean keeps (Sound). -/

namespace Sys2Proof.Machine

open Sys2Proof

theorem State.tileScan_sound {s₀ : State} {s : State} (c : Nat) (mu : Option Nat) (core loc a : Nat) (hint : Option Nat) (fuel : Nat) (x1 : Nat) (x2 : Nat) (x3 : Bool) (hs : Sound s₀ s) : Sound s₀ (State.tileScan s c mu core loc a hint fuel x1 x2 x3).1 := by
  induction fuel generalizing s c mu core loc a hint x1 x2 x3 with
  | zero => exact hs
  | succ _ ih =>
    unfold State.tileScan
    repeat' first
      | with_reducible assumption
      | (extract_lets +onlyGivenNames t; guard_hyp t : State × _ := _; refine Sound.cut (Q := Sound s₀ t.1) ?_ ?_; (on_goal 1 => (subst t)); (on_goal 2 => (clear_value t; intro _)))
      | (fail_if_no_progress extract_lets +onlyGivenNames t; first | clear_value t)
      | with_reducible apply State.readPlace_sound
      | with_reducible apply ih
      | split

theorem State.readTile_sound {s₀ : State} {s : State} (c : Nat) (mu : Option Nat) (core loc a f : Nat) (hint : Option Nat) (floor : Nat) (hs : Sound s₀ s) : Sound s₀ (State.readTile s c mu core loc a f hint floor).1 := by
  unfold State.readTile
  repeat' first
    | with_reducible assumption
    | (fail_if_no_progress extract_lets +onlyGivenNames t; first | clear_value t)
    | with_reducible apply State.readPlace_sound
    | with_reducible apply State.tileScan_sound
    | (with_reducible refine Sound.of_eq (by assumption) ?_)
    | split

theorem State.putLines_sound {s₀ : State} {s : State} (c : Nat) (mu : Option Nat) (core loc a : Nat) (hint : Option Nat) (x : Nat) (fuel : Nat) (x1 : Nat) (hs : Sound s₀ s) : Sound s₀ (State.putLines s c mu core loc a hint x fuel x1) := by
  induction fuel generalizing s c mu core loc a hint x x1 with
  | zero => exact hs
  | succ _ ih =>
    unfold State.putLines
    repeat' first
      | with_reducible assumption
      | with_reducible apply State.writePlace_sound
      | with_reducible apply ih

theorem State.takeStash_sound {s₀ : State} {s : State} (c slot mu off bytes : Nat) (recomputed : Bool) (hs : Sound s₀ s) : Sound s₀ (State.takeStash s c slot mu off bytes recomputed) := by
  unfold State.takeStash
  repeat' first
    | with_reducible assumption
    | (extract_lets +onlyGivenNames t; guard_hyp t : State := _; refine Sound.cut (Q := Sound s₀ t) ?_ ?_; (on_goal 1 => (subst t)); (on_goal 2 => (clear_value t; intro _)))
    | (fail_if_no_progress extract_lets +onlyGivenNames t; first | clear_value t)
    | with_reducible apply Sound.modCx
    | with_reducible apply Sound.modRun
    | split

theorem State.writeTile_sound {s₀ : State} {s : State} (c : Nat) (mu : Option Nat) (core loc a : Nat) (hint : Option Nat) (f x : Nat) (hs : Sound s₀ s) : Sound s₀ (State.writeTile s c mu core loc a hint f x) := by
  unfold State.writeTile
  repeat' first
    | with_reducible assumption
    | (extract_lets +onlyGivenNames t; guard_hyp t : State := _; refine Sound.cut (Q := Sound s₀ t) ?_ ?_; (on_goal 1 => (subst t)); (on_goal 2 => (clear_value t; intro _)))
    | with_reducible apply State.putLines_sound
    | with_reducible apply State.takeStash_sound
    | split

theorem State.tileFilled_sound {s₀ : State} {s : State} (c layer t : Nat) (hs : Sound s₀ s) : Sound s₀ (State.tileFilled s c layer t) := by
  unfold State.tileFilled
  repeat' first
    | with_reducible assumption
    | with_reducible apply Sound.modCx

theorem State.poisonTile_sound {s₀ : State} {s : State} (c layer : Nat) (e : CaravanEntry) (t : Nat) (hdr : Line) (hs : Sound s₀ s) : Sound s₀ (State.poisonTile s c layer e t hdr) := by
  unfold State.poisonTile
  repeat' first
    | with_reducible assumption
    | (extract_lets +onlyGivenNames t; guard_hyp t : State := _; refine Sound.cut (Q := Sound s₀ t) ?_ ?_; (on_goal 1 => (subst t)); (on_goal 2 => (clear_value t; intro _)))
    | (fail_if_no_progress extract_lets +onlyGivenNames t; first | clear_value t)
    | with_reducible apply Sound.modCx
    | with_reducible apply State.makePz_sound
    | with_reducible apply State.storeLine_sound
    | with_reducible apply State.tileFilled_sound
    | with_reducible apply Sound.foldl
    | intro _ _ _
    | split

theorem State.fillTile_sound {s₀ : State} {s : State} (c layer : Nat) (e : CaravanEntry) (t : Nat) (hs : Sound s₀ s) : Sound s₀ (State.fillTile s c layer e t) := by
  unfold State.fillTile
  repeat' first
    | with_reducible assumption
    | (extract_lets +onlyGivenNames t; guard_hyp t : State × _ := _; refine Sound.cut (Q := Sound s₀ t.1) ?_ ?_; (on_goal 1 => (subst t)); (on_goal 2 => (clear_value t; intro _)))
    | (fail_if_no_progress extract_lets +onlyGivenNames t; first | clear_value t)
    | with_reducible apply State.takeLine_sound
    | with_reducible apply State.storeLine_sound
    | with_reducible apply State.tileFilled_sound
    | with_reducible apply State.poisonTile_sound
    | with_reducible apply Sound.foldl
    | with_reducible apply Sound.foldl_fst
    | (with_reducible refine Sound.of_eq (by assumption) ?_)
    | intro _ _ _
    | split

theorem State.bringTile_sound {s₀ : State} {s : State} (c a : Nat) (hs : Sound s₀ s) : Sound s₀ (State.bringTile s c a) := by
  unfold State.bringTile
  repeat' first
    | with_reducible assumption
    | (fail_if_no_progress extract_lets +onlyGivenNames t; first | clear_value t)
    | with_reducible apply State.fillTile_sound
    | split

end Sys2Proof.Machine
end

