-- ==== Sys2Proof/Laws/SoundFlags.lean ====
section
/-! SUPPORT. What every operation of Machine/Flags.lean keeps (Sound). -/

namespace Sys2Proof.Machine

open Sys2Proof

theorem State.countNan_sound {s₀ : State} {s : State} (cl n : Nat) (hs : Sound s₀ s) : Sound s₀ (State.countNan s cl n) := by
  unfold State.countNan
  repeat' first
    | with_reducible assumption
    | with_reducible apply Sound.modCnt

theorem State.countWrap_sound {s₀ : State} {s : State} (cl n : Nat) (hs : Sound s₀ s) : Sound s₀ (State.countWrap s cl n) := by
  unfold State.countWrap
  repeat' first
    | with_reducible assumption
    | with_reducible apply Sound.modCnt

theorem State.countChain_sound {s₀ : State} {s : State} (cl : Nat) (hs : Sound s₀ s) : Sound s₀ (State.countChain s cl) := by
  unfold State.countChain
  repeat' first
    | with_reducible assumption
    | with_reducible apply Sound.modCnt

theorem State.countFault_sound {s₀ : State} {s : State} (cl : Nat) (hs : Sound s₀ s) : Sound s₀ (State.countFault s cl) := by
  unfold State.countFault
  repeat' first
    | with_reducible assumption
    | with_reducible apply Sound.modCnt

theorem State.countOverflowRows_sound {s₀ : State} {s : State} (cl n : Nat) (hs : Sound s₀ s) : Sound s₀ (State.countOverflowRows s cl n) := by
  unfold State.countOverflowRows
  repeat' first
    | with_reducible assumption
    | with_reducible apply Sound.modCnt

theorem State.countRecomputeRows_sound {s₀ : State} {s : State} (cl n : Nat) (hs : Sound s₀ s) : Sound s₀ (State.countRecomputeRows s cl n) := by
  unfold State.countRecomputeRows
  repeat' first
    | with_reducible assumption
    | with_reducible apply Sound.modCnt

theorem State.gradFlag_sound {s₀ : State} {s : State} (c l : Nat) (bad : Bool) (hs : Sound s₀ s) : Sound s₀ (State.gradFlag s c l bad) := by
  unfold State.gradFlag
  repeat' first
    | with_reducible assumption
    | with_reducible apply State.notFinite_sound
    | split

theorem State.atomFlag_sound {s₀ : State} {s : State} (c l : Nat) (hs : Sound s₀ s) : Sound s₀ (State.atomFlag s c l) := by
  unfold State.atomFlag
  repeat' first
    | with_reducible assumption
    | with_reducible apply Sound.modRun
    | split

end Sys2Proof.Machine
end

