-- ==== Sys2Proof/Laws/SoundOperands.lean ====
section
/-! SUPPORT. What every operation of Machine/Operands.lean keeps (Sound). -/

namespace Sys2Proof.Machine

open Sys2Proof

theorem State.modRunOn_sound {s₀ : State} {s : State} (cl : Nat) (w : BitVec 512) (f : DescRun → DescRun) (hs : Sound s₀ s) : Sound s₀ (State.modRunOn s cl w f) := by
  unfold State.modRunOn
  repeat' first
    | with_reducible assumption
    | with_reducible apply Sound.modClu

end Sys2Proof.Machine
end

