-- ==== Sys2Proof/Laws/SoundUnits.lean ====
section
/-! SUPPORT. What every operation of Machine/Units.lean keeps (Sound). -/

namespace Sys2Proof.Machine

open Sys2Proof

theorem State.stashPoison_sound {s₀ : State} {s : State} (p : Where) (slot tile : Nat) (hs : Sound s₀ s) : Sound s₀ (State.stashPoison s p slot tile).1 := by
  unfold State.stashPoison
  repeat' first
    | with_reducible assumption
    | (extract_lets +onlyGivenNames t; guard_hyp t : State := _; refine Sound.cut (Q := Sound s₀ t) ?_ ?_; (on_goal 1 => (subst t)); (on_goal 2 => (clear_value t; intro _)))
    | with_reducible apply Sound.modCx
    | with_reducible apply Sound.modRun
    | with_reducible apply State.endLeg_sound
    | with_reducible apply State.dropMu_sound
    | split

theorem State.inputTile_sound {s₀ : State} {s : State} (p : Where) (g : Grid) (pos i j : Nat) (carry : Bool) (hs : Sound s₀ s) : Sound s₀ (State.inputTile s p g pos i j carry).1 := by
  unfold State.inputTile
  repeat' first
    | with_reducible assumption
    | (extract_lets +onlyGivenNames t; guard_hyp t : State × _ := _; refine Sound.cut (Q := Sound s₀ t.1) ?_ ?_; (on_goal 1 => (subst t)); (on_goal 2 => (clear_value t; intro _)))
    | with_reducible apply State.faultTraining_sound
    | with_reducible apply State.failLeg_sound
    | with_reducible apply State.addWaiter_sound
    | with_reducible apply State.readTile_sound
    | with_reducible apply State.stashPoison_sound
    | (with_reducible refine Sound.of_eq (by assumption) ?_)
    | split

theorem State.inputTiles_sound {s₀ : State} {s : State} (p : Where) (pos : Nat) (fuel : List (Grid × Nat × Nat × Bool)) (x1 : List Nat) (hs : Sound s₀ s) : Sound s₀ (State.inputTiles s p pos fuel x1).1 := by
  induction fuel generalizing s p pos x1 with
  | nil => exact hs
  | cons _ _ ih =>
    unfold State.inputTiles
    repeat' first
      | with_reducible assumption
      | with_reducible apply State.inputTile_sound
      | (with_reducible refine Sound.of_eq (by assumption) ?_)
      | with_reducible apply ih
      | split

theorem State.takeSpace_sound {s₀ : State} {s : State} (p : Where) (g : Grid) (a : Nat) (hs : Sound s₀ s) : Sound s₀ (State.takeSpace s p g a) := by
  unfold State.takeSpace
  repeat' first
    | with_reducible assumption
    | with_reducible apply State.takeStash_sound
    | split

theorem State.standAt_sound {s₀ : State} {s : State} (p : Where) (w : HaltWhy × Nat) (hs : Sound s₀ s) : Sound s₀ (State.standAt s p w).1 := by
  unfold State.standAt
  repeat' first
    | with_reducible assumption
    | with_reducible apply State.addWaiter_sound
    | split

theorem State.outputTile_sound {s₀ : State} {s : State} (p : Where) (g : Grid) (pos : Nat) (tensor : Word) (i j : Nat) (carry : Option Nat) (vs : List FVal) (hs : Sound s₀ s) : Sound s₀ (State.outputTile s p g pos tensor i j carry vs).1 := by
  unfold State.outputTile
  repeat' first
    | with_reducible assumption
    | (extract_lets +onlyGivenNames t; guard_hyp t : State := _; refine Sound.cut (Q := Sound s₀ t) ?_ ?_; (on_goal 1 => (subst t)); (on_goal 2 => (clear_value t; intro _)))
    | (fail_if_no_progress extract_lets +onlyGivenNames t; first | clear_value t)
    | with_reducible apply State.writeTile_sound
    | with_reducible apply State.countNan_sound
    | with_reducible apply State.gradFlag_sound
    | with_reducible apply State.takeSpace_sound
    | with_reducible apply State.standAt_sound
    | split

theorem State.sendPress_sound {s₀ : State} {s : State} (f : Nat → Contribution) (hs : Sound s₀ s) : Sound s₀ (State.sendPress s f) := by
  unfold State.sendPress
  repeat' first
    | with_reducible assumption
    | with_reducible rfl
    | (with_reducible apply Sound.upd)

theorem State.sendContribution_sound {s₀ : State} {s : State} (p : Where) (tensor : Word) (op : PressOp) (id : LineId) (hint : Nat) (mask : BitVec 64) (data : Line) (s1 s2 : Nat) (tile : Bool) (hs : Sound s₀ s) : Sound s₀ (State.sendContribution s p tensor op id hint mask data s1 s2 tile).1 := by
  unfold State.sendContribution
  repeat' first
    | with_reducible assumption
    | (fail_if_no_progress extract_lets +onlyGivenNames t; first | clear_value t)
    | with_reducible apply State.failLeg_sound
    | with_reducible apply State.sendPress_sound
    | split

theorem State.sendRows_sound {s₀ : State} {s : State} (p : Where) (core loc a : Nat) (x0 : Nat) (fuel : List (List Word)) (hs : Sound s₀ s) : Sound s₀ (State.sendRows s p core loc a x0 fuel).1 := by
  induction fuel generalizing s p core loc a x0 with
  | nil => exact hs
  | cons _ _ ih =>
    unfold State.sendRows
    repeat' first
      | with_reducible assumption
      | with_reducible apply State.sendContribution_sound
      | (with_reducible refine Sound.of_eq (by assumption) ?_)
      | with_reducible apply ih
      | split

theorem State.finishTile_sound {s₀ : State} {s : State} (p : Where) (g : Grid) (pos i j : Nat) (carry : Option Nat) (vs : List FVal) (hs : Sound s₀ s) : Sound s₀ (State.finishTile s p g pos i j carry vs).1 := by
  unfold State.finishTile
  repeat' first
    | with_reducible assumption
    | with_reducible apply State.outputTile_sound
    | with_reducible apply State.sendRows_sound
    | split

theorem State.finishRow_sound {s₀ : State} {s : State} (p : Where) (g : Grid) (pos i n : Nat) (col : Nat → List FVal) (hs : Sound s₀ s) : Sound s₀ (State.finishRow s p g pos i n col).1 := by
  unfold State.finishRow
  repeat' first
    | with_reducible assumption
    | with_reducible apply State.finishTile_sound
    | with_reducible apply Sound.foldl_fst
    | intro _ _ _
    | split

theorem State.haltCore_sound {s₀ : State} {s : State} (p : Where) (w : BitVec 512) (pos : Nat) (why : HaltWhy) (tile : Nat) (hs : Sound s₀ s) : Sound s₀ (State.haltCore s p w pos why tile) := by
  unfold State.haltCore
  repeat' first
    | with_reducible assumption
    | (extract_lets +onlyGivenNames t; guard_hyp t : State := _; refine Sound.cut (Q := Sound s₀ t) ?_ ?_; (on_goal 1 => (subst t)); (on_goal 2 => (clear_value t; intro _)))
    | with_reducible apply Sound.modRun
    | with_reducible apply State.modRunOn_sound
    | split

theorem State.runUnits_sound {s₀ : State} (f : UnitStep) (p : Where) (w : BitVec 512) (pos n u : Nat) {s : State} (hs : Sound s₀ s)
    (hf : ∀ p pos u t, Sound s₀ t → Sound s₀ (f p pos u t).1) : Sound s₀ (State.runUnits f p w pos n u s).1 := by
  induction n generalizing s u with
  | zero => exact hs
  | succ n ih =>
    have h := hf p pos u s hs
    unfold State.runUnits
    split
    next e => exact ih _ (State.modRunOn_sound _ _ _ (Sound.of_eq e h))
    next e => exact State.haltCore_sound _ _ _ _ _ (Sound.of_eq e h)
    next e => exact Sound.of_eq e h

theorem State.runCores_sound {s₀ : State} (f : UnitStep) (p : Where) (w : BitVec 512) (l : List Nat) {s : State} (hs : Sound s₀ s)
    (hf : ∀ p pos u t, Sound s₀ t → Sound s₀ (f p pos u t).1) : Sound s₀ (State.runCores f p w l s) := by
  induction l generalizing s with
  | nil => exact hs
  | cons pos rest ih =>
    unfold State.runCores
    split
    next => exact hs
    next r _ =>
      have h := State.runUnits_sound f p w pos (p.d.unitsAt pos - tget 0 r.done pos) (tget 0 r.done pos) hs hf
      extract_lets u
      split
      next e => exact ih (Sound.of_eq e h)
      next e => exact Sound.of_eq e h

theorem State.runChain_sound {s₀ : State} (f : UnitStep) (p : Where) (w : BitVec 512) (n : Nat) {s : State} (hs : Sound s₀ s)
    (hf : ∀ p pos u t, Sound s₀ t → Sound s₀ (f p pos u t).1) : Sound s₀ (State.runChain f p w n s) := by
  induction n generalizing s with
  | zero => exact hs
  | succ n ih =>
    unfold State.runChain
    split
    next => exact hs
    next r _ =>
      extract_lets g pos u
      have h := hf p pos u s hs
      split
      · exact hs
      · split
        next e => exact ih (State.modRunOn_sound _ _ _ (Sound.of_eq e h))
        next e => exact State.haltCore_sound _ _ _ _ _ (Sound.of_eq e h)
        next e => exact Sound.of_eq e h

theorem State.runDesc_sound {s₀ : State} (f : UnitStep) (p : Where) (w : BitVec 512) {s : State} (hs : Sound s₀ s) (hf : ∀ p pos u t, Sound s₀ t → Sound s₀ (f p pos u t).1) : Sound s₀ (State.runDesc f p w s) := by
  unfold State.runDesc
  repeat' first
    | with_reducible assumption
    | with_reducible apply State.runCores_sound
    | with_reducible apply State.runChain_sound
    | split

theorem State.rejectDesc_sound {s₀ : State} {s : State} (p : Where) (hs : Sound s₀ s) : Sound s₀ (State.rejectDesc s p) := by
  unfold State.rejectDesc
  repeat' first
    | with_reducible assumption
    | (extract_lets +onlyGivenNames t; guard_hyp t : State := _; refine Sound.cut (Q := Sound s₀ t) ?_ ?_; (on_goal 1 => (subst t)); (on_goal 2 => (clear_value t; intro _)))
    | with_reducible apply Sound.modClu
    | with_reducible apply State.modLeg_sound
    | with_reducible apply State.failLeg_sound

theorem State.startRun_sound {s₀ : State} {s : State} (p : Where) (w : BitVec 512) (hs : Sound s₀ s) : Sound s₀ (State.startRun s p w) := by
  unfold State.startRun
  repeat' first
    | with_reducible assumption
    | with_reducible apply Sound.modClu

theorem State.descriptor_sound {s₀ : State} {s : State} (f : UnitStep) (prep : Where → State → State) (kinds : Desc → Bool) (cl : Nat) (w : BitVec 512) (hs : Sound s₀ s) (hf : ∀ p pos u t, Sound s₀ t → Sound s₀ (f p pos u t).1) (hprep : ∀ p t, Sound s₀ t → Sound s₀ (prep p t)) : Sound s₀ (State.descriptor s f prep kinds cl w) := by
  unfold State.descriptor
  repeat' first
    | with_reducible assumption
    | (fail_if_no_progress extract_lets +onlyGivenNames t; first | clear_value t)
    | with_reducible apply State.runDesc_sound
    | with_reducible apply State.rejectDesc_sound
    | with_reducible apply State.startRun_sound
    | with_reducible apply hprep
    | split

end Sys2Proof.Machine
end

