-- ==== Sys2Proof/Laws/SoundImages.lean ====
section
/-! SUPPORT. What every operation of Machine/Images.lean keeps (Sound). -/

namespace Sys2Proof.Machine

open Sys2Proof

theorem State.fetchLeg_sound {s₀ : State} {s : State} (c a : Nat) (hs : Sound s₀ s) : Sound s₀ (State.fetchLeg s c a).1 := by
  unfold State.fetchLeg
  repeat' first
    | with_reducible assumption
    | (fail_if_no_progress extract_lets +onlyGivenNames t; first | clear_value t)
    | with_reducible apply State.dmaRead_sound
    | (with_reducible refine Sound.of_eq (by assumption) ?_)
    | split

end Sys2Proof.Machine
end

