-- ==== Sys2Proof/Laws/SoundGate.lean ====
section
/-! SUPPORT. What every operation of Machine/Gate.lean keeps (Sound). -/

namespace Sys2Proof.Machine

open Sys2Proof

theorem State.settleFloor_sound {s₀ : State} {s : State} (hs : Sound s₀ s) : Sound s₀ (State.settleFloor s) := by
  unfold State.settleFloor
  repeat' first
    | with_reducible assumption
    | (extract_lets +onlyGivenNames t; guard_hyp t : State := _; refine Sound.cut (Q := Sound s₀ t) ?_ ?_; (on_goal 1 => (subst t)); (on_goal 2 => (clear_value t; intro _)))
    | (fail_if_no_progress extract_lets +onlyGivenNames t; first | guard_hyp t : Toll := _ | clear_value t)
    | with_reducible refine State.setTg_sound _ ?_ (by first | decide | assumption)
    | split
    | with_reducible rfl
    | (with_reducible apply Sound.upd)

theorem State.setWidth_sound {s₀ : State} {s : State} (p w : Nat) (hs : Sound s₀ s) : Sound s₀ (State.setWidth s p w) := by
  unfold State.setWidth
  repeat' first
    | with_reducible assumption
    | with_reducible apply Sound.modPort
    | split

theorem State.narrowPorts_sound {s₀ : State} {s : State} (hs : Sound s₀ s) : Sound s₀ (State.narrowPorts s) := by
  unfold State.narrowPorts
  repeat' first
    | with_reducible assumption
    | with_reducible apply State.setWidth_sound
    | with_reducible apply Sound.foldl
    | intro _ _ _

theorem State.widenPorts_sound {s₀ : State} {s : State} (hs : Sound s₀ s) : Sound s₀ (State.widenPorts s) := by
  unfold State.widenPorts
  repeat' first
    | with_reducible assumption
    | with_reducible apply State.setWidth_sound
    | with_reducible apply Sound.foldl
    | intro _ _ _

theorem State.idleLanes_sound {s₀ : State} {s : State} (hs : Sound s₀ s) : Sound s₀ (State.idleLanes s) := by
  unfold State.idleLanes
  repeat' first
    | with_reducible assumption
    | with_reducible apply Sound.modPort
    | with_reducible apply Sound.foldl
    | intro _ _ _

theorem State.holdCluster_sound {s₀ : State} {s : State} (k : Nat) (hs : Sound s₀ s) : Sound s₀ (State.holdCluster s k) := by
  unfold State.holdCluster
  repeat' first
    | with_reducible assumption
    | with_reducible apply Sound.modClu

theorem State.releaseCluster_sound {s₀ : State} {s : State} (k : Nat) (hs : Sound s₀ s) : Sound s₀ (State.releaseCluster s k) := by
  unfold State.releaseCluster
  repeat' first
    | with_reducible assumption
    | with_reducible apply Sound.modClu

theorem State.holdAll_sound {s₀ : State} {s : State} (hs : Sound s₀ s) : Sound s₀ (State.holdAll s) := by
  unfold State.holdAll
  repeat' first
    | with_reducible assumption
    | with_reducible apply State.holdCluster_sound
    | with_reducible apply Sound.foldl

theorem State.selfRefresh_sound {s₀ : State} {s : State} (on : Bool) (hs : Sound s₀ s) : Sound s₀ (State.selfRefresh s on) := by
  unfold State.selfRefresh
  repeat' first
    | with_reducible assumption
    | with_reducible apply Sound.modStack
    | with_reducible apply Sound.foldl
    | intro _ _ _

theorem State.applyDown_sound {s₀ : State} {s : State} (hs : Sound s₀ s) : Sound s₀ (State.applyDown s) := by
  unfold State.applyDown
  repeat' first
    | with_reducible assumption
    | with_reducible apply Sound.modClu
    | with_reducible apply State.narrowPorts_sound
    | with_reducible apply State.holdCluster_sound
    | with_reducible apply State.selfRefresh_sound
    | with_reducible apply Sound.foldl
    | intro _ _ _
    | split

theorem State.runWork_sound {s₀ : State} {s : State} (turn : List Nat) (n : Nat) (hs : Sound s₀ s) : Sound s₀ (State.runWork s turn n) := by
  unfold State.runWork
  repeat' first
    | with_reducible assumption
    | (extract_lets +onlyGivenNames t; guard_hyp t : State := _; refine Sound.cut (Q := Sound s₀ t) ?_ ?_; (on_goal 1 => (subst t)); (on_goal 2 => (clear_value t; intro _)))
    | (fail_if_no_progress extract_lets +onlyGivenNames t; first | clear_value t)
    | with_reducible apply State.holdCluster_sound
    | with_reducible apply State.releaseCluster_sound
    | with_reducible apply Sound.foldl

theorem State.applyUp_sound {s₀ : State} {s : State} (hs : Sound s₀ s) : Sound s₀ (State.applyUp s) := by
  unfold State.applyUp
  repeat' first
    | with_reducible assumption
    | (extract_lets +onlyGivenNames t; guard_hyp t : State := _; refine Sound.cut (Q := Sound s₀ t) ?_ ?_; (on_goal 1 => (subst t)); (on_goal 2 => (clear_value t; intro _)))
    | (fail_if_no_progress extract_lets +onlyGivenNames t; first | clear_value t)
    | with_reducible apply Sound.modClu
    | with_reducible refine State.setTg_sound _ ?_ (by first | decide | assumption)
    | with_reducible apply State.widenPorts_sound
    | with_reducible apply State.selfRefresh_sound
    | with_reducible apply State.runWork_sound
    | with_reducible apply Sound.foldl
    | intro _ _ _
    | split

theorem State.shedPath_sound {s₀ : State} {s : State} (f : Floor) (hs : Sound s₀ s) : Sound s₀ (State.shedPath s f) := by
  unfold State.shedPath
  repeat' first
    | with_reducible assumption
    | (extract_lets +onlyGivenNames t; guard_hyp t : State := _; refine Sound.cut (Q := Sound s₀ t) ?_ ?_; (on_goal 1 => (subst t)); (on_goal 2 => (clear_value t; intro _)))
    | (fail_if_no_progress extract_lets +onlyGivenNames t; first | guard_hyp t : Toll := _ | clear_value t)
    | with_reducible refine State.setTg_sound _ ?_ (by first | decide | assumption)
    | with_reducible apply State.park_sound
    | with_reducible apply State.narrowPorts_sound
    | with_reducible apply State.holdAll_sound
    | with_reducible apply State.selfRefresh_sound
    | with_reducible apply Sound.foldl
    | intro _ _ _
    | split
    | with_reducible rfl
    | (with_reducible apply Sound.upd)

theorem State.react_sound {s₀ : State} {s : State} (hs : Sound s₀ s) : Sound s₀ (State.react s) := by
  unfold State.react
  repeat' first
    | with_reducible assumption
    | (extract_lets +onlyGivenNames t; guard_hyp t : State := _; refine Sound.cut (Q := Sound s₀ t) ?_ ?_; (on_goal 1 => (subst t)); (on_goal 2 => (clear_value t; intro _)))
    | (fail_if_no_progress extract_lets +onlyGivenNames t; first | guard_hyp t : Toll := _ | clear_value t)
    | with_reducible apply State.applyDown_sound
    | with_reducible apply State.shedPath_sound
    | split
    | with_reducible rfl
    | (with_reducible apply Sound.upd)

theorem State.writeSetpoint_sound {s₀ : State} {s : State} (w : Nat) (deep : Bool) (t : Nat) (hs : Sound s₀ s) : Sound s₀ (State.writeSetpoint s w deep t) := by
  unfold State.writeSetpoint
  repeat' first
    | with_reducible assumption
    | with_reducible apply State.react_sound
    | with_reducible rfl
    | (with_reducible apply Sound.upd)

end Sys2Proof.Machine
end

