-- ==== Sys2Proof/Laws/SoundLinks.lean ====
section
/-! SUPPORT. What every operation of Machine/Links.lean keeps (Sound). -/

namespace Sys2Proof.Machine

open Sys2Proof

theorem State.laneOut_sound {s₀ : State} {s : State} (p l : Nat) (hs : Sound s₀ s) : Sound s₀ (State.laneOut s p l) := by
  unfold State.laneOut
  repeat' first
    | with_reducible assumption
    | (extract_lets +onlyGivenNames t; guard_hyp t : State := _; refine Sound.cut (Q := Sound s₀ t) ?_ ?_; (on_goal 1 => (subst t)); (on_goal 2 => (clear_value t; intro _)))
    | with_reducible apply Sound.modPort
    | with_reducible apply State.setWidth_sound
    | split

theorem State.startTest_sound {s₀ : State} {s : State} (u : TestUnit) (kind info : Nat) (w : Option Waybill) (hs : Sound s₀ s) : Sound s₀ (State.startTest s u kind info w) := by
  unfold State.startTest
  repeat' first
    | with_reducible assumption
    | (extract_lets +onlyGivenNames t; guard_hyp t : State := _; refine Sound.cut (Q := Sound s₀ t) ?_ ?_; (on_goal 1 => (subst t)); (on_goal 2 => (clear_value t; intro _)))
    | (fail_if_no_progress extract_lets +onlyGivenNames t; first | guard_hyp t : Mc := _ | clear_value t)
    | with_reducible apply State.laneOut_sound
    | split
    | with_reducible rfl
    | (with_reducible apply Sound.upd)

theorem State.sendFlit_sound {s₀ : State} {s : State} (n i : Nat) (hs : Sound s₀ s) : Sound s₀ (State.sendFlit s n i) := by
  unfold State.sendFlit
  repeat' first
    | with_reducible assumption
    | (fail_if_no_progress extract_lets +onlyGivenNames t; first | clear_value t)
    | with_reducible apply Sound.modPort
    | with_reducible apply Sound.emit
    | split

theorem State.pump_sound {s₀ : State} {s : State} (n : Nat) (fuel : Nat) (hs : Sound s₀ s) : Sound s₀ (State.pump s n fuel) := by
  induction fuel generalizing s n  with
  | zero => exact hs
  | succ _ ih =>
    unfold State.pump
    repeat' first
      | with_reducible assumption
      | (fail_if_no_progress extract_lets +onlyGivenNames t; first | clear_value t)
      | with_reducible apply State.sendFlit_sound
      | with_reducible apply ih
      | split

theorem State.pumpAll_sound {s₀ : State} {s : State} (n : Nat) (hs : Sound s₀ s) : Sound s₀ (State.pumpAll s n) := by
  unfold State.pumpAll
  repeat' first
    | with_reducible assumption
    | with_reducible apply State.pump_sound

theorem State.discard_sound {s₀ : State} {s : State} (p : Packet) (hs : Sound s₀ s) : Sound s₀ (State.discard s p) := by
  unfold State.discard
  repeat' first
    | with_reducible assumption
    | (extract_lets +onlyGivenNames t; guard_hyp t : State := _; refine Sound.cut (Q := Sound s₀ t) ?_ ?_; (on_goal 1 => (subst t)); (on_goal 2 => (clear_value t; intro _)))
    | (fail_if_no_progress extract_lets +onlyGivenNames t; first | guard_hyp t : Fabric := _ | clear_value t)
    | with_reducible apply Sound.emit
    | split
    | with_reducible rfl
    | (with_reducible apply Sound.upd)

theorem State.route_sound {s₀ : State} {s : State} (p : Packet) (hs : Sound s₀ s) : Sound s₀ (State.route s p) := by
  unfold State.route
  repeat' first
    | with_reducible assumption
    | with_reducible apply Sound.modPort
    | with_reducible apply Sound.emit
    | with_reducible apply State.pumpAll_sound
    | with_reducible apply State.discard_sound
    | split
    | with_reducible rfl
    | (with_reducible apply Sound.upd)

theorem State.routeHeld_sound {s₀ : State} {s : State} (hs : Sound s₀ s) : Sound s₀ (State.routeHeld s) := by
  unfold State.routeHeld
  repeat' first
    | with_reducible assumption
    | (fail_if_no_progress extract_lets +onlyGivenNames t; first | guard_hyp t : Fabric := _ | clear_value t)
    | with_reducible apply State.route_sound
    | with_reducible apply Sound.foldl
    | intro _ _ _
    | split
    | with_reducible rfl
    | (with_reducible apply Sound.upd)

theorem State.requeue_sound {s₀ : State} {s : State} (n : Nat) (hs : Sound s₀ s) : Sound s₀ (State.requeue s n) := by
  unfold State.requeue
  repeat' first
    | with_reducible assumption
    | (fail_if_no_progress extract_lets +onlyGivenNames t; first | clear_value t)
    | with_reducible apply Sound.modPort
    | with_reducible apply State.route_sound
    | with_reducible apply Sound.foldl

theorem State.requeueAll_sound {s₀ : State} {s : State} (hs : Sound s₀ s) : Sound s₀ (State.requeueAll s) := by
  unfold State.requeueAll
  repeat' first
    | with_reducible assumption
    | with_reducible apply State.routeHeld_sound
    | with_reducible apply State.requeue_sound
    | with_reducible apply Sound.foldl

theorem State.takeBuffered_sound {s₀ : State} {s : State} (p : Packet) (hs : Sound s₀ s) : Sound s₀ (State.takeBuffered s p) := by
  unfold State.takeBuffered
  repeat' first
    | with_reducible assumption
    | with_reducible apply Sound.modPort
    | split

theorem State.markSuspect_sound {s₀ : State} {s : State} (n : Nat) (hs : Sound s₀ s) : Sound s₀ (State.markSuspect s n) := by
  unfold State.markSuspect
  repeat' first
    | with_reducible assumption
    | (extract_lets +onlyGivenNames t; guard_hyp t : State := _; refine Sound.cut (Q := Sound s₀ t) ?_ ?_; (on_goal 1 => (subst t)); (on_goal 2 => (clear_value t; intro _)))
    | with_reducible apply Sound.modPort
    | with_reducible apply State.startTest_sound
    | with_reducible apply Sound.foldl
    | intro _ _ _
    | split

theorem State.noteReplay_sound {s₀ : State} {s : State} (n : Nat) (hs : Sound s₀ s) : Sound s₀ (State.noteReplay s n) := by
  unfold State.noteReplay
  repeat' first
    | with_reducible assumption
    | (extract_lets +onlyGivenNames t; guard_hyp t : State := _; refine Sound.cut (Q := Sound s₀ t) ?_ ?_; (on_goal 1 => (subst t)); (on_goal 2 => (clear_value t; intro _)))
    | with_reducible apply Sound.modPort
    | with_reducible apply State.markSuspect_sound
    | split

theorem State.resendFlits_sound {s₀ : State} {s : State} (n : Nat) (hs : Sound s₀ s) : Sound s₀ (State.resendFlits s n) := by
  unfold State.resendFlits
  repeat' first
    | with_reducible assumption
    | with_reducible apply Sound.emit
    | with_reducible apply Sound.foldl
    | intro _ _ _
    | split

theorem State.controlFlit_sound {s₀ : State} {s : State} (n : Nat) (hs : Sound s₀ s) : Sound s₀ (State.controlFlit s n) := by
  unfold State.controlFlit
  repeat' first
    | with_reducible assumption
    | (fail_if_no_progress extract_lets +onlyGivenNames t; first | clear_value t)
    | with_reducible apply Sound.modPort
    | with_reducible apply Sound.emit
    | split

theorem State.sendNak_sound {s₀ : State} {s : State} (n : Nat) (hs : Sound s₀ s) : Sound s₀ (State.sendNak s n) := by
  unfold State.sendNak
  repeat' first
    | with_reducible assumption
    | with_reducible apply Sound.modPort
    | with_reducible apply State.noteReplay_sound
    | with_reducible apply State.controlFlit_sound

theorem State.storeFlit_sound {s₀ : State} {s : State} (n : Nat) (flit : BitVec 2048) (hs : Sound s₀ s) : Sound s₀ (State.storeFlit s n flit) := by
  unfold State.storeFlit
  repeat' first
    | with_reducible assumption
    | (extract_lets +onlyGivenNames t; guard_hyp t : State := _; refine Sound.cut (Q := Sound s₀ t) ?_ ?_; (on_goal 1 => (subst t)); (on_goal 2 => (clear_value t; intro _)))
    | (fail_if_no_progress extract_lets +onlyGivenNames t; first | clear_value t)
    | with_reducible apply Sound.modPort
    | with_reducible apply Sound.emit
    | with_reducible apply State.takeBuffered_sound
    | split

theorem execFlitReceive_sound {s₀ : State} (port : Nat) (flit : BitVec 2048) (t : Nat) {s : State} (hs : Sound s₀ s) : SoundOut s₀ (execFlitReceive port flit t s) := by
  unfold execFlitReceive
  repeat' first
    | with_reducible apply SoundOut.next
    | with_reducible assumption
    | with_reducible apply Sound.modPort
    | with_reducible apply Sound.tick
    | with_reducible apply Sound.freeVal
    | with_reducible apply State.pumpAll_sound
    | with_reducible apply State.sendNak_sound
    | with_reducible apply State.storeFlit_sound
    | split

theorem execControlFlitReceive_sound {s₀ : State} (port : Nat) (c : CtlFlit) (t : Nat) {s : State} (hs : Sound s₀ s) : SoundOut s₀ (execControlFlitReceive port c t s) := by
  unfold execControlFlitReceive
  repeat' first
    | with_reducible apply SoundOut.next
    | with_reducible assumption
    | (extract_lets +onlyGivenNames t; guard_hyp t : State := _; refine Sound.cut (Q := Sound s₀ t) ?_ ?_; (on_goal 1 => (subst t)); (on_goal 2 => (clear_value t; intro _)))
    | with_reducible apply Sound.modPort
    | with_reducible apply Sound.tick
    | with_reducible apply State.pumpAll_sound
    | with_reducible apply State.noteReplay_sound
    | with_reducible apply State.resendFlits_sound
    | split

theorem execControlFlitSend_sound {s₀ : State} (port : Nat) {s : State} (hs : Sound s₀ s) : SoundOut s₀ (execControlFlitSend port s) := by
  unfold execControlFlitSend
  repeat' first
    | with_reducible apply SoundOut.next
    | with_reducible assumption
    | with_reducible apply State.controlFlit_sound
    | split

theorem execReplayTimeout_sound {s₀ : State} (port : Nat) (t : Nat) {s : State} (hs : Sound s₀ s) : SoundOut s₀ (execReplayTimeout port t s) := by
  unfold execReplayTimeout
  repeat' first
    | with_reducible apply SoundOut.next
    | with_reducible assumption
    | with_reducible apply Sound.tick
    | with_reducible apply State.noteReplay_sound
    | with_reducible apply State.resendFlits_sound
    | split

theorem State.portDown_sound {s₀ : State} {s : State} (n : Nat) (hs : Sound s₀ s) : Sound s₀ (State.portDown s n) := by
  unfold State.portDown
  repeat' first
    | with_reducible assumption
    | with_reducible apply Sound.modPort
    | with_reducible apply State.requeue_sound

theorem execLaneDown_sound {s₀ : State} (port : Nat) (lane : Nat) (t : Nat) {s : State} (hs : Sound s₀ s) : SoundOut s₀ (execLaneDown port lane t s) := by
  unfold execLaneDown
  repeat' first
    | with_reducible apply SoundOut.next
    | with_reducible assumption
    | (extract_lets +onlyGivenNames t; guard_hyp t : State := _; refine Sound.cut (Q := Sound s₀ t) ?_ ?_; (on_goal 1 => (subst t)); (on_goal 2 => (clear_value t; intro _)))
    | (fail_if_no_progress extract_lets +onlyGivenNames t; first | clear_value t)
    | with_reducible apply Sound.tick
    | with_reducible apply State.startTest_sound
    | with_reducible apply State.portDown_sound
    | split

theorem execWidthChangeComplete_sound {s₀ : State} (port : Nat) (credits : List Nat) {s : State} (hs : Sound s₀ s) : SoundOut s₀ (execWidthChangeComplete port credits s) := by
  unfold execWidthChangeComplete
  repeat' first
    | with_reducible apply SoundOut.next
    | with_reducible assumption
    | (extract_lets +onlyGivenNames t; guard_hyp t : State := _; refine Sound.cut (Q := Sound s₀ t) ?_ ?_; (on_goal 1 => (subst t)); (on_goal 2 => (clear_value t; intro _)))
    | with_reducible apply Sound.modPort
    | with_reducible apply State.pumpAll_sound
    | with_reducible apply State.resendFlits_sound
    | with_reducible apply State.controlFlit_sound
    | split

theorem State.endRetrain_sound {s₀ : State} {s : State} (n : Nat) (hs : Sound s₀ s) : Sound s₀ (State.endRetrain s n) := by
  unfold State.endRetrain
  repeat' first
    | with_reducible assumption
    | with_reducible apply State.finish_sound
    | with_reducible apply Sound.foldl
    | intro _ _ _

theorem execPortTrainingComplete_sound {s₀ : State} (port : Nat) (own : BitVec 8) (peer : BitVec 8) (peerId : Nat) (credits : List Nat) {s : State} (hs : Sound s₀ s) : SoundOut s₀ (execPortTrainingComplete port own peer peerId credits s) := by
  unfold execPortTrainingComplete
  repeat' first
    | with_reducible apply SoundOut.next
    | with_reducible assumption
    | (extract_lets +onlyGivenNames t; guard_hyp t : State := _; refine Sound.cut (Q := Sound s₀ t) ?_ ?_; (on_goal 1 => (subst t)); (on_goal 2 => (clear_value t; intro _)))
    | (fail_if_no_progress extract_lets +onlyGivenNames t; first | guard_hyp t : Fabric := _ | clear_value t)
    | with_reducible apply Sound.modCx
    | with_reducible apply Sound.modPort
    | with_reducible apply State.startTest_sound
    | with_reducible apply State.pumpAll_sound
    | with_reducible apply State.routeHeld_sound
    | with_reducible apply State.resendFlits_sound
    | with_reducible apply State.endRetrain_sound
    | with_reducible apply Sound.foldl
    | intro _ _ _
    | split
    | with_reducible rfl
    | (with_reducible apply Sound.upd)

theorem execPacketRoute_sound {s₀ : State} (p : Packet) (t : Nat) {s : State} (hs : Sound s₀ s) : SoundOut s₀ (execPacketRoute p t s) := by
  unfold execPacketRoute
  repeat' first
    | with_reducible apply SoundOut.next
    | with_reducible assumption
    | with_reducible apply Sound.tick
    | with_reducible apply State.route_sound
    | with_reducible apply State.takeBuffered_sound

theorem execHeldPacketTimeout_sound {s₀ : State} (p : Packet) (t : Nat) {s : State} (hs : Sound s₀ s) : SoundOut s₀ (execHeldPacketTimeout p t s) := by
  unfold execHeldPacketTimeout
  repeat' first
    | with_reducible apply SoundOut.next
    | with_reducible assumption
    | (fail_if_no_progress extract_lets +onlyGivenNames t; first | guard_hyp t : Fabric := _ | clear_value t)
    | with_reducible apply Sound.tick
    | with_reducible apply State.discard_sound
    | split
    | with_reducible rfl
    | (with_reducible apply Sound.upd)

end Sys2Proof.Machine
end

