-- ==== Sys2Proof/Laws/SoundProducts.lean ====
section
/-! SUPPORT. What every operation of Machine/Products.lean keeps (Sound). -/

namespace Sys2Proof.Machine

open Sys2Proof

theorem State.chainBreak_sound {s₀ : State} {s : State} (p : Where) (hs : Sound s₀ s) : Sound s₀ (State.chainBreak s p).1 := by
  unfold State.chainBreak
  repeat' first
    | with_reducible assumption
    | with_reducible apply State.failLeg_sound
    | with_reducible apply State.countChain_sound

theorem State.endProduct_sound {s₀ : State} {s : State} (p : Where) (pos i j : Nat) (ex : List Nat) (acc : List (AccVal × Nat)) (hs : Sound s₀ s) : Sound s₀ (State.endProduct s p pos i j ex acc).1 := by
  unfold State.endProduct
  repeat' first
    | with_reducible assumption
    | (extract_lets +onlyGivenNames t; guard_hyp t : State := _; refine Sound.cut (Q := Sound s₀ t) ?_ ?_; (on_goal 1 => (subst t)); (on_goal 2 => (clear_value t; intro _)))
    | (fail_if_no_progress extract_lets +onlyGivenNames t; first | clear_value t)
    | with_reducible apply State.countWrap_sound
    | with_reducible apply State.standAt_sound
    | with_reducible apply State.finishTile_sound
    | split

theorem State.productTile_sound {s₀ : State} {s : State} (p : Where) (pos i j : Nat) (hs : Sound s₀ s) : Sound s₀ (State.productTile s p pos i j).1 := by
  unfold State.productTile
  repeat' first
    | with_reducible assumption
    | (fail_if_no_progress extract_lets +onlyGivenNames t; first | clear_value t)
    | with_reducible apply State.inputTiles_sound
    | with_reducible apply State.chainBreak_sound
    | with_reducible apply State.endProduct_sound
    | (with_reducible refine Sound.of_eq (by assumption) ?_)
    | split

theorem State.productSlice_sound {s₀ : State} {s : State} (p : Where) (pos i j t : Nat) (hs : Sound s₀ s) : Sound s₀ (State.productSlice s p pos i j t).1 := by
  unfold State.productSlice
  repeat' first
    | with_reducible assumption
    | (fail_if_no_progress extract_lets +onlyGivenNames t; first | clear_value t)
    | with_reducible apply State.countWrap_sound
    | with_reducible apply State.modRunOn_sound
    | with_reducible apply State.inputTiles_sound
    | with_reducible apply State.chainBreak_sound
    | with_reducible apply State.endProduct_sound
    | (with_reducible refine Sound.of_eq (by assumption) ?_)
    | split

theorem productUnit_sound {s₀ : State}   (p : Where) (pos u : Nat) {s : State} (h : Sound s₀ s) : Sound s₀ (productUnit p pos u s).1 := by
  unfold productUnit
  repeat' first
    | with_reducible assumption
    | (fail_if_no_progress extract_lets +onlyGivenNames t; first | clear_value t)
    | with_reducible apply State.productTile_sound
    | with_reducible apply State.productSlice_sound
    | split

theorem noPrep_sound {s₀ : State}   (p : Where) {s : State} (hs : Sound s₀ s) : Sound s₀ (noPrep p s) := by
  unfold noPrep
  repeat' first
    | with_reducible assumption

theorem execTileProductForward_sound {s₀ : State} (cl : Nat) (d : BitVec 512) {s : State} (hs : Sound s₀ s) : SoundOut s₀ (execTileProductForward cl d s) := by
  unfold execTileProductForward
  repeat' first
    | with_reducible apply SoundOut.next
    | with_reducible assumption
    | with_reducible apply State.descriptor_sound
    | with_reducible apply productUnit_sound
    | with_reducible apply noPrep_sound

theorem execTileProductDataGradient_sound {s₀ : State} (cl : Nat) (d : BitVec 512) {s : State} (hs : Sound s₀ s) : SoundOut s₀ (execTileProductDataGradient cl d s) := by
  unfold execTileProductDataGradient
  repeat' first
    | with_reducible apply SoundOut.next
    | with_reducible assumption
    | with_reducible apply State.descriptor_sound
    | with_reducible apply productUnit_sound
    | with_reducible apply noPrep_sound

theorem execTileProductWeightGradient_sound {s₀ : State} (cl : Nat) (d : BitVec 512) {s : State} (hs : Sound s₀ s) : SoundOut s₀ (execTileProductWeightGradient cl d s) := by
  unfold execTileProductWeightGradient
  repeat' first
    | with_reducible apply SoundOut.next
    | with_reducible assumption
    | with_reducible apply State.descriptor_sound
    | with_reducible apply productUnit_sound
    | with_reducible apply noPrep_sound

end Sys2Proof.Machine
end

