-- ==== Sys2Proof/Laws/SoundVector.lean ====
section
/-! SUPPORT. What every operation of Machine/Vector.lean keeps (Sound). -/

namespace Sys2Proof.Machine

open Sys2Proof

theorem elementwiseUnit_sound {s₀ : State}   (p : Where) (pos u : Nat) {s : State} (h : Sound s₀ s) : Sound s₀ (elementwiseUnit p pos u s).1 := by
  unfold elementwiseUnit
  repeat' first
    | with_reducible assumption
    | (fail_if_no_progress extract_lets +onlyGivenNames t; first | clear_value t)
    | with_reducible apply State.inputTiles_sound
    | with_reducible apply State.finishTile_sound
    | (with_reducible refine Sound.of_eq (by assumption) ?_)
    | split

theorem reductionUnit_sound {s₀ : State}   (p : Where) (pos u : Nat) {s : State} (h : Sound s₀ s) : Sound s₀ (reductionUnit p pos u s).1 := by
  unfold reductionUnit
  repeat' first
    | with_reducible assumption
    | contradiction
    | (extract_lets +onlyGivenNames t; guard_hyp t : State := _; refine Sound.cut (Q := Sound s₀ t) ?_ ?_; (on_goal 1 => (subst t)); (on_goal 2 => (clear_value t; intro _)))
    | (fail_if_no_progress extract_lets +onlyGivenNames t; first | clear_value t)
    | with_reducible apply State.countWrap_sound
    | with_reducible apply State.inputTiles_sound
    | with_reducible apply State.standAt_sound
    | with_reducible apply State.outputTile_sound
    | with_reducible apply State.finishTile_sound
    | with_reducible apply State.chainBreak_sound
    | (with_reducible refine Sound.of_eq (by assumption) ?_)
    | split

theorem State.countRows_sound {s₀ : State} {s : State} (p : Where) (n : Nat) (hs : Sound s₀ s) : Sound s₀ (State.countRows s p n) := by
  unfold State.countRows
  repeat' first
    | with_reducible assumption
    | with_reducible apply State.modLeg_sound

theorem gatherUnit_sound {s₀ : State}   (p : Where) (pos u : Nat) {s : State} (h : Sound s₀ s) : Sound s₀ (gatherUnit p pos u s).1 := by
  unfold gatherUnit
  repeat' first
    | with_reducible assumption
    | (fail_if_no_progress extract_lets +onlyGivenNames t; first | clear_value t)
    | with_reducible apply State.inputTile_sound
    | with_reducible apply State.inputTiles_sound
    | with_reducible apply State.standAt_sound
    | with_reducible apply State.finishRow_sound
    | with_reducible apply State.countRows_sound
    | (with_reducible refine Sound.of_eq (by assumption) ?_)
    | split

theorem State.scatterRow_sound {s₀ : State} {s : State} (p : Where) (pos : Nat) (row : Nat) (vals : List FVal) (fuel : Nat) (x1 : Nat) (hs : Sound s₀ s) : Sound s₀ (State.scatterRow s p pos row vals fuel x1).1 := by
  induction fuel generalizing s p pos row vals x1 with
  | zero => exact hs
  | succ _ ih =>
    unfold State.scatterRow
    repeat' first
      | with_reducible assumption
      | (fail_if_no_progress extract_lets +onlyGivenNames t; first | clear_value t)
      | with_reducible apply State.readTile_sound
      | with_reducible apply State.outputTile_sound
      | (with_reducible refine Sound.of_eq (by assumption) ?_)
      | with_reducible apply ih
      | split

theorem State.scatterAdd_sound {s₀ : State} {s : State} (p : Where) (pos row at_ : Nat) (vals : List FVal) (fuel : Nat) (x1 : Nat) (hs : Sound s₀ s) : Sound s₀ (State.scatterAdd s p pos row at_ vals fuel x1).1 := by
  induction fuel generalizing s p pos row at_ vals x1 with
  | zero => exact hs
  | succ _ ih =>
    unfold State.scatterAdd
    repeat' first
      | with_reducible assumption
      | (fail_if_no_progress extract_lets +onlyGivenNames t; first | clear_value t)
      | with_reducible apply State.sendContribution_sound
      | (with_reducible refine Sound.of_eq (by assumption) ?_)
      | with_reducible apply ih
      | split

theorem State.scatterRows_sound {s₀ : State} {s : State} (p : Where) (pos i : Nat) (rows : List (Nat × Int × List FVal)) (hs : Sound s₀ s) : Sound s₀ (State.scatterRows s p pos i rows).1 := by
  induction rows generalizing s p pos i with
  | nil => exact hs
  | cons _ _ ih =>
    unfold State.scatterRows
    repeat' first
      | with_reducible assumption
      | (extract_lets +onlyGivenNames t; guard_hyp t : State × _ := _; refine Sound.cut (Q := Sound s₀ t.1) ?_ ?_; (on_goal 1 => (subst t)); (on_goal 2 => (clear_value t; intro _)))
      | (fail_if_no_progress extract_lets +onlyGivenNames t; first | clear_value t)
      | with_reducible apply State.countRows_sound
      | with_reducible apply State.scatterRow_sound
      | with_reducible apply State.scatterAdd_sound
      | with_reducible apply ih
      | split

theorem scatterUnit_sound {s₀ : State}   (p : Where) (pos u : Nat) {s : State} (h : Sound s₀ s) : Sound s₀ (scatterUnit p pos u s).1 := by
  unfold scatterUnit
  repeat' first
    | with_reducible assumption
    | (fail_if_no_progress extract_lets +onlyGivenNames t; first | clear_value t)
    | with_reducible apply State.inputTiles_sound
    | with_reducible apply State.standAt_sound
    | with_reducible apply State.scatterRows_sound
    | (with_reducible refine Sound.of_eq (by assumption) ?_)
    | split

theorem rowPrep_sound {s₀ : State}   (p : Where) {s : State} (hs : Sound s₀ s) : Sound s₀ (rowPrep p s) := by
  unfold rowPrep
  repeat' first
    | with_reducible assumption
    | (extract_lets +onlyGivenNames t; guard_hyp t : State := _; refine Sound.cut (Q := Sound s₀ t) ?_ ?_; (on_goal 1 => (subst t)); (on_goal 2 => (clear_value t; intro _)))
    | (fail_if_no_progress extract_lets +onlyGivenNames t; first | clear_value t)
    | with_reducible apply Sound.modClu
    | with_reducible apply State.countOverflowRows_sound
    | split

theorem State.putEntry_sound {s₀ : State} {s : State} (p : Where) (row : Nat) (st : Word × Word) (hs : Sound s₀ s) : Sound s₀ (State.putEntry s p row st) := by
  unfold State.putEntry
  repeat' first
    | with_reducible assumption
    | with_reducible apply Sound.modClu

theorem rowUnit_sound {s₀ : State}   (p : Where) (pos u : Nat) {s : State} (h : Sound s₀ s) : Sound s₀ (rowUnit p pos u s).1 := by
  unfold rowUnit
  repeat' first
    | with_reducible assumption
    | (extract_lets +onlyGivenNames t; guard_hyp t : State := _; refine Sound.cut (Q := Sound s₀ t) ?_ ?_; (on_goal 1 => (subst t)); (on_goal 2 => (clear_value t; intro _)))
    | (fail_if_no_progress extract_lets +onlyGivenNames t; first | clear_value t)
    | with_reducible apply State.countRecomputeRows_sound
    | with_reducible apply State.inputTiles_sound
    | with_reducible apply State.standAt_sound
    | with_reducible apply State.finishRow_sound
    | with_reducible apply State.putEntry_sound
    | with_reducible apply Sound.foldl
    | (with_reducible refine Sound.of_eq (by assumption) ?_)
    | intro _ _ _
    | split

theorem execElementwise_sound {s₀ : State} (cl : Nat) (d : BitVec 512) {s : State} (hs : Sound s₀ s) : SoundOut s₀ (execElementwise cl d s) := by
  unfold execElementwise
  repeat' first
    | with_reducible apply SoundOut.next
    | with_reducible assumption
    | with_reducible apply State.descriptor_sound
    | with_reducible apply noPrep_sound
    | with_reducible apply elementwiseUnit_sound

theorem execReduction_sound {s₀ : State} (cl : Nat) (d : BitVec 512) {s : State} (hs : Sound s₀ s) : SoundOut s₀ (execReduction cl d s) := by
  unfold execReduction
  repeat' first
    | with_reducible apply SoundOut.next
    | with_reducible assumption
    | with_reducible apply State.descriptor_sound
    | with_reducible apply noPrep_sound
    | with_reducible apply reductionUnit_sound

theorem execGather_sound {s₀ : State} (cl : Nat) (d : BitVec 512) {s : State} (hs : Sound s₀ s) : SoundOut s₀ (execGather cl d s) := by
  unfold execGather
  repeat' first
    | with_reducible apply SoundOut.next
    | with_reducible assumption
    | with_reducible apply State.descriptor_sound
    | with_reducible apply noPrep_sound
    | with_reducible apply gatherUnit_sound

theorem execScatter_sound {s₀ : State} (cl : Nat) (d : BitVec 512) {s : State} (hs : Sound s₀ s) : SoundOut s₀ (execScatter cl d s) := by
  unfold execScatter
  repeat' first
    | with_reducible apply SoundOut.next
    | with_reducible assumption
    | with_reducible apply State.descriptor_sound
    | with_reducible apply noPrep_sound
    | with_reducible apply scatterUnit_sound

theorem execRowNormForward_sound {s₀ : State} (cl : Nat) (d : BitVec 512) {s : State} (hs : Sound s₀ s) : SoundOut s₀ (execRowNormForward cl d s) := by
  unfold execRowNormForward
  repeat' first
    | with_reducible apply SoundOut.next
    | with_reducible assumption
    | with_reducible apply State.descriptor_sound
    | with_reducible apply rowPrep_sound
    | with_reducible apply rowUnit_sound

theorem execRowNormBackward_sound {s₀ : State} (cl : Nat) (d : BitVec 512) {s : State} (hs : Sound s₀ s) : SoundOut s₀ (execRowNormBackward cl d s) := by
  unfold execRowNormBackward
  repeat' first
    | with_reducible apply SoundOut.next
    | with_reducible assumption
    | with_reducible apply State.descriptor_sound
    | with_reducible apply rowPrep_sound
    | with_reducible apply rowUnit_sound

theorem execSoftmaxForward_sound {s₀ : State} (cl : Nat) (d : BitVec 512) {s : State} (hs : Sound s₀ s) : SoundOut s₀ (execSoftmaxForward cl d s) := by
  unfold execSoftmaxForward
  repeat' first
    | with_reducible apply SoundOut.next
    | with_reducible assumption
    | with_reducible apply State.descriptor_sound
    | with_reducible apply rowPrep_sound
    | with_reducible apply rowUnit_sound

theorem execSoftmaxBackward_sound {s₀ : State} (cl : Nat) (d : BitVec 512) {s : State} (hs : Sound s₀ s) : SoundOut s₀ (execSoftmaxBackward cl d s) := by
  unfold execSoftmaxBackward
  repeat' first
    | with_reducible apply SoundOut.next
    | with_reducible assumption
    | with_reducible apply State.descriptor_sound
    | with_reducible apply rowPrep_sound
    | with_reducible apply rowUnit_sound

end Sys2Proof.Machine
end

