-- ==== Sys2Proof/Laws/SoundRecipes.lean ====
section
/-! SUPPORT. What every operation of Machine/Recipes.lean keeps (Sound). -/

namespace Sys2Proof.Machine

open Sys2Proof

theorem State.modStrand_sound {s₀ : State} {s : State} (u : StrandRef) (f : Strand → Strand) (hs : Sound s₀ s) : Sound s₀ (State.modStrand s u f) := by
  unfold State.modStrand
  repeat' first
    | with_reducible assumption
    | with_reducible apply Sound.modCor

theorem State.claim_sound {s₀ : State} {s : State} (p : Where) (w : BitVec 512) (u : StrandRef) (hs : Sound s₀ s) : Sound s₀ (State.claim s p w u) := by
  unfold State.claim
  repeat' first
    | with_reducible assumption
    | (extract_lets +onlyGivenNames t; guard_hyp t : State := _; refine Sound.cut (Q := Sound s₀ t) ?_ ?_; (on_goal 1 => (subst t)); (on_goal 2 => (clear_value t; intro _)))
    | (fail_if_no_progress extract_lets +onlyGivenNames t; first | clear_value t)
    | with_reducible apply Sound.modCor
    | with_reducible apply State.modRunOn_sound
    | with_reducible refine Sound.count ?_ _
    | refine Sound.modCor (s := s) ?_ _ _
    | split

theorem launchPrep_sound {s₀ : State} (w : BitVec 512)  (p : Where) {s : State} (hs : Sound s₀ s) : Sound s₀ (launchPrep w p s) := by
  unfold launchPrep
  repeat' first
    | with_reducible assumption
    | with_reducible apply State.claim_sound
    | with_reducible apply Sound.foldl
    | intro _ _ _

theorem noUnit_sound {s₀ : State}   (p : Where) (pos u : Nat) {s : State} (h : Sound s₀ s) : Sound s₀ (noUnit p pos u s).1 := by
  unfold noUnit
  repeat' first
    | with_reducible assumption

theorem execRecipeLaunch_sound {s₀ : State} (cl : Nat) (d : BitVec 512) {s : State} (hs : Sound s₀ s) : SoundOut s₀ (execRecipeLaunch cl d s) := by
  unfold execRecipeLaunch
  repeat' first
    | with_reducible apply SoundOut.next
    | with_reducible assumption
    | with_reducible apply State.descriptor_sound
    | with_reducible apply launchPrep_sound
    | with_reducible apply noUnit_sound

theorem State.strandFault_sound {s₀ : State} {s : State} (p : Where) (u : StrandRef) (pc : Nat) (hs : Sound s₀ s) : Sound s₀ (State.strandFault s p u pc) := by
  unfold State.strandFault
  repeat' first
    | with_reducible assumption
    | with_reducible apply State.failLeg_sound
    | with_reducible apply State.countFault_sound

theorem State.regOp_sound {s₀ : State} {s : State} (u : StrandRef) (op : Nat) (x : FormA) (regs : List (BitVec 5)) (bad : Bool) (f : Strand → Where → Nat → Word) (hs : Sound s₀ s) : Sound s₀ (State.regOp s u op x regs bad f) := by
  unfold State.regOp
  repeat' first
    | with_reducible assumption
    | with_reducible apply State.modStrand_sound
    | with_reducible apply State.strandFault_sound
    | split

theorem State.binOp_sound {s₀ : State} {s : State} (u : StrandRef) (op : Nat) (x : FormA) (f : Word → Word → Word) (hs : Sound s₀ s) : Sound s₀ (State.binOp s u op x f) := by
  unfold State.binOp
  repeat' first
    | with_reducible assumption
    | with_reducible apply State.regOp_sound

theorem State.ctlOp_sound {s₀ : State} {s : State} (u : StrandRef) (op : Nat) (x : FormC) (f : State → Strand → Where → State) (hs : Sound s₀ s)
    (hf : ∀ t r p, Sound s₀ t → Sound s₀ (f t r p)) : Sound s₀ (s.ctlOp u op x f) := by
  unfold State.ctlOp
  split
  · exact hs
  · exact hf _ _ _ hs

theorem execNop_sound {s₀ : State} (u : StrandRef) (x : FormC) {s : State} (hs : Sound s₀ s) : SoundOut s₀ (execNop u x s) := by
  unfold execNop
  repeat' first
    | with_reducible apply SoundOut.next
    | with_reducible assumption
    | (fail_if_no_progress extract_lets +onlyGivenNames t; first | clear_value t)
    | with_reducible apply State.modStrand_sound
    | with_reducible apply State.strandFault_sound
    | split

theorem State.strandDone_sound {s₀ : State} {s : State} (p : Where) (u : StrandRef) (hs : Sound s₀ s) : Sound s₀ (State.strandDone s p u) := by
  unfold State.strandDone
  repeat' first
    | with_reducible assumption
    | with_reducible apply State.claim_sound
    | split

theorem execExit_sound {s₀ : State} (u : StrandRef) (x : FormC) {s : State} (hs : Sound s₀ s) : SoundOut s₀ (execExit u x s) := by
  unfold execExit
  repeat' first
    | with_reducible apply SoundOut.next
    | intro _ _ _ _
    | with_reducible assumption
    | (fail_if_no_progress extract_lets +onlyGivenNames t; first | clear_value t)
    | with_reducible apply State.modStrand_sound
    | with_reducible apply State.ctlOp_sound
    | with_reducible apply State.strandDone_sound
    | split

theorem execBar_sound {s₀ : State} (u : StrandRef) (x : FormC) {s : State} (hs : Sound s₀ s) : SoundOut s₀ (execBar u x s) := by
  unfold execBar
  repeat' first
    | with_reducible apply SoundOut.next
    | intro _ _ _ _
    | with_reducible assumption
    | with_reducible apply State.modStrand_sound
    | with_reducible apply State.ctlOp_sound

theorem execBarRelease_sound {s₀ : State} (core : Nat) {s : State} (hs : Sound s₀ s) : SoundOut s₀ (execBarRelease core s) := by
  unfold execBarRelease
  repeat' first
    | with_reducible apply SoundOut.next
    | with_reducible assumption
    | with_reducible apply Sound.modCor
    | split

theorem execFence_sound {s₀ : State} (u : StrandRef) (x : FormA) {s : State} (hs : Sound s₀ s) : SoundOut s₀ (execFence u x s) := by
  unfold execFence
  repeat' first
    | with_reducible apply SoundOut.next
    | with_reducible assumption
    | with_reducible apply State.modStrand_sound
    | with_reducible apply State.strandFault_sound
    | split

theorem execIfMask_sound {s₀ : State} (u : StrandRef) (x : FormC) {s : State} (hs : Sound s₀ s) : SoundOut s₀ (execIfMask u x s) := by
  unfold execIfMask
  repeat' first
    | with_reducible apply SoundOut.next
    | intro _ _ _ _
    | with_reducible assumption
    | with_reducible apply State.modStrand_sound
    | with_reducible apply State.strandFault_sound
    | with_reducible apply State.ctlOp_sound
    | split

theorem execElseMask_sound {s₀ : State} (u : StrandRef) (x : FormC) {s : State} (hs : Sound s₀ s) : SoundOut s₀ (execElseMask u x s) := by
  unfold execElseMask
  repeat' first
    | with_reducible apply SoundOut.next
    | intro _ _ _ _
    | with_reducible assumption
    | with_reducible apply State.modStrand_sound
    | with_reducible apply State.strandFault_sound
    | with_reducible apply State.ctlOp_sound
    | split

theorem execEndIf_sound {s₀ : State} (u : StrandRef) (x : FormC) {s : State} (hs : Sound s₀ s) : SoundOut s₀ (execEndIf u x s) := by
  unfold execEndIf
  repeat' first
    | with_reducible apply SoundOut.next
    | intro _ _ _ _
    | with_reducible assumption
    | with_reducible apply State.modStrand_sound
    | with_reducible apply State.strandFault_sound
    | with_reducible apply State.ctlOp_sound
    | split

theorem execLoop_sound {s₀ : State} (u : StrandRef) (x : FormC) {s : State} (hs : Sound s₀ s) : SoundOut s₀ (execLoop u x s) := by
  unfold execLoop
  repeat' first
    | with_reducible apply SoundOut.next
    | intro _ _ _ _
    | with_reducible assumption
    | (fail_if_no_progress extract_lets +onlyGivenNames t; first | clear_value t)
    | with_reducible apply State.modStrand_sound
    | with_reducible apply State.strandFault_sound
    | with_reducible apply State.ctlOp_sound
    | split

theorem execBra_sound {s₀ : State} (u : StrandRef) (x : FormC) {s : State} (hs : Sound s₀ s) : SoundOut s₀ (execBra u x s) := by
  unfold execBra
  repeat' first
    | with_reducible apply SoundOut.next
    | intro _ _ _ _
    | with_reducible assumption
    | (fail_if_no_progress extract_lets +onlyGivenNames t; first | clear_value t)
    | with_reducible apply State.modStrand_sound
    | with_reducible apply State.strandFault_sound
    | with_reducible apply State.ctlOp_sound
    | split

theorem execSpr_sound {s₀ : State} (u : StrandRef) (x : FormA) {s : State} (hs : Sound s₀ s) : SoundOut s₀ (execSpr u x s) := by
  unfold execSpr
  repeat' first
    | with_reducible apply SoundOut.next
    | with_reducible assumption
    | with_reducible apply State.regOp_sound

theorem execIadd_sound {s₀ : State} (u : StrandRef) (x : FormA) {s : State} (hs : Sound s₀ s) : SoundOut s₀ (execIadd u x s) := by
  unfold execIadd
  repeat' first
    | with_reducible apply SoundOut.next
    | with_reducible assumption
    | with_reducible apply State.binOp_sound

theorem execIsub_sound {s₀ : State} (u : StrandRef) (x : FormA) {s : State} (hs : Sound s₀ s) : SoundOut s₀ (execIsub u x s) := by
  unfold execIsub
  repeat' first
    | with_reducible apply SoundOut.next
    | with_reducible assumption
    | with_reducible apply State.binOp_sound

theorem execImul_sound {s₀ : State} (u : StrandRef) (x : FormA) {s : State} (hs : Sound s₀ s) : SoundOut s₀ (execImul u x s) := by
  unfold execImul
  repeat' first
    | with_reducible apply SoundOut.next
    | with_reducible assumption
    | with_reducible apply State.binOp_sound

theorem execImad_sound {s₀ : State} (u : StrandRef) (x : FormA) {s : State} (hs : Sound s₀ s) : SoundOut s₀ (execImad u x s) := by
  unfold execImad
  repeat' first
    | with_reducible apply SoundOut.next
    | with_reducible assumption
    | with_reducible apply State.regOp_sound

theorem execImin_sound {s₀ : State} (u : StrandRef) (x : FormA) {s : State} (hs : Sound s₀ s) : SoundOut s₀ (execImin u x s) := by
  unfold execImin
  repeat' first
    | with_reducible apply SoundOut.next
    | with_reducible assumption
    | with_reducible apply State.binOp_sound

theorem execImax_sound {s₀ : State} (u : StrandRef) (x : FormA) {s : State} (hs : Sound s₀ s) : SoundOut s₀ (execImax u x s) := by
  unfold execImax
  repeat' first
    | with_reducible apply SoundOut.next
    | with_reducible assumption
    | with_reducible apply State.binOp_sound

theorem execAndBits_sound {s₀ : State} (u : StrandRef) (x : FormA) {s : State} (hs : Sound s₀ s) : SoundOut s₀ (execAndBits u x s) := by
  unfold execAndBits
  repeat' first
    | with_reducible apply SoundOut.next
    | with_reducible assumption
    | with_reducible apply State.binOp_sound

theorem execOrBits_sound {s₀ : State} (u : StrandRef) (x : FormA) {s : State} (hs : Sound s₀ s) : SoundOut s₀ (execOrBits u x s) := by
  unfold execOrBits
  repeat' first
    | with_reducible apply SoundOut.next
    | with_reducible assumption
    | with_reducible apply State.binOp_sound

theorem execXorBits_sound {s₀ : State} (u : StrandRef) (x : FormA) {s : State} (hs : Sound s₀ s) : SoundOut s₀ (execXorBits u x s) := by
  unfold execXorBits
  repeat' first
    | with_reducible apply SoundOut.next
    | with_reducible assumption
    | with_reducible apply State.binOp_sound

theorem execShl_sound {s₀ : State} (u : StrandRef) (x : FormA) {s : State} (hs : Sound s₀ s) : SoundOut s₀ (execShl u x s) := by
  unfold execShl
  repeat' first
    | with_reducible apply SoundOut.next
    | with_reducible assumption
    | with_reducible apply State.binOp_sound

theorem execShr_sound {s₀ : State} (u : StrandRef) (x : FormA) {s : State} (hs : Sound s₀ s) : SoundOut s₀ (execShr u x s) := by
  unfold execShr
  repeat' first
    | with_reducible apply SoundOut.next
    | with_reducible assumption
    | with_reducible apply State.binOp_sound

theorem execSar_sound {s₀ : State} (u : StrandRef) (x : FormA) {s : State} (hs : Sound s₀ s) : SoundOut s₀ (execSar u x s) := by
  unfold execSar
  repeat' first
    | with_reducible apply SoundOut.next
    | with_reducible assumption
    | with_reducible apply State.binOp_sound

theorem State.immOp_sound {s₀ : State} {s : State} (u : StrandRef) (op : Nat) (x : FormI) (bad : Bool) (f : Word → Word) (hs : Sound s₀ s) : Sound s₀ (State.immOp s u op x bad f) := by
  unfold State.immOp
  repeat' first
    | with_reducible assumption
    | with_reducible apply State.modStrand_sound
    | with_reducible apply State.strandFault_sound
    | split

theorem execAddi_sound {s₀ : State} (u : StrandRef) (x : FormI) {s : State} (hs : Sound s₀ s) : SoundOut s₀ (execAddi u x s) := by
  unfold execAddi
  repeat' first
    | with_reducible apply SoundOut.next
    | with_reducible assumption
    | with_reducible apply State.immOp_sound

theorem execLui_sound {s₀ : State} (u : StrandRef) (x : FormI) {s : State} (hs : Sound s₀ s) : SoundOut s₀ (execLui u x s) := by
  unfold execLui
  repeat' first
    | with_reducible apply SoundOut.next
    | with_reducible assumption
    | with_reducible apply State.immOp_sound

theorem State.predOp_sound {s₀ : State} {s : State} (u : StrandRef) (op : Nat) (x : FormA) (bad : Bool) (f : Word → Word → Bool) (hs : Sound s₀ s) : Sound s₀ (State.predOp s u op x bad f) := by
  unfold State.predOp
  repeat' first
    | with_reducible assumption
    | with_reducible apply State.modStrand_sound
    | with_reducible apply State.strandFault_sound
    | split

theorem execIcmp_sound {s₀ : State} (u : StrandRef) (x : FormA) {s : State} (hs : Sound s₀ s) : SoundOut s₀ (execIcmp u x s) := by
  unfold execIcmp
  repeat' first
    | with_reducible apply SoundOut.next
    | with_reducible assumption
    | with_reducible apply State.predOp_sound

theorem execSel_sound {s₀ : State} (u : StrandRef) (x : FormA) {s : State} (hs : Sound s₀ s) : SoundOut s₀ (execSel u x s) := by
  unfold execSel
  repeat' first
    | with_reducible apply SoundOut.next
    | with_reducible assumption
    | with_reducible apply State.modStrand_sound
    | with_reducible apply State.strandFault_sound
    | split

theorem execFadd_sound {s₀ : State} (u : StrandRef) (x : FormA) {s : State} (hs : Sound s₀ s) : SoundOut s₀ (execFadd u x s) := by
  unfold execFadd
  repeat' first
    | with_reducible apply SoundOut.next
    | with_reducible assumption
    | with_reducible apply State.binOp_sound

theorem execFsub_sound {s₀ : State} (u : StrandRef) (x : FormA) {s : State} (hs : Sound s₀ s) : SoundOut s₀ (execFsub u x s) := by
  unfold execFsub
  repeat' first
    | with_reducible apply SoundOut.next
    | with_reducible assumption
    | with_reducible apply State.binOp_sound

theorem execFmul_sound {s₀ : State} (u : StrandRef) (x : FormA) {s : State} (hs : Sound s₀ s) : SoundOut s₀ (execFmul u x s) := by
  unfold execFmul
  repeat' first
    | with_reducible apply SoundOut.next
    | with_reducible assumption
    | with_reducible apply State.binOp_sound

theorem execFfma_sound {s₀ : State} (u : StrandRef) (x : FormA) {s : State} (hs : Sound s₀ s) : SoundOut s₀ (execFfma u x s) := by
  unfold execFfma
  repeat' first
    | with_reducible apply SoundOut.next
    | with_reducible assumption
    | with_reducible apply State.regOp_sound

theorem execFmin_sound {s₀ : State} (u : StrandRef) (x : FormA) {s : State} (hs : Sound s₀ s) : SoundOut s₀ (execFmin u x s) := by
  unfold execFmin
  repeat' first
    | with_reducible apply SoundOut.next
    | with_reducible assumption
    | with_reducible apply State.binOp_sound

theorem execFmax_sound {s₀ : State} (u : StrandRef) (x : FormA) {s : State} (hs : Sound s₀ s) : SoundOut s₀ (execFmax u x s) := by
  unfold execFmax
  repeat' first
    | with_reducible apply SoundOut.next
    | with_reducible assumption
    | with_reducible apply State.binOp_sound

theorem execFcmp_sound {s₀ : State} (u : StrandRef) (x : FormA) {s : State} (hs : Sound s₀ s) : SoundOut s₀ (execFcmp u x s) := by
  unfold execFcmp
  repeat' first
    | with_reducible apply SoundOut.next
    | with_reducible assumption
    | with_reducible apply State.predOp_sound

theorem execFn_sound {s₀ : State} (u : StrandRef) (x : FormA) {s : State} (hs : Sound s₀ s) : SoundOut s₀ (execFn u x s) := by
  unfold execFn
  repeat' first
    | with_reducible apply SoundOut.next
    | with_reducible assumption
    | (extract_lets +onlyGivenNames t; guard_hyp t : State := _; refine Sound.cut (Q := Sound s₀ t) ?_ ?_; (on_goal 1 => (subst t)); (on_goal 2 => (clear_value t; intro _)))
    | with_reducible apply State.regOp_sound
    | with_reducible refine Sound.count ?_ _
    | split

theorem execCvt_sound {s₀ : State} (u : StrandRef) (x : FormA) {s : State} (hs : Sound s₀ s) : SoundOut s₀ (execCvt u x s) := by
  unfold execCvt
  repeat' first
    | with_reducible apply SoundOut.next
    | with_reducible assumption
    | with_reducible apply State.regOp_sound

theorem execF2i_sound {s₀ : State} (u : StrandRef) (x : FormA) {s : State} (hs : Sound s₀ s) : SoundOut s₀ (execF2i u x s) := by
  unfold execF2i
  repeat' first
    | with_reducible apply SoundOut.next
    | with_reducible assumption
    | (fail_if_no_progress extract_lets +onlyGivenNames t; first | clear_value t)
    | with_reducible apply State.countNan_sound
    | with_reducible apply State.regOp_sound

theorem execI2f_sound {s₀ : State} (u : StrandRef) (x : FormA) {s : State} (hs : Sound s₀ s) : SoundOut s₀ (execI2f u x s) := by
  unfold execI2f
  repeat' first
    | with_reducible apply SoundOut.next
    | with_reducible assumption
    | with_reducible apply State.regOp_sound

/-- The state a lane leaves is sound. -/
def SoundLane (a : State) : LaneRes → Prop
  | .done t => Sound a t
  | .fault => True
  | .wait g => ∀ t, Sound a t → Sound a (g t)
  | .ended t => Sound a t

theorem SoundLane.done {a t : State} (h : Sound a t) : SoundLane a (.done t) := h

theorem SoundLane.wait {a : State} {g : State → State} (h : ∀ t, Sound a t → Sound a (g t)) : SoundLane a (.wait g) := h

theorem SoundLane.wait_id {a : State} : SoundLane a (.wait id) := fun _ h => h

theorem SoundLane.ended {a t : State} (h : Sound a t) : SoundLane a (.ended t) := h

theorem SoundLane.fault {a : State} : SoundLane a .fault := trivial

theorem SoundLane.of_eq {a t : State} {β : Type} {p : LaneRes × β} {x : β} (e : p = (.done t, x)) (h : SoundLane a p.1) : Sound a t := by
  rw [e] at h
  exact h

theorem SoundLane.fst_eq {a : State} {β : Type} {p : LaneRes × β} {r : LaneRes} {x : β} (e : p = (r, x)) (h : SoundLane a p.1) : SoundLane a r := by
  rw [e] at h
  exact h

theorem laneFold_sound {s₀ : State} (f : State → Nat → LaneRes) (l : List Nat) {s : State} (hs : Sound s₀ s)
    (hf : ∀ t k, Sound s₀ t → SoundLane s₀ (f t k)) : SoundLane s₀ (laneFold f s l) := by
  induction l generalizing s with
  | nil => exact hs
  | cons k r ih =>
    have h := hf s k hs
    unfold laneFold
    split
    next e => rw [e] at h; exact ih h
    next => exact h

theorem State.memOp_sound {s₀ : State} {s : State} (u : StrandRef) (op : Nat) (x : FormA) (regs : List (BitVec 5)) (bad : Bool)
    (f : Strand → Where → State → Nat → LaneRes) (hs : Sound s₀ s) (hf : ∀ r p t l, Sound s₀ t → SoundLane s₀ (f r p t l)) :
    Sound s₀ (s.memOp u op x regs bad f) := by
  unfold State.memOp
  split
  next => exact hs
  next t p _ =>
    split
    · exact State.strandFault_sound _ _ _ hs
    · have h := laneFold_sound (f t p) (t.guarded x) hs (hf t p)
      split
      next e => rw [e] at h; exact State.modStrand_sound _ _ h
      next => exact State.strandFault_sound _ _ _ hs
      next e => rw [e] at h; exact h _ hs
      next e => rw [e] at h; exact h

theorem State.setLane_sound {s₀ : State} {s : State} (u : StrandRef) (l idx : Nat) (w : Word) (hs : Sound s₀ s) : Sound s₀ (State.setLane s u l idx w) := by
  unfold State.setLane
  repeat' first
    | with_reducible assumption
    | with_reducible apply State.modStrand_sound

theorem execLdl_sound {s₀ : State} (u : StrandRef) (x : FormA) {s : State} (hs : Sound s₀ s) : SoundOut s₀ (execLdl u x s) := by
  unfold execLdl
  repeat' first
    | with_reducible apply SoundOut.next
    | with_reducible apply SoundLane.done
    | with_reducible exact SoundLane.fault
    | intro _ _ _ _ _
    | with_reducible assumption
    | (fail_if_no_progress extract_lets +onlyGivenNames t; first | clear_value t)
    | with_reducible apply State.memOp_sound
    | with_reducible apply State.setLane_sound
    | split

theorem execStl_sound {s₀ : State} (u : StrandRef) (x : FormA) {s : State} (hs : Sound s₀ s) : SoundOut s₀ (execStl u x s) := by
  unfold execStl
  repeat' first
    | with_reducible apply SoundOut.next
    | with_reducible apply SoundLane.done
    | with_reducible exact SoundLane.fault
    | intro _ _ _ _ _
    | with_reducible assumption
    | (extract_lets +onlyGivenNames t; guard_hyp t : State := _; refine Sound.cut (Q := Sound s₀ t) ?_ ?_; (on_goal 1 => (subst t)); (on_goal 2 => (clear_value t; intro _)))
    | (fail_if_no_progress extract_lets +onlyGivenNames t; first | clear_value t)
    | with_reducible apply Sound.modCor
    | with_reducible apply Sound.write
    | with_reducible apply State.memOp_sound
    | split

theorem State.loadBytes_sound {s₀ : State} {s : State} (p : Where) (u : StrandRef) (a n : Nat) (hs : Sound s₀ s) : SoundLane s₀ (State.loadBytes s p u a n).1 := by
  unfold State.loadBytes
  repeat' first
    | with_reducible apply SoundLane.done
    | with_reducible exact SoundLane.wait_id
    | (with_reducible refine SoundLane.wait fun _ _ => ?_)
    | with_reducible exact SoundLane.fault
    | with_reducible assumption
    | (extract_lets +onlyGivenNames t; guard_hyp t : State × _ := _; refine Sound.cut (Q := Sound s₀ t.1) ?_ ?_; (on_goal 1 => (subst t)); (on_goal 2 => (clear_value t; intro _)))
    | with_reducible apply State.homeStep_sound
    | with_reducible apply State.addWaiter_sound
    | with_reducible apply State.waitWay_sound
    | split

theorem execLdg_sound {s₀ : State} (u : StrandRef) (x : FormA) {s : State} (hs : Sound s₀ s) : SoundOut s₀ (execLdg u x s) := by
  unfold execLdg
  repeat' first
    | with_reducible apply SoundOut.next
    | with_reducible apply SoundLane.done
    | with_reducible exact SoundLane.fault
    | (with_reducible refine SoundLane.of_eq (by assumption) ?_)
    | (with_reducible refine SoundLane.fst_eq (by assumption) ?_)
    | intro _ _ _ _ _
    | with_reducible assumption
    | (fail_if_no_progress extract_lets +onlyGivenNames t; first | clear_value t)
    | with_reducible apply State.memOp_sound
    | with_reducible apply State.setLane_sound
    | with_reducible apply State.loadBytes_sound
    | split

theorem State.storeBytes_sound {s₀ : State} {s : State} (p : Where) (u : StrandRef) (a : Nat) (bs : List Byte) (hs : Sound s₀ s) : SoundLane s₀ (State.storeBytes s p u a bs) := by
  unfold State.storeBytes
  repeat' first
    | with_reducible apply SoundLane.done
    | (with_reducible refine SoundLane.wait fun _ _ => ?_)
    | with_reducible exact SoundLane.fault
    | with_reducible assumption
    | (extract_lets +onlyGivenNames t; guard_hyp t : State := _; refine Sound.cut (Q := Sound s₀ t) ?_ ?_; (on_goal 1 => (subst t)); (on_goal 2 => (clear_value t; intro _)))
    | (extract_lets +onlyGivenNames t; guard_hyp t : State × _ := _; refine Sound.cut (Q := Sound s₀ t.1) ?_ ?_; (on_goal 1 => (subst t)); (on_goal 2 => (clear_value t; intro _)))
    | (fail_if_no_progress extract_lets +onlyGivenNames t; first | guard_hyp t : Cellar := _ | clear_value t)
    | with_reducible apply Sound.write
    | with_reducible apply State.homeStep_sound
    | with_reducible apply State.addWaiter_sound
    | with_reducible apply State.waitWay_sound
    | split
    | with_reducible rfl
    | (with_reducible apply Sound.upd)

theorem execStg_sound {s₀ : State} (u : StrandRef) (x : FormA) {s : State} (hs : Sound s₀ s) : SoundOut s₀ (execStg u x s) := by
  unfold execStg
  repeat' first
    | with_reducible apply SoundOut.next
    | with_reducible exact SoundLane.fault
    | intro _ _ _ _ _
    | with_reducible assumption
    | (fail_if_no_progress extract_lets +onlyGivenNames t; first | clear_value t)
    | with_reducible apply State.memOp_sound
    | with_reducible apply State.storeBytes_sound
    | split

theorem State.ldtLines_sound {s₀ : State} {s : State} (p : Where) (a : Nat) (l : List Nat) (x : Nat) (hs : Sound s₀ s) :
    SoundLane s₀ (State.ldtLines s p a l x).1 := by
  induction l generalizing s x with
  | nil => exact hs
  | cons i r ih =>
    unfold State.ldtLines
    extract_lets pl q
    have hq : Sound s₀ q.1 := State.readPlace_sound _ _ _ hs
    split
    · exact ih _ hq
    · exact SoundLane.fault
    all_goals
      clear_value pl
      refine SoundLane.wait fun t ht => ?_
      split
      · first | exact State.addWaiter_sound _ _ _ ht | exact State.waitWay_sound _ _ _ _ ht
      · exact ht

theorem execLdt_sound {s₀ : State} (u : StrandRef) (x : FormA) {s : State} (hs : Sound s₀ s) : SoundOut s₀ (execLdt u x s) := by
  unfold execLdt
  repeat' first
    | with_reducible apply SoundOut.next
    | with_reducible apply SoundLane.done
    | with_reducible exact SoundLane.wait_id
    | with_reducible exact SoundLane.fault
    | (with_reducible refine SoundLane.of_eq (by assumption) ?_)
    | (with_reducible refine SoundLane.fst_eq (by assumption) ?_)
    | intro _ _ _ _ _
    | with_reducible assumption
    | (fail_if_no_progress extract_lets +onlyGivenNames t; first | clear_value t)
    | with_reducible apply Sound.freeVal
    | with_reducible apply State.memOp_sound
    | with_reducible apply State.setLane_sound
    | with_reducible apply State.ldtLines_sound
    | split

theorem execPrf_sound {s₀ : State} (u : StrandRef) (x : FormA) {s : State} (hs : Sound s₀ s) : SoundOut s₀ (execPrf u x s) := by
  unfold execPrf
  repeat' first
    | with_reducible apply SoundOut.next
    | with_reducible apply SoundLane.done
    | with_reducible exact SoundLane.wait_id
    | intro _ _ _ _ _
    | with_reducible assumption
    | (fail_if_no_progress extract_lets +onlyGivenNames t; first | clear_value t)
    | with_reducible apply State.homeStep_sound
    | with_reducible apply State.memOp_sound
    | (with_reducible refine Sound.of_eq (by assumption) ?_)
    | split

theorem execAtom_sound {s₀ : State} (u : StrandRef) (x : FormA) {s : State} (hs : Sound s₀ s) : SoundOut s₀ (execAtom u x s) := by
  unfold execAtom
  repeat' first
    | with_reducible apply SoundOut.next
    | with_reducible apply SoundLane.done
    | with_reducible exact SoundLane.fault
    | intro _ _ _ _ _
    | with_reducible assumption
    | (extract_lets +onlyGivenNames t; guard_hyp t : State := _; refine Sound.cut (Q := Sound s₀ t) ?_ ?_; (on_goal 1 => (subst t)); (on_goal 2 => (clear_value t; intro _)))
    | (fail_if_no_progress extract_lets +onlyGivenNames t; first | guard_hyp t : Cellar := _ | clear_value t)
    | with_reducible apply Sound.freeVal
    | with_reducible apply State.atomFlag_sound
    | with_reducible apply State.modStrand_sound
    | with_reducible apply State.memOp_sound
    | with_reducible apply State.setLane_sound
    | split
    | with_reducible rfl
    | (with_reducible apply Sound.upd)

theorem execRed_sound {s₀ : State} (u : StrandRef) (x : FormA) {s : State} (hs : Sound s₀ s) : SoundOut s₀ (execRed u x s) := by
  unfold execRed
  repeat' first
    | with_reducible apply SoundOut.next
    | with_reducible apply SoundLane.done
    | with_reducible exact SoundLane.fault
    | with_reducible apply SoundLane.ended
    | intro _ _ _ _ _
    | with_reducible assumption
    | (extract_lets +onlyGivenNames t; guard_hyp t : State := _; refine Sound.cut (Q := Sound s₀ t) ?_ ?_; (on_goal 1 => (subst t)); (on_goal 2 => (clear_value t; intro _)))
    | (fail_if_no_progress extract_lets +onlyGivenNames t; first | clear_value t)
    | with_reducible apply State.sendContribution_sound
    | with_reducible apply State.modStrand_sound
    | with_reducible apply State.memOp_sound
    | (with_reducible refine Sound.of_eq (by assumption) ?_)
    | split

theorem execShfl_sound {s₀ : State} (u : StrandRef) (x : FormA) {s : State} (hs : Sound s₀ s) : SoundOut s₀ (execShfl u x s) := by
  unfold execShfl
  repeat' first
    | with_reducible apply SoundOut.next
    | with_reducible assumption
    | with_reducible apply State.regOp_sound

theorem execVote_sound {s₀ : State} (u : StrandRef) (x : FormA) {s : State} (hs : Sound s₀ s) : SoundOut s₀ (execVote u x s) := by
  unfold execVote
  repeat' first
    | with_reducible apply SoundOut.next
    | with_reducible assumption
    | (fail_if_no_progress extract_lets +onlyGivenNames t; first | clear_value t)
    | with_reducible apply State.modStrand_sound
    | with_reducible apply State.strandFault_sound
    | split

theorem execRand_sound {s₀ : State} (u : StrandRef) (x : FormA) {s : State} (hs : Sound s₀ s) : SoundOut s₀ (execRand u x s) := by
  unfold execRand
  repeat' first
    | with_reducible apply SoundOut.next
    | with_reducible assumption
    | with_reducible apply State.regOp_sound

end Sys2Proof.Machine
end

