-- ==== Sys2Proof/Laws/SoundSweep.lean ====
section
/-! SUPPORT. What every operation of Machine/Sweep.lean keeps (Sound). -/

namespace Sys2Proof.Machine

open Sys2Proof

theorem State.undoWrite_sound {s₀ : State} {s : State} (p : Where) (core off : Nat) (bs : List Byte) (hs : Sound s₀ s) : Sound s₀ (State.undoWrite s p core off bs) := by
  unfold State.undoWrite
  repeat' first
    | with_reducible assumption
    | with_reducible apply Sound.write

theorem State.setCommit_sound {s₀ : State} {s : State} (p : Where) (core j : Nat) (hs : Sound s₀ s) : Sound s₀ (State.setCommit s p core j) := by
  unfold State.setCommit
  repeat' first
    | with_reducible assumption
    | (fail_if_no_progress extract_lets +onlyGivenNames t; first | clear_value t)
    | with_reducible apply State.undoWrite_sound

theorem State.startMap_sound {s₀ : State} {s : State} (p : Where) (core tiles : Nat) (hs : Sound s₀ s) : Sound s₀ (State.startMap s p core tiles) := by
  unfold State.startMap
  repeat' first
    | with_reducible assumption
    | (extract_lets +onlyGivenNames t; guard_hyp t : State := _; refine Sound.cut (Q := Sound s₀ t) ?_ ?_; (on_goal 1 => (subst t)); (on_goal 2 => (clear_value t; intro _)))
    | (fail_if_no_progress extract_lets +onlyGivenNames t; first | clear_value t)
    | with_reducible apply State.undoWrite_sound

theorem State.putSwept_sound {s₀ : State} {s : State} (p : Where) (g : Grid) (pos i j x : Nat) (hs : Sound s₀ s) : Sound s₀ (State.putSwept s p g pos i j x) := by
  unfold State.putSwept
  repeat' first
    | with_reducible assumption
    | with_reducible apply State.writeTile_sound

theorem State.postTile_sound {s₀ : State} {s : State} (p : Where) (pos i j : Nat) (g : Grid) (hs : Sound s₀ s) : Sound s₀ (State.postTile s p pos i j g) := by
  unfold State.postTile
  repeat' first
    | with_reducible assumption
    | with_reducible apply State.cleanLine_sound
    | with_reducible apply Sound.foldl
    | intro _ _ _
    | split

theorem State.rollBack_sound {s₀ : State} {s : State} (p : Where) (pos i j gidx : Nat) (saved : List Byte) (hs : Sound s₀ s) : Sound s₀ (State.rollBack s p pos i j gidx saved) := by
  unfold State.rollBack
  repeat' first
    | with_reducible assumption
    | (extract_lets +onlyGivenNames t; guard_hyp t : State := _; refine Sound.cut (Q := Sound s₀ t) ?_ ?_; (on_goal 1 => (subst t)); (on_goal 2 => (clear_value t; intro _)))
    | (fail_if_no_progress extract_lets +onlyGivenNames t; first | clear_value t)
    | with_reducible apply State.putSwept_sound

theorem State.undoTile_sound {s₀ : State} {s : State} (p : Where) (core j : Nat) (old : Nat → List Word) (hs : Sound s₀ s) : Sound s₀ (State.undoTile s p core j old) := by
  unfold State.undoTile
  repeat' first
    | with_reducible assumption
    | (extract_lets +onlyGivenNames t; guard_hyp t : State := _; refine Sound.cut (Q := Sound s₀ t) ?_ ?_; (on_goal 1 => (subst t)); (on_goal 2 => (clear_value t; intro _)))
    | (fail_if_no_progress extract_lets +onlyGivenNames t; first | clear_value t)
    | with_reducible apply State.undoWrite_sound

theorem State.sweepTile_sound {s₀ : State} {s : State} (p : Where) (pos i j lj gidx w : Nat) (k : SweepCtx) (xs : List Nat) (hs : Sound s₀ s) : Sound s₀ (State.sweepTile s p pos i j lj gidx w k xs) := by
  unfold State.sweepTile
  repeat' first
    | with_reducible assumption
    | (extract_lets +onlyGivenNames t; guard_hyp t : State := _; refine Sound.cut (Q := Sound s₀ t) ?_ ?_; (on_goal 1 => (subst t)); (on_goal 2 => (clear_value t; intro _)))
    | (fail_if_no_progress extract_lets +onlyGivenNames t; first | clear_value t)
    | with_reducible apply Sound.modCx
    | with_reducible apply Sound.modRun
    | with_reducible apply State.countNan_sound
    | with_reducible apply State.setCommit_sound
    | with_reducible apply State.putSwept_sound
    | with_reducible apply State.postTile_sound
    | with_reducible apply State.undoTile_sound
    | with_reducible apply Sound.foldl
    | intro _ _ _

theorem State.openMap_sound {s₀ : State} {s : State} (p : Where) (core tiles : Nat) (recover : Bool) (hs : Sound s₀ s) : Sound s₀ (State.openMap s p core tiles recover) := by
  unfold State.openMap
  repeat' first
    | with_reducible assumption
    | (extract_lets +onlyGivenNames t; guard_hyp t : State := _; refine Sound.cut (Q := Sound s₀ t) ?_ ?_; (on_goal 1 => (subst t)); (on_goal 2 => (clear_value t; intro _)))
    | (fail_if_no_progress extract_lets +onlyGivenNames t; first | clear_value t)
    | with_reducible apply Sound.modRun
    | with_reducible apply State.startMap_sound
    | split

theorem sweepUnit_sound {s₀ : State}   (p : Where) (pos u : Nat) {s : State} (h : Sound s₀ s) : Sound s₀ (sweepUnit p pos u s).1 := by
  unfold sweepUnit
  repeat' first
    | with_reducible assumption
    | (extract_lets +onlyGivenNames t; guard_hyp t : State := _; refine Sound.cut (Q := Sound s₀ t) ?_ ?_; (on_goal 1 => (subst t)); (on_goal 2 => (clear_value t; intro _)))
    | (fail_if_no_progress extract_lets +onlyGivenNames t; first | clear_value t)
    | with_reducible apply Sound.modRun
    | with_reducible apply State.inputTiles_sound
    | with_reducible apply State.standAt_sound
    | with_reducible apply State.rollBack_sound
    | with_reducible apply State.sweepTile_sound
    | with_reducible apply State.openMap_sound
    | (with_reducible refine Sound.of_eq (by assumption) ?_)
    | split

theorem closePrep_sound {s₀ : State}   (p : Where) {s : State} (hs : Sound s₀ s) : Sound s₀ (closePrep p s) := by
  unfold closePrep
  repeat' first
    | with_reducible assumption
    | with_reducible apply State.closeAtCursor_sound
    | with_reducible apply Sound.foldl
    | split

theorem execSweepSegment_sound {s₀ : State} (cl : Nat) (d : BitVec 512) {s : State} (hs : Sound s₀ s) : SoundOut s₀ (execSweepSegment cl d s) := by
  unfold execSweepSegment
  repeat' first
    | with_reducible apply SoundOut.next
    | with_reducible assumption
    | with_reducible apply State.descriptor_sound
    | with_reducible apply sweepUnit_sound
    | with_reducible apply closePrep_sound

end Sys2Proof.Machine
end

