-- ==== Sys2Proof/Laws/SoundCollectives.lean ====
section
/-! SUPPORT. What every operation of Machine/Collectives.lean keeps (Sound). -/

namespace Sys2Proof.Machine

open Sys2Proof

theorem State.tell_sound {s₀ : State} {s : State} (c dst : Nat) (m : Msg) (hs : Sound s₀ s) : Sound s₀ (State.tell s c dst m) := by
  unfold State.tell
  repeat' first
    | with_reducible assumption
    | with_reducible apply Sound.emit

theorem State.tellRanks_sound {s₀ : State} {s : State} (c : Nat) (l : List Nat) (m : Msg) (hs : Sound s₀ s) : Sound s₀ (State.tellRanks s c l m) := by
  unfold State.tellRanks
  repeat' first
    | with_reducible assumption
    | with_reducible apply State.tell_sound
    | with_reducible apply Sound.foldl
    | intro _ _ _
    | split

theorem State.sendTrailer_sound {s₀ : State} {s : State} (c : Nat) (hs : Sound s₀ s) : Sound s₀ (State.sendTrailer s c) := by
  unfold State.sendTrailer
  repeat' first
    | with_reducible assumption
    | (extract_lets +onlyGivenNames t; guard_hyp t : State := _; refine Sound.cut (Q := Sound s₀ t) ?_ ?_; (on_goal 1 => (subst t)); (on_goal 2 => (clear_value t; intro _)))
    | (fail_if_no_progress extract_lets +onlyGivenNames t; first | clear_value t)
    | with_reducible apply Sound.modRun
    | with_reducible apply State.advanceAll_sound
    | with_reducible apply State.tellRanks_sound
    | split

theorem State.withdraw_sound {s₀ : State} {s : State} (c : Nat) (hs : Sound s₀ s) : Sound s₀ (State.withdraw s c) := by
  unfold State.withdraw
  repeat' first
    | with_reducible assumption
    | (extract_lets +onlyGivenNames t; guard_hyp t : State := _; refine Sound.cut (Q := Sound s₀ t) ?_ ?_; (on_goal 1 => (subst t)); (on_goal 2 => (clear_value t; intro _)))
    | with_reducible apply Sound.modRun
    | with_reducible apply State.sendTrailer_sound
    | split

theorem State.launchFlight_sound {s₀ : State} {s : State} (f : Flight) (hs : Sound s₀ s) : Sound s₀ (State.launchFlight s f) := by
  unfold State.launchFlight
  repeat' first
    | with_reducible assumption
    | with_reducible apply State.route_sound
    | with_reducible rfl
    | (with_reducible apply Sound.upd)

theorem State.sendParts_sound {s₀ : State} {s : State} (p : Where) (parts : List (List Packet)) (hs : Sound s₀ s) : Sound s₀ (State.sendParts s p parts) := by
  unfold State.sendParts
  repeat' first
    | with_reducible assumption
    | (extract_lets +onlyGivenNames t; guard_hyp t : State := _; refine Sound.cut (Q := Sound s₀ t) ?_ ?_; (on_goal 1 => (subst t)); (on_goal 2 => (clear_value t; intro _)))
    | (fail_if_no_progress extract_lets +onlyGivenNames t; first | guard_hyp t : Fabric := _ | clear_value t)
    | with_reducible apply State.launchFlight_sound
    | with_reducible apply Sound.foldl
    | with_reducible rfl
    | (with_reducible apply Sound.upd)

theorem State.nextPart_sound {s₀ : State} {s : State} (group : Nat) (hs : Sound s₀ s) : Sound s₀ (State.nextPart s group) := by
  unfold State.nextPart
  repeat' first
    | with_reducible assumption
    | (extract_lets +onlyGivenNames t; guard_hyp t : State := _; refine Sound.cut (Q := Sound s₀ t) ?_ ?_; (on_goal 1 => (subst t)); (on_goal 2 => (clear_value t; intro _)))
    | (fail_if_no_progress extract_lets +onlyGivenNames t; first | guard_hyp t : Fabric := _ | clear_value t)
    | with_reducible apply State.launchFlight_sound
    | with_reducible apply Sound.foldl
    | split
    | with_reducible rfl
    | (with_reducible apply Sound.upd)

theorem State.sendGradient_sound {s₀ : State} {s : State} (p : Where) (i j x : Nat) (hs : Sound s₀ s) : Sound s₀ (State.sendGradient s p i j x) := by
  unfold State.sendGradient
  repeat' first
    | with_reducible assumption
    | (fail_if_no_progress extract_lets +onlyGivenNames t; first | clear_value t)
    | with_reducible apply State.sendPress_sound
    | with_reducible apply State.sendParts_sound
    | with_reducible apply Sound.foldl
    | intro _ _ _
    | split

theorem reduceUnit_sound {s₀ : State}   (p : Where) (pos u : Nat) {s : State} (h : Sound s₀ s) : Sound s₀ (reduceUnit p pos u s).1 := by
  unfold reduceUnit
  repeat' first
    | with_reducible assumption
    | (fail_if_no_progress extract_lets +onlyGivenNames t; first | clear_value t)
    | with_reducible apply State.inputTile_sound
    | with_reducible apply State.sendGradient_sound
    | (with_reducible refine Sound.of_eq (by assumption) ?_)
    | split

theorem State.sendTile_sound {s₀ : State} {s : State} (p : Where) (m vc a f x : Nat) (hs : Sound s₀ s) : Sound s₀ (State.sendTile s p m vc a f x) := by
  unfold State.sendTile
  repeat' first
    | with_reducible assumption
    | (fail_if_no_progress extract_lets +onlyGivenNames t; first | clear_value t)
    | with_reducible apply State.sendParts_sound

theorem sendUnit_sound {s₀ : State}   (p : Where) (pos u : Nat) {s : State} (h : Sound s₀ s) : Sound s₀ (sendUnit p pos u s).1 := by
  unfold sendUnit
  repeat' first
    | with_reducible assumption
    | (fail_if_no_progress extract_lets +onlyGivenNames t; first | clear_value t)
    | with_reducible apply State.inputTile_sound
    | with_reducible apply State.sendTile_sound
    | (with_reducible refine Sound.of_eq (by assumption) ?_)
    | split

theorem State.askUnit_sound {s₀ : State} {s : State} (c : Nat) (f : Fetching) (hs : Sound s₀ s) : Sound s₀ (State.askUnit s c f) := by
  unfold State.askUnit
  repeat' first
    | with_reducible assumption
    | (fail_if_no_progress extract_lets +onlyGivenNames t; first | guard_hyp t : Fabric := _ | clear_value t)
    | with_reducible apply State.route_sound
    | with_reducible apply Sound.foldl
    | intro _ _ _
    | split
    | with_reducible rfl
    | (with_reducible apply Sound.upd)

theorem State.startFetch_sound {s₀ : State} {s : State} (c tensor rank src dst : Nat) (hs : Sound s₀ s) : Sound s₀ (State.startFetch s c tensor rank src dst) := by
  unfold State.startFetch
  repeat' first
    | with_reducible assumption
    | (fail_if_no_progress extract_lets +onlyGivenNames t; first | clear_value t)
    | with_reducible apply Sound.modCx
    | with_reducible apply State.askUnit_sound

theorem fetchUnit_sound {s₀ : State}   (p : Where) (pos u : Nat) {s : State} (h : Sound s₀ s) : Sound s₀ (fetchUnit p pos u s).1 := by
  unfold fetchUnit
  repeat' first
    | with_reducible assumption
    | (fail_if_no_progress extract_lets +onlyGivenNames t; first | clear_value t)
    | with_reducible apply State.startFetch_sound
    | split

theorem collectiveUnit_sound {s₀ : State}   (p : Where) (pos u : Nat) {s : State} (h : Sound s₀ s) : Sound s₀ (collectiveUnit p pos u s).1 := by
  unfold collectiveUnit
  repeat' first
    | with_reducible assumption
    | with_reducible apply reduceUnit_sound
    | with_reducible apply sendUnit_sound
    | with_reducible apply fetchUnit_sound
    | split

theorem reducePrep_sound {s₀ : State} (w : BitVec 512)  (p : Where) {s : State} (hs : Sound s₀ s) : Sound s₀ (reducePrep w p s) := by
  unfold reducePrep
  repeat' first
    | with_reducible assumption
    | (extract_lets +onlyGivenNames t; guard_hyp t : State := _; refine Sound.cut (Q := Sound s₀ t) ?_ ?_; (on_goal 1 => (subst t)); (on_goal 2 => (clear_value t; intro _)))
    | (fail_if_no_progress extract_lets +onlyGivenNames t; first | clear_value t)
    | with_reducible apply Sound.modRun
    | with_reducible apply closePrep_sound
    | with_reducible apply State.sendTrailer_sound
    | split

theorem execReduceScatterSend_sound {s₀ : State} (cl : Nat) (d : BitVec 512) {s : State} (hs : Sound s₀ s) : SoundOut s₀ (execReduceScatterSend cl d s) := by
  unfold execReduceScatterSend
  repeat' first
    | with_reducible apply SoundOut.next
    | with_reducible assumption
    | with_reducible apply State.descriptor_sound
    | with_reducible apply collectiveUnit_sound
    | with_reducible apply reducePrep_sound

theorem execPointToPointSend_sound {s₀ : State} (cl : Nat) (d : BitVec 512) {s : State} (hs : Sound s₀ s) : SoundOut s₀ (execPointToPointSend cl d s) := by
  unfold execPointToPointSend
  repeat' first
    | with_reducible apply SoundOut.next
    | with_reducible assumption
    | with_reducible apply State.descriptor_sound
    | with_reducible apply closePrep_sound
    | with_reducible apply collectiveUnit_sound

theorem execShardFetch_sound {s₀ : State} (cl : Nat) (d : BitVec 512) {s : State} (hs : Sound s₀ s) : SoundOut s₀ (execShardFetch cl d s) := by
  unfold execShardFetch
  repeat' first
    | with_reducible apply SoundOut.next
    | with_reducible assumption
    | with_reducible apply State.descriptor_sound
    | with_reducible apply noPrep_sound
    | with_reducible apply collectiveUnit_sound

theorem execBuddyMirror_sound {s₀ : State} (cl : Nat) (d : BitVec 512) {s : State} (hs : Sound s₀ s) : SoundOut s₀ (execBuddyMirror cl d s) := by
  unfold execBuddyMirror
  repeat' first
    | with_reducible apply SoundOut.next
    | with_reducible assumption
    | with_reducible apply State.descriptor_sound
    | with_reducible apply closePrep_sound
    | with_reducible apply collectiveUnit_sound

theorem execCheckpointExport_sound {s₀ : State} (cl : Nat) (d : BitVec 512) {s : State} (hs : Sound s₀ s) : SoundOut s₀ (execCheckpointExport cl d s) := by
  unfold execCheckpointExport
  repeat' first
    | with_reducible apply SoundOut.next
    | with_reducible assumption
    | with_reducible apply State.descriptor_sound
    | with_reducible apply closePrep_sound
    | with_reducible apply collectiveUnit_sound

end Sys2Proof.Machine
end

