-- ==== Sys2Proof/Laws/SoundResume.lean ====
section
/-! SUPPORT. What every operation of Machine/Resume.lean keeps (Sound). -/

namespace Sys2Proof.Machine

open Sys2Proof

theorem unitFor_sound {s₀ : State} (d : Desc) (p : Where) (pos u : Nat) {s : State} (hs : Sound s₀ s) : Sound s₀ (unitFor d p pos u s).1 := by
  suffices H : ∀ f, f = unitFor d → Sound s₀ (f p pos u s).1 from H _ rfl
  intro f hf
  unfold unitFor at hf
  split at hf <;> subst hf
  · exact elementwiseUnit_sound p pos u hs
  · exact reductionUnit_sound p pos u hs
  · exact gatherUnit_sound p pos u hs
  · exact scatterUnit_sound p pos u hs
  · exact rowUnit_sound p pos u hs
  · exact rowUnit_sound p pos u hs
  · exact rowUnit_sound p pos u hs
  · exact rowUnit_sound p pos u hs
  · exact collectiveUnit_sound p pos u hs
  · exact sweepUnit_sound p pos u hs
  · exact noUnit_sound p pos u hs
  · exact productUnit_sound p pos u hs

theorem State.runShare_sound {s₀ : State} {s : State} (cl : Nat) (r : DescRun) (pos : Nat) (hs : Sound s₀ s) : Sound s₀ (State.runShare s cl r pos) := by
  unfold State.runShare
  repeat' first
    | with_reducible assumption
    | (fail_if_no_progress extract_lets +onlyGivenNames t; first | clear_value t)
    | with_reducible apply State.runUnits_sound
    | with_reducible apply State.runDesc_sound
    | with_reducible apply unitFor_sound
    | split

theorem State.retry_sound {s₀ : State} {s : State} (cl : Nat) (w : BitVec 512) (core : Nat) (hs : Sound s₀ s) : Sound s₀ (State.retry s cl w core) := by
  unfold State.retry
  repeat' first
    | with_reducible assumption
    | (extract_lets +onlyGivenNames t; guard_hyp t : State := _; refine Sound.cut (Q := Sound s₀ t) ?_ ?_; (on_goal 1 => (subst t)); (on_goal 2 => (clear_value t; intro _)))
    | (fail_if_no_progress extract_lets +onlyGivenNames t; first | clear_value t)
    | with_reducible apply State.modRunOn_sound
    | with_reducible apply State.runShare_sound
    | split

theorem State.retryAll_sound {s₀ : State} {s : State} (c : Nat) (p : HaltWhy → Bool) (hs : Sound s₀ s) : Sound s₀ (State.retryAll s c p) := by
  unfold State.retryAll
  repeat' first
    | with_reducible assumption
    | (fail_if_no_progress extract_lets +onlyGivenNames t; first | clear_value t)
    | with_reducible apply State.retry_sound
    | with_reducible apply Sound.foldl
    | intro _ _ _

theorem State.tryHalt_sound {s₀ : State} {s : State} (cl : Nat) (r : DescRun) (h : Halt) (hs : Sound s₀ s) : Sound s₀ (State.tryHalt s cl r h).1 := by
  unfold State.tryHalt
  repeat' first
    | with_reducible assumption
    | (extract_lets +onlyGivenNames t; guard_hyp t : State := _; refine Sound.cut (Q := Sound s₀ t) ?_ ?_; (on_goal 1 => (subst t)); (on_goal 2 => (clear_value t; intro _)))
    | (fail_if_no_progress extract_lets +onlyGivenNames t; first | clear_value t)
    | with_reducible apply State.countHalt_sound
    | with_reducible apply State.modRunOn_sound
    | with_reducible apply State.retry_sound
    | split

theorem execWellHaltEnd_sound {s₀ : State} (core : Nat) (pipe : Pipe) (t : Nat) {s : State} (hs : Sound s₀ s) : SoundOut s₀ (execWellHaltEnd core pipe t s) := by
  unfold execWellHaltEnd
  repeat' first
    | with_reducible apply SoundOut.next
    | with_reducible assumption
    | with_reducible apply Sound.tick
    | with_reducible apply State.bringTile_sound
    | with_reducible apply State.tryHalt_sound
    | split

theorem execWellHaltTimeout_sound {s₀ : State} (core : Nat) (pipe : Pipe) (t : Nat) {s : State} (hs : Sound s₀ s) : SoundOut s₀ (execWellHaltTimeout core pipe t s) := by
  unfold execWellHaltTimeout
  repeat' first
    | with_reducible apply SoundOut.next
    | with_reducible assumption
    | with_reducible apply Sound.tick
    | with_reducible apply State.faultTraining_sound
    | with_reducible apply State.failLeg_sound
    | with_reducible apply State.tryHalt_sound
    | (with_reducible refine Sound.of_eq (by assumption) ?_)
    | split

theorem execPressWaitTimeout_sound {s₀ : State} (ctx : Nat) (leg : Nat) (line : LineId) (t : Nat) {s : State} (hs : Sound s₀ s) : SoundOut s₀ (execPressWaitTimeout ctx leg line t s) := by
  unfold execPressWaitTimeout
  repeat' first
    | with_reducible apply SoundOut.next
    | with_reducible assumption
    | (extract_lets +onlyGivenNames t; guard_hyp t : State := _; refine Sound.cut (Q := Sound s₀ t) ?_ ?_; (on_goal 1 => (subst t)); (on_goal 2 => (clear_value t; intro _)))
    | with_reducible apply Sound.modCnt
    | with_reducible apply Sound.modCol
    | with_reducible apply Sound.tick
    | with_reducible apply State.faultTraining_sound
    | with_reducible apply State.failLeg_sound
    | split

theorem State.noticeSegment_sound {s₀ : State} {s : State} (c : Nat) (g : Segment) (hs : Sound s₀ s) : Sound s₀ (State.noticeSegment s c g) := by
  unfold State.noticeSegment
  repeat' first
    | with_reducible assumption
    | (extract_lets +onlyGivenNames t; guard_hyp t : State := _; refine Sound.cut (Q := Sound s₀ t) ?_ ?_; (on_goal 1 => (subst t)); (on_goal 2 => (clear_value t; intro _)))
    | with_reducible apply Sound.modRun
    | with_reducible apply State.tell_sound
    | split

theorem State.settleSegments_sound {s₀ : State} {s : State} (c : Nat) (hs : Sound s₀ s) : Sound s₀ (State.settleSegments s c) := by
  unfold State.settleSegments
  repeat' first
    | with_reducible assumption
    | (fail_if_no_progress extract_lets +onlyGivenNames t; first | clear_value t)
    | with_reducible apply State.noticeSegment_sound
    | with_reducible apply Sound.foldl
    | intro _ _ _
    | split

theorem execDescriptorComplete_sound {s₀ : State} (cl : Nat) (pipe : Pipe) {s : State} (hs : Sound s₀ s) : SoundOut s₀ (execDescriptorComplete cl pipe s) := by
  unfold execDescriptorComplete
  repeat' first
    | with_reducible apply SoundOut.next
    | with_reducible assumption
    | (extract_lets +onlyGivenNames t; guard_hyp t : State := _; refine Sound.cut (Q := Sound s₀ t) ?_ ?_; (on_goal 1 => (subst t)); (on_goal 2 => (clear_value t; intro _)))
    | (fail_if_no_progress extract_lets +onlyGivenNames t; first | clear_value t)
    | with_reducible apply Sound.modClu
    | with_reducible apply Sound.modRun
    | with_reducible apply State.faultTraining_sound
    | with_reducible apply State.modLeg_sound
    | with_reducible apply State.settleSegments_sound
    | split

theorem execPacketAcknowledgement_sound {s₀ : State} (tags : List Nat) (refused : List Nat) {s : State} (hs : Sound s₀ s) : SoundOut s₀ (execPacketAcknowledgement tags refused s) := by
  unfold execPacketAcknowledgement
  repeat' first
    | with_reducible apply SoundOut.next
    | with_reducible assumption
    | (extract_lets +onlyGivenNames t; guard_hyp t : State := _; refine Sound.cut (Q := Sound s₀ t) ?_ ?_; (on_goal 1 => (subst t)); (on_goal 2 => (clear_value t; intro _)))
    | (fail_if_no_progress extract_lets +onlyGivenNames t; first | guard_hyp t : Fabric := _ | clear_value t)
    | with_reducible apply Sound.modCnt
    | with_reducible apply State.launchFlight_sound
    | with_reducible apply State.nextPart_sound
    | with_reducible apply State.settleSegments_sound
    | with_reducible apply Sound.foldl
    | intro _ _ _
    | split
    | with_reducible rfl
    | (with_reducible apply Sound.upd)

theorem execLinkTimeout_sound {s₀ : State} (tag : Nat) (t : Nat) {s : State} (hs : Sound s₀ s) : SoundOut s₀ (execLinkTimeout tag t s) := by
  unfold execLinkTimeout
  repeat' first
    | with_reducible apply SoundOut.next
    | with_reducible assumption
    | (extract_lets +onlyGivenNames t; guard_hyp t : State := _; refine Sound.cut (Q := Sound s₀ t) ?_ ?_; (on_goal 1 => (subst t)); (on_goal 2 => (clear_value t; intro _)))
    | (fail_if_no_progress extract_lets +onlyGivenNames t; first | guard_hyp t : Fabric := _ | clear_value t)
    | with_reducible apply Sound.tick
    | with_reducible apply State.failLeg_sound
    | with_reducible apply State.withdraw_sound
    | split
    | with_reducible rfl
    | (with_reducible apply Sound.upd)

end Sys2Proof.Machine
end

