-- ==== Sys2Proof/Laws/SoundShards.lean ====
section
/-! SUPPORT. What every operation of Machine/Shards.lean keeps (Sound). -/

namespace Sys2Proof.Machine

open Sys2Proof

theorem State.readAll_sound {s₀ : State} {s : State} (c a n : Nat) (hs : Sound s₀ s) : Sound s₀ (State.readAll s c a n).1 := by
  unfold State.readAll
  repeat' first
    | with_reducible assumption
    | with_reducible apply State.dmaRead_sound
    | (with_reducible refine Sound.of_eq (by assumption) ?_)
    | split

theorem State.published_sound {s₀ : State} {s : State} (c : Nat) (t : Tensor) (hs : Sound s₀ s) : Sound s₀ (State.published s c t).1 := by
  unfold State.published
  repeat' first
    | with_reducible assumption
    | (fail_if_no_progress extract_lets +onlyGivenNames t; first | clear_value t)
    | with_reducible apply State.readAll_sound
    | (with_reducible refine Sound.of_eq (by assumption) ?_)
    | split

theorem State.publish_sound {s₀ : State} {s : State} (c : Nat) (t : Tensor) (step : Nat) (hs : Sound s₀ s) : Sound s₀ (State.publish s c t step) := by
  unfold State.publish
  repeat' first
    | with_reducible assumption
    | (extract_lets +onlyGivenNames t; guard_hyp t : State := _; refine Sound.cut (Q := Sound s₀ t) ?_ ?_; (on_goal 1 => (subst t)); (on_goal 2 => (clear_value t; intro _)))
    | (fail_if_no_progress extract_lets +onlyGivenNames t; first | clear_value t)
    | with_reducible apply Sound.modCx
    | with_reducible apply State.dmaWrite_sound
    | with_reducible apply State.readAll_sound
    | (with_reducible refine Sound.of_eq (by assumption) ?_)
    | split

theorem execSealPublish_sound {s₀ : State} (ctx : Nat) (tensor : Nat) {s : State} (hs : Sound s₀ s) : SoundOut s₀ (execSealPublish ctx tensor s) := by
  unfold execSealPublish
  repeat' first
    | with_reducible apply SoundOut.next
    | with_reducible assumption
    | with_reducible apply State.publish_sound
    | split

theorem State.fetchNext_sound {s₀ : State} {s : State} (c : Nat) (f : Fetching) (count : Nat) (hs : Sound s₀ s) : Sound s₀ (State.fetchNext s c f count) := by
  unfold State.fetchNext
  repeat' first
    | with_reducible assumption
    | (fail_if_no_progress extract_lets +onlyGivenNames t; first | clear_value t)
    | with_reducible apply Sound.modCx
    | with_reducible apply State.askUnit_sound
    | with_reducible apply State.retryAll_sound
    | split

theorem State.markTile_sound {s₀ : State} {s : State} (c a : Nat) (hs : Sound s₀ s) : Sound s₀ (State.markTile s c a) := by
  unfold State.markTile
  repeat' first
    | with_reducible assumption
    | with_reducible apply State.dmaWrite_sound
    | with_reducible apply State.readAll_sound
    | (with_reducible refine Sound.of_eq (by assumption) ?_)
    | split

theorem State.sealMismatch_sound {s₀ : State} {s : State} (c : Nat) (f : Fetching) (t : Tensor) (hs : Sound s₀ s) : Sound s₀ (State.sealMismatch s c f t) := by
  unfold State.sealMismatch
  repeat' first
    | with_reducible assumption
    | (extract_lets +onlyGivenNames t; guard_hyp t : State := _; refine Sound.cut (Q := Sound s₀ t) ?_ ?_; (on_goal 1 => (subst t)); (on_goal 2 => (clear_value t; intro _)))
    | (fail_if_no_progress extract_lets +onlyGivenNames t; first | clear_value t)
    | with_reducible apply Sound.modCx
    | with_reducible apply Sound.modRun
    | with_reducible apply State.event_sound
    | with_reducible apply State.faultTraining_sound
    | with_reducible apply State.freeze_sound
    | with_reducible apply State.markSuspect_sound
    | with_reducible apply State.tell_sound
    | with_reducible apply State.askUnit_sound
    | with_reducible apply State.markTile_sound
    | with_reducible apply Sound.foldl
    | intro _ _ _
    | split

theorem State.takeUnit_sound {s₀ : State} {s : State} (c : Nat) (f : Fetching) (t : Tensor) (bytes : List Byte) (sealv : DWord) (hs : Sound s₀ s) : Sound s₀ (State.takeUnit s c f t bytes sealv) := by
  unfold State.takeUnit
  repeat' first
    | with_reducible assumption
    | (extract_lets +onlyGivenNames t; guard_hyp t : State := _; refine Sound.cut (Q := Sound s₀ t) ?_ ?_; (on_goal 1 => (subst t)); (on_goal 2 => (clear_value t; intro _)))
    | (fail_if_no_progress extract_lets +onlyGivenNames t; first | clear_value t)
    | with_reducible apply Sound.modCx
    | with_reducible apply Sound.modRun
    | with_reducible apply State.dmaWrite_sound
    | with_reducible apply State.fetchNext_sound
    | with_reducible apply State.sealMismatch_sound
    | split

theorem execVerifyReply_sound {s₀ : State} (ctx : Nat) {s : State} (hs : Sound s₀ s) : SoundOut s₀ (execVerifyReply ctx s) := by
  unfold execVerifyReply
  repeat' first
    | with_reducible apply SoundOut.next
    | with_reducible assumption
    | (fail_if_no_progress extract_lets +onlyGivenNames t; first | clear_value t)
    | with_reducible apply Sound.modCx
    | with_reducible apply State.askUnit_sound
    | split

theorem State.regenShard_sound {s₀ : State} {s : State} (c : Nat) (t : Tensor) (step : Nat) (hs : Sound s₀ s) : Sound s₀ (State.regenShard s c t step) := by
  unfold State.regenShard
  repeat' first
    | with_reducible assumption
    | (fail_if_no_progress extract_lets +onlyGivenNames t; first | clear_value t)
    | with_reducible apply State.dmaWrite_sound
    | with_reducible apply State.readAll_sound
    | with_reducible apply Sound.foldl
    | (with_reducible refine Sound.of_eq (by assumption) ?_)
    | intro _ _ _
    | split

theorem State.repairTile_sound {s₀ : State} {s : State} (c : Nat) (t : Tensor) (l : LastSweep) (h : ShardCopy) (first k : Nat) (hs : Sound s₀ s) : Sound s₀ (State.repairTile s c t l h first k) := by
  unfold State.repairTile
  repeat' first
    | with_reducible assumption
    | with_reducible apply hf
    | (extract_lets +onlyGivenNames t; guard_hyp t : State := _; refine Sound.cut (Q := Sound s₀ t) ?_ ?_; (on_goal 1 => (subst t)); (on_goal 2 => (clear_value t; intro _)))
    | (extract_lets +onlyGivenNames t; guard_hyp t : State → _ → _ → State := _; refine Sound.cut (Q := ∀ x y0 y1, Sound s₀ x → Sound s₀ (t x y0 y1)) ?_ ?_; (on_goal 1 => (intro x y0 y1 hx; subst t)); (on_goal 2 => (clear_value t; intro hf)))
    | (fail_if_no_progress extract_lets +onlyGivenNames t; first | clear_value t)
    | with_reducible apply State.dmaWrite_sound
    | with_reducible apply State.setCommit_sound
    | with_reducible apply State.undoTile_sound
    | with_reducible apply State.readAll_sound
    | (with_reducible refine Sound.of_eq (by assumption) ?_)
    | split

theorem State.repaired_sound {s₀ : State} {s : State} (c src : Nat) (t : Tensor) (step unit : Nat) (hs : Sound s₀ s) : Sound s₀ (State.repaired s c src t step unit) := by
  unfold State.repaired
  repeat' first
    | with_reducible assumption
    | (extract_lets +onlyGivenNames t; guard_hyp t : State := _; refine Sound.cut (Q := Sound s₀ t) ?_ ?_; (on_goal 1 => (subst t)); (on_goal 2 => (clear_value t; intro _)))
    | with_reducible apply Sound.modCx
    | with_reducible apply Sound.modRun
    | with_reducible apply State.tell_sound
    | with_reducible apply State.publish_sound

theorem State.shardLost_sound {s₀ : State} {s : State} (c : Nat) (hs : Sound s₀ s) : Sound s₀ (State.shardLost s c) := by
  unfold State.shardLost
  repeat' first
    | with_reducible assumption
    | (extract_lets +onlyGivenNames t; guard_hyp t : State := _; refine Sound.cut (Q := Sound s₀ t) ?_ ?_; (on_goal 1 => (subst t)); (on_goal 2 => (clear_value t; intro _)))
    | with_reducible apply Sound.modCx
    | with_reducible apply State.event_sound
    | with_reducible apply State.faultTraining_sound
    | with_reducible apply State.freeze_sound

theorem execVerifyRequest_sound {s₀ : State} (ctx : Nat) (tensor : Nat) (unit : Nat) (src : Nat) (buddy : Option Buffer) {s : State} (hs : Sound s₀ s) : SoundOut s₀ (execVerifyRequest ctx tensor unit src buddy s) := by
  unfold execVerifyRequest
  repeat' first
    | with_reducible apply SoundOut.next
    | with_reducible assumption
    | (extract_lets +onlyGivenNames t; guard_hyp t : State := _; refine Sound.cut (Q := Sound s₀ t) ?_ ?_; (on_goal 1 => (subst t)); (on_goal 2 => (clear_value t; intro _)))
    | (fail_if_no_progress extract_lets +onlyGivenNames t; first | clear_value t)
    | with_reducible apply State.startMap_sound
    | with_reducible apply State.tell_sound
    | with_reducible apply State.readAll_sound
    | with_reducible apply State.published_sound
    | with_reducible apply State.regenShard_sound
    | with_reducible apply State.repairTile_sound
    | with_reducible apply State.repaired_sound
    | with_reducible apply State.shardLost_sound
    | with_reducible apply Sound.foldl
    | (with_reducible refine Sound.of_eq (by assumption) ?_)
    | intro _ _ _
    | split

theorem State.mirrorUnit_sound {s₀ : State} {s : State} (c m step : Nat) (t : Tensor) (array u : Nat) (hs : Sound s₀ s) : Sound s₀ (State.mirrorUnit s c m step t array u) := by
  unfold State.mirrorUnit
  repeat' first
    | with_reducible assumption
    | (fail_if_no_progress extract_lets +onlyGivenNames t; first | clear_value t)
    | with_reducible apply State.tell_sound
    | with_reducible apply State.readAll_sound
    | (with_reducible refine Sound.of_eq (by assumption) ?_)
    | split

theorem State.sendMirror_sound {s₀ : State} {s : State} (c step : Nat) (block : CtxBlock) (hs : Sound s₀ s) : Sound s₀ (State.sendMirror s c step block) := by
  unfold State.sendMirror
  repeat' first
    | with_reducible assumption
    | (extract_lets +onlyGivenNames t; guard_hyp t : State := _; refine Sound.cut (Q := Sound s₀ t) ?_ ?_; (on_goal 1 => (subst t)); (on_goal 2 => (clear_value t; intro _)))
    | (fail_if_no_progress extract_lets +onlyGivenNames t; first | clear_value t)
    | with_reducible apply Sound.modCx
    | with_reducible apply State.tell_sound
    | with_reducible apply State.mirrorUnit_sound
    | with_reducible apply Sound.foldl
    | intro _ _ _
    | split

theorem State.modBuffer_sound {s₀ : State} {s : State} (c owner step : Nat) (f : Buffer → Buffer) (hs : Sound s₀ s) : Sound s₀ (State.modBuffer s c owner step f) := by
  unfold State.modBuffer
  repeat' first
    | with_reducible assumption
    | with_reducible apply Sound.modCx

theorem State.settleBuffer_sound {s₀ : State} {s : State} (c owner step : Nat) (hs : Sound s₀ s) : Sound s₀ (State.settleBuffer s c owner step) := by
  unfold State.settleBuffer
  repeat' first
    | with_reducible assumption
    | (extract_lets +onlyGivenNames t; guard_hyp t : State := _; refine Sound.cut (Q := Sound s₀ t) ?_ ?_; (on_goal 1 => (subst t)); (on_goal 2 => (clear_value t; intro _)))
    | with_reducible apply State.tell_sound
    | with_reducible apply State.modBuffer_sound
    | split

theorem execMirrorUnitArrival_sound {s₀ : State} (ctx : Nat) (m : MirrorMsg) {s : State} (hs : Sound s₀ s) : SoundOut s₀ (execMirrorUnitArrival ctx m s) := by
  unfold execMirrorUnitArrival
  repeat' first
    | with_reducible apply SoundOut.next
    | with_reducible assumption
    | (extract_lets +onlyGivenNames t; guard_hyp t : State := _; refine Sound.cut (Q := Sound s₀ t) ?_ ?_; (on_goal 1 => (subst t)); (on_goal 2 => (clear_value t; intro _)))
    | (fail_if_no_progress extract_lets +onlyGivenNames t; first | clear_value t)
    | with_reducible apply Sound.modCx
    | with_reducible apply State.tell_sound
    | with_reducible apply State.modBuffer_sound
    | with_reducible apply State.settleBuffer_sound
    | split

theorem execMirrorAcknowledgement_sound {s₀ : State} (ctx : Nat) (step : Nat) {s : State} (hs : Sound s₀ s) : SoundOut s₀ (execMirrorAcknowledgement ctx step s) := by
  unfold execMirrorAcknowledgement
  repeat' first
    | with_reducible apply SoundOut.next
    | with_reducible assumption
    | with_reducible apply Sound.modCx
    | with_reducible apply State.retryAll_sound
    | split

theorem execMirrorUnitRerequest_sound {s₀ : State} (ctx : Nat) (tensor : Word) (array : Nat) (unit : Nat) {s : State} (hs : Sound s₀ s) : SoundOut s₀ (execMirrorUnitRerequest ctx tensor array unit s) := by
  unfold execMirrorUnitRerequest
  repeat' first
    | with_reducible apply SoundOut.next
    | with_reducible assumption
    | with_reducible apply State.mirrorUnit_sound
    | split

end Sys2Proof.Machine
end

