-- ==== Sys2Proof/Laws/SoundGroup.lean ====
section
/-! SUPPORT. What every operation of Machine/Group.lean keeps (Sound). -/

namespace Sys2Proof.Machine

open Sys2Proof

theorem State.clearTile_sound {s₀ : State} {s : State} (c core loc a tensor index : Nat) (hs : Sound s₀ s) : Sound s₀ (State.clearTile s c core loc a tensor index) := by
  unfold State.clearTile
  repeat' first
    | with_reducible assumption
    | with_reducible apply State.putLines_sound

theorem State.clearReduced_sound {s₀ : State} {s : State} (c : Nat) (hs : Sound s₀ s) : Sound s₀ (State.clearReduced s c) := by
  unfold State.clearReduced
  repeat' first
    | with_reducible assumption
    | with_reducible apply State.clearTile_sound
    | with_reducible apply Sound.foldl
    | intro _ _ _

theorem State.modSegments_sound {s₀ : State} {s : State} (c : Nat) (f : Segment → Segment) (hs : Sound s₀ s) : Sound s₀ (State.modSegments s c f) := by
  unfold State.modSegments
  repeat' first
    | with_reducible assumption
    | with_reducible apply Sound.modRun

theorem State.sendAll_sound {s₀ : State} {s : State} (p : Where) (hs : Sound s₀ s) : Sound s₀ (State.sendAll s p) := by
  unfold State.sendAll
  repeat' first
    | with_reducible assumption
    | with_reducible apply reduceUnit_sound
    | with_reducible apply Sound.foldl
    | intro _ _ _

theorem State.dropLater_sound {s₀ : State} {s : State} (c : Nat) (g : Segment) (hs : Sound s₀ s) : Sound s₀ (State.dropLater s c g) := by
  unfold State.dropLater
  repeat' first
    | with_reducible assumption
    | with_reducible rfl
    | (with_reducible apply Sound.upd)

theorem State.resumeSegment_sound {s₀ : State} {s : State} (c : Nat) (g : Segment) (hs : Sound s₀ s) : Sound s₀ (State.resumeSegment s c g) := by
  unfold State.resumeSegment
  repeat' first
    | with_reducible assumption
    | (extract_lets +onlyGivenNames t; guard_hyp t : State := _; refine Sound.cut (Q := Sound s₀ t) ?_ ?_; (on_goal 1 => (subst t)); (on_goal 2 => (clear_value t; intro _)))
    | (fail_if_no_progress extract_lets +onlyGivenNames t; first | guard_hyp t : Fabric := _ | clear_value t)
    | with_reducible apply State.nextPart_sound
    | with_reducible apply State.modSegments_sound
    | with_reducible apply Sound.foldl
    | with_reducible rfl
    | (with_reducible apply Sound.upd)

theorem State.rerunSegment_sound {s₀ : State} {s : State} (c : Nat) (g : Segment) (hs : Sound s₀ s) : Sound s₀ (State.rerunSegment s c g) := by
  unfold State.rerunSegment
  repeat' first
    | with_reducible assumption
    | (extract_lets +onlyGivenNames t; guard_hyp t : State := _; refine Sound.cut (Q := Sound s₀ t) ?_ ?_; (on_goal 1 => (subst t)); (on_goal 2 => (clear_value t; intro _)))
    | (fail_if_no_progress extract_lets +onlyGivenNames t; first | clear_value t)
    | with_reducible apply State.modRunOn_sound
    | with_reducible apply State.runCores_sound
    | with_reducible apply collectiveUnit_sound
    | with_reducible apply State.modSegments_sound
    | with_reducible apply State.sendAll_sound
    | with_reducible apply State.dropLater_sound
    | split

theorem State.takeNotice_sound {s₀ : State} {s : State} (c owner : Nat) (resend : Bool) (hs : Sound s₀ s) : Sound s₀ (State.takeNotice s c owner resend) := by
  unfold State.takeNotice
  repeat' first
    | with_reducible assumption
    | (extract_lets +onlyGivenNames t; guard_hyp t : State := _; refine Sound.cut (Q := Sound s₀ t) ?_ ?_; (on_goal 1 => (subst t)); (on_goal 2 => (clear_value t; intro _)))
    | (fail_if_no_progress extract_lets +onlyGivenNames t; first | clear_value t)
    | with_reducible apply State.retryAll_sound
    | with_reducible apply State.settleSegments_sound
    | with_reducible apply State.resumeSegment_sound
    | with_reducible apply State.rerunSegment_sound
    | with_reducible apply Sound.foldl
    | intro _ _ _
    | split

theorem State.notice_sound {s₀ : State} {s : State} (c owner gen : Nat) (resend : Bool) (hs : Sound s₀ s) : Sound s₀ (State.notice s c owner gen resend) := by
  unfold State.notice
  repeat' first
    | with_reducible assumption
    | with_reducible apply Sound.modCx
    | with_reducible apply State.takeNotice_sound
    | split

theorem State.discardRanks_sound {s₀ : State} {s : State} (c : Nat) (l : List Nat) (hs : Sound s₀ s) : Sound s₀ (State.discardRanks s c l) := by
  unfold State.discardRanks
  repeat' first
    | with_reducible assumption
    | (fail_if_no_progress extract_lets +onlyGivenNames t; first | clear_value t)
    | with_reducible apply Sound.modCol
    | with_reducible apply Sound.foldl
    | intro _ _ _

theorem State.restartReduced_sound {s₀ : State} {s : State} (c gen : Nat) (hs : Sound s₀ s) : Sound s₀ (State.restartReduced s c gen) := by
  unfold State.restartReduced
  repeat' first
    | with_reducible assumption
    | (extract_lets +onlyGivenNames t; guard_hyp t : State := _; refine Sound.cut (Q := Sound s₀ t) ?_ ?_; (on_goal 1 => (subst t)); (on_goal 2 => (clear_value t; intro _)))
    | with_reducible apply Sound.modCx
    | with_reducible apply Sound.modRun
    | with_reducible apply State.putHome_sound
    | with_reducible apply State.clearReduced_sound
    | with_reducible apply State.discardRanks_sound
    | with_reducible apply Sound.foldl
    | intro _ _ _
    | split
    | with_reducible rfl
    | (with_reducible apply Sound.upd)

theorem State.ownerTurn_sound {s₀ : State} {s : State} (c gen : Nat) (excluded : List Nat) (hs : Sound s₀ s) : Sound s₀ (State.ownerTurn s c gen excluded) := by
  unfold State.ownerTurn
  repeat' first
    | with_reducible assumption
    | (extract_lets +onlyGivenNames t; guard_hyp t : State := _; refine Sound.cut (Q := Sound s₀ t) ?_ ?_; (on_goal 1 => (subst t)); (on_goal 2 => (clear_value t; intro _)))
    | (fail_if_no_progress extract_lets +onlyGivenNames t; first | clear_value t)
    | with_reducible apply State.tellRanks_sound
    | with_reducible apply State.takeNotice_sound
    | with_reducible apply State.discardRanks_sound
    | with_reducible apply State.restartReduced_sound
    | split

theorem State.seatSpare_sound {s₀ : State} {s : State} (c rank m : Nat) (hs : Sound s₀ s) : Sound s₀ (State.seatSpare s c rank m) := by
  unfold State.seatSpare
  repeat' first
    | with_reducible assumption
    | with_reducible apply Sound.modCx

theorem State.moduleBack_sound {s₀ : State} {s : State} (m : Nat) (hs : Sound s₀ s) : Sound s₀ (State.moduleBack s m) := by
  unfold State.moduleBack
  repeat' first
    | with_reducible assumption
    | with_reducible rfl
    | (with_reducible apply Sound.upd)

theorem State.welcome_sound {s₀ : State} {s : State} (c rank : Nat) (hs : Sound s₀ s) : Sound s₀ (State.welcome s c rank) := by
  unfold State.welcome
  repeat' first
    | with_reducible assumption
    | (extract_lets +onlyGivenNames t; guard_hyp t : State := _; refine Sound.cut (Q := Sound s₀ t) ?_ ?_; (on_goal 1 => (subst t)); (on_goal 2 => (clear_value t; intro _)))
    | with_reducible apply State.askUnit_sound
    | with_reducible apply State.sendMirror_sound
    | with_reducible apply State.rerunSegment_sound
    | with_reducible apply Sound.foldl
    | intro _ _ _
    | split

theorem State.acceptMask_sound {s₀ : State} {s : State} (c : Nat) (m : MaskMsg) (hs : Sound s₀ s) : Sound s₀ (State.acceptMask s c m) := by
  unfold State.acceptMask
  repeat' first
    | with_reducible assumption
    | (extract_lets +onlyGivenNames t; guard_hyp t : State := _; refine Sound.cut (Q := Sound s₀ t) ?_ ?_; (on_goal 1 => (subst t)); (on_goal 2 => (clear_value t; intro _)))
    | (fail_if_no_progress extract_lets +onlyGivenNames t; first | clear_value t)
    | with_reducible apply Sound.modCx
    | with_reducible apply State.advanceAll_sound
    | with_reducible apply State.retryAll_sound
    | with_reducible apply State.modSegments_sound
    | with_reducible apply State.takeNotice_sound
    | with_reducible apply State.ownerTurn_sound
    | with_reducible apply State.seatSpare_sound
    | with_reducible apply State.moduleBack_sound
    | with_reducible apply State.welcome_sound
    | with_reducible apply Sound.foldl
    | intro _ _ _
    | split

theorem State.publishMask_sound {s₀ : State} {s : State} (c : Nat) (members : List Nat) (admits : Option (Nat × Nat)) (hs : Sound s₀ s) : Sound s₀ (State.publishMask s c members admits) := by
  unfold State.publishMask
  repeat' first
    | with_reducible assumption
    | (fail_if_no_progress extract_lets +onlyGivenNames t; first | clear_value t)
    | with_reducible apply Sound.modRun
    | with_reducible apply State.tellRanks_sound
    | with_reducible apply State.acceptMask_sound
    | split

theorem State.excludeModule_sound {s₀ : State} {s : State} (m : Nat) (lost : Bool) (hs : Sound s₀ s) : Sound s₀ (State.excludeModule s m lost) := by
  unfold State.excludeModule
  repeat' first
    | with_reducible assumption
    | (extract_lets +onlyGivenNames t; guard_hyp t : State := _; refine Sound.cut (Q := Sound s₀ t) ?_ ?_; (on_goal 1 => (subst t)); (on_goal 2 => (clear_value t; intro _)))
    | with_reducible apply Sound.modCx
    | with_reducible apply State.publishMask_sound
    | with_reducible apply Sound.foldl
    | intro _ _ _
    | split

theorem State.dropHeld_sound {s₀ : State} {s : State} (m : Nat) (hs : Sound s₀ s) : Sound s₀ (State.dropHeld s m) := by
  unfold State.dropHeld
  repeat' first
    | with_reducible assumption
    | with_reducible apply State.discard_sound
    | with_reducible apply Sound.foldl
    | intro _ _ _
    | with_reducible rfl
    | (with_reducible apply Sound.upd)

theorem State.rejoin_sound {s₀ : State} {s : State} (c : Nat) (hs : Sound s₀ s) : Sound s₀ (State.rejoin s c) := by
  unfold State.rejoin
  repeat' first
    | with_reducible assumption
    | with_reducible apply Sound.modCx
    | with_reducible apply State.thawCtx_sound
    | split

theorem State.admitted_sound {s₀ : State} {s : State} (c : Nat) (m : MaskMsg) (hs : Sound s₀ s) : Sound s₀ (State.admitted s c m) := by
  unfold State.admitted
  repeat' first
    | with_reducible assumption
    | with_reducible apply Sound.modCx
    | with_reducible apply State.finish_sound
    | with_reducible apply State.rejoin_sound
    | split

theorem execMaskArrival_sound {s₀ : State} (ctx : Nat) (m : MaskMsg) {s : State} (hs : Sound s₀ s) : SoundOut s₀ (execMaskArrival ctx m s) := by
  unfold execMaskArrival
  repeat' first
    | with_reducible apply SoundOut.next
    | with_reducible assumption
    | with_reducible apply State.acceptMask_sound
    | with_reducible apply State.admitted_sound
    | split

theorem execResumeNoticeArrival_sound {s₀ : State} (ctx : Nat) (owner : Nat) (gen : Nat) {s : State} (hs : Sound s₀ s) : SoundOut s₀ (execResumeNoticeArrival ctx owner gen s) := by
  unfold execResumeNoticeArrival
  repeat' first
    | with_reducible apply SoundOut.next
    | with_reducible assumption
    | with_reducible apply State.notice_sound

theorem execResendNoticeArrival_sound {s₀ : State} (ctx : Nat) (owner : Nat) (gen : Nat) {s : State} (hs : Sound s₀ s) : SoundOut s₀ (execResendNoticeArrival ctx owner gen s) := by
  unfold execResendNoticeArrival
  repeat' first
    | with_reducible apply SoundOut.next
    | with_reducible assumption
    | with_reducible apply State.notice_sound

theorem execVoidNoticeArrival_sound {s₀ : State} (ctx : Nat) (step : Nat) {s : State} (hs : Sound s₀ s) : SoundOut s₀ (execVoidNoticeArrival ctx step s) := by
  unfold execVoidNoticeArrival
  repeat' first
    | with_reducible apply SoundOut.next
    | with_reducible assumption
    | with_reducible apply Sound.modCx
    | with_reducible apply Sound.modRun
    | split

theorem execTrailerArrival_sound {s₀ : State} (ctx : Nat) (tr : Trailer) {s : State} (hs : Sound s₀ s) : SoundOut s₀ (execTrailerArrival ctx tr s) := by
  unfold execTrailerArrival
  repeat' first
    | with_reducible apply SoundOut.next
    | with_reducible assumption
    | with_reducible apply Sound.modCx
    | with_reducible apply Sound.modRun
    | with_reducible apply State.advanceAll_sound
    | split

theorem execSpareAdmitRequest_sound {s₀ : State} (ctx : Nat) (rank : Nat) (moduleId : Nat) {s : State} (hs : Sound s₀ s) : SoundOut s₀ (execSpareAdmitRequest ctx rank moduleId s) := by
  unfold execSpareAdmitRequest
  repeat' first
    | with_reducible apply SoundOut.next
    | with_reducible assumption
    | with_reducible apply State.publishMask_sound
    | split

theorem State.flood_sound {s₀ : State} {s : State} (m : Msg) (hs : Sound s₀ s) : Sound s₀ (State.flood s m) := by
  unfold State.flood
  repeat' first
    | with_reducible assumption
    | with_reducible apply State.tell_sound
    | with_reducible apply Sound.foldl
    | intro _ _ _

theorem State.loseModule_sound {s₀ : State} {s : State} (m : Nat) (hs : Sound s₀ s) : Sound s₀ (State.loseModule s m) := by
  unfold State.loseModule
  repeat' first
    | with_reducible assumption
    | (extract_lets +onlyGivenNames t; guard_hyp t : State := _; refine Sound.cut (Q := Sound s₀ t) ?_ ?_; (on_goal 1 => (subst t)); (on_goal 2 => (clear_value t; intro _)))
    | (fail_if_no_progress extract_lets +onlyGivenNames t; first | guard_hyp t : Fabric := _ | clear_value t)
    | with_reducible apply State.requeueAll_sound
    | with_reducible apply State.portDown_sound
    | with_reducible apply State.excludeModule_sound
    | with_reducible apply State.dropHeld_sound
    | with_reducible apply State.flood_sound
    | with_reducible apply Sound.foldl
    | with_reducible rfl
    | (with_reducible apply Sound.upd)

theorem execLossNoticeArrival_sound {s₀ : State} (moduleId : Nat) {s : State} (hs : Sound s₀ s) : SoundOut s₀ (execLossNoticeArrival moduleId s) := by
  unfold execLossNoticeArrival
  repeat' first
    | with_reducible apply SoundOut.next
    | with_reducible assumption
    | with_reducible apply State.loseModule_sound
    | split
    | with_reducible rfl
    | (with_reducible apply Sound.upd)

theorem State.modPortsTo_sound {s₀ : State} {s : State} (m : Nat) (f : Port → Port) (hs : Sound s₀ s) : Sound s₀ (State.modPortsTo s m f) := by
  unfold State.modPortsTo
  repeat' first
    | with_reducible assumption
    | with_reducible apply Sound.modPort
    | with_reducible apply Sound.foldl
    | intro _ _ _

theorem execNeighbourLost_sound {s₀ : State} (x : PeerPin) (t : Nat) {s : State} (hs : Sound s₀ s) : SoundOut s₀ (execNeighbourLost x t s) := by
  unfold execNeighbourLost
  repeat' first
    | with_reducible apply SoundOut.next
    | with_reducible assumption
    | (extract_lets +onlyGivenNames t; guard_hyp t : State := _; refine Sound.cut (Q := Sound s₀ t) ?_ ?_; (on_goal 1 => (subst t)); (on_goal 2 => (clear_value t; intro _)))
    | with_reducible apply Sound.tick
    | with_reducible apply State.fault_sound
    | with_reducible apply State.loseModule_sound
    | with_reducible apply State.modPortsTo_sound
    | split

theorem State.departModule_sound {s₀ : State} {s : State} (m : Nat) (hs : Sound s₀ s) : Sound s₀ (State.departModule s m) := by
  unfold State.departModule
  repeat' first
    | with_reducible assumption
    | (extract_lets +onlyGivenNames t; guard_hyp t : State := _; refine Sound.cut (Q := Sound s₀ t) ?_ ?_; (on_goal 1 => (subst t)); (on_goal 2 => (clear_value t; intro _)))
    | (fail_if_no_progress extract_lets +onlyGivenNames t; first | guard_hyp t : Fabric := _ | clear_value t)
    | with_reducible apply State.requeueAll_sound
    | with_reducible apply State.excludeModule_sound
    | with_reducible apply State.dropHeld_sound
    | with_reducible apply State.flood_sound
    | with_reducible rfl
    | (with_reducible apply Sound.upd)

theorem execDepartureNoticeArrival_sound {s₀ : State} (x : Departure) {s : State} (hs : Sound s₀ s) : SoundOut s₀ (execDepartureNoticeArrival x s) := by
  unfold execDepartureNoticeArrival
  repeat' first
    | with_reducible apply SoundOut.next
    | with_reducible assumption
    | with_reducible apply State.modPortsTo_sound
    | with_reducible apply State.departModule_sound
    | split

theorem execNeighbourDeparted_sound {s₀ : State} (port : Nat) (t : Nat) {s : State} (hs : Sound s₀ s) : SoundOut s₀ (execNeighbourDeparted port t s) := by
  unfold execNeighbourDeparted
  repeat' first
    | with_reducible apply SoundOut.next
    | with_reducible assumption
    | with_reducible apply Sound.tick
    | with_reducible apply State.departModule_sound
    | split

theorem execIsolated_sound {s₀ : State} (t : Nat) {s : State} (hs : Sound s₀ s) : SoundOut s₀ (execIsolated t s) := by
  unfold execIsolated
  repeat' first
    | with_reducible apply SoundOut.next
    | with_reducible assumption
    | (extract_lets +onlyGivenNames t; guard_hyp t : State := _; refine Sound.cut (Q := Sound s₀ t) ?_ ?_; (on_goal 1 => (subst t)); (on_goal 2 => (clear_value t; intro _)))
    | (fail_if_no_progress extract_lets +onlyGivenNames t; first | guard_hyp t : Fabric := _ | clear_value t)
    | with_reducible apply Sound.tick
    | with_reducible apply State.event_sound
    | with_reducible apply State.fault_sound
    | with_reducible apply State.freeze_sound
    | with_reducible apply Sound.foldl
    | intro _ _ _
    | split
    | with_reducible rfl
    | (with_reducible apply Sound.upd)

end Sys2Proof.Machine
end

