-- ==== Sys2Proof/Laws/SoundSetup.lean ====
section
/-! SUPPORT. What every operation of Machine/Setup.lean keeps (Sound). -/

namespace Sys2Proof.Machine

open Sys2Proof

theorem State.buffer_sound {s₀ : State} {s : State} (w : Waybill) (hs : Sound s₀ s) : Sound s₀ (State.buffer s w).1 := by
  unfold State.buffer
  repeat' first
    | with_reducible assumption
    | (extract_lets +onlyGivenNames t; guard_hyp t : State × _ := _; refine Sound.cut (Q := Sound s₀ t.1) ?_ ?_; (on_goal 1 => (subst t)); (on_goal 2 => (clear_value t; intro _)))
    | with_reducible apply State.dmaRead_sound
    | split

theorem State.fillBuffer_sound {s₀ : State} {s : State} (w : Waybill) (bs : List Byte) (hs : Sound s₀ s) : Sound s₀ (State.fillBuffer s w bs) := by
  unfold State.fillBuffer
  repeat' first
    | with_reducible assumption
    | with_reducible apply Sound.write
    | with_reducible apply State.dmaWrite_sound
    | split

theorem State.evictAll_sound {s₀ : State} {s : State} (p : LineId → Bool) (hs : Sound s₀ s) : Sound s₀ (State.evictAll s p) := by
  unfold State.evictAll
  repeat' first
    | with_reducible assumption
    | with_reducible apply State.evict_sound
    | with_reducible apply Sound.foldl
    | intro _ _ _
    | split

theorem State.clearCluster_sound {s₀ : State} {s : State} (k : Nat) (hs : Sound s₀ s) : Sound s₀ (State.clearCluster s k) := by
  unfold State.clearCluster
  repeat' first
    | with_reducible assumption
    | (extract_lets +onlyGivenNames t; guard_hyp t : State := _; refine Sound.cut (Q := Sound s₀ t) ?_ ?_; (on_goal 1 => (subst t)); (on_goal 2 => (clear_value t; intro _)))
    | with_reducible apply Sound.modClu
    | with_reducible apply Sound.modCor
    | with_reducible apply Sound.clear
    | with_reducible apply Sound.foldl
    | intro _ _ _

theorem State.giveCluster_sound {s₀ : State} {s : State} (c k units stat : Nat) (hs : Sound s₀ s) : Sound s₀ (State.giveCluster s c k units stat) := by
  unfold State.giveCluster
  repeat' first
    | with_reducible assumption
    | (extract_lets +onlyGivenNames t; guard_hyp t : State := _; refine Sound.cut (Q := Sound s₀ t) ?_ ?_; (on_goal 1 => (subst t)); (on_goal 2 => (clear_value t; intro _)))
    | with_reducible apply Sound.modClu
    | with_reducible apply State.evictAll_sound
    | with_reducible apply State.clearCluster_sound
    | split

theorem State.freeCluster_sound {s₀ : State} {s : State} (k : Nat) (hs : Sound s₀ s) : Sound s₀ (State.freeCluster s k) := by
  unfold State.freeCluster
  repeat' first
    | with_reducible assumption
    | with_reducible apply Sound.modClu
    | with_reducible apply State.clearCluster_sound

theorem State.setPlacement_sound {s₀ : State} {s : State} (c : Nat) (p : Placement) (hs : Sound s₀ s) : Sound s₀ (State.setPlacement s c p) := by
  unfold State.setPlacement
  repeat' first
    | with_reducible assumption
    | (extract_lets +onlyGivenNames t; guard_hyp t : State := _; refine Sound.cut (Q := Sound s₀ t) ?_ ?_; (on_goal 1 => (subst t)); (on_goal 2 => (clear_value t; intro _)))
    | (fail_if_no_progress extract_lets +onlyGivenNames t; first | clear_value t)
    | with_reducible apply Sound.modCx
    | with_reducible apply State.giveCluster_sound
    | with_reducible apply State.freeCluster_sound
    | with_reducible apply Sound.foldl
    | intro _ _ _

theorem State.tryPlacement_sound {s₀ : State} {s : State} (c : Nat) (p : Placement) (hs : Sound s₀ s) {t : State} (e : State.tryPlacement s c p = .ok t) : Sound s₀ t := by
  unfold State.tryPlacement at e
  revert e
  repeat' first
    | with_reducible assumption
    | (intro e; guard_hyp e : _ = _; cases e)
    | (extract_lets +onlyGivenNames t; guard_hyp t : State := _; refine Sound.cut (Q := Sound s₀ t) ?_ ?_; (on_goal 1 => (subst t)); (on_goal 2 => (clear_value t; intro _)))
    | with_reducible apply State.setPlacement_sound
    | split

theorem State.loadHset_sound {s₀ : State} {s : State} (c i : Nat) (v : BitVec 256) (hs : Sound s₀ s) : Sound s₀ (State.loadHset s c i v) := by
  unfold State.loadHset
  repeat' first
    | with_reducible assumption
    | with_reducible apply Sound.modCx

theorem State.configure_sound {s₀ : State} {s : State} (w : Waybill) (hs : Sound s₀ s) : Sound s₀ (State.configure s w).1 := by
  unfold State.configure
  repeat' first
    | with_reducible assumption
    | (extract_lets +onlyGivenNames t; guard_hyp t : State := _; refine Sound.cut (Q := Sound s₀ t) ?_ ?_; (on_goal 1 => (subst t)); (on_goal 2 => (clear_value t; intro _)))
    | (fail_if_no_progress extract_lets +onlyGivenNames t; first | clear_value t)
    | with_reducible apply Sound.modCx
    | with_reducible apply Sound.modClu
    | with_reducible apply State.buffer_sound
    | with_reducible apply State.evictAll_sound
    | (with_reducible refine State.tryPlacement_sound _ _ ?_ (by assumption))
    | with_reducible apply State.loadHset_sound
    | with_reducible apply Sound.foldl
    | (with_reducible refine Sound.of_eq (by assumption) ?_)
    | intro _ _ _
    | split

theorem State.configureNow_sound {s₀ : State} {s : State} (w : Waybill) (hs : Sound s₀ s) : Sound s₀ (State.configureNow s w) := by
  unfold State.configureNow
  repeat' first
    | with_reducible assumption
    | (extract_lets +onlyGivenNames t; guard_hyp t : State × _ := _; refine Sound.cut (Q := Sound s₀ t.1) ?_ ?_; (on_goal 1 => (subst t)); (on_goal 2 => (clear_value t; intro _)))
    | with_reducible apply State.finish_sound
    | with_reducible apply State.configure_sound

theorem State.applyBoundary_sound {s₀ : State} {s : State} (c : Nat) (hs : Sound s₀ s) : Sound s₀ (State.applyBoundary s c) := by
  unfold State.applyBoundary
  repeat' first
    | with_reducible assumption
    | (fail_if_no_progress extract_lets +onlyGivenNames t; first | clear_value t)
    | with_reducible apply Sound.modCx
    | with_reducible apply State.configureNow_sound
    | with_reducible apply Sound.foldl
    | split

theorem State.releaseShelf_sound {s₀ : State} {s : State} (i : Nat) (hs : Sound s₀ s) : Sound s₀ (State.releaseShelf s i) := by
  unfold State.releaseShelf
  repeat' first
    | with_reducible assumption
    | (extract_lets +onlyGivenNames t; guard_hyp t : State := _; refine Sound.cut (Q := Sound s₀ t) ?_ ?_; (on_goal 1 => (subst t)); (on_goal 2 => (clear_value t; intro _)))
    | (fail_if_no_progress extract_lets +onlyGivenNames t; first | guard_hyp t : Cellar := _ | clear_value t)
    | with_reducible apply State.putHome_sound
    | with_reducible apply Sound.foldl
    | intro _ _ _
    | split
    | with_reducible rfl
    | (with_reducible apply Sound.upd)

theorem State.releaseShelves_sound {s₀ : State} {s : State} (p : Shelf → Bool) (hs : Sound s₀ s) : Sound s₀ (State.releaseShelves s p) := by
  unfold State.releaseShelves
  repeat' first
    | with_reducible assumption
    | with_reducible apply State.releaseShelf_sound
    | with_reducible apply Sound.foldl
    | intro _ _ _
    | split

end Sys2Proof.Machine
end

