-- ==== Sys2Proof/Laws/SoundLegs.lean ====
section
/-! SUPPORT. What every operation of Machine/Legs.lean keeps (Sound). -/

namespace Sys2Proof.Machine

open Sys2Proof

theorem State.decideLean_sound {s₀ : State} {s : State} (c : Nat) (l : LegInst) (hs : Sound s₀ s) : Sound s₀ (State.decideLean s c l) := by
  unfold State.decideLean
  repeat' first
    | with_reducible assumption
    | (fail_if_no_progress extract_lets +onlyGivenNames t; first | clear_value t)
    | with_reducible apply Sound.modRun
    | split

theorem State.insertRecompute_sound {s₀ : State} {s : State} (c : Nat) (hs : Sound s₀ s) : Sound s₀ (State.insertRecompute s c) := by
  unfold State.insertRecompute
  repeat' first
    | with_reducible assumption
    | with_reducible apply Sound.modRun

theorem State.takeLeg_sound {s₀ : State} {s : State} (c : Nat) (wb : Option Waybill) (hs : Sound s₀ s) : Sound s₀ (State.takeLeg s c wb) := by
  unfold State.takeLeg
  repeat' first
    | with_reducible assumption
    | with_reducible apply Sound.modCx
    | with_reducible apply Sound.modRun
    | split

theorem State.countShares_sound {s₀ : State} {s : State} (hs : Sound s₀ s) : Sound s₀ (State.countShares s) := by
  unfold State.countShares
  repeat' first
    | with_reducible assumption
    | with_reducible rfl
    | (with_reducible apply Sound.upd)

theorem State.putLeg_sound {s₀ : State} {s : State} (c : Nat) (inst : LegInst) (wb : Option Waybill) (clusters : List Nat) (p q energy : Rat) (status detail : Nat) (hs : Sound s₀ s) : Sound s₀ (State.putLeg s c inst wb clusters p q energy status detail) := by
  unfold State.putLeg
  repeat' first
    | with_reducible assumption
    | (extract_lets +onlyGivenNames t; guard_hyp t : State := _; refine Sound.cut (Q := Sound s₀ t) ?_ ?_; (on_goal 1 => (subst t)); (on_goal 2 => (clear_value t; intro _)))
    | (fail_if_no_progress extract_lets +onlyGivenNames t; first | clear_value t)
    | with_reducible apply Sound.modCx
    | split
    | with_reducible rfl
    | (with_reducible apply Sound.upd)

theorem State.deadLeg_sound {s₀ : State} {s : State} (c : Nat) (inst : LegInst) (wb : Option Waybill) (status detail : Nat) (hs : Sound s₀ s) : Sound s₀ (State.deadLeg s c inst wb status detail) := by
  unfold State.deadLeg
  repeat' first
    | with_reducible assumption
    | with_reducible apply State.takeLeg_sound
    | with_reducible apply State.putLeg_sound

theorem State.startLeg_sound {s₀ : State} {s : State} (c : Nat) (inst : LegInst) (wb : Option Waybill) (g : LegProg) (p q : Rat) (hs : Sound s₀ s) : Sound s₀ (State.startLeg s c inst wb g p q) := by
  unfold State.startLeg
  repeat' first
    | with_reducible assumption
    | (extract_lets +onlyGivenNames t; guard_hyp t : State := _; refine Sound.cut (Q := Sound s₀ t) ?_ ?_; (on_goal 1 => (subst t)); (on_goal 2 => (clear_value t; intro _)))
    | (fail_if_no_progress extract_lets +onlyGivenNames t; first | guard_hyp t : Toll := _ | clear_value t)
    | with_reducible apply Sound.modClu
    | with_reducible apply Sound.modRun
    | with_reducible apply State.decideLean_sound
    | with_reducible apply State.takeLeg_sound
    | with_reducible apply State.putLeg_sound
    | with_reducible apply Sound.foldl
    | intro _ _ _
    | split
    | with_reducible rfl
    | (with_reducible apply Sound.upd)

theorem State.startSweep_sound {s₀ : State} {s : State} (c n : Nat) (hs : Sound s₀ s) : Sound s₀ (State.startSweep s c n) := by
  unfold State.startSweep
  repeat' first
    | with_reducible assumption
    | (extract_lets +onlyGivenNames t; guard_hyp t : State := _; refine Sound.cut (Q := Sound s₀ t) ?_ ?_; (on_goal 1 => (subst t)); (on_goal 2 => (clear_value t; intro _)))
    | (fail_if_no_progress extract_lets +onlyGivenNames t; first | clear_value t)
    | with_reducible apply Sound.modCx
    | with_reducible apply Sound.modRun
    | split

theorem State.decideStep_sound {s₀ : State} {s : State} (c : Nat) (hs : Sound s₀ s) : Sound s₀ (State.decideStep s c) := by
  unfold State.decideStep
  repeat' first
    | with_reducible assumption
    | with_reducible apply hf
    | (extract_lets +onlyGivenNames t; guard_hyp t : State := _; refine Sound.cut (Q := Sound s₀ t) ?_ ?_; (on_goal 1 => (subst t)); (on_goal 2 => (clear_value t; intro _)))
    | (extract_lets +onlyGivenNames t; guard_hyp t : State → _ → State := _; refine Sound.cut (Q := ∀ x y0, Sound s₀ x → Sound s₀ (t x y0)) ?_ ?_; (on_goal 1 => (intro x y0 hx; subst t)); (on_goal 2 => (clear_value t; intro hf)))
    | (fail_if_no_progress extract_lets +onlyGivenNames t; first | clear_value t)
    | with_reducible apply Sound.modRun
    | with_reducible apply State.faultTraining_sound
    | with_reducible apply State.startSweep_sound
    | split

theorem State.settleStep_sound {s₀ : State} {s : State} (c : Nat) (hs : Sound s₀ s) : Sound s₀ (State.settleStep s c) := by
  unfold State.settleStep
  repeat' first
    | with_reducible assumption
    | (extract_lets +onlyGivenNames t; guard_hyp t : State := _; refine Sound.cut (Q := Sound s₀ t) ?_ ?_; (on_goal 1 => (subst t)); (on_goal 2 => (clear_value t; intro _)))
    | with_reducible apply State.sendTrailer_sound
    | with_reducible apply State.decideStep_sound
    | split

theorem State.admitContext_sound {s₀ : State} {s : State} (c : Nat) (hs : Sound s₀ s) : Sound s₀ (State.admitContext s c) := by
  unfold State.admitContext
  repeat' first
    | with_reducible assumption
    | (extract_lets +onlyGivenNames t; guard_hyp t : State := _; refine Sound.cut (Q := Sound s₀ t) ?_ ?_; (on_goal 1 => (subst t)); (on_goal 2 => (clear_value t; intro _)))
    | with_reducible apply State.park_sound
    | with_reducible apply State.unpark_sound
    | with_reducible apply State.fetchLeg_sound
    | with_reducible apply State.insertRecompute_sound
    | with_reducible apply State.deadLeg_sound
    | with_reducible apply State.startLeg_sound
    | with_reducible apply State.settleStep_sound
    | (with_reducible refine Sound.of_eq (by assumption) ?_)
    | split

theorem execAdmissionPass_sound {s₀ : State} (t : Nat) {s : State} (hs : Sound s₀ s) : SoundOut s₀ (execAdmissionPass t s) := by
  unfold execAdmissionPass
  repeat' first
    | with_reducible apply SoundOut.next
    | with_reducible assumption
    | with_reducible apply Sound.tick
    | with_reducible apply State.settleFloor_sound
    | with_reducible apply State.admitContext_sound
    | with_reducible apply Sound.foldl
    | split

theorem State.freeLeg_sound {s₀ : State} {s : State} (g : LegRun) (hs : Sound s₀ s) : Sound s₀ (State.freeLeg s g) := by
  unfold State.freeLeg
  repeat' first
    | with_reducible assumption
    | with_reducible apply Sound.modClu
    | with_reducible apply Sound.foldl
    | intro _ _ _

theorem State.closeLegLocks_sound {s₀ : State} {s : State} (g : LegRun) (hs : Sound s₀ s) : Sound s₀ (State.closeLegLocks s g) := by
  unfold State.closeLegLocks
  repeat' first
    | with_reducible assumption
    | (extract_lets +onlyGivenNames t; guard_hyp t : State := _; refine Sound.cut (Q := Sound s₀ t) ?_ ?_; (on_goal 1 => (subst t)); (on_goal 2 => (clear_value t; intro _)))
    | (fail_if_no_progress extract_lets +onlyGivenNames t; first | guard_hyp t : Cellar := _ | clear_value t)
    | with_reducible apply Sound.modCol
    | with_reducible apply State.closeLock_sound
    | with_reducible apply Sound.foldl
    | intro _ _ _
    | with_reducible rfl
    | (with_reducible apply Sound.upd)

theorem State.stampPhase_sound {s₀ : State} {s : State} (c ph : Nat) (hs : Sound s₀ s) : Sound s₀ (State.stampPhase s c ph) := by
  unfold State.stampPhase
  repeat' first
    | with_reducible assumption
    | (fail_if_no_progress extract_lets +onlyGivenNames t; first | clear_value t)
    | with_reducible apply Sound.modRun

theorem State.freeLayer_sound {s₀ : State} {s : State} (c mu layer : Nat) (hs : Sound s₀ s) : Sound s₀ (State.freeLayer s c mu layer) := by
  unfold State.freeLayer
  repeat' first
    | with_reducible assumption
    | (fail_if_no_progress extract_lets +onlyGivenNames t; first | clear_value t)
    | with_reducible apply Sound.modCx
    | split

theorem State.endVisits_sound {s₀ : State} {s : State} (c id : Nat) (hs : Sound s₀ s) : Sound s₀ (State.endVisits s c id) := by
  unfold State.endVisits
  repeat' first
    | with_reducible assumption
    | (extract_lets +onlyGivenNames t; guard_hyp t : State := _; refine Sound.cut (Q := Sound s₀ t) ?_ ?_; (on_goal 1 => (subst t)); (on_goal 2 => (clear_value t; intro _)))
    | (fail_if_no_progress extract_lets +onlyGivenNames t; first | clear_value t)
    | with_reducible apply Sound.modCx

theorem State.dropLeg_sound {s₀ : State} {s : State} (g : LegRun) (t : Nat) (hs : Sound s₀ s) : Sound s₀ (State.dropLeg s g t) := by
  unfold State.dropLeg
  repeat' first
    | with_reducible assumption
    | (extract_lets +onlyGivenNames t; guard_hyp t : State := _; refine Sound.cut (Q := Sound s₀ t) ?_ ?_; (on_goal 1 => (subst t)); (on_goal 2 => (clear_value t; intro _)))
    | (fail_if_no_progress extract_lets +onlyGivenNames t; first | guard_hyp t : Toll := _ | clear_value t)
    | with_reducible apply Sound.modRun
    | with_reducible apply State.countShares_sound
    | with_reducible apply State.freeLeg_sound
    | with_reducible apply State.stampPhase_sound
    | with_reducible apply State.freeLayer_sound
    | with_reducible apply State.endVisits_sound
    | split
    | with_reducible rfl
    | (with_reducible apply Sound.upd)

theorem State.endStepLeg_sound {s₀ : State} {s : State} (g : LegRun) (t : Nat) (hs : Sound s₀ s) : Sound s₀ (State.endStepLeg s g t) := by
  unfold State.endStepLeg
  repeat' first
    | with_reducible assumption
    | with_reducible apply State.legReceiptOf_sound
    | with_reducible apply State.dropLeg_sound

theorem State.endLonelyLeg_sound {s₀ : State} {s : State} (g : LegRun) (t : Nat) (hs : Sound s₀ s) : Sound s₀ (State.endLonelyLeg s g t) := by
  unfold State.endLonelyLeg
  repeat' first
    | with_reducible assumption
    | (extract_lets +onlyGivenNames t; guard_hyp t : State := _; refine Sound.cut (Q := Sound s₀ t) ?_ ?_; (on_goal 1 => (subst t)); (on_goal 2 => (clear_value t; intro _)))
    | (fail_if_no_progress extract_lets +onlyGivenNames t; first | clear_value t)
    | with_reducible apply State.finish_sound
    | with_reducible apply State.applyBoundary_sound
    | with_reducible apply State.closeLegLocks_sound
    | with_reducible apply State.legReceiptOf_sound
    | with_reducible apply State.dropLeg_sound
    | split

theorem State.sweepFailed_sound {s₀ : State} {s : State} (g : LegRun) (seq : Nat) (hs : Sound s₀ s) : Sound s₀ (State.sweepFailed s g seq) := by
  unfold State.sweepFailed
  repeat' first
    | with_reducible assumption
    | (extract_lets +onlyGivenNames t; guard_hyp t : State := _; refine Sound.cut (Q := Sound s₀ t) ?_ ?_; (on_goal 1 => (subst t)); (on_goal 2 => (clear_value t; intro _)))
    | with_reducible apply Sound.modCx
    | with_reducible apply State.event_sound
    | with_reducible apply State.faultTraining_sound
    | with_reducible apply State.modLeg_sound
    | with_reducible apply State.freeze_sound
    | with_reducible apply State.legReceiptOf_sound

theorem State.goOn_sound {s₀ : State} {s : State} (g : LegRun) (failed : List (Nat × Nat)) (hs : Sound s₀ s) : Sound s₀ (State.goOn s g failed) := by
  unfold State.goOn
  repeat' first
    | with_reducible assumption
    | with_reducible apply Sound.modClu
    | with_reducible apply State.modLeg_sound
    | with_reducible apply Sound.foldl
    | intro _ _ _

theorem State.failedStepLeg_sound {s₀ : State} {s : State} (g : LegRun) (t : Nat) (hs : Sound s₀ s) : Sound s₀ (State.failedStepLeg s g t) := by
  unfold State.failedStepLeg
  repeat' first
    | with_reducible assumption
    | (extract_lets +onlyGivenNames t; guard_hyp t : State := _; refine Sound.cut (Q := Sound s₀ t) ?_ ?_; (on_goal 1 => (subst t)); (on_goal 2 => (clear_value t; intro _)))
    | (fail_if_no_progress extract_lets +onlyGivenNames t; first | clear_value t)
    | with_reducible apply Sound.modRun
    | with_reducible apply State.dropMu_sound
    | with_reducible apply State.withdraw_sound
    | with_reducible apply State.askUnit_sound
    | with_reducible apply State.legReceiptOf_sound
    | with_reducible apply State.dropLeg_sound
    | with_reducible apply State.endStepLeg_sound
    | with_reducible apply State.sweepFailed_sound
    | with_reducible apply State.goOn_sound
    | split

theorem execLegComplete_sound {s₀ : State} (ctx : Nat) (leg : Nat) (t : Nat) {s : State} (hs : Sound s₀ s) : SoundOut s₀ (execLegComplete ctx leg t s) := by
  unfold execLegComplete
  repeat' first
    | with_reducible apply SoundOut.next
    | with_reducible assumption
    | with_reducible apply Sound.tick
    | with_reducible apply State.endStepLeg_sound
    | with_reducible apply State.endLonelyLeg_sound
    | with_reducible apply State.failedStepLeg_sound
    | split

theorem State.clearRosters_sound {s₀ : State} {s : State} (c : Nat) (legs : List LegEntry) (rosters : List Roster) (hs : Sound s₀ s) : Sound s₀ (State.clearRosters s c legs rosters) := by
  unfold State.clearRosters
  repeat' first
    | with_reducible assumption
    | (extract_lets +onlyGivenNames t; guard_hyp t : State := _; refine Sound.cut (Q := Sound s₀ t) ?_ ?_; (on_goal 1 => (subst t)); (on_goal 2 => (clear_value t; intro _)))
    | (fail_if_no_progress extract_lets +onlyGivenNames t; first | clear_value t)
    | with_reducible apply State.fetchLeg_sound
    | with_reducible apply State.clearTile_sound
    | with_reducible apply State.clearReduced_sound
    | with_reducible apply Sound.foldl
    | (with_reducible refine Sound.of_eq (by assumption) ?_)
    | intro _ _ _
    | split

theorem State.openMask_sound {s₀ : State} {s : State} (c : Nat) (hs : Sound s₀ s) : Sound s₀ (State.openMask s c) := by
  unfold State.openMask
  repeat' first
    | with_reducible assumption
    | (fail_if_no_progress extract_lets +onlyGivenNames t; first | clear_value t)
    | with_reducible apply State.tellRanks_sound
    | with_reducible apply State.acceptMask_sound
    | split

theorem State.admitStep_sound {s₀ : State} {s : State} (c : Nat) (w : Waybill) (legs : List LegEntry) (rosters : List Roster) (hs : Sound s₀ s) : Sound s₀ (State.admitStep s c w legs rosters) := by
  unfold State.admitStep
  repeat' first
    | with_reducible assumption
    | (fail_if_no_progress extract_lets +onlyGivenNames t; first | clear_value t)
    | with_reducible apply Sound.modCx
    | with_reducible apply Sound.freeVal
    | with_reducible apply State.clearRosters_sound
    | with_reducible apply State.openMask_sound

theorem execStepAdmission_sound {s₀ : State} (ctx : Nat) (t : Nat) {s : State} (hs : Sound s₀ s) : SoundOut s₀ (execStepAdmission ctx t s) := by
  unfold execStepAdmission
  repeat' first
    | with_reducible apply SoundOut.next
    | with_reducible assumption
    | with_reducible apply hf
    | (extract_lets +onlyGivenNames t; guard_hyp t : State → _ → State := _; refine Sound.cut (Q := ∀ x y0, Sound s₀ x → Sound s₀ (t x y0)) ?_ ?_; (on_goal 1 => (intro x y0 hx; subst t)); (on_goal 2 => (clear_value t; intro hf)))
    | with_reducible apply Sound.modCx
    | with_reducible apply Sound.tick
    | with_reducible apply State.finish_sound
    | with_reducible apply State.buffer_sound
    | with_reducible apply State.admitStep_sound
    | (with_reducible refine Sound.of_eq (by assumption) ?_)
    | split

theorem State.closeStepLocks_sound {s₀ : State} {s : State} (c : Nat) (hs : Sound s₀ s) : Sound s₀ (State.closeStepLocks s c) := by
  unfold State.closeStepLocks
  repeat' first
    | with_reducible assumption
    | (extract_lets +onlyGivenNames t; guard_hyp t : State := _; refine Sound.cut (Q := Sound s₀ t) ?_ ?_; (on_goal 1 => (subst t)); (on_goal 2 => (clear_value t; intro _)))
    | (fail_if_no_progress extract_lets +onlyGivenNames t; first | guard_hyp t : Cellar := _ | clear_value t)
    | with_reducible apply Sound.modCol
    | with_reducible apply State.closeLock_sound
    | with_reducible apply Sound.foldl
    | intro _ _ _
    | with_reducible rfl
    | (with_reducible apply Sound.upd)

theorem State.freeBlocks_sound {s₀ : State} {s : State} (c : Nat) (hs : Sound s₀ s) : Sound s₀ (State.freeBlocks s c) := by
  unfold State.freeBlocks
  repeat' first
    | with_reducible assumption
    | with_reducible apply Sound.modClu
    | with_reducible apply Sound.foldl
    | intro _ _ _

theorem State.setFactor_sound {s₀ : State} {s : State} (k : Rat) (hs : Sound s₀ s) : Sound s₀ (State.setFactor s k) := by
  unfold State.setFactor
  repeat' first
    | with_reducible assumption
    | with_reducible rfl
    | (with_reducible apply Sound.upd)

theorem State.closeStep_sound {s₀ : State} {s : State} (c : Nat) (r : StepRun) (energyJ peakW t : Nat) (hs : Sound s₀ s) : Sound s₀ (State.closeStep s c r energyJ peakW t) := by
  unfold State.closeStep
  repeat' first
    | with_reducible assumption
    | contradiction
    | (fail_if_no_progress extract_lets +onlyGivenNames t; first | clear_value t)
    | with_reducible apply Sound.modCx
    | with_reducible apply Sound.write
    | with_reducible apply State.dropAreaBytes_sound
    | with_reducible apply State.event_sound
    | with_reducible apply State.finish_sound
    | with_reducible apply State.sendMirror_sound
    | with_reducible apply State.applyBoundary_sound
    | with_reducible apply State.releaseShelves_sound
    | with_reducible apply State.closeStepLocks_sound
    | with_reducible apply State.freeBlocks_sound
    | with_reducible apply State.setFactor_sound
    | split

theorem State.voidStep_sound {s₀ : State} {s : State} (c t : Nat) (hs : Sound s₀ s) : Sound s₀ (State.voidStep s c t) := by
  unfold State.voidStep
  repeat' first
    | with_reducible assumption
    | with_reducible apply Sound.freeVal
    | with_reducible apply State.closeStep_sound
    | split

theorem State.loseRank_sound {s₀ : State} {s : State} (c : Nat) (hs : Sound s₀ s) : Sound s₀ (State.loseRank s c) := by
  unfold State.loseRank
  repeat' first
    | with_reducible assumption
    | with_reducible apply Sound.modCx
    | with_reducible apply State.freeze_sound

theorem execStepClose_sound {s₀ : State} (ctx : Nat) (energyJ : Nat) (peakW : Nat) (t : Nat) {s : State} (hs : Sound s₀ s) : SoundOut s₀ (execStepClose ctx energyJ peakW t s) := by
  unfold execStepClose
  repeat' first
    | with_reducible apply SoundOut.next
    | with_reducible assumption
    | (extract_lets +onlyGivenNames t; guard_hyp t : State := _; refine Sound.cut (Q := Sound s₀ t) ?_ ?_; (on_goal 1 => (subst t)); (on_goal 2 => (clear_value t; intro _)))
    | with_reducible apply Sound.tick
    | with_reducible apply State.settleStep_sound
    | with_reducible apply State.closeStep_sound
    | with_reducible apply State.voidStep_sound
    | with_reducible apply State.loseRank_sound
    | split

end Sys2Proof.Machine
end

