-- ==== Sys2Proof/Laws/SoundArrivals.lean ====
section
/-! SUPPORT. What every operation of Machine/Arrivals.lean keeps (Sound). -/

namespace Sys2Proof.Machine

open Sys2Proof

theorem State.arrive_sound {s₀ : State} {s : State} (c : Contribution) (hs : Sound s₀ s) : Sound s₀ (State.arrive s c) := by
  unfold State.arrive
  repeat' first
    | with_reducible assumption
    | (extract_lets +onlyGivenNames t; guard_hyp t : State := _; refine Sound.cut (Q := Sound s₀ t) ?_ ?_; (on_goal 1 => (subst t)); (on_goal 2 => (clear_value t; intro _)))
    | with_reducible apply State.pressArrive_sound
    | with_reducible apply State.settleSegments_sound
    | split

theorem State.atStop_sound {s₀ : State} {s : State} (id : LineId) (wait f : State → State) (hs : Sound s₀ s) (hwait : ∀ t, Sound s₀ t → Sound s₀ (wait t)) (hf : ∀ t, Sound s₀ t → Sound s₀ (f t)) : Sound s₀ (State.atStop s id wait f) := by
  unfold State.atStop
  repeat' first
    | with_reducible assumption
    | with_reducible apply Sound.emit
    | with_reducible apply hwait
    | with_reducible apply hf
    | split

theorem execOrderedContributionArrival_sound {s₀ : State} (c : Contribution) {s : State} (hs : Sound s₀ s) : SoundOut s₀ (execOrderedContributionArrival c s) := by
  unfold execOrderedContributionArrival
  repeat' first
    | with_reducible apply SoundOut.next
    | with_reducible assumption
    | with_reducible apply State.arrive_sound
    | with_reducible apply State.atStop_sound
    | exact fun _ h => h
    | intro _ _
    | split
    | with_reducible rfl
    | (with_reducible apply Sound.upd)

theorem execContributionResend_sound {s₀ : State} (c : Contribution) {s : State} (hs : Sound s₀ s) : SoundOut s₀ (execContributionResend c s) := by
  unfold execContributionResend
  repeat' first
    | with_reducible apply SoundOut.next
    | with_reducible assumption
    | (extract_lets +onlyGivenNames t; guard_hyp t : State := _; refine Sound.cut (Q := Sound s₀ t) ?_ ?_; (on_goal 1 => (subst t)); (on_goal 2 => (clear_value t; intro _)))
    | with_reducible apply Sound.modCol
    | with_reducible apply State.countRefusal_sound
    | with_reducible apply State.arrive_sound
    | with_reducible apply State.atStop_sound
    | exact fun _ h => h
    | intro _ _
    | split

theorem execCompletionNoticeArrival_sound {s₀ : State} (nt : Notice) {s : State} (hs : Sound s₀ s) : SoundOut s₀ (execCompletionNoticeArrival nt s) := by
  unfold execCompletionNoticeArrival
  repeat' first
    | with_reducible apply SoundOut.next
    | with_reducible assumption
    | with_reducible apply Sound.modRun
    | with_reducible apply State.advanceAll_sound
    | split

theorem State.immFault_sound {s₀ : State} {s : State} (o : ImmReq) (hs : Sound s₀ s) : Sound s₀ (State.immFault s o) := by
  unfold State.immFault
  repeat' first
    | with_reducible assumption
    | with_reducible apply State.strandFault_sound
    | split

theorem State.immArrive_sound {s₀ : State} {s : State} (o : ImmReq) (hs : Sound s₀ s) {t : State} (e : State.immArrive s o = some t) : Sound s₀ t := by
  unfold State.immArrive at e
  extract_lets filled at e
  have hf : ∀ u, filled = some u → Sound s₀ u := by
    intro u hu
    unfold filled at hu
    split at hu
    · exact State.bring_sound _ _ _ _ hs hu
    · cases hu; exact hs
  clear_value filled
  refine Sound.optMap hf (fun t ht => ?_) e
  split
  · extract_lets u
    have hu : Sound s₀ u := State.holdReq_sound _ _ ht
    clear_value u
    split
    · exact State.addWaiter_sound _ _ _ hu
    · exact hu
  · exact State.immFault_sound _ ht
  · exact State.immApply_sound _ ht

theorem State.immWaits_sound {s₀ : State} {s : State} (o : ImmReq) (hs : Sound s₀ s) : Sound s₀ (State.immWaits s o) := by
  unfold State.immWaits
  repeat' first
    | with_reducible assumption
    | with_reducible apply State.waitWay_sound
    | split

theorem execImmediateOperationArrival_sound {s₀ : State} (o : ImmReq) {s : State} (hs : Sound s₀ s) : SoundOut s₀ (execImmediateOperationArrival o s) := by
  unfold execImmediateOperationArrival
  repeat' first
    | with_reducible apply SoundOut.next
    | with_reducible assumption
    | with_reducible apply State.atStop_sound
    | exact fun _ h => h
    | (with_reducible refine fun _ e => State.immArrive_sound _ ?_ e)
    | with_reducible apply State.immWaits_sound
    | with_reducible apply Sound.getD
    | intro _ _
    | split
    | with_reducible rfl
    | (with_reducible apply Sound.upd)

theorem execHomeRequest_sound {s₀ : State} (r : HomeReq) {s : State} (hs : Sound s₀ s) : SoundOut s₀ (execHomeRequest r s) := by
  unfold execHomeRequest
  repeat' first
    | with_reducible apply SoundOut.next
    | with_reducible assumption
    | (extract_lets +onlyGivenNames t; guard_hyp t : State := _; refine Sound.cut (Q := Sound s₀ t) ?_ ?_; (on_goal 1 => (subst t)); (on_goal 2 => (clear_value t; intro _)))
    | (fail_if_no_progress extract_lets +onlyGivenNames t; first | clear_value t)
    | with_reducible apply State.homeStep_sound
    | with_reducible apply State.holdReq_sound
    | with_reducible apply State.addWaiter_sound
    | with_reducible apply State.waitWay_sound
    | with_reducible apply State.atStop_sound
    | (with_reducible refine Sound.of_eq (by assumption) ?_)
    | intro _ _
    | split

theorem State.landLine_sound {s₀ : State} {s : State} (c a : Nat) (l : Line) (hs : Sound s₀ s) {t : State} (e : State.landLine s c a l = some t) : Sound s₀ t := by
  unfold State.landLine at e
  revert e
  repeat' first
    | with_reducible assumption
    | (intro e; guard_hyp e : _ = _; cases e)
    | (fail_if_no_progress extract_lets +onlyGivenNames t; first | clear_value t)
    | with_reducible apply State.writePlace_sound
    | with_reducible apply State.takeStash_sound
    | split

theorem State.landLines_sound {s₀ : State} {s : State} (c a : Nat) (l : List Line) (hs : Sound s₀ s) {t : State} (e : s.landLines c a l = some t) :
    Sound s₀ t := by
  induction l generalizing s a with
  | nil => cases e; exact hs
  | cons x r ih =>
    unfold State.landLines at e
    split at e
    · rw [Option.bind_eq_some_iff] at e
      obtain ⟨u, hu, e⟩ := e
      exact ih _ (State.landLine_sound _ _ _ hs hu) e
    · split at e
      · split at e
        next h => exact ih _ (Sound.of_eq h (State.writePlace_sound _ _ _ _ hs)) e
        next => cases e
      · cases e

theorem State.acknowledge_sound {s₀ : State} {s : State} (p : Packet) (refused stale : Bool) (hs : Sound s₀ s) : Sound s₀ (State.acknowledge s p refused stale) := by
  unfold State.acknowledge
  repeat' first
    | with_reducible assumption
    | with_reducible apply State.tell_sound

theorem execPacketArrival_sound {s₀ : State} (p : Packet) {s : State} (hs : Sound s₀ s) : SoundOut s₀ (execPacketArrival p s) := by
  unfold execPacketArrival
  refine SoundOut.next ?_
  split
  · exact hs
  · split
    · split
      next e => exact State.acknowledge_sound _ _ _ (State.takeBuffered_sound _ (State.landLines_sound _ _ _ hs e))
      next => exact hs
    · have h := State.readLines_sound p.ctx none none (fld p.hdr 32 4 + 1) p.addr [] hs
      split
      · exact hs
      · split
        next e => exact State.route_sound _ (State.takeBuffered_sound _ (Sound.of_eq e h))
        next => exact hs
    · exact (State.takeBuffered_sound _ hs).emit _
    · exact (State.takeBuffered_sound _ hs).emit _
    · exact hs

theorem State.takeLocks_sound {s₀ : State} {s : State} (l : List Contribution) (hs : Sound s₀ s) {t : State} (e : s.takeLocks l = some t) :
    Sound s₀ t := by
  induction l generalizing s with
  | nil => cases e; exact hs
  | cons c r ih =>
    unfold State.takeLocks at e
    rw [Option.bind_eq_some_iff] at e
    obtain ⟨u, hu, e⟩ := e
    exact ih (State.takeLock_sound _ _ hs hu) e

theorem State.takePacket_sound {s₀ : State} {s : State} (p : Packet) (l : List Contribution) (r : StepRun) (hs : Sound s₀ s) :
    Sound s₀ (State.takePacket s p l r) := by
  unfold State.takePacket
  split
  · exact State.acknowledge_sound _ _ _ hs
  next t ht =>
    have h := State.takeLocks_sound _ hs ht
    extract_lets waits
    clear_value waits
    split
    · refine State.acknowledge_sound _ _ _ ?_
      cases l.head? with
      | none => exact hs
      | some c => exact State.countRefusal_sound _ hs
    · exact State.acknowledge_sound _ _ _ (Sound.foldl (fun t c ht => State.pressArrive_sound _ _ ht) l h)

theorem execReduceScatterContributionArrival_sound {s₀ : State} (p : Packet) (c : Contribution) {s : State} (hs : Sound s₀ s) : SoundOut s₀ (execReduceScatterContributionArrival p c s) := by
  unfold execReduceScatterContributionArrival
  repeat' first
    | with_reducible apply SoundOut.next
    | with_reducible assumption
    | (extract_lets +onlyGivenNames t; guard_hyp t : State := _; refine Sound.cut (Q := Sound s₀ t) ?_ ?_; (on_goal 1 => (subst t)); (on_goal 2 => (clear_value t; intro _)))
    | with_reducible apply State.takeBuffered_sound
    | with_reducible apply State.atStop_sound
    | exact fun _ h => h
    | with_reducible apply State.acknowledge_sound
    | with_reducible apply State.takePacket_sound
    | intro _ _
    | split

end Sys2Proof.Machine
end

