-- ==== Sys2Proof/Laws/SoundRings.lean ====
section
/-! SUPPORT. What every operation of Machine/Rings.lean keeps (Sound). -/

namespace Sys2Proof.Machine

open Sys2Proof

theorem State.drainEnd_sound {s₀ : State} {s : State} (n : Nat) (hs : Sound s₀ s) : Sound s₀ (State.drainEnd s n) := by
  unfold State.drainEnd
  repeat' first
    | with_reducible assumption
    | with_reducible apply Sound.modRing

theorem State.writeSqBase_sound {s₀ : State} {s : State} (n : Nat) (v : DWord) (hs : Sound s₀ s) : Sound s₀ (State.writeSqBase s n v) := by
  unfold State.writeSqBase
  repeat' first
    | with_reducible assumption
    | (extract_lets +onlyGivenNames t; guard_hyp t : State := _; refine Sound.cut (Q := Sound s₀ t) ?_ ?_; (on_goal 1 => (subst t)); (on_goal 2 => (clear_value t; intro _)))
    | (fail_if_no_progress extract_lets +onlyGivenNames t; first | clear_value t)
    | with_reducible apply Sound.modRing
    | with_reducible apply State.drainEnd_sound
    | split

theorem State.writeCqBase_sound {s₀ : State} {s : State} (n : Nat) (v : DWord) (hs : Sound s₀ s) : Sound s₀ (State.writeCqBase s n v) := by
  unfold State.writeCqBase
  repeat' first
    | with_reducible assumption
    | with_reducible apply Sound.modRing

theorem execRingEnable_sound {s₀ : State} (ring : Nat) (v : DWord) {s : State} (hs : Sound s₀ s) : SoundOut s₀ (execRingEnable ring v s) := by
  unfold execRingEnable
  repeat' first
    | with_reducible apply SoundOut.next
    | with_reducible assumption
    | with_reducible apply State.writeSqBase_sound
    | split

theorem execRingDisable_sound {s₀ : State} (ring : Nat) (v : DWord) {s : State} (hs : Sound s₀ s) : SoundOut s₀ (execRingDisable ring v s) := by
  unfold execRingDisable
  repeat' first
    | with_reducible apply SoundOut.next
    | with_reducible assumption
    | with_reducible apply State.writeSqBase_sound
    | split

theorem execRingDrainComplete_sound {s₀ : State} (ring : Nat) {s : State} (hs : Sound s₀ s) : SoundOut s₀ (execRingDrainComplete ring s) := by
  unfold execRingDrainComplete
  repeat' first
    | with_reducible apply SoundOut.next
    | with_reducible assumption
    | with_reducible apply State.drainEnd_sound
    | split

theorem State.postWaiting_sound {s₀ : State} {s : State} (n : Nat) (hs : Sound s₀ s) : Sound s₀ (State.postWaiting s n) := by
  unfold State.postWaiting
  repeat' first
    | with_reducible assumption
    | (fail_if_no_progress extract_lets +onlyGivenNames t; first | clear_value t)
    | with_reducible apply Sound.modRing
    | with_reducible apply State.postReceipt_sound
    | with_reducible apply Sound.foldl
    | intro _ _ _

theorem State.writeDoorbell_sound {s₀ : State} {s : State} (n : Nat) (v : DWord) (hs : Sound s₀ s) : Sound s₀ (State.writeDoorbell s n v) := by
  unfold State.writeDoorbell
  repeat' first
    | with_reducible assumption
    | (extract_lets +onlyGivenNames t; guard_hyp t : State := _; refine Sound.cut (Q := Sound s₀ t) ?_ ?_; (on_goal 1 => (subst t)); (on_goal 2 => (clear_value t; intro _)))
    | with_reducible apply Sound.modRing
    | with_reducible apply State.postWaiting_sound
    | split

theorem execSqDoorbell_sound {s₀ : State} (ring : Nat) (v : DWord) {s : State} (hs : Sound s₀ s) : SoundOut s₀ (execSqDoorbell ring v s) := by
  unfold execSqDoorbell
  repeat' first
    | with_reducible apply SoundOut.next
    | with_reducible assumption
    | with_reducible apply State.writeDoorbell_sound
    | split

theorem execCqDoorbell_sound {s₀ : State} (ring : Nat) (v : DWord) {s : State} (hs : Sound s₀ s) : SoundOut s₀ (execCqDoorbell ring v s) := by
  unfold execCqDoorbell
  repeat' first
    | with_reducible apply SoundOut.next
    | with_reducible assumption
    | with_reducible apply State.writeDoorbell_sound
    | split

theorem execReceiptWriteFailure_sound {s₀ : State} (ring : Nat) {s : State} (hs : Sound s₀ s) : SoundOut s₀ (execReceiptWriteFailure ring s) := by
  unfold execReceiptWriteFailure
  repeat' first
    | with_reducible apply SoundOut.next
    | with_reducible assumption
    | (extract_lets +onlyGivenNames t; guard_hyp t : State := _; refine Sound.cut (Q := Sound s₀ t) ?_ ?_; (on_goal 1 => (subst t)); (on_goal 2 => (clear_value t; intro _)))
    | (fail_if_no_progress extract_lets +onlyGivenNames t; first | clear_value t)
    | with_reducible apply Sound.modRing
    | with_reducible apply Sound.clear
    | with_reducible apply State.event_sound
    | split

theorem execIrqDelayExpiry_sound {s₀ : State} (ring : Nat) {s : State} (hs : Sound s₀ s) : SoundOut s₀ (execIrqDelayExpiry ring s) := by
  unfold execIrqDelayExpiry
  repeat' first
    | with_reducible apply SoundOut.next
    | with_reducible assumption
    | (extract_lets +onlyGivenNames t; guard_hyp t : State := _; refine Sound.cut (Q := Sound s₀ t) ?_ ?_; (on_goal 1 => (subst t)); (on_goal 2 => (clear_value t; intro _)))
    | (fail_if_no_progress extract_lets +onlyGivenNames t; first | clear_value t)
    | with_reducible apply Sound.modRing
    | with_reducible apply Sound.emit
    | split

theorem State.hostEntries_sound {s₀ : State} {s : State} (x0 : Nat) (fuel : List (BitVec 512)) (hs : Sound s₀ s) : Sound s₀ (State.hostEntries s x0 fuel) := by
  induction fuel generalizing s  x0 with
  | nil => exact hs
  | cons _ _ ih =>
    unfold State.hostEntries
    repeat' first
      | with_reducible assumption
      | with_reducible apply Sound.write
      | with_reducible apply ih

theorem State.writePrio_sound {s₀ : State} {s : State} (v : DWord) (hs : Sound s₀ s) : Sound s₀ (State.writePrio s v) := by
  unfold State.writePrio
  repeat' first
    | with_reducible assumption
    | (extract_lets +onlyGivenNames t; guard_hyp t : State := _; refine Sound.cut (Q := Sound s₀ t) ?_ ?_; (on_goal 1 => (subst t)); (on_goal 2 => (clear_value t; intro _)))
    | (fail_if_no_progress extract_lets +onlyGivenNames t; first | guard_hyp t : HostIf := _ | clear_value t)
    | split
    | with_reducible rfl
    | (with_reducible apply Sound.upd)

theorem execPriorityDoorbell_sound {s₀ : State} (v : DWord) (entries : List (BitVec 512)) {s : State} (hs : Sound s₀ s) : SoundOut s₀ (execPriorityDoorbell v entries s) := by
  unfold execPriorityDoorbell
  repeat' first
    | with_reducible apply SoundOut.next
    | with_reducible assumption
    | with_reducible apply State.hostEntries_sound
    | with_reducible apply State.writePrio_sound
    | split

theorem State.linkReturns_sound {s₀ : State} {s : State} (hs : Sound s₀ s) : Sound s₀ (State.linkReturns s) := by
  unfold State.linkReturns
  repeat' first
    | with_reducible assumption
    | (fail_if_no_progress extract_lets +onlyGivenNames t; first | guard_hyp t : HostIf := _ | clear_value t)
    | with_reducible apply Sound.freeVal
    | with_reducible apply State.postReceipt_sound
    | with_reducible apply State.postEvent_sound
    | with_reducible apply State.retryAll_sound
    | with_reducible apply Sound.foldl
    | intro _ _ _
    | split
    | with_reducible rfl
    | (with_reducible apply Sound.upd)

theorem execHeldReceiptsWrite_sound {s₀ : State} {s : State} (hs : Sound s₀ s) : SoundOut s₀ (execHeldReceiptsWrite s) := by
  unfold execHeldReceiptsWrite
  repeat' first
    | with_reducible apply SoundOut.next
    | with_reducible assumption
    | with_reducible apply State.linkReturns_sound
    | split

theorem execHostLinkDown_sound {s₀ : State} (width : Nat) {s : State} (hs : Sound s₀ s) : SoundOut s₀ (execHostLinkDown width s) := by
  unfold execHostLinkDown
  repeat' first
    | with_reducible apply SoundOut.next
    | with_reducible assumption
    | split
    | with_reducible rfl
    | (with_reducible apply Sound.upd)

theorem execPerstNAssert_sound {s₀ : State} {s : State} (hs : Sound s₀ s) : SoundOut s₀ (execPerstNAssert s) := by
  unfold execPerstNAssert
  repeat' first
    | with_reducible apply SoundOut.next
    | with_reducible assumption
    | with_reducible refine Sound.noRings ?_ rfl

theorem execPerstNRelease_sound {s₀ : State} {s : State} (hs : Sound s₀ s) : SoundOut s₀ (execPerstNRelease s) := by
  unfold execPerstNRelease
  repeat' first
    | with_reducible apply SoundOut.next
    | with_reducible assumption
    | (fail_if_no_progress extract_lets +onlyGivenNames t; first | guard_hyp t : HostIf := _ | clear_value t)
    | with_reducible apply State.linkReturns_sound
    | split
    | with_reducible rfl
    | (with_reducible apply Sound.upd)

theorem State.snoopOut_sound {s₀ : State} {s : State} (id : LineId) (hs : Sound s₀ s) : Sound s₀ (State.snoopOut s id) := by
  unfold State.snoopOut
  repeat' first
    | with_reducible assumption
    | with_reducible apply State.putHome_sound
    | with_reducible apply State.recallAll_sound
    | with_reducible apply State.evict_sound
    | with_reducible apply State.holdReq_sound
    | split

theorem execSnoop_sound {s₀ : State} (hostAddr : Nat) (invalidate : Bool) {s : State} (hs : Sound s₀ s) : SoundOut s₀ (execSnoop hostAddr invalidate s) := by
  unfold execSnoop
  repeat' first
    | with_reducible apply SoundOut.next
    | with_reducible assumption
    | (extract_lets +onlyGivenNames t; guard_hyp t : State → _ → State := _; refine Sound.cut (Q := ∀ x y0, Sound s₀ x → Sound s₀ (t x y0)) ?_ ?_; (on_goal 1 => (intro x y0 hx; subst t)); (on_goal 2 => (clear_value t; intro hf)))
    | (fail_if_no_progress extract_lets +onlyGivenNames t; first | clear_value t)
    | with_reducible apply Sound.emit
    | with_reducible apply State.cleanLine_sound
    | with_reducible apply State.snoopOut_sound
    | with_reducible apply Sound.foldl
    | split
    | dsimp -zeta only

end Sys2Proof.Machine
end

