-- ==== Sys2Proof/Laws/SoundRegisters.lean ====
section
/-! SUPPORT. What every operation of Machine/Registers.lean keeps (Sound). -/

namespace Sys2Proof.Machine

open Sys2Proof

theorem State.modCtxCnt_sound {s₀ : State} {s : State} (c : Nat) (f : CtxCnt → CtxCnt) (hs : Sound s₀ s) : Sound s₀ (State.modCtxCnt s c f) := by
  unfold State.modCtxCnt
  repeat' first
    | with_reducible assumption
    | with_reducible apply Sound.modCx

theorem State.clearLow_sound {s₀ : State} {s : State} (r : Reg) (hs : Sound s₀ s) : Sound s₀ (s.clearLow r) := by
  unfold State.clearLow
  split
  · exact State.modCtxCnt_sound _ _ hs
  · exact hs.modCnt _ _
  · exact hs.modCnt _ _
  · exact hs.modCnt _ _
  · exact hs.modCnt _ _
  · exact hs

theorem State.clearHigh_sound {s₀ : State} {s : State} (r : Reg) (hs : Sound s₀ s) : Sound s₀ (s.clearHigh r) := by
  unfold State.clearHigh
  split
  · exact hs.setMc (le_refl _) fun j => ⟨j.faultLog, j.flashLog, j.faultLen, j.flashLen, j.repairs, Nat.zero_le _⟩
  · exact hs.modCx _ _
  · exact State.modCtxCnt_sound _ _ hs
  · exact hs.modCx _ _
  · exact State.modCtxCnt_sound _ _ hs
  · exact hs.upd rfl rfl rfl rfl rfl rfl rfl rfl rfl rfl
  · exact hs.upd rfl rfl rfl rfl rfl rfl rfl rfl rfl rfl
  · exact hs.upd rfl rfl rfl rfl rfl rfl rfl rfl rfl rfl
  · exact hs.modPort _ _
  · exact hs.modStack _ _
  · exact hs.modCnt _ _
  · exact hs.modCnt _ _
  · exact hs.modCnt _ _
  · exact hs.modCnt _ _
  · exact hs.modCol _ _
  · exact hs

theorem State.readReg_sound {s₀ : State} {s : State} (off : Nat) (hs : Sound s₀ s) : Sound s₀ (State.readReg s off).1 := by
  unfold State.readReg
  repeat' first
    | with_reducible assumption
    | with_reducible apply State.clearLow_sound
    | with_reducible apply State.clearHigh_sound
    | split

theorem State.setLatch_sound {s₀ : State} {s : State} (off : Nat) (v : Option Word) (hs : Sound s₀ s) : Sound s₀ (State.setLatch s off v) := by
  unfold State.setLatch
  repeat' first
    | with_reducible assumption
    | with_reducible rfl
    | (with_reducible apply Sound.upd)

theorem execRcRead_sound {s₀ : State} (off : Nat) {s : State} (hs : Sound s₀ s) : SoundOut s₀ (execRcRead off s) := by
  unfold execRcRead
  repeat' first
    | with_reducible apply SoundOut.next
    | with_reducible assumption
    | with_reducible apply Sound.emit
    | with_reducible apply State.readReg_sound
    | split

theorem execLowHalfRead_sound {s₀ : State} (off : Nat) {s : State} (hs : Sound s₀ s) : SoundOut s₀ (execLowHalfRead off s) := by
  unfold execLowHalfRead
  repeat' first
    | with_reducible apply SoundOut.next
    | with_reducible assumption
    | with_reducible apply Sound.emit
    | with_reducible apply State.readReg_sound
    | with_reducible apply State.setLatch_sound
    | split

theorem execHighHalfRead_sound {s₀ : State} (off : Nat) {s : State} (hs : Sound s₀ s) : SoundOut s₀ (execHighHalfRead off s) := by
  unfold execHighHalfRead
  repeat' first
    | with_reducible apply SoundOut.next
    | with_reducible assumption
    | (fail_if_no_progress extract_lets +onlyGivenNames t; first | clear_value t)
    | with_reducible apply Sound.emit
    | with_reducible apply State.clearHigh_sound
    | with_reducible apply State.setLatch_sound
    | split

theorem State.setTier3_sound {s₀ : State} {s : State} (base size : Nat) (hs : Sound s₀ s) : Sound s₀ (State.setTier3 s base size) := by
  unfold State.setTier3
  repeat' first
    | with_reducible assumption
    | split
    | with_reducible rfl
    | (with_reducible apply Sound.upd)

theorem execTier3WindowApply_sound {s₀ : State} {s : State} (hs : Sound s₀ s) : SoundOut s₀ (execTier3WindowApply s) := by
  unfold execTier3WindowApply
  repeat' first
    | with_reducible apply SoundOut.next
    | with_reducible assumption
    | split
    | with_reducible rfl
    | (with_reducible apply Sound.upd)

theorem State.writeTgCfg_sound {s₀ : State} {s : State} (v : DWord) (t : Nat) (hs : Sound s₀ s) : Sound s₀ (State.writeTgCfg s v t) := by
  unfold State.writeTgCfg
  repeat' first
    | with_reducible assumption
    | (fail_if_no_progress extract_lets +onlyGivenNames t; first | guard_hyp t : Toll := _ | clear_value t)
    | with_reducible apply State.react_sound
    | split
    | with_reducible rfl
    | (with_reducible apply Sound.upd)

theorem State.writeCoolant_sound {s₀ : State} {s : State} (flow limit : Nat) (hs : Sound s₀ s) : Sound s₀ (State.writeCoolant s flow limit) := by
  unfold State.writeCoolant
  repeat' first
    | with_reducible assumption
    | with_reducible rfl
    | (with_reducible apply Sound.upd)

theorem State.writeReg_sound {s₀ : State} {s : State} (r : Reg) (v : DWord) (t : Nat) (hs : Sound s₀ s) : Sound s₀ (State.writeReg s r v t) := by
  unfold State.writeReg
  repeat' first
    | with_reducible assumption
    | with_reducible apply Sound.modCx
    | with_reducible apply Sound.modRing
    | with_reducible apply State.writeSetpoint_sound
    | with_reducible apply State.writeSqBase_sound
    | with_reducible apply State.writeCqBase_sound
    | with_reducible apply State.writeDoorbell_sound
    | with_reducible apply State.writePrio_sound
    | with_reducible apply State.setTier3_sound
    | with_reducible apply State.writeTgCfg_sound
    | with_reducible apply State.writeCoolant_sound
    | split
    | with_reducible rfl
    | (with_reducible apply Sound.upd)

theorem State.barWrite_sound {s₀ : State} {s : State} (off : Nat) (acc : Access) (v : DWord) (t : Nat) (hs : Sound s₀ s) : Sound s₀ (State.barWrite s off acc v t) := by
  unfold State.barWrite
  repeat' first
    | with_reducible assumption
    | with_reducible apply State.writeReg_sound
    | split

theorem execRegisterWrite_sound {s₀ : State} (off : Nat) (acc : Access) (v : DWord) {s : State} (hs : Sound s₀ s) : SoundOut s₀ (execRegisterWrite off acc v s) := by
  unfold execRegisterWrite
  repeat' first
    | with_reducible apply SoundOut.next
    | with_reducible assumption
    | with_reducible apply State.barWrite_sound

theorem execLeaseSWrite_sound {s₀ : State} (acc : Access) (v : DWord) (t : Nat) {s : State} (hs : Sound s₀ s) : SoundOut s₀ (execLeaseSWrite acc v t s) := by
  unfold execLeaseSWrite
  repeat' first
    | with_reducible apply SoundOut.next
    | with_reducible assumption
    | with_reducible apply Sound.tick
    | with_reducible apply State.barWrite_sound

end Sys2Proof.Machine
end

