-- ==== Sys2Proof/Laws/SoundOrders.lean ====
section
/-! SUPPORT. What every operation of Machine/Orders.lean keeps (Sound). -/

namespace Sys2Proof.Machine

open Sys2Proof

theorem State.checkWb_sound {s₀ : State} {s : State} (e : WbEntry) (hs : Sound s₀ s) : Sound s₀ (State.checkWb s e).1 := by
  unfold State.checkWb
  repeat' first
    | with_reducible assumption
    | (fail_if_no_progress extract_lets +onlyGivenNames t; first | clear_value t)
    | with_reducible apply State.dmaRead_sound
    | (with_reducible refine Sound.of_eq (by assumption) ?_)
    | split

theorem State.sweepWbs_sound {s₀ : State} {s : State} (hs : Sound s₀ s) : Sound s₀ (State.sweepWbs s) := by
  unfold State.sweepWbs
  repeat' first
    | with_reducible assumption
    | with_reducible apply State.finish_sound
    | with_reducible apply State.checkWb_sound
    | with_reducible apply Sound.foldl
    | (with_reducible refine Sound.of_eq (by assumption) ?_)
    | intro _ _ _
    | split

theorem State.markStarted_sound {s₀ : State} {s : State} (e : WbEntry) (hs : Sound s₀ s) : Sound s₀ (State.markStarted s e) := by
  unfold State.markStarted
  repeat' first
    | with_reducible assumption
    | with_reducible rfl
    | (with_reducible apply Sound.upd)

theorem State.startWb_sound {s₀ : State} {s : State} (w : Waybill) (ops : Waybill → Bool) (f : State → List Byte → State) (hs : Sound s₀ s) (hf : ∀ t bs, Sound s₀ t → Sound s₀ (f t bs)) : Sound s₀ (State.startWb s w ops f) := by
  unfold State.startWb
  repeat' first
    | with_reducible assumption
    | with_reducible apply State.finish_sound
    | with_reducible apply State.checkWb_sound
    | with_reducible apply State.sweepWbs_sound
    | with_reducible apply State.markStarted_sound
    | with_reducible apply hf
    | (with_reducible refine Sound.of_eq (by assumption) ?_)
    | split

theorem State.tryWb_sound {s₀ : State} {s : State} (w : Waybill) (ops : Waybill → Bool) (f : State → List Byte → Option State) (hs : Sound s₀ s)
    (hf : ∀ (t : State) (bs : List Byte) (u : State), Sound s₀ t → f t bs = some u → Sound s₀ u) : Sound s₀ (State.tryWb s w ops f) := by
  unfold State.tryWb
  extract_lets go
  have hg : ∀ (t : State) (bs : List Byte), Sound s₀ t → Sound s₀ (go t bs) := by
    intro t bs ht
    unfold go
    split
    next u e => exact State.sweepWbs_sound (hf _ _ _ ht e)
    next => exact ht
  clear_value go
  split
  · exact hg _ _ hs
  · exact State.startWb_sound _ _ _ hs hg

theorem execWaybillFetch_sound {s₀ : State} (hdr : BitVec 512) (buf : List Byte) (hostErr : Option DWord) {s : State} (hs : Sound s₀ s) : SoundOut s₀ (execWaybillFetch hdr buf hostErr s) := by
  unfold execWaybillFetch
  repeat' first
    | with_reducible apply SoundOut.next
    | with_reducible assumption
    | (extract_lets +onlyGivenNames t; guard_hyp t : State := _; refine Sound.cut (Q := Sound s₀ t) ?_ ?_; (on_goal 1 => (subst t)); (on_goal 2 => (clear_value t; intro _)))
    | (fail_if_no_progress extract_lets +onlyGivenNames t; first | guard_hyp t : HostIf := _ | clear_value t)
    | with_reducible apply Sound.modRing
    | with_reducible apply State.sweepWbs_sound
    | split
    | with_reducible rfl
    | (with_reducible apply Sound.upd)

end Sys2Proof.Machine
end

