-- ==== Sys2Proof/Laws/SoundWaybills.lean ====
section
/-! SUPPORT. What every operation of Machine/Waybills.lean keeps (Sound). -/

namespace Sys2Proof.Machine

open Sys2Proof

theorem execIdentify_sound {s₀ : State} (w : Waybill) {s : State} (hs : Sound s₀ s) : SoundOut s₀ (execIdentify w s) := by
  unfold execIdentify
  repeat' first
    | with_reducible apply SoundOut.next
    | with_reducible assumption
    | (fail_if_no_progress extract_lets +onlyGivenNames t; first | clear_value t)
    | with_reducible apply State.finish_sound
    | with_reducible apply State.startWb_sound
    | intro _ _ _

theorem State.readRegs_sound {s₀ : State} {s : State} (fuel : Nat) (x1 : Nat) (x2 : List Byte) (hs : Sound s₀ s) : Sound s₀ (State.readRegs s fuel x1 x2).1 := by
  induction fuel generalizing s  x1 x2 with
  | zero => exact hs
  | succ _ ih =>
    unfold State.readRegs
    repeat' first
      | with_reducible assumption
      | with_reducible apply State.readReg_sound
      | with_reducible apply ih

theorem execRegRead_sound {s₀ : State} (w : Waybill) {s : State} (hs : Sound s₀ s) : SoundOut s₀ (execRegRead w s) := by
  unfold execRegRead
  repeat' first
    | with_reducible apply SoundOut.next
    | with_reducible assumption
    | with_reducible apply State.finish_sound
    | with_reducible apply State.fillBuffer_sound
    | with_reducible apply State.startWb_sound
    | with_reducible apply State.readRegs_sound
    | intro _ _ _

theorem execStepRecords_sound {s₀ : State} (w : Waybill) {s : State} (hs : Sound s₀ s) : SoundOut s₀ (execStepRecords w s) := by
  unfold execStepRecords
  repeat' first
    | with_reducible apply SoundOut.next
    | with_reducible assumption
    | (fail_if_no_progress extract_lets +onlyGivenNames t; first | clear_value t)
    | with_reducible apply State.finish_sound
    | with_reducible apply State.fillBuffer_sound
    | with_reducible apply State.startWb_sound
    | intro _ _ _

theorem execFaultLog_sound {s₀ : State} (w : Waybill) {s : State} (hs : Sound s₀ s) : SoundOut s₀ (execFaultLog w s) := by
  unfold execFaultLog
  repeat' first
    | with_reducible apply SoundOut.next
    | with_reducible assumption
    | (fail_if_no_progress extract_lets +onlyGivenNames t; first | clear_value t)
    | with_reducible apply State.finish_sound
    | with_reducible apply State.fillBuffer_sound
    | with_reducible apply State.startWb_sound
    | intro _ _ _

theorem execCtxCreate_sound {s₀ : State} (w : Waybill) {s : State} (hs : Sound s₀ s) : SoundOut s₀ (execCtxCreate w s) := by
  unfold execCtxCreate
  repeat' first
    | with_reducible apply SoundOut.next
    | with_reducible assumption
    | (extract_lets +onlyGivenNames t; guard_hyp t : State := _; refine Sound.cut (Q := Sound s₀ t) ?_ ?_; (on_goal 1 => (subst t)); (on_goal 2 => (clear_value t; intro _)))
    | (fail_if_no_progress extract_lets +onlyGivenNames t; first | clear_value t)
    | with_reducible apply Sound.modCx
    | with_reducible apply State.finish_sound
    | with_reducible apply State.startWb_sound
    | intro _ _ _
    | split

theorem State.freezeNow_sound {s₀ : State} {s : State} (c : Nat) (hs : Sound s₀ s) : Sound s₀ (State.freezeNow s c) := by
  unfold State.freezeNow
  repeat' first
    | with_reducible assumption
    | with_reducible apply State.freeze_sound
    | with_reducible apply State.stopLegs_sound

theorem State.dropTraffic_sound {s₀ : State} {s : State} (c : Nat) (hs : Sound s₀ s) : Sound s₀ (State.dropTraffic s c) := by
  unfold State.dropTraffic
  repeat' first
    | with_reducible assumption
    | (extract_lets +onlyGivenNames t; guard_hyp t : State := _; refine Sound.cut (Q := Sound s₀ t) ?_ ?_; (on_goal 1 => (subst t)); (on_goal 2 => (clear_value t; intro _)))
    | (fail_if_no_progress extract_lets +onlyGivenNames t; first | guard_hyp t : Cellar := _ | guard_hyp t : Fabric := _ | clear_value t)
    | with_reducible apply Sound.modCol
    | with_reducible apply State.closeLock_sound
    | with_reducible apply Sound.foldl
    | intro _ _ _
    | with_reducible rfl
    | (with_reducible apply Sound.upd)

theorem State.dropAreas_sound {s₀ : State} {s : State} (c : Nat) (hs : Sound s₀ s) : Sound s₀ (State.dropAreas s c) := by
  unfold State.dropAreas
  repeat' first
    | with_reducible assumption
    | (extract_lets +onlyGivenNames t; guard_hyp t : State := _; refine Sound.cut (Q := Sound s₀ t) ?_ ?_; (on_goal 1 => (subst t)); (on_goal 2 => (clear_value t; intro _)))
    | with_reducible apply Sound.modCx
    | with_reducible apply State.dropAreaBytes_sound

theorem State.cutStep_sound {s₀ : State} {s : State} (c status detail : Nat) (hs : Sound s₀ s) : Sound s₀ (State.cutStep s c status detail) := by
  unfold State.cutStep
  repeat' first
    | with_reducible assumption
    | (extract_lets +onlyGivenNames t; guard_hyp t : State := _; refine Sound.cut (Q := Sound s₀ t) ?_ ?_; (on_goal 1 => (subst t)); (on_goal 2 => (clear_value t; intro _)))
    | with_reducible apply Sound.modCx
    | with_reducible apply State.finish_sound
    | with_reducible apply State.sendTrailer_sound
    | with_reducible apply State.withdraw_sound
    | split

theorem State.dropLegs_sound {s₀ : State} {s : State} (c : Nat) (hs : Sound s₀ s) : Sound s₀ (State.dropLegs s c) := by
  unfold State.dropLegs
  repeat' first
    | with_reducible assumption
    | (extract_lets +onlyGivenNames t; guard_hyp t : State := _; refine Sound.cut (Q := Sound s₀ t) ?_ ?_; (on_goal 1 => (subst t)); (on_goal 2 => (clear_value t; intro _)))
    | with_reducible apply Sound.modClu
    | with_reducible apply State.clearStrands_sound
    | with_reducible apply State.countShares_sound
    | with_reducible apply State.freeLeg_sound
    | with_reducible apply Sound.foldl
    | intro _ _ _
    | with_reducible rfl
    | (with_reducible apply Sound.upd)

theorem State.endWaybills_sound {s₀ : State} {s : State} (c : Nat) (w : Waybill) (status detail : Nat) (hs : Sound s₀ s) : Sound s₀ (State.endWaybills s c w status detail) := by
  unfold State.endWaybills
  repeat' first
    | with_reducible assumption
    | with_reducible apply State.finish_sound
    | with_reducible apply Sound.foldl
    | intro _ _ _

theorem execCtxEnd_sound {s₀ : State} (w : Waybill) {s : State} (hs : Sound s₀ s) : SoundOut s₀ (execCtxEnd w s) := by
  unfold execCtxEnd
  repeat' first
    | with_reducible apply SoundOut.next
    | with_reducible assumption
    | (extract_lets +onlyGivenNames t; guard_hyp t : State := _; refine Sound.cut (Q := Sound s₀ t) ?_ ?_; (on_goal 1 => (subst t)); (on_goal 2 => (clear_value t; intro _)))
    | (fail_if_no_progress extract_lets +onlyGivenNames t; first | clear_value t)
    | with_reducible apply Sound.modCx
    | with_reducible apply State.finish_sound
    | with_reducible apply State.freeze_sound
    | with_reducible apply State.cutLegs_sound
    | with_reducible apply State.evictAll_sound
    | with_reducible apply State.freeCluster_sound
    | with_reducible apply State.releaseShelves_sound
    | with_reducible apply State.startWb_sound
    | with_reducible apply State.dropTraffic_sound
    | with_reducible apply State.dropAreas_sound
    | with_reducible apply State.cutStep_sound
    | with_reducible apply State.dropLegs_sound
    | with_reducible apply State.endWaybills_sound
    | with_reducible apply Sound.foldl
    | intro _ _ _

theorem State.configWb_sound {s₀ : State} {s : State} (w : Waybill) (op : Nat) (hs : Sound s₀ s) : Sound s₀ (State.configWb s w op) := by
  unfold State.configWb
  repeat' first
    | with_reducible assumption
    | with_reducible apply Sound.modCx
    | with_reducible apply State.configureNow_sound
    | with_reducible apply State.startWb_sound
    | intro _ _ _
    | split

theorem execPlacement_sound {s₀ : State} (w : Waybill) {s : State} (hs : Sound s₀ s) : SoundOut s₀ (execPlacement w s) := by
  unfold execPlacement
  repeat' first
    | with_reducible apply SoundOut.next
    | with_reducible assumption
    | with_reducible apply State.configWb_sound

theorem execLscaleSet_sound {s₀ : State} (w : Waybill) {s : State} (hs : Sound s₀ s) : SoundOut s₀ (execLscaleSet w s) := by
  unfold execLscaleSet
  repeat' first
    | with_reducible apply SoundOut.next
    | with_reducible assumption
    | with_reducible apply State.configWb_sound

theorem execHparamSet_sound {s₀ : State} (w : Waybill) {s : State} (hs : Sound s₀ s) : SoundOut s₀ (execHparamSet w s) := by
  unfold execHparamSet
  repeat' first
    | with_reducible apply SoundOut.next
    | with_reducible assumption
    | with_reducible apply State.configWb_sound

theorem execFnLoad_sound {s₀ : State} (w : Waybill) {s : State} (hs : Sound s₀ s) : SoundOut s₀ (execFnLoad w s) := by
  unfold execFnLoad
  repeat' first
    | with_reducible apply SoundOut.next
    | with_reducible assumption
    | with_reducible apply State.configWb_sound

theorem execRecipeLoad_sound {s₀ : State} (w : Waybill) {s : State} (hs : Sound s₀ s) : SoundOut s₀ (execRecipeLoad w s) := by
  unfold execRecipeLoad
  repeat' first
    | with_reducible apply SoundOut.next
    | with_reducible assumption
    | with_reducible apply State.configWb_sound

theorem execMapSet_sound {s₀ : State} (w : Waybill) {s : State} (hs : Sound s₀ s) : SoundOut s₀ (execMapSet w s) := by
  unfold execMapSet
  repeat' first
    | with_reducible apply SoundOut.next
    | with_reducible assumption
    | with_reducible apply State.configWb_sound

theorem execLegLoad_sound {s₀ : State} (w : Waybill) {s : State} (hs : Sound s₀ s) : SoundOut s₀ (execLegLoad w s) := by
  unfold execLegLoad
  repeat' first
    | with_reducible apply SoundOut.next
    | with_reducible assumption
    | with_reducible apply State.finish_sound
    | with_reducible apply State.dmaWrite_sound
    | with_reducible apply State.startWb_sound
    | intro _ _ _

theorem execShelfCreate_sound {s₀ : State} (w : Waybill) {s : State} (hs : Sound s₀ s) : SoundOut s₀ (execShelfCreate w s) := by
  unfold execShelfCreate
  repeat' first
    | with_reducible apply SoundOut.next
    | with_reducible assumption
    | (extract_lets +onlyGivenNames t; guard_hyp t : State := _; refine Sound.cut (Q := Sound s₀ t) ?_ ?_; (on_goal 1 => (subst t)); (on_goal 2 => (clear_value t; intro _)))
    | (fail_if_no_progress extract_lets +onlyGivenNames t; first | guard_hyp t : Cellar := _ | clear_value t)
    | with_reducible apply State.finish_sound
    | with_reducible apply State.startWb_sound
    | intro _ _ _
    | split
    | with_reducible rfl
    | (with_reducible apply Sound.upd)

theorem execShelfRelease_sound {s₀ : State} (w : Waybill) {s : State} (hs : Sound s₀ s) : SoundOut s₀ (execShelfRelease w s) := by
  unfold execShelfRelease
  repeat' first
    | with_reducible apply SoundOut.next
    | with_reducible assumption
    | with_reducible apply State.finish_sound
    | with_reducible apply State.releaseShelf_sound
    | with_reducible apply State.startWb_sound
    | intro _ _ _
    | split

theorem State.rangeLine_sound {s₀ : State} {s : State} (c op hint a : Nat) (hs : Sound s₀ s) : Sound s₀ (State.rangeLine s c op hint a).1 := by
  unfold State.rangeLine
  repeat' first
    | with_reducible assumption
    | (extract_lets +onlyGivenNames t; guard_hyp t : State := _; refine Sound.cut (Q := Sound s₀ t) ?_ ?_; (on_goal 1 => (subst t)); (on_goal 2 => (clear_value t; intro _)))
    | (fail_if_no_progress extract_lets +onlyGivenNames t; first | clear_value t)
    | with_reducible apply Sound.write
    | with_reducible apply State.enterPoison_sound
    | with_reducible apply State.putHome_sound
    | with_reducible apply State.recallAll_sound
    | with_reducible apply State.dropAll_sound
    | with_reducible apply State.evict_sound
    | (with_reducible refine fun _ e => State.fill_sound _ _ _ _ _ ?_ e)
    | with_reducible apply State.settleCopies_sound
    | with_reducible apply State.cleanLine_sound
    | with_reducible apply State.closeLock_sound
    | with_reducible apply Sound.getD
    | split

theorem State.rangeWb_sound {s₀ : State} {s : State} (w : Waybill) (op : Nat) (hs : Sound s₀ s) : Sound s₀ (State.rangeWb s w op) := by
  unfold State.rangeWb
  repeat' first
    | with_reducible assumption
    | (intro e; guard_hyp e : _ = _; cases e)
    | (intro _ _ _ _ e; guard_hyp e : _ = some _; revert e)
    | (extract_lets +onlyGivenNames t; guard_hyp t : State × _ := _; refine Sound.cut (Q := Sound s₀ t.1) ?_ ?_; (on_goal 1 => (subst t)); (on_goal 2 => (clear_value t; intro _)))
    | (fail_if_no_progress extract_lets +onlyGivenNames t; first | clear_value t)
    | with_reducible apply State.finish_sound
    | with_reducible apply State.tryWb_sound
    | with_reducible apply State.rangeLine_sound
    | with_reducible apply Sound.foldl_fst
    | intro _ _ _
    | split

theorem execRangePrefetch_sound {s₀ : State} (w : Waybill) {s : State} (hs : Sound s₀ s) : SoundOut s₀ (execRangePrefetch w s) := by
  unfold execRangePrefetch
  repeat' first
    | with_reducible apply SoundOut.next
    | with_reducible assumption
    | with_reducible apply State.rangeWb_sound

theorem execRangeFlush_sound {s₀ : State} (w : Waybill) {s : State} (hs : Sound s₀ s) : SoundOut s₀ (execRangeFlush w s) := by
  unfold execRangeFlush
  repeat' first
    | with_reducible apply SoundOut.next
    | with_reducible assumption
    | with_reducible apply State.rangeWb_sound

theorem execRangeInvalidate_sound {s₀ : State} (w : Waybill) {s : State} (hs : Sound s₀ s) : SoundOut s₀ (execRangeInvalidate w s) := by
  unfold execRangeInvalidate
  repeat' first
    | with_reducible apply SoundOut.next
    | with_reducible assumption
    | with_reducible apply State.rangeWb_sound

theorem execRangeDiscard_sound {s₀ : State} (w : Waybill) {s : State} (hs : Sound s₀ s) : SoundOut s₀ (execRangeDiscard w s) := by
  unfold execRangeDiscard
  repeat' first
    | with_reducible apply SoundOut.next
    | with_reducible assumption
    | with_reducible apply State.rangeWb_sound

theorem execRangeClose_sound {s₀ : State} (w : Waybill) {s : State} (hs : Sound s₀ s) : SoundOut s₀ (execRangeClose w s) := by
  unfold execRangeClose
  repeat' first
    | with_reducible apply SoundOut.next
    | with_reducible assumption
    | with_reducible apply State.rangeWb_sound

theorem State.freeLine_sound {s₀ : State} {s : State} (hs : Sound s₀ s) : Sound s₀ (State.freeLine s).1 := by
  unfold State.freeLine
  repeat' first
    | with_reducible assumption
    | with_reducible refine Sound.count ?_ _

theorem State.storeBad_sound {s₀ : State} {s : State} (c a : Nat) (hs : Sound s₀ s) : Sound s₀ (State.storeBad s c a) := by
  unfold State.storeBad
  repeat' first
    | with_reducible assumption
    | (extract_lets +onlyGivenNames t; guard_hyp t : State × _ := _; refine Sound.cut (Q := Sound s₀ t.1) ?_ ?_; (on_goal 1 => (subst t)); (on_goal 2 => (clear_value t; intro _)))
    | with_reducible apply State.enterPoison_sound
    | with_reducible apply State.makePz_sound
    | with_reducible apply State.storeLine_sound
    | with_reducible apply State.freeLine_sound
    | split

theorem execCopyLines_sound {s₀ : State} (w : Waybill) {s : State} (hs : Sound s₀ s) : SoundOut s₀ (execCopyLines w s) := by
  unfold execCopyLines
  repeat' first
    | with_reducible apply SoundOut.next
    | with_reducible assumption
    | (intro e; guard_hyp e : _ = _; cases e)
    | (intro _ _ _ _ e; guard_hyp e : _ = some _; revert e)
    | (extract_lets +onlyGivenNames t; guard_hyp t : State := _; refine Sound.cut (Q := Sound s₀ t) ?_ ?_; (on_goal 1 => (subst t)); (on_goal 2 => (clear_value t; intro _)))
    | (fail_if_no_progress extract_lets +onlyGivenNames t; first | clear_value t)
    | with_reducible apply State.finish_sound
    | with_reducible apply State.takeLine_sound
    | with_reducible apply State.storeLine_sound
    | with_reducible apply State.tryWb_sound
    | with_reducible apply State.storeBad_sound
    | with_reducible apply Sound.foldl
    | (with_reducible refine Sound.of_eq (by assumption) ?_)
    | intro _ _ _
    | split

theorem State.moveTiles_sound {s₀ : State} {s : State} (c src : Nat) (fuel : Nat) (x1 : Nat) (x2 : List (Nat × Nat)) (hs : Sound s₀ s) : Sound s₀ (State.moveTiles s c src fuel x1 x2).1 := by
  induction fuel generalizing s c src x1 x2 with
  | zero => exact hs
  | succ _ ih =>
    unfold State.moveTiles
    repeat' first
      | with_reducible assumption
      | (fail_if_no_progress extract_lets +onlyGivenNames t; first | clear_value t)
      | with_reducible apply State.takeLine_sound
      | (with_reducible refine Sound.of_eq (by assumption) ?_)
      | with_reducible apply ih
      | split

theorem State.placeTile_sound {s₀ : State} {s : State} (ids : List LineId) (hs : Sound s₀ s) : Sound s₀ (State.placeTile s ids) := by
  unfold State.placeTile
  repeat' first
    | with_reducible assumption
    | with_reducible rfl
    | (with_reducible apply Sound.upd)

theorem State.moveTile_sound {s₀ : State} {s : State} (c src dst size : Nat) (dirtyOnly : Bool) (hs : Sound s₀ s) : Sound s₀ (State.moveTile s c src dst size dirtyOnly) := by
  unfold State.moveTile
  repeat' first
    | with_reducible assumption
    | (extract_lets +onlyGivenNames t; guard_hyp t : State := _; refine Sound.cut (Q := Sound s₀ t) ?_ ?_; (on_goal 1 => (subst t)); (on_goal 2 => (clear_value t; intro _)))
    | (extract_lets +onlyGivenNames t; guard_hyp t : State × _ := _; refine Sound.cut (Q := Sound s₀ t.1) ?_ ?_; (on_goal 1 => (subst t)); (on_goal 2 => (clear_value t; intro _)))
    | (fail_if_no_progress extract_lets +onlyGivenNames t; first | clear_value t)
    | with_reducible apply State.takeLine_sound
    | with_reducible apply State.storeLine_sound
    | with_reducible apply State.freeLine_sound
    | with_reducible apply State.placeTile_sound
    | with_reducible apply Sound.foldl
    | with_reducible apply Sound.foldl_fst
    | (with_reducible refine Sound.of_eq (by assumption) ?_)
    | intro _ _ _
    | split

theorem execTileMove_sound {s₀ : State} (w : Waybill) {s : State} (hs : Sound s₀ s) : SoundOut s₀ (execTileMove w s) := by
  unfold execTileMove
  repeat' first
    | with_reducible apply SoundOut.next
    | with_reducible assumption
    | (intro e; guard_hyp e : _ = _; cases e)
    | (intro _ _ _ _ e; guard_hyp e : _ = some _; revert e)
    | (fail_if_no_progress extract_lets +onlyGivenNames t; first | clear_value t)
    | with_reducible apply State.finish_sound
    | with_reducible apply State.tryWb_sound
    | with_reducible apply State.moveTiles_sound
    | with_reducible apply State.moveTile_sound
    | with_reducible apply Sound.foldl
    | (with_reducible refine Sound.of_eq (by assumption) ?_)
    | intro _ _ _
    | split

theorem execStepWaybill_sound {s₀ : State} (w : Waybill) {s : State} (hs : Sound s₀ s) : SoundOut s₀ (execStepWaybill w s) := by
  unfold execStepWaybill
  repeat' first
    | with_reducible apply SoundOut.next
    | with_reducible assumption
    | with_reducible apply Sound.modCx
    | with_reducible apply State.startWb_sound
    | intro _ _ _

theorem execLegWaybill_sound {s₀ : State} (w : Waybill) {s : State} (hs : Sound s₀ s) : SoundOut s₀ (execLegWaybill w s) := by
  unfold execLegWaybill
  repeat' first
    | with_reducible apply SoundOut.next
    | with_reducible assumption
    | with_reducible apply Sound.modCx
    | with_reducible apply State.startWb_sound
    | intro _ _ _

theorem execRouteLoad_sound {s₀ : State} (w : Waybill) {s : State} (hs : Sound s₀ s) : SoundOut s₀ (execRouteLoad w s) := by
  unfold execRouteLoad
  repeat' first
    | with_reducible apply SoundOut.next
    | with_reducible assumption
    | (extract_lets +onlyGivenNames t; guard_hyp t : State := _; refine Sound.cut (Q := Sound s₀ t) ?_ ?_; (on_goal 1 => (subst t)); (on_goal 2 => (clear_value t; intro _)))
    | (fail_if_no_progress extract_lets +onlyGivenNames t; first | guard_hyp t : Fabric := _ | clear_value t)
    | with_reducible apply Sound.modPort
    | with_reducible apply State.finish_sound
    | with_reducible apply State.requeueAll_sound
    | with_reducible apply State.startWb_sound
    | with_reducible apply Sound.foldl
    | intro _ _ _
    | with_reducible rfl
    | (with_reducible apply Sound.upd)

theorem execRouteDefault_sound {s₀ : State} (w : Waybill) {s : State} (hs : Sound s₀ s) : SoundOut s₀ (execRouteDefault w s) := by
  unfold execRouteDefault
  repeat' first
    | with_reducible apply SoundOut.next
    | with_reducible assumption
    | (extract_lets +onlyGivenNames t; guard_hyp t : State := _; refine Sound.cut (Q := Sound s₀ t) ?_ ?_; (on_goal 1 => (subst t)); (on_goal 2 => (clear_value t; intro _)))
    | (fail_if_no_progress extract_lets +onlyGivenNames t; first | guard_hyp t : Fabric := _ | clear_value t)
    | with_reducible apply Sound.modPort
    | with_reducible apply State.finish_sound
    | with_reducible apply State.requeueAll_sound
    | with_reducible apply State.startWb_sound
    | with_reducible apply Sound.foldl
    | intro _ _ _
    | with_reducible rfl
    | (with_reducible apply Sound.upd)

theorem execPortRetrain_sound {s₀ : State} (w : Waybill) {s : State} (hs : Sound s₀ s) : SoundOut s₀ (execPortRetrain w s) := by
  unfold execPortRetrain
  repeat' first
    | with_reducible apply SoundOut.next
    | with_reducible assumption
    | with_reducible apply Sound.modPort
    | with_reducible apply State.startWb_sound
    | intro _ _ _

theorem execExportWaybill_sound {s₀ : State} (w : Waybill) {s : State} (hs : Sound s₀ s) : SoundOut s₀ (execExportWaybill w s) := by
  unfold execExportWaybill
  repeat' first
    | with_reducible apply SoundOut.next
    | with_reducible assumption
    | with_reducible apply State.startWb_sound
    | intro _ _ _

theorem execSetpoint_sound {s₀ : State} (w : Waybill) (t : Nat) {s : State} (hs : Sound s₀ s) : SoundOut s₀ (execSetpoint w t s) := by
  unfold execSetpoint
  repeat' first
    | with_reducible apply SoundOut.next
    | with_reducible assumption
    | with_reducible apply Sound.tick
    | with_reducible apply State.finish_sound
    | with_reducible apply State.writeSetpoint_sound
    | with_reducible apply State.startWb_sound
    | intro _ _ _

theorem State.clearCmdShed_sound {s₀ : State} {s : State} (hs : Sound s₀ s) : Sound s₀ (State.clearCmdShed s) := by
  unfold State.clearCmdShed
  repeat' first
    | with_reducible assumption
    | with_reducible apply State.react_sound
    | with_reducible rfl
    | (with_reducible apply Sound.upd)

theorem execShedClear_sound {s₀ : State} (w : Waybill) {s : State} (hs : Sound s₀ s) : SoundOut s₀ (execShedClear w s) := by
  unfold execShedClear
  repeat' first
    | with_reducible apply SoundOut.next
    | with_reducible assumption
    | with_reducible apply State.finish_sound
    | with_reducible apply State.startWb_sound
    | with_reducible apply State.clearCmdShed_sound
    | intro _ _ _

theorem execCoolant_sound {s₀ : State} (w : Waybill) {s : State} (hs : Sound s₀ s) : SoundOut s₀ (execCoolant w s) := by
  unfold execCoolant
  repeat' first
    | with_reducible apply SoundOut.next
    | with_reducible assumption
    | with_reducible apply State.finish_sound
    | with_reducible apply State.writeCoolant_sound
    | with_reducible apply State.startWb_sound
    | intro _ _ _

theorem execSelfTest_sound {s₀ : State} (w : Waybill) {s : State} (hs : Sound s₀ s) : SoundOut s₀ (execSelfTest w s) := by
  unfold execSelfTest
  repeat' first
    | with_reducible apply SoundOut.next
    | with_reducible assumption
    | (intro e; guard_hyp e : _ = _; cases e)
    | (intro _ _ _ _ e; guard_hyp e : _ = some _; revert e)
    | with_reducible apply State.startTest_sound
    | with_reducible apply State.tryWb_sound
    | split
    | with_reducible rfl
    | (with_reducible apply Sound.upd)

theorem execHbmRate_sound {s₀ : State} (w : Waybill) {s : State} (hs : Sound s₀ s) : SoundOut s₀ (execHbmRate w s) := by
  unfold execHbmRate
  repeat' first
    | with_reducible apply SoundOut.next
    | with_reducible assumption
    | with_reducible apply State.finish_sound
    | with_reducible apply State.startWb_sound
    | intro _ _ _
    | with_reducible rfl
    | (with_reducible apply Sound.upd)

end Sys2Proof.Machine
end

