-- ==== Sys2Proof/Laws/SoundPriority.lean ====
section
/-! SUPPORT. What every operation of Machine/Priority.lean keeps (Sound). -/

namespace Sys2Proof.Machine

open Sys2Proof

theorem State.takePrio_sound {s₀ : State} {s : State} (e : PrioEntry) (hs : Sound s₀ s) : Sound s₀ (State.takePrio s e) := by
  unfold State.takePrio
  repeat' first
    | with_reducible assumption
    | split
    | with_reducible rfl
    | (with_reducible apply Sound.upd)

theorem State.finishPrio_sound {s₀ : State} {s : State} (e : PrioEntry) (status detail : Nat) (hs : Sound s₀ s) : Sound s₀ (State.finishPrio s e status detail) := by
  unfold State.finishPrio
  repeat' first
    | with_reducible assumption
    | (extract_lets +onlyGivenNames t; guard_hyp t : State := _; refine Sound.cut (Q := Sound s₀ t) ?_ ?_; (on_goal 1 => (subst t)); (on_goal 2 => (clear_value t; intro _)))
    | (fail_if_no_progress extract_lets +onlyGivenNames t; first | guard_hyp t : HostIf := _ | clear_value t)
    | with_reducible apply Sound.emit
    | with_reducible apply Sound.write
    | split
    | with_reducible rfl
    | (with_reducible apply Sound.upd)

theorem State.sweepPrio_sound {s₀ : State} {s : State} (fuel : Nat) (hs : Sound s₀ s) : Sound s₀ (State.sweepPrio s fuel) := by
  induction fuel generalizing s   with
  | zero => exact hs
  | succ _ ih =>
    unfold State.sweepPrio
    repeat' first
      | with_reducible assumption
      | with_reducible apply State.takePrio_sound
      | with_reducible apply State.finishPrio_sound
      | with_reducible apply ih
      | split

theorem State.runPrio_sound {s₀ : State} {s : State} (e : PrioEntry) (ops : Waybill → Bool) (f : State → State) (hs : Sound s₀ s) (hf : ∀ t, Sound s₀ t → Sound s₀ (f t)) : Sound s₀ (State.runPrio s e ops f) := by
  unfold State.runPrio
  repeat' first
    | with_reducible assumption
    | (extract_lets +onlyGivenNames t; guard_hyp t : State := _; refine Sound.cut (Q := Sound s₀ t) ?_ ?_; (on_goal 1 => (subst t)); (on_goal 2 => (clear_value t; intro _)))
    | with_reducible apply State.takePrio_sound
    | with_reducible apply State.sweepPrio_sound
    | with_reducible apply hf
    | split

theorem execStatus_sound {s₀ : State} (e : PrioEntry) {s : State} (hs : Sound s₀ s) : SoundOut s₀ (execStatus e s) := by
  unfold execStatus
  repeat' first
    | with_reducible apply SoundOut.next
    | with_reducible assumption
    | with_reducible apply Sound.write
    | with_reducible apply State.finishPrio_sound
    | with_reducible apply State.runPrio_sound
    | intro _ _

theorem execPowerCap_sound {s₀ : State} (e : PrioEntry) (t : Nat) {s : State} (hs : Sound s₀ s) : SoundOut s₀ (execPowerCap e t s) := by
  unfold execPowerCap
  repeat' first
    | with_reducible apply SoundOut.next
    | with_reducible assumption
    | with_reducible apply Sound.tick
    | with_reducible apply State.writeSetpoint_sound
    | with_reducible apply State.finishPrio_sound
    | with_reducible apply State.runPrio_sound
    | intro _ _

theorem execShedLatch_sound {s₀ : State} (e : PrioEntry) (t : Nat) {s : State} (hs : Sound s₀ s) : SoundOut s₀ (execShedLatch e t s) := by
  unfold execShedLatch
  repeat' first
    | with_reducible apply SoundOut.next
    | with_reducible assumption
    | (fail_if_no_progress extract_lets +onlyGivenNames t; first | guard_hyp t : Toll := _ | clear_value t)
    | with_reducible apply Sound.tick
    | with_reducible apply State.react_sound
    | with_reducible apply State.finishPrio_sound
    | with_reducible apply State.runPrio_sound
    | intro _ _
    | with_reducible rfl
    | (with_reducible apply Sound.upd)

theorem execPriorityShedClear_sound {s₀ : State} (e : PrioEntry) {s : State} (hs : Sound s₀ s) : SoundOut s₀ (execPriorityShedClear e s) := by
  unfold execPriorityShedClear
  repeat' first
    | with_reducible apply SoundOut.next
    | with_reducible assumption
    | with_reducible apply State.clearCmdShed_sound
    | with_reducible apply State.finishPrio_sound
    | with_reducible apply State.runPrio_sound
    | intro _ _

theorem State.depart_sound {s₀ : State} {s : State} (hs : Sound s₀ s) : Sound s₀ (State.depart s) := by
  unfold State.depart
  repeat' first
    | with_reducible assumption
    | (extract_lets +onlyGivenNames t; guard_hyp t : State := _; refine Sound.cut (Q := Sound s₀ t) ?_ ?_; (on_goal 1 => (subst t)); (on_goal 2 => (clear_value t; intro _)))
    | (fail_if_no_progress extract_lets +onlyGivenNames t; first | guard_hyp t : Fabric := _ | clear_value t)
    | with_reducible apply State.idleLanes_sound
    | with_reducible apply State.tell_sound
    | with_reducible apply Sound.foldl
    | intro _ _ _
    | with_reducible rfl
    | (with_reducible apply Sound.upd)

theorem State.trainPorts_sound {s₀ : State} {s : State} (hs : Sound s₀ s) : Sound s₀ (State.trainPorts s) := by
  unfold State.trainPorts
  repeat' first
    | with_reducible assumption
    | with_reducible apply Sound.modPort
    | with_reducible apply Sound.foldl
    | intro _ _ _

theorem execQuiesceDepart_sound {s₀ : State} (e : PrioEntry) {s : State} (hs : Sound s₀ s) : SoundOut s₀ (execQuiesceDepart e s) := by
  unfold execQuiesceDepart
  repeat' first
    | with_reducible apply SoundOut.next
    | with_reducible assumption
    | with_reducible apply State.finishPrio_sound
    | with_reducible apply State.runPrio_sound
    | with_reducible apply State.depart_sound
    | intro _ _
    | split

theorem execQuiesceRejoin_sound {s₀ : State} (e : PrioEntry) {s : State} (hs : Sound s₀ s) : SoundOut s₀ (execQuiesceRejoin e s) := by
  unfold execQuiesceRejoin
  repeat' first
    | with_reducible apply SoundOut.next
    | with_reducible assumption
    | (extract_lets +onlyGivenNames t; guard_hyp t : State := _; refine Sound.cut (Q := Sound s₀ t) ?_ ?_; (on_goal 1 => (subst t)); (on_goal 2 => (clear_value t; intro _)))
    | (fail_if_no_progress extract_lets +onlyGivenNames t; first | guard_hyp t : Fabric := _ | clear_value t)
    | with_reducible apply State.finishPrio_sound
    | with_reducible apply State.runPrio_sound
    | with_reducible apply State.trainPorts_sound
    | intro _ _
    | split
    | with_reducible rfl
    | (with_reducible apply Sound.upd)

theorem execFreezeTileBoundary_sound {s₀ : State} (e : PrioEntry) (t : Nat) {s : State} (hs : Sound s₀ s) : SoundOut s₀ (execFreezeTileBoundary e t s) := by
  unfold execFreezeTileBoundary
  repeat' first
    | with_reducible apply SoundOut.next
    | with_reducible assumption
    | (extract_lets +onlyGivenNames t; guard_hyp t : State := _; refine Sound.cut (Q := Sound s₀ t) ?_ ?_; (on_goal 1 => (subst t)); (on_goal 2 => (clear_value t; intro _)))
    | (fail_if_no_progress extract_lets +onlyGivenNames t; first | guard_hyp t : Mc := _ | clear_value t)
    | with_reducible apply Sound.tick
    | with_reducible apply State.freeze_sound
    | with_reducible apply State.runPrio_sound
    | with_reducible apply Sound.foldl
    | intro _ _
    | with_reducible rfl
    | (with_reducible apply Sound.upd)

theorem execFreezeComplete_sound {s₀ : State} (t : Nat) {s : State} (hs : Sound s₀ s) : SoundOut s₀ (execFreezeComplete t s) := by
  unfold execFreezeComplete
  repeat' first
    | with_reducible apply SoundOut.next
    | with_reducible assumption
    | (fail_if_no_progress extract_lets +onlyGivenNames t; first | guard_hyp t : Mc := _ | clear_value t)
    | with_reducible apply Sound.tick
    | with_reducible apply State.finishPrio_sound
    | with_reducible apply State.sweepPrio_sound
    | split
    | with_reducible rfl
    | (with_reducible apply Sound.upd)

theorem execFreezeImmediate_sound {s₀ : State} (e : PrioEntry) {s : State} (hs : Sound s₀ s) : SoundOut s₀ (execFreezeImmediate e s) := by
  unfold execFreezeImmediate
  repeat' first
    | with_reducible apply SoundOut.next
    | with_reducible assumption
    | with_reducible apply State.freezeNow_sound
    | with_reducible apply State.finishPrio_sound
    | with_reducible apply State.runPrio_sound
    | with_reducible apply Sound.foldl
    | intro _ _

theorem execThaw_sound {s₀ : State} (e : PrioEntry) {s : State} (hs : Sound s₀ s) : SoundOut s₀ (execThaw e s) := by
  unfold execThaw
  repeat' first
    | with_reducible apply SoundOut.next
    | with_reducible assumption
    | with_reducible apply State.thawCtx_sound
    | with_reducible apply State.finishPrio_sound
    | with_reducible apply State.runPrio_sound
    | with_reducible apply Sound.foldl
    | intro _ _

theorem execCrashDump_sound {s₀ : State} (e : PrioEntry) {s : State} (hs : Sound s₀ s) : SoundOut s₀ (execCrashDump e s) := by
  unfold execCrashDump
  repeat' first
    | with_reducible apply SoundOut.next
    | with_reducible assumption
    | (extract_lets +onlyGivenNames t; guard_hyp t : State := _; refine Sound.cut (Q := Sound s₀ t) ?_ ?_; (on_goal 1 => (subst t)); (on_goal 2 => (clear_value t; intro _)))
    | (fail_if_no_progress extract_lets +onlyGivenNames t; first | clear_value t)
    | with_reducible apply Sound.write
    | with_reducible apply Sound.freeVal
    | with_reducible apply State.finishPrio_sound
    | with_reducible apply State.runPrio_sound
    | intro _ _

end Sys2Proof.Machine
end

