-- ==== Sys2Proof/Laws/SoundTollgate.lean ====
section
/-! SUPPORT. What every operation of Machine/Tollgate.lean keeps (Sound). -/

namespace Sys2Proof.Machine

open Sys2Proof

theorem State.whenPowered_sound {s₀ : State} {s : State} (f : State → State) (hs : Sound s₀ s) (hf : ∀ t, Sound s₀ t → Sound s₀ (f t)) : Sound s₀ (State.whenPowered s f) := by
  unfold State.whenPowered
  repeat' first
    | with_reducible assumption
    | with_reducible apply State.settleFloor_sound
    | with_reducible apply hf
    | split

theorem State.shedChange_sound {s₀ : State} {s : State} (t : Nat) (hs : Sound s₀ s) : Sound s₀ (State.shedChange s t) := by
  unfold State.shedChange
  repeat' first
    | with_reducible assumption
    | (extract_lets +onlyGivenNames t; guard_hyp t : State := _; refine Sound.cut (Q := Sound s₀ t) ?_ ?_; (on_goal 1 => (subst t)); (on_goal 2 => (clear_value t; intro _)))
    | (fail_if_no_progress extract_lets +onlyGivenNames t; first | guard_hyp t : Toll := _ | clear_value t)
    | with_reducible apply State.event_sound
    | split
    | with_reducible rfl
    | (with_reducible apply Sound.upd)

theorem execShedNAssert_sound {s₀ : State} (t : Nat) {s : State} (hs : Sound s₀ s) : SoundOut s₀ (execShedNAssert t s) := by
  unfold execShedNAssert
  repeat' first
    | with_reducible apply SoundOut.next
    | with_reducible assumption
    | with_reducible apply Sound.tick
    | with_reducible apply State.react_sound
    | with_reducible apply State.whenPowered_sound
    | with_reducible apply State.shedChange_sound
    | intro _ _
    | split
    | with_reducible rfl
    | (with_reducible apply Sound.upd)

theorem execShedNRelease_sound {s₀ : State} (t : Nat) {s : State} (hs : Sound s₀ s) : SoundOut s₀ (execShedNRelease t s) := by
  unfold execShedNRelease
  repeat' first
    | with_reducible apply SoundOut.next
    | with_reducible assumption
    | with_reducible apply Sound.tick
    | with_reducible apply State.react_sound
    | with_reducible apply State.whenPowered_sound
    | with_reducible apply State.shedChange_sound
    | intro _ _
    | split
    | with_reducible rfl
    | (with_reducible apply Sound.upd)

theorem execChatterClear_sound {s₀ : State} (t : Nat) {s : State} (hs : Sound s₀ s) : SoundOut s₀ (execChatterClear t s) := by
  unfold execChatterClear
  repeat' first
    | with_reducible apply SoundOut.next
    | with_reducible assumption
    | with_reducible apply Sound.tick
    | with_reducible apply State.whenPowered_sound
    | intro _ _
    | split
    | with_reducible rfl
    | (with_reducible apply Sound.upd)

theorem execEnvSetSample_sound {s₀ : State} (mv : Nat) (t : Nat) {s : State} (hs : Sound s₀ s) : SoundOut s₀ (execEnvSetSample mv t s) := by
  unfold execEnvSetSample
  repeat' first
    | with_reducible apply SoundOut.next
    | with_reducible assumption
    | with_reducible apply Sound.tick
    | with_reducible apply State.react_sound
    | with_reducible apply State.whenPowered_sound
    | intro _ _
    | with_reducible rfl
    | (with_reducible apply Sound.upd)

theorem execLeaseExpiry_sound {s₀ : State} (t : Nat) {s : State} (hs : Sound s₀ s) : SoundOut s₀ (execLeaseExpiry t s) := by
  unfold execLeaseExpiry
  repeat' first
    | with_reducible apply SoundOut.next
    | with_reducible assumption
    | (fail_if_no_progress extract_lets +onlyGivenNames t; first | guard_hyp t : Toll := _ | clear_value t)
    | with_reducible apply Sound.tick
    | with_reducible apply State.event_sound
    | with_reducible apply State.react_sound
    | with_reducible apply State.whenPowered_sound
    | intro _ _
    | split
    | with_reducible rfl
    | (with_reducible apply Sound.upd)

theorem State.setBeatValid_sound {s₀ : State} {s : State} (b : Bool) (hs : Sound s₀ s) : Sound s₀ (State.setBeatValid s b) := by
  unfold State.setBeatValid
  repeat' first
    | with_reducible assumption
    | (extract_lets +onlyGivenNames t; guard_hyp t : State := _; refine Sound.cut (Q := Sound s₀ t) ?_ ?_; (on_goal 1 => (subst t)); (on_goal 2 => (clear_value t; intro _)))
    | (fail_if_no_progress extract_lets +onlyGivenNames t; first | guard_hyp t : Beat := _ | clear_value t)
    | with_reducible apply Sound.emit
    | split
    | with_reducible rfl
    | (with_reducible apply Sound.upd)

theorem State.beatLost_sound {s₀ : State} {s : State} (why : Nat) (hs : Sound s₀ s) : Sound s₀ (State.beatLost s why) := by
  unfold State.beatLost
  repeat' first
    | with_reducible assumption
    | (extract_lets +onlyGivenNames t; guard_hyp t : State := _; refine Sound.cut (Q := Sound s₀ t) ?_ ?_; (on_goal 1 => (subst t)); (on_goal 2 => (clear_value t; intro _)))
    | (fail_if_no_progress extract_lets +onlyGivenNames t; first | guard_hyp t : Beat := _ | clear_value t)
    | with_reducible apply State.event_sound
    | with_reducible apply State.setBeatValid_sound
    | with_reducible rfl
    | (with_reducible apply Sound.upd)

theorem State.beatReject_sound {s₀ : State} {s : State} (t : Nat) (hs : Sound s₀ s) : Sound s₀ (State.beatReject s t) := by
  unfold State.beatReject
  repeat' first
    | with_reducible assumption
    | (fail_if_no_progress extract_lets +onlyGivenNames t; first | guard_hyp t : Beat := _ | clear_value t)
    | with_reducible apply State.beatLost_sound
    | split
    | with_reducible rfl
    | (with_reducible apply Sound.upd)

theorem State.beatInterval_sound {s₀ : State} {s : State} (iv : Nat) (hs : Sound s₀ s) : Sound s₀ (State.beatInterval s iv) := by
  unfold State.beatInterval
  repeat' first
    | with_reducible assumption
    | (extract_lets +onlyGivenNames t; guard_hyp t : State := _; refine Sound.cut (Q := Sound s₀ t) ?_ ?_; (on_goal 1 => (subst t)); (on_goal 2 => (clear_value t; intro _)))
    | (fail_if_no_progress extract_lets +onlyGivenNames t; first | guard_hyp t : Beat := _ | clear_value t)
    | with_reducible apply State.setBeatValid_sound
    | split
    | with_reducible rfl
    | (with_reducible apply Sound.upd)

theorem execBeatEdge_sound {s₀ : State} (t : Nat) (highOk : Bool) {s : State} (hs : Sound s₀ s) : SoundOut s₀ (execBeatEdge t highOk s) := by
  unfold execBeatEdge
  repeat' first
    | with_reducible apply SoundOut.next
    | with_reducible assumption
    | (extract_lets +onlyGivenNames t; guard_hyp t : State := _; refine Sound.cut (Q := Sound s₀ t) ?_ ?_; (on_goal 1 => (subst t)); (on_goal 2 => (clear_value t; intro _)))
    | (fail_if_no_progress extract_lets +onlyGivenNames t; first | guard_hyp t : Beat := _ | clear_value t)
    | with_reducible apply Sound.tick
    | with_reducible apply State.whenPowered_sound
    | with_reducible apply State.beatLost_sound
    | with_reducible apply State.beatReject_sound
    | with_reducible apply State.beatInterval_sound
    | intro _ _
    | split
    | with_reducible rfl
    | (with_reducible apply Sound.upd)

theorem execBeatInvalid_sound {s₀ : State} (t : Nat) {s : State} (hs : Sound s₀ s) : SoundOut s₀ (execBeatInvalid t s) := by
  unfold execBeatInvalid
  repeat' first
    | with_reducible apply SoundOut.next
    | with_reducible assumption
    | with_reducible apply Sound.tick
    | with_reducible apply State.whenPowered_sound
    | with_reducible apply State.beatLost_sound
    | intro _ _
    | split

theorem State.rise_sound {s₀ : State} {s : State} (hs : Sound s₀ s) : Sound s₀ (State.rise s) := by
  unfold State.rise
  repeat' first
    | with_reducible assumption
    | split
    | with_reducible rfl
    | (with_reducible apply Sound.upd)

theorem execSlotBoundary_sound {s₀ : State} (t : Nat) (slot : Nat) {s : State} (hs : Sound s₀ s) : SoundOut s₀ (execSlotBoundary t slot s) := by
  unfold execSlotBoundary
  repeat' first
    | with_reducible apply SoundOut.next
    | with_reducible assumption
    | (extract_lets +onlyGivenNames t; guard_hyp t : State := _; refine Sound.cut (Q := Sound s₀ t) ?_ ?_; (on_goal 1 => (subst t)); (on_goal 2 => (clear_value t; intro _)))
    | (fail_if_no_progress extract_lets +onlyGivenNames t; first | guard_hyp t : Beat := _ | clear_value t)
    | with_reducible apply Sound.tick
    | with_reducible apply State.applyUp_sound
    | with_reducible apply State.whenPowered_sound
    | with_reducible apply State.rise_sound
    | intro _ _
    | split
    | with_reducible rfl
    | (with_reducible apply Sound.upd)

theorem execInputUndervoltage_sound {s₀ : State} (t : Nat) {s : State} (hs : Sound s₀ s) : SoundOut s₀ (execInputUndervoltage t s) := by
  unfold execInputUndervoltage
  repeat' first
    | with_reducible apply SoundOut.next
    | with_reducible assumption
    | with_reducible apply Sound.tick
    | with_reducible apply State.react_sound
    | with_reducible apply State.whenPowered_sound
    | intro _ _
    | with_reducible rfl
    | (with_reducible apply Sound.upd)

theorem execInputRecovery_sound {s₀ : State} (t : Nat) {s : State} (hs : Sound s₀ s) : SoundOut s₀ (execInputRecovery t s) := by
  unfold execInputRecovery
  repeat' first
    | with_reducible apply SoundOut.next
    | with_reducible assumption
    | with_reducible apply Sound.tick
    | with_reducible apply State.react_sound
    | with_reducible apply State.whenPowered_sound
    | intro _ _
    | with_reducible rfl
    | (with_reducible apply Sound.upd)

theorem State.stepDown_sound {s₀ : State} {s : State} (k : Nat) (hs : Sound s₀ s) : Sound s₀ (State.stepDown s k) := by
  unfold State.stepDown
  repeat' first
    | with_reducible assumption
    | with_reducible apply Sound.modClu

theorem State.govern_sound {s₀ : State} {s : State} (hs : Sound s₀ s) : Sound s₀ (State.govern s) := by
  unfold State.govern
  repeat' first
    | with_reducible assumption
    | (fail_if_no_progress extract_lets +onlyGivenNames t; first | clear_value t)
    | with_reducible apply State.holdCluster_sound
    | with_reducible apply State.stepDown_sound
    | with_reducible apply Sound.foldl
    | split

theorem execGovernorTick_sound {s₀ : State} (avgW : Nat) (t : Nat) {s : State} (hs : Sound s₀ s) : SoundOut s₀ (execGovernorTick avgW t s) := by
  unfold execGovernorTick
  repeat' first
    | with_reducible apply SoundOut.next
    | with_reducible assumption
    | (extract_lets +onlyGivenNames t; guard_hyp t : State := _; refine Sound.cut (Q := Sound s₀ t) ?_ ?_; (on_goal 1 => (subst t)); (on_goal 2 => (clear_value t; intro _)))
    | (fail_if_no_progress extract_lets +onlyGivenNames t; first | guard_hyp t : Toll := _ | clear_value t)
    | with_reducible apply Sound.tick
    | with_reducible apply State.whenPowered_sound
    | with_reducible apply State.govern_sound
    | intro _ _
    | split
    | with_reducible rfl
    | (with_reducible apply Sound.upd)

theorem execHeatModelUpdate_sound {s₀ : State} (inlet : Nat) (plate : Nat) (power : Nat) (t : Nat) {s : State} (hs : Sound s₀ s) : SoundOut s₀ (execHeatModelUpdate inlet plate power t s) := by
  unfold execHeatModelUpdate
  repeat' first
    | with_reducible apply SoundOut.next
    | with_reducible assumption
    | (fail_if_no_progress extract_lets +onlyGivenNames t; first | guard_hyp t : Heat := _ | clear_value t)
    | with_reducible apply Sound.tick
    | with_reducible apply State.react_sound
    | with_reducible apply State.whenPowered_sound
    | intro _ _
    | with_reducible rfl
    | (with_reducible apply Sound.upd)

theorem State.sensorFails_sound {s₀ : State} {s : State} (x : Sensor) (hs : Sound s₀ s) : Sound s₀ (State.sensorFails s x) := by
  unfold State.sensorFails
  repeat' first
    | with_reducible assumption
    | (extract_lets +onlyGivenNames t; guard_hyp t : State := _; refine Sound.cut (Q := Sound s₀ t) ?_ ?_; (on_goal 1 => (subst t)); (on_goal 2 => (clear_value t; intro _)))
    | (fail_if_no_progress extract_lets +onlyGivenNames t; first | guard_hyp t : Heat := _ | guard_hyp t : Power := _ | clear_value t)
    | with_reducible apply State.retire_sound
    | split
    | with_reducible rfl
    | (with_reducible apply Sound.upd)

theorem execInletSensorFailure_sound {s₀ : State} (t : Nat) {s : State} (hs : Sound s₀ s) : SoundOut s₀ (execInletSensorFailure t s) := by
  unfold execInletSensorFailure
  repeat' first
    | with_reducible apply SoundOut.next
    | with_reducible assumption
    | with_reducible apply Sound.tick
    | with_reducible apply State.whenPowered_sound
    | with_reducible apply State.sensorFails_sound
    | intro _ _

theorem State.noteTemp_sound {s₀ : State} {s : State} (die : Die) (temp : Nat) (hs : Sound s₀ s) : Sound s₀ (State.noteTemp s die temp) := by
  unfold State.noteTemp
  repeat' first
    | with_reducible assumption
    | split
    | with_reducible rfl
    | (with_reducible apply Sound.upd)

theorem execDieThrottle_sound {s₀ : State} (die : Die) (temp : Nat) (t : Nat) {s : State} (hs : Sound s₀ s) : SoundOut s₀ (execDieThrottle die temp t s) := by
  unfold execDieThrottle
  repeat' first
    | with_reducible apply SoundOut.next
    | with_reducible assumption
    | (extract_lets +onlyGivenNames t; guard_hyp t : State := _; refine Sound.cut (Q := Sound s₀ t) ?_ ?_; (on_goal 1 => (subst t)); (on_goal 2 => (clear_value t; intro _)))
    | (fail_if_no_progress extract_lets +onlyGivenNames t; first | guard_hyp t : Power := _ | clear_value t)
    | with_reducible apply Sound.modClu
    | with_reducible apply Sound.modStack
    | with_reducible apply Sound.tick
    | with_reducible apply State.whenPowered_sound
    | with_reducible apply State.stepDown_sound
    | with_reducible apply State.noteTemp_sound
    | with_reducible apply Sound.foldl
    | intro _ _ _
    | intro _ _
    | split
    | with_reducible rfl
    | (with_reducible apply Sound.upd)

theorem execThrottleRelease_sound {s₀ : State} (die : Die) (temp : Nat) (t : Nat) {s : State} (hs : Sound s₀ s) : SoundOut s₀ (execThrottleRelease die temp t s) := by
  unfold execThrottleRelease
  repeat' first
    | with_reducible apply SoundOut.next
    | with_reducible assumption
    | (extract_lets +onlyGivenNames t; guard_hyp t : State := _; refine Sound.cut (Q := Sound s₀ t) ?_ ?_; (on_goal 1 => (subst t)); (on_goal 2 => (clear_value t; intro _)))
    | (fail_if_no_progress extract_lets +onlyGivenNames t; first | guard_hyp t : Power := _ | clear_value t)
    | with_reducible apply Sound.modClu
    | with_reducible apply Sound.modStack
    | with_reducible apply Sound.tick
    | with_reducible apply State.applyUp_sound
    | with_reducible apply State.whenPowered_sound
    | with_reducible apply State.noteTemp_sound
    | with_reducible apply Sound.foldl
    | intro _ _ _
    | intro _ _
    | split
    | with_reducible rfl
    | (with_reducible apply Sound.upd)

theorem execRetentionFloorReached_sound {s₀ : State} (t : Nat) {s : State} (hs : Sound s₀ s) : SoundOut s₀ (execRetentionFloorReached t s) := by
  unfold execRetentionFloorReached
  repeat' first
    | with_reducible apply SoundOut.next
    | with_reducible assumption
    | (extract_lets +onlyGivenNames t; guard_hyp t : State := _; refine Sound.cut (Q := Sound s₀ t) ?_ ?_; (on_goal 1 => (subst t)); (on_goal 2 => (clear_value t; intro _)))
    | (fail_if_no_progress extract_lets +onlyGivenNames t; first | guard_hyp t : Toll := _ | clear_value t)
    | with_reducible apply Sound.tick
    | with_reducible refine State.setTg_sound _ ?_ (by first | decide | assumption)
    | with_reducible apply State.whenPowered_sound
    | intro _ _
    | split
    | with_reducible rfl
    | (with_reducible apply Sound.upd)

theorem State.setStage_sound {s₀ : State} {s : State} (i : Nat) (x : Stage) (hs : Sound s₀ s) : Sound s₀ (State.setStage s i x) := by
  unfold State.setStage
  repeat' first
    | with_reducible assumption
    | with_reducible rfl
    | (with_reducible apply Sound.upd)

theorem State.setTrained_sound {s₀ : State} {s : State} (b : Bool) (hs : Sound s₀ s) : Sound s₀ (State.setTrained s b) := by
  unfold State.setTrained
  repeat' first
    | with_reducible assumption
    | with_reducible rfl
    | (with_reducible apply Sound.upd)

theorem State.allClu_sound {s₀ : State} {s : State} (f : Cluster → Cluster) (hs : Sound s₀ s) : Sound s₀ (State.allClu s f) := by
  unfold State.allClu
  repeat' first
    | with_reducible assumption
    | with_reducible apply Sound.modClu
    | with_reducible apply Sound.foldl
    | intro _ _ _

theorem execDeepFloorEntry_sound {s₀ : State} (ok : Bool) (t : Nat) {s : State} (hs : Sound s₀ s) : SoundOut s₀ (execDeepFloorEntry ok t s) := by
  unfold execDeepFloorEntry
  repeat' first
    | with_reducible apply SoundOut.next
    | with_reducible assumption
    | (extract_lets +onlyGivenNames t; guard_hyp t : State := _; refine Sound.cut (Q := Sound s₀ t) ?_ ?_; (on_goal 1 => (subst t)); (on_goal 2 => (clear_value t; intro _)))
    | (fail_if_no_progress extract_lets +onlyGivenNames t; first | guard_hyp t : HostIf := _ | guard_hyp t : Toll := _ | clear_value t)
    | with_reducible apply Sound.tick
    | with_reducible apply State.faultTraining_sound
    | with_reducible refine State.setTg_sound _ ?_ (by first | decide | assumption)
    | with_reducible apply State.depart_sound
    | with_reducible apply State.whenPowered_sound
    | with_reducible apply State.setStage_sound
    | with_reducible apply State.setTrained_sound
    | with_reducible apply State.allClu_sound
    | intro _ _
    | split
    | with_reducible rfl
    | (with_reducible apply Sound.upd)

theorem State.leaveFloor_sound {s₀ : State} {s : State} (until_ : Nat) (deep : Bool) (hs : Sound s₀ s) : Sound s₀ (State.leaveFloor s until_ deep) := by
  unfold State.leaveFloor
  repeat' first
    | with_reducible assumption
    | with_reducible refine State.setTg_sound _ ?_ (by first | decide | assumption)
    | with_reducible rfl
    | (with_reducible apply Sound.upd)

theorem execRetentionFloorExit_sound {s₀ : State} (t : Nat) {s : State} (hs : Sound s₀ s) : SoundOut s₀ (execRetentionFloorExit t s) := by
  unfold execRetentionFloorExit
  repeat' first
    | with_reducible apply SoundOut.next
    | with_reducible assumption
    | (extract_lets +onlyGivenNames t; guard_hyp t : State := _; refine Sound.cut (Q := Sound s₀ t) ?_ ?_; (on_goal 1 => (subst t)); (on_goal 2 => (clear_value t; intro _)))
    | (fail_if_no_progress extract_lets +onlyGivenNames t; first | guard_hyp t : Toll := _ | clear_value t)
    | with_reducible apply Sound.tick
    | with_reducible apply State.unpark_sound
    | with_reducible apply State.widenPorts_sound
    | with_reducible apply State.selfRefresh_sound
    | with_reducible apply State.whenPowered_sound
    | with_reducible apply State.leaveFloor_sound
    | with_reducible apply Sound.foldl
    | intro _ _
    | split
    | with_reducible rfl
    | (with_reducible apply Sound.upd)

theorem execIdlePointEntry_sound {s₀ : State} (t : Nat) {s : State} (hs : Sound s₀ s) : SoundOut s₀ (execIdlePointEntry t s) := by
  unfold execIdlePointEntry
  repeat' first
    | with_reducible apply SoundOut.next
    | with_reducible assumption
    | with_reducible apply Sound.tick
    | with_reducible refine State.setTg_sound _ ?_ (by first | decide | assumption)
    | with_reducible apply State.holdAll_sound
    | with_reducible apply State.whenPowered_sound
    | intro _ _
    | split

theorem execClusterRotation_sound {s₀ : State} (t : Nat) {s : State} (hs : Sound s₀ s) : SoundOut s₀ (execClusterRotation t s) := by
  unfold execClusterRotation
  repeat' first
    | with_reducible apply SoundOut.next
    | with_reducible assumption
    | (fail_if_no_progress extract_lets +onlyGivenNames t; first | guard_hyp t : Toll := _ | clear_value t)
    | with_reducible apply Sound.tick
    | with_reducible apply State.holdCluster_sound
    | with_reducible apply State.runWork_sound
    | with_reducible apply State.whenPowered_sound
    | with_reducible apply Sound.foldl
    | intro _ _
    | split
    | with_reducible rfl
    | (with_reducible apply Sound.upd)

theorem execTurnGivenUp_sound {s₀ : State} (cl : Nat) (t : Nat) {s : State} (hs : Sound s₀ s) : SoundOut s₀ (execTurnGivenUp cl t s) := by
  unfold execTurnGivenUp
  repeat' first
    | with_reducible apply SoundOut.next
    | with_reducible assumption
    | with_reducible apply Sound.tick
    | with_reducible apply State.holdCluster_sound
    | with_reducible apply State.releaseCluster_sound
    | with_reducible apply State.whenPowered_sound
    | intro _ _
    | split
    | with_reducible rfl
    | (with_reducible apply Sound.upd)

end Sys2Proof.Machine
end

