-- ==== Sys2Proof/Laws/SoundColumns.lean ====
section
/-! SUPPORT. What every operation of Machine/Columns.lean keeps (Sound). -/

namespace Sys2Proof.Machine

open Sys2Proof

theorem State.startLeaving_sound {s₀ : State} {s : State} (k : Nat) (hs : Sound s₀ s) : Sound s₀ (State.startLeaving s k) := by
  unfold State.startLeaving
  repeat' first
    | with_reducible assumption
    | (extract_lets +onlyGivenNames t; guard_hyp t : State := _; refine Sound.cut (Q := Sound s₀ t) ?_ ?_; (on_goal 1 => (subst t)); (on_goal 2 => (clear_value t; intro _)))
    | (fail_if_no_progress extract_lets +onlyGivenNames t; first | clear_value t)
    | with_reducible apply Sound.modCx
    | with_reducible apply Sound.modCol
    | with_reducible apply State.freeze_sound
    | split

theorem State.nameSubstitute_sound {s₀ : State} {s : State} (k : Nat) (hs : Sound s₀ s) : Sound s₀ (State.nameSubstitute s k) := by
  unfold State.nameSubstitute
  repeat' first
    | with_reducible assumption
    | (fail_if_no_progress extract_lets +onlyGivenNames t; first | clear_value t)
    | with_reducible apply Sound.modCol

theorem State.leaveTogether_sound {s₀ : State} {s : State} (l : List Nat) (hs : Sound s₀ s) : Sound s₀ (State.leaveTogether s l) := by
  unfold State.leaveTogether
  repeat' first
    | with_reducible assumption
    | (fail_if_no_progress extract_lets +onlyGivenNames t; first | clear_value t)
    | with_reducible apply State.startLeaving_sound
    | with_reducible apply State.nameSubstitute_sound
    | with_reducible apply Sound.foldl

theorem State.leaveMap_sound {s₀ : State} {s : State} (k : Nat) (hs : Sound s₀ s) : Sound s₀ (State.leaveMap s k) := by
  unfold State.leaveMap
  repeat' first
    | with_reducible assumption
    | with_reducible apply State.leaveTogether_sound

theorem State.leaveLine_sound {s₀ : State} {s : State} (id : LineId) (hs : Sound s₀ s) : Sound s₀ (State.leaveLine s id) := by
  unfold State.leaveLine
  repeat' first
    | with_reducible assumption
    | with_reducible apply State.putHome_sound
    | with_reducible apply State.recallAll_sound
    | with_reducible apply State.evict_sound
    | split

theorem State.moveLock_sound {s₀ : State} {s : State} (k j : Nat) (id : LineId) (hs : Sound s₀ s) : Sound s₀ (State.moveLock s k j id) := by
  unfold State.moveLock
  repeat' first
    | with_reducible assumption
    | (fail_if_no_progress extract_lets +onlyGivenNames t; first | clear_value t)
    | with_reducible apply State.putHome_sound

theorem State.cacheLock_sound {s₀ : State} {s : State} (id : LineId) (hs : Sound s₀ s) : Sound s₀ (State.cacheLock s id) := by
  unfold State.cacheLock
  repeat' first
    | with_reducible assumption
    | with_reducible apply State.putHome_sound
    | split

theorem State.moveWaiting_sound {s₀ : State} {s : State} (k j : Nat) (hs : Sound s₀ s) : Sound s₀ (State.moveWaiting s k j) := by
  unfold State.moveWaiting
  repeat' first
    | with_reducible assumption
    | (extract_lets +onlyGivenNames t; guard_hyp t : State := _; refine Sound.cut (Q := Sound s₀ t) ?_ ?_; (on_goal 1 => (subst t)); (on_goal 2 => (clear_value t; intro _)))
    | (fail_if_no_progress extract_lets +onlyGivenNames t; first | guard_hyp t : Cellar := _ | clear_value t)
    | with_reducible apply Sound.modClu
    | with_reducible apply Sound.modCnt
    | with_reducible apply Sound.modCol
    | with_reducible apply Sound.foldl
    | intro _ _ _
    | with_reducible rfl
    | (with_reducible apply Sound.upd)

theorem State.evacuate_sound {s₀ : State} {s : State} (k : Nat) (hs : Sound s₀ s) : Sound s₀ (State.evacuate s k) := by
  unfold State.evacuate
  extract_lets lo part m
  refine hs.mems fun e => ?_
  obtain ⟨h1, h2, h3, h4, h5, h6, h7, h8⟩ := (mems_and _).1 e
  refine (mems_and _).2 ⟨h1, h2, h3, h4, ?_, h6, h7, h8⟩
  have hp : ∀ x ∈ part, lo ≤ x.1 ∧ x.1 < lo + 2 ^ 23 := fun x hx => by simpa using (List.mem_filter.1 hx).2
  refine twf_append 0 (twf_append 0 (twf_tbelow 0 _ h5) (twf_filter 0 _ h2) fun x hx y hy => ?_) (twf_tfrom 0 _ h5) fun x hx y hy => ?_
  · exact lt_of_lt_of_le (mem_tbelow hx).2 (hp y hy).1
  · have hy := (mem_tfrom hy).2
    rcases List.mem_append.1 hx with hx | hx
    · exact lt_of_lt_of_le (mem_tbelow hx).2 (le_trans (Nat.le_add_right _ _) hy)
    · exact lt_of_lt_of_le (hp x hx).2 hy

theorem State.leftMap_sound {s₀ : State} {s : State} (k : Nat) (hs : Sound s₀ s) : Sound s₀ (State.leftMap s k) := by
  unfold State.leftMap
  repeat' first
    | with_reducible assumption
    | (extract_lets +onlyGivenNames t; guard_hyp t : State := _; refine Sound.cut (Q := Sound s₀ t) ?_ ?_; (on_goal 1 => (subst t)); (on_goal 2 => (clear_value t; intro _)))
    | (fail_if_no_progress extract_lets +onlyGivenNames t; first | clear_value t)
    | with_reducible apply Sound.modCol
    | with_reducible apply Sound.foldl
    | intro _ _ _

theorem State.loseColumn_sound {s₀ : State} {s : State} (k : Nat) (hs : Sound s₀ s) : Sound s₀ (State.loseColumn s k) := by
  unfold State.loseColumn
  repeat' first
    | with_reducible assumption
    | (extract_lets +onlyGivenNames t; guard_hyp t : State := _; refine Sound.cut (Q := Sound s₀ t) ?_ ?_; (on_goal 1 => (subst t)); (on_goal 2 => (clear_value t; intro _)))
    | (fail_if_no_progress extract_lets +onlyGivenNames t; first | guard_hyp t : Cellar := _ | clear_value t)
    | with_reducible apply Sound.modCol
    | with_reducible apply State.enterPoison_sound
    | with_reducible apply State.dropMu_sound
    | with_reducible apply Sound.foldl
    | intro _ _ _
    | with_reducible rfl
    | (with_reducible apply Sound.upd)

theorem State.evacDone_sound {s₀ : State} {s : State} (k : Nat) (hs : Sound s₀ s) : Sound s₀ (State.evacDone s k) := by
  unfold State.evacDone
  repeat' first
    | with_reducible assumption
    | (extract_lets +onlyGivenNames t; guard_hyp t : State := _; refine Sound.cut (Q := Sound s₀ t) ?_ ?_; (on_goal 1 => (subst t)); (on_goal 2 => (clear_value t; intro _)))
    | (fail_if_no_progress extract_lets +onlyGivenNames t; first | clear_value t)
    | with_reducible apply Sound.modCx
    | with_reducible apply State.thawCtx_sound
    | split

theorem State.countLost_sound {s₀ : State} {s : State} (hs : Sound s₀ s) : Sound s₀ (State.countLost s) := by
  unfold State.countLost
  repeat' first
    | with_reducible assumption
    | with_reducible apply State.service_sound
    | split

theorem execColumnEvacuationComplete_sound {s₀ : State} (col : Nat) {s : State} (hs : Sound s₀ s) : SoundOut s₀ (execColumnEvacuationComplete col s) := by
  unfold execColumnEvacuationComplete
  repeat' first
    | with_reducible apply SoundOut.next
    | with_reducible assumption
    | (extract_lets +onlyGivenNames t; guard_hyp t : State := _; refine Sound.cut (Q := Sound s₀ t) ?_ ?_; (on_goal 1 => (subst t)); (on_goal 2 => (clear_value t; intro _)))
    | (fail_if_no_progress extract_lets +onlyGivenNames t; first | clear_value t)
    | with_reducible apply State.serveColumn_sound
    | with_reducible apply State.leaveLine_sound
    | with_reducible apply State.moveLock_sound
    | with_reducible apply State.cacheLock_sound
    | with_reducible apply State.moveWaiting_sound
    | with_reducible apply State.evacuate_sound
    | with_reducible apply State.leftMap_sound
    | with_reducible apply State.evacDone_sound
    | with_reducible apply State.countLost_sound
    | with_reducible apply Sound.foldl
    | with_reducible refine Sound.elim _ ?_ fun _ => ?_
    | intro _ _ _
    | split

theorem execColumnControllerSilent_sound {s₀ : State} (col : Nat) (t : Nat) {s : State} (hs : Sound s₀ s) : SoundOut s₀ (execColumnControllerSilent col t s) := by
  unfold execColumnControllerSilent
  repeat' first
    | with_reducible apply SoundOut.next
    | with_reducible assumption
    | (extract_lets +onlyGivenNames t; guard_hyp t : State := _; refine Sound.cut (Q := Sound s₀ t) ?_ ?_; (on_goal 1 => (subst t)); (on_goal 2 => (clear_value t; intro _)))
    | with_reducible apply Sound.tick
    | with_reducible apply State.retire_sound
    | with_reducible apply State.leaveMap_sound
    | with_reducible apply State.loseColumn_sound
    | split

theorem State.channelFails_sound {s₀ : State} {s : State} (k coupler : Nat) (hs : Sound s₀ s) : Sound s₀ (State.channelFails s k coupler) := by
  unfold State.channelFails
  repeat' first
    | with_reducible assumption
    | (extract_lets +onlyGivenNames t; guard_hyp t : State := _; refine Sound.cut (Q := Sound s₀ t) ?_ ?_; (on_goal 1 => (subst t)); (on_goal 2 => (clear_value t; intro _)))
    | (fail_if_no_progress extract_lets +onlyGivenNames t; first | clear_value t)
    | with_reducible apply Sound.modCol
    | with_reducible apply State.retire_sound
    | with_reducible apply State.leaveTogether_sound
    | split

theorem State.couplerFails_sound {s₀ : State} {s : State} (k : Nat) (up : Bool) (coupler : Nat) (hs : Sound s₀ s) : Sound s₀ (State.couplerFails s k up coupler) := by
  unfold State.couplerFails
  repeat' first
    | with_reducible assumption
    | (fail_if_no_progress extract_lets +onlyGivenNames t; first | clear_value t)
    | with_reducible apply Sound.modCol
    | with_reducible apply State.channelFails_sound
    | split

theorem State.remapCoupler_sound {s₀ : State} {s : State} (k : Nat) (up : Bool) (coupler : Nat) (hs : Sound s₀ s) : Sound s₀ (State.remapCoupler s k up coupler) := by
  unfold State.remapCoupler
  repeat' first
    | with_reducible assumption
    | (extract_lets +onlyGivenNames t; guard_hyp t : State := _; refine Sound.cut (Q := Sound s₀ t) ?_ ?_; (on_goal 1 => (subst t)); (on_goal 2 => (clear_value t; intro _)))
    | (fail_if_no_progress extract_lets +onlyGivenNames t; first | clear_value t)
    | with_reducible apply Sound.modCol
    | with_reducible apply State.retire_sound
    | split

theorem State.endPause_sound {s₀ : State} {s : State} (hs : Sound s₀ s) : Sound s₀ (State.endPause s) := by
  unfold State.endPause
  repeat' first
    | with_reducible assumption
    | (extract_lets +onlyGivenNames t; guard_hyp t : State := _; refine Sound.cut (Q := Sound s₀ t) ?_ ?_; (on_goal 1 => (subst t)); (on_goal 2 => (clear_value t; intro _)))
    | with_reducible apply State.serveColumn_sound
    | with_reducible apply State.retryAll_sound
    | with_reducible apply State.sweepWbs_sound
    | with_reducible apply Sound.foldl
    | intro _ _ _

theorem execCouplerRemap_sound {s₀ : State} (k : Nat) (up : Bool) (coupler : Nat) {s : State} (hs : Sound s₀ s) : SoundOut s₀ (execCouplerRemap k up coupler s) := by
  unfold execCouplerRemap
  repeat' first
    | with_reducible apply SoundOut.next
    | with_reducible assumption
    | with_reducible apply State.remapCoupler_sound
    | with_reducible apply State.endPause_sound
    | split

theorem State.riserFails_sound {s₀ : State} {s : State} (k layer : Nat) (hs : Sound s₀ s) : Sound s₀ (State.riserFails s k layer) := by
  unfold State.riserFails
  repeat' first
    | with_reducible assumption
    | with_reducible apply State.retire_sound
    | with_reducible apply State.leaveMap_sound
    | split

theorem State.shortRun_sound {s₀ : State} {s : State} (r : TrimRun) (hs : Sound s₀ s) : Sound s₀ (State.shortRun s r) := by
  unfold State.shortRun
  repeat' first
    | with_reducible assumption
    | with_reducible apply State.couplerFails_sound
    | with_reducible apply State.remapCoupler_sound
    | with_reducible apply State.riserFails_sound
    | split

theorem State.trainChannels_sound {s₀ : State} {s : State} (x : Training) (hs : Sound s₀ s) : Sound s₀ (State.trainChannels s x) := by
  unfold State.trainChannels
  repeat' first
    | with_reducible assumption
    | (extract_lets +onlyGivenNames t; guard_hyp t : State := _; refine Sound.cut (Q := Sound s₀ t) ?_ ?_; (on_goal 1 => (subst t)); (on_goal 2 => (clear_value t; intro _)))
    | with_reducible apply Sound.modCol
    | with_reducible apply State.setTrained_sound
    | with_reducible apply State.shortRun_sound
    | with_reducible apply Sound.foldl
    | intro _ _ _

theorem State.newTrims_sound {s₀ : State} {s : State} (k : Nat) (hs : Sound s₀ s) : Sound s₀ (State.newTrims s k) := by
  unfold State.newTrims
  repeat' first
    | with_reducible assumption
    | with_reducible apply Sound.modCol
    | with_reducible refine Sound.count ?_ _

theorem State.startRetrim_sound {s₀ : State} {s : State} (k margin : Nat) (failing : List (Bool × Nat)) (hs : Sound s₀ s) : Sound s₀ (State.startRetrim s k margin failing) := by
  unfold State.startRetrim
  repeat' first
    | with_reducible assumption
    | with_reducible apply Sound.modCol
    | with_reducible apply State.couplerFails_sound
    | with_reducible apply State.newTrims_sound
    | with_reducible apply Sound.foldl
    | intro _ _ _

theorem State.dueRetrim_sound {s₀ : State} {s : State} (k margin : Nat) (failing : List (Bool × Nat)) (hs : Sound s₀ s) : Sound s₀ (State.dueRetrim s k margin failing) := by
  unfold State.dueRetrim
  repeat' first
    | with_reducible assumption
    | with_reducible apply Sound.modCol
    | with_reducible apply State.startRetrim_sound
    | split

theorem State.startDue_sound {s₀ : State} {s : State} (cl : Nat) (hs : Sound s₀ s) : Sound s₀ (State.startDue s cl) := by
  unfold State.startDue
  repeat' first
    | with_reducible assumption
    | with_reducible apply State.startRetrim_sound
    | split

theorem execChannelRetrim_sound {s₀ : State} (k : Nat) (margin : Nat) (failing : List (Bool × Nat)) (t : Nat) {s : State} (hs : Sound s₀ s) : SoundOut s₀ (execChannelRetrim k margin failing t s) := by
  unfold execChannelRetrim
  repeat' first
    | with_reducible apply SoundOut.next
    | with_reducible assumption
    | with_reducible apply Sound.modCol
    | with_reducible apply Sound.tick
    | with_reducible apply State.dueRetrim_sound
    | split

theorem execUnscheduledRetrim_sound {s₀ : State} (k : Nat) (before : Nat) (margin : Nat) (failing : List (Bool × Nat)) (t : Nat) {s : State} (hs : Sound s₀ s) : SoundOut s₀ (execUnscheduledRetrim k before margin failing t s) := by
  unfold execUnscheduledRetrim
  repeat' first
    | with_reducible apply SoundOut.next
    | with_reducible assumption
    | with_reducible apply Sound.modCol
    | with_reducible apply Sound.tick
    | with_reducible apply State.dueRetrim_sound
    | split

theorem execRetrimComplete_sound {s₀ : State} (k : Nat) (t : Nat) {s : State} (hs : Sound s₀ s) : SoundOut s₀ (execRetrimComplete k t s) := by
  unfold execRetrimComplete
  repeat' first
    | with_reducible apply SoundOut.next
    | with_reducible assumption
    | with_reducible apply Sound.modCol
    | with_reducible apply Sound.tick
    | with_reducible apply State.endPause_sound
    | with_reducible apply State.startDue_sound

theorem execClockStep_sound {s₀ : State} (cl : Nat) (t : Nat) {s : State} (hs : Sound s₀ s) : SoundOut s₀ (execClockStep cl t s) := by
  unfold execClockStep
  repeat' first
    | with_reducible apply SoundOut.next
    | with_reducible assumption
    | with_reducible apply Sound.modClu
    | with_reducible apply Sound.tick
    | with_reducible apply State.whenPowered_sound
    | with_reducible apply State.startDue_sound
    | intro _ _
    | split

theorem execDeepFloorExit_sound {s₀ : State} (x : Training) {s : State} (hs : Sound s₀ s) : SoundOut s₀ (execDeepFloorExit x s) := by
  unfold execDeepFloorExit
  repeat' first
    | with_reducible apply SoundOut.next
    | with_reducible assumption
    | (extract_lets +onlyGivenNames t; guard_hyp t : State := _; refine Sound.cut (Q := Sound s₀ t) ?_ ?_; (on_goal 1 => (subst t)); (on_goal 2 => (clear_value t; intro _)))
    | (fail_if_no_progress extract_lets +onlyGivenNames t; first | guard_hyp t : Fabric := _ | guard_hyp t : Toll := _ | clear_value t)
    | with_reducible apply Sound.tick
    | with_reducible apply State.trainPorts_sound
    | with_reducible apply State.whenPowered_sound
    | with_reducible apply State.setStage_sound
    | with_reducible apply State.allClu_sound
    | with_reducible apply State.leaveFloor_sound
    | with_reducible apply State.trainChannels_sound
    | intro _ _
    | split
    | with_reducible rfl
    | (with_reducible apply Sound.upd)

theorem execLineCheckFailure_sound {s₀ : State} (k : Nat) (x : LineCheck) (up : Bool) (coupler : Nat) (t : Nat) {s : State} (hs : Sound s₀ s) : SoundOut s₀ (execLineCheckFailure k x up coupler t s) := by
  unfold execLineCheckFailure
  repeat' first
    | with_reducible apply SoundOut.next
    | with_reducible assumption
    | (extract_lets +onlyGivenNames t; guard_hyp t : State := _; refine Sound.cut (Q := Sound s₀ t) ?_ ?_; (on_goal 1 => (subst t)); (on_goal 2 => (clear_value t; intro _)))
    | (fail_if_no_progress extract_lets +onlyGivenNames t; first | clear_value t)
    | with_reducible apply Sound.modCol
    | with_reducible apply Sound.tick
    | with_reducible apply State.startTest_sound
    | with_reducible apply State.couplerFails_sound
    | split

theorem State.layerOf_sound {s₀ : State} {s : State} (id : LineId) (hs : Sound s₀ s) : Sound s₀ (State.layerOf s id).1 := by
  unfold State.layerOf
  repeat' first
    | with_reducible assumption
    | with_reducible apply Sound.freeVal
    | split

theorem State.repairLine_sound {s₀ : State} {s : State} (id : LineId) (kind : Nat) (hs : Sound s₀ s) : Sound s₀ (State.repairLine s id kind) := by
  unfold State.repairLine
  repeat' first
    | with_reducible assumption
    | (extract_lets +onlyGivenNames t; guard_hyp t : State := _; refine Sound.cut (Q := Sound s₀ t) ?_ ?_; (on_goal 1 => (subst t)); (on_goal 2 => (clear_value t; intro _)))
    | (fail_if_no_progress extract_lets +onlyGivenNames t; first | clear_value t)
    | with_reducible apply Sound.modCol
    | with_reducible apply State.retire_sound
    | with_reducible apply State.leaveMap_sound
    | with_reducible apply State.layerOf_sound
    | (with_reducible refine Sound.of_eq (by assumption) ?_)
    | split

theorem State.poisonLine_sound {s₀ : State} {s : State} (id : LineId) (hs : Sound s₀ s) : Sound s₀ (State.poisonLine s id) := by
  unfold State.poisonLine
  repeat' first
    | with_reducible assumption
    | (extract_lets +onlyGivenNames t; guard_hyp t : State := _; refine Sound.cut (Q := Sound s₀ t) ?_ ?_; (on_goal 1 => (subst t)); (on_goal 2 => (clear_value t; intro _)))
    | (fail_if_no_progress extract_lets +onlyGivenNames t; first | clear_value t)
    | with_reducible apply Sound.modCol
    | with_reducible apply State.makePz_sound
    | with_reducible apply State.keepWaiting_sound
    | with_reducible apply State.serveHeld_sound
    | with_reducible apply State.immFault_sound
    | with_reducible apply Sound.foldl
    | split

theorem execCellarUncorrectable_sound {s₀ : State} (line : LineId) (t : Nat) {s : State} (hs : Sound s₀ s) : SoundOut s₀ (execCellarUncorrectable line t s) := by
  unfold execCellarUncorrectable
  repeat' first
    | with_reducible apply SoundOut.next
    | with_reducible assumption
    | (extract_lets +onlyGivenNames t; guard_hyp t : State := _; refine Sound.cut (Q := Sound s₀ t) ?_ ?_; (on_goal 1 => (subst t)); (on_goal 2 => (clear_value t; intro _)))
    | with_reducible apply Sound.tick
    | with_reducible apply State.startTest_sound
    | with_reducible apply State.poisonLine_sound
    | split

theorem execCellarCorrected_sound {s₀ : State} (line : LineId) (t : Nat) {s : State} (hs : Sound s₀ s) : SoundOut s₀ (execCellarCorrected line t s) := by
  unfold execCellarCorrected
  repeat' first
    | with_reducible apply SoundOut.next
    | with_reducible assumption
    | (extract_lets +onlyGivenNames t; guard_hyp t : State := _; refine Sound.cut (Q := Sound s₀ t) ?_ ?_; (on_goal 1 => (subst t)); (on_goal 2 => (clear_value t; intro _)))
    | (fail_if_no_progress extract_lets +onlyGivenNames t; first | clear_value t)
    | with_reducible apply Sound.modCol
    | with_reducible apply Sound.tick
    | with_reducible apply State.repairLine_sound
    | split

theorem execThrashIntervalEnd_sound {s₀ : State} (col : Nat) {s : State} (hs : Sound s₀ s) : SoundOut s₀ (execThrashIntervalEnd col s) := by
  unfold execThrashIntervalEnd
  repeat' first
    | with_reducible apply SoundOut.next
    | with_reducible assumption
    | (extract_lets +onlyGivenNames t; guard_hyp t : State := _; refine Sound.cut (Q := Sound s₀ t) ?_ ?_; (on_goal 1 => (subst t)); (on_goal 2 => (clear_value t; intro _)))
    | (fail_if_no_progress extract_lets +onlyGivenNames t; first | clear_value t)
    | with_reducible apply Sound.modCol
    | with_reducible apply State.event_sound
    | split

end Sys2Proof.Machine
end

