-- ==== Sys2Proof/Laws/SoundDram.lean ====
section
/-! SUPPORT. What every operation of Machine/Dram.lean keeps (Sound). -/

namespace Sys2Proof.Machine

open Sys2Proof

theorem State.repairExhausted_sound {s₀ : State} {s : State} (h pc row : Nat) (hs : Sound s₀ s) : Sound s₀ (State.repairExhausted s h pc row) := by
  unfold State.repairExhausted
  repeat' first
    | with_reducible assumption
    | with_reducible apply Sound.modStack
    | with_reducible apply State.fault_sound

theorem State.retireRow_sound {s₀ : State} {s : State} (h pc row : Nat) (hs : Sound s₀ s) : Sound s₀ (State.retireRow s h pc row) := by
  unfold State.retireRow
  repeat' first
    | with_reducible assumption
    | (fail_if_no_progress extract_lets +onlyGivenNames t; first | clear_value t)
    | with_reducible apply Sound.modStack
    | with_reducible apply State.repairExhausted_sound
    | split

theorem execRowRetirementComplete_sound {s₀ : State} (stack : Nat) (pc : Nat) (row : Nat) (bad : List Nat) {s : State} (hs : Sound s₀ s) : SoundOut s₀ (execRowRetirementComplete stack pc row bad s) := by
  unfold execRowRetirementComplete
  repeat' first
    | with_reducible apply SoundOut.next
    | with_reducible assumption
    | (extract_lets +onlyGivenNames t; guard_hyp t : State := _; refine Sound.cut (Q := Sound s₀ t) ?_ ?_; (on_goal 1 => (subst t)); (on_goal 2 => (clear_value t; intro _)))
    | (fail_if_no_progress extract_lets +onlyGivenNames t; first | clear_value t)
    | with_reducible apply Sound.modStack
    | with_reducible apply State.retire_sound
    | with_reducible apply State.enterPoison_sound
    | with_reducible apply Sound.foldl
    | split

theorem State.hbmError_sound {s₀ : State} {s : State} (addr t : Nat) (f : State → State) (hs : Sound s₀ s) (hf : ∀ t, Sound s₀ t → Sound s₀ (f t)) : Sound s₀ (State.hbmError s addr t f) := by
  unfold State.hbmError
  repeat' first
    | with_reducible assumption
    | with_reducible apply Sound.tick
    | with_reducible apply hf
    | split

theorem State.newAccess_sound {s₀ : State} {s : State} (addr : Nat) (kinds : List Nat) (hs : Sound s₀ s) : Sound s₀ (State.newAccess s addr kinds) := by
  unfold State.newAccess
  repeat' first
    | with_reducible assumption
    | with_reducible apply Sound.modStack

theorem State.countTry_sound {s₀ : State} {s : State} (addr kind most : Nat) (hs : Sound s₀ s) : Sound s₀ (State.countTry s addr kind most).1 := by
  unfold State.countTry
  repeat' first
    | with_reducible assumption
    | (fail_if_no_progress extract_lets +onlyGivenNames t; first | clear_value t)
    | with_reducible apply Sound.modStack

theorem State.uncorrectable_sound {s₀ : State} {s : State} (addr : Nat) (hs : Sound s₀ s) : Sound s₀ (State.uncorrectable s addr) := by
  unfold State.uncorrectable
  repeat' first
    | with_reducible assumption
    | (extract_lets +onlyGivenNames t; guard_hyp t : State := _; refine Sound.cut (Q := Sound s₀ t) ?_ ?_; (on_goal 1 => (subst t)); (on_goal 2 => (clear_value t; intro _)))
    | (fail_if_no_progress extract_lets +onlyGivenNames t; first | clear_value t)
    | with_reducible apply Sound.modStack
    | with_reducible apply State.enterPoison_sound
    | with_reducible apply State.startTest_sound
    | with_reducible apply State.retireRow_sound
    | with_reducible apply State.countTry_sound
    | (with_reducible refine Sound.of_eq (by assumption) ?_)
    | split

theorem execHbmCorrectedError_sound {s₀ : State} (addr : Nat) (t : Nat) {s : State} (hs : Sound s₀ s) : SoundOut s₀ (execHbmCorrectedError addr t s) := by
  unfold execHbmCorrectedError
  repeat' first
    | with_reducible apply SoundOut.next
    | with_reducible assumption
    | (extract_lets +onlyGivenNames t; guard_hyp t : State := _; refine Sound.cut (Q := Sound s₀ t) ?_ ?_; (on_goal 1 => (subst t)); (on_goal 2 => (clear_value t; intro _)))
    | (fail_if_no_progress extract_lets +onlyGivenNames t; first | clear_value t)
    | with_reducible apply Sound.modStack
    | with_reducible apply State.retireRow_sound
    | with_reducible apply State.hbmError_sound
    | intro _ _
    | split

theorem execHbmReadParityFailure_sound {s₀ : State} (x : HbmAccess) (t : Nat) {s : State} (hs : Sound s₀ s) : SoundOut s₀ (execHbmReadParityFailure x t s) := by
  unfold execHbmReadParityFailure
  repeat' first
    | with_reducible apply SoundOut.next
    | with_reducible assumption
    | with_reducible apply Sound.modStack
    | with_reducible apply State.hbmError_sound
    | with_reducible apply State.newAccess_sound
    | with_reducible apply State.countTry_sound
    | with_reducible apply State.uncorrectable_sound
    | (with_reducible refine Sound.of_eq (by assumption) ?_)
    | intro _ _
    | split

theorem execHbmWriteParityFailure_sound {s₀ : State} (x : HbmAccess) (t : Nat) {s : State} (hs : Sound s₀ s) : SoundOut s₀ (execHbmWriteParityFailure x t s) := by
  unfold execHbmWriteParityFailure
  repeat' first
    | with_reducible apply SoundOut.next
    | with_reducible assumption
    | with_reducible apply Sound.modStack
    | with_reducible apply State.enterPoison_sound
    | with_reducible apply State.startTest_sound
    | with_reducible apply State.hbmError_sound
    | with_reducible apply State.newAccess_sound
    | with_reducible apply State.countTry_sound
    | (with_reducible refine Sound.of_eq (by assumption) ?_)
    | intro _ _
    | split

theorem execHbmUncorrectableError_sound {s₀ : State} (x : HbmAccess) (t : Nat) {s : State} (hs : Sound s₀ s) : SoundOut s₀ (execHbmUncorrectableError x t s) := by
  unfold execHbmUncorrectableError
  repeat' first
    | with_reducible apply SoundOut.next
    | with_reducible assumption
    | with_reducible apply State.hbmError_sound
    | with_reducible apply State.newAccess_sound
    | with_reducible apply State.uncorrectable_sound
    | intro _ _
    | split

theorem execTemperatureReadout_sound {s₀ : State} (stackTemps : List Nat) (cellarTemps : List (Nat × Nat)) (t : Nat) {s : State} (hs : Sound s₀ s) : SoundOut s₀ (execTemperatureReadout stackTemps cellarTemps t s) := by
  unfold execTemperatureReadout
  repeat' first
    | with_reducible apply SoundOut.next
    | with_reducible assumption
    | (fail_if_no_progress extract_lets +onlyGivenNames t; first | clear_value t)
    | with_reducible apply Sound.modClu
    | with_reducible apply Sound.modStack
    | with_reducible apply Sound.tick
    | with_reducible apply Sound.foldl
    | intro _ _ _

theorem execRefreshRateFall_sound {s₀ : State} (die : Die) (temp : Nat) (t : Nat) {s : State} (hs : Sound s₀ s) : SoundOut s₀ (execRefreshRateFall die temp t s) := by
  unfold execRefreshRateFall
  repeat' first
    | with_reducible apply SoundOut.next
    | with_reducible assumption
    | with_reducible apply Sound.modClu
    | with_reducible apply Sound.modStack
    | with_reducible apply Sound.tick
    | split

theorem execOutriderFetchStart_sound {s₀ : State} (ctx : Nat) {s : State} (hs : Sound s₀ s) : SoundOut s₀ (execOutriderFetchStart ctx s) := by
  unfold execOutriderFetchStart
  repeat' first
    | with_reducible apply SoundOut.next
    | with_reducible assumption
    | (fail_if_no_progress extract_lets +onlyGivenNames t; first | clear_value t)
    | with_reducible apply Sound.modCx
    | split

theorem execCaravanFillComplete_sound {s₀ : State} (ctx : Nat) {s : State} (hs : Sound s₀ s) : SoundOut s₀ (execCaravanFillComplete ctx s) := by
  unfold execCaravanFillComplete
  repeat' first
    | with_reducible apply SoundOut.next
    | with_reducible assumption
    | with_reducible apply hf
    | (extract_lets +onlyGivenNames t; guard_hyp t : State → State := _; refine Sound.cut (Q := ∀ x, Sound s₀ x → Sound s₀ (t x)) ?_ ?_; (on_goal 1 => (intro x hx; subst t)); (on_goal 2 => (clear_value t; intro hf)))
    | (fail_if_no_progress extract_lets +onlyGivenNames t; first | clear_value t)
    | with_reducible apply Sound.modCx
    | with_reducible apply State.fillTile_sound
    | with_reducible apply Sound.foldl
    | intro _ _ _
    | split

theorem execCaravanFillError_sound {s₀ : State} (ctx : Nat) (tile : Nat) (t : Nat) {s : State} (hs : Sound s₀ s) : SoundOut s₀ (execCaravanFillError ctx tile t s) := by
  unfold execCaravanFillError
  repeat' first
    | with_reducible apply SoundOut.next
    | with_reducible assumption
    | (extract_lets +onlyGivenNames t; guard_hyp t : State := _; refine Sound.cut (Q := Sound s₀ t) ?_ ?_; (on_goal 1 => (subst t)); (on_goal 2 => (clear_value t; intro _)))
    | (fail_if_no_progress extract_lets +onlyGivenNames t; first | clear_value t)
    | with_reducible apply Sound.modStack
    | with_reducible apply Sound.tick
    | with_reducible apply Sound.freeVal
    | with_reducible apply State.enterPoison_sound
    | with_reducible apply State.poisonTile_sound
    | with_reducible apply State.startTest_sound
    | with_reducible apply State.retireRow_sound
    | (with_reducible refine Sound.of_eq_snd (by assumption) ?_)
    | split

theorem State.regenTile_sound {s₀ : State} {s : State} (c : Nat) (t : Tensor) (g a src : Nat) (hs : Sound s₀ s) : Sound s₀ (State.regenTile s c t g a src).1 := by
  unfold State.regenTile
  repeat' first
    | with_reducible assumption
    | (fail_if_no_progress extract_lets +onlyGivenNames t; first | clear_value t)
    | with_reducible apply State.readAll_sound
    | (with_reducible refine Sound.of_eq (by assumption) ?_)
    | split

theorem State.ownerSeals_sound {s₀ : State} {s : State} (c : Nat) (t : Tensor) (r : Nat) (hs : Sound s₀ s) : Sound s₀ (State.ownerSeals s c t r).1 := by
  unfold State.ownerSeals
  repeat' first
    | with_reducible assumption
    | (fail_if_no_progress extract_lets +onlyGivenNames t; first | clear_value t)
    | with_reducible apply State.published_sound
    | (with_reducible refine Sound.of_eq (by assumption) ?_)
    | split

theorem State.sealAgrees_sound {s₀ : State} {s : State} (c : Nat) (t : Tensor) (a : Nat) (w : List Byte) (hs : Sound s₀ s) : Sound s₀ (State.sealAgrees s c t a w).1 := by
  unfold State.sealAgrees
  repeat' first
    | with_reducible assumption
    | with_reducible apply State.ownerSeals_sound
    | split

theorem State.healMaster_sound {s₀ : State} {s : State} (c : Nat) (t : Tensor) (g : Nat) (hs : Sound s₀ s) : Sound s₀ (State.healMaster s c t g) := by
  unfold State.healMaster
  repeat' first
    | with_reducible assumption
    | with_reducible apply State.dmaWrite_sound

theorem State.tryRegen_sound {s₀ : State} {s : State} (c : Nat) (t : Tensor) (g a src : Nat) (hs : Sound s₀ s) {r : State × List Byte}
    (e : s.tryRegen c t g a src = some r) : Sound s₀ r.1 := by
  unfold State.tryRegen at e
  split at e
  · cases e
  · split at e
    · cases e
    next u w hu =>
      have h1 : Sound s₀ u := Sound.of_eq hu (State.regenTile_sound c t g a src hs)
      split at e
      · cases e
      next v hv =>
        have h2 : Sound s₀ v := Sound.of_eq hv (State.sealAgrees_sound c t a w h1)
        cases e
        dsimp only
        split
        · exact State.healMaster_sound _ _ _ h2
        · exact h2

theorem State.tileLost_sound {s₀ : State} {s : State} (c a : Nat) (hs : Sound s₀ s) : Sound s₀ (State.tileLost s c a) :=
  State.event_sound _ _ _ (State.freeze_sound _ ((State.faultTraining_sound _ _ _ hs).modCx _ _))

theorem State.regenerated_sound {s₀ : State} {s : State} (ctx layer tile src a : Nat) (fmt : Nat) (w : List Byte) (hs : Sound s₀ s) : Sound s₀ (State.regenerated s ctx layer tile src a fmt w) := by
  unfold State.regenerated
  repeat' first
    | with_reducible assumption
    | (extract_lets +onlyGivenNames t; guard_hyp t : State := _; refine Sound.cut (Q := Sound s₀ t) ?_ ?_; (on_goal 1 => (subst t)); (on_goal 2 => (clear_value t; intro _)))
    | with_reducible apply Sound.modCx
    | with_reducible apply State.fault_sound
    | with_reducible apply State.dmaWrite_sound
    | split

theorem execTileRegenerated_sound {s₀ : State} (ctx layer tile src : Nat) {s : State} (hs : Sound s₀ s) :
    SoundOut s₀ (execTileRegenerated ctx layer tile src s) := by
  unfold execTileRegenerated
  refine SoundOut.next ?_
  split
  · exact hs
  · extract_lets a
    split
    · exact hs
    · split
      · split
        · exact State.tileLost_sound _ _ hs
        · exact hs
      · split
        next e => exact State.regenerated_sound _ _ _ _ _ _ _ (State.tryRegen_sound _ _ _ _ _ hs e)
        · split
          · exact hs
          · split
            · exact State.tileLost_sound _ _ hs
            · split
              next e => exact State.regenerated_sound _ _ _ _ _ _ _ (State.tryRegen_sound _ _ _ _ _ hs e)
              · exact hs

theorem State.fetchSpill_sound {s₀ : State} {s : State} (c : Nat) (t : StashTile) (hs : Sound s₀ s) : Sound s₀ (State.fetchSpill s c t) := by
  unfold State.fetchSpill
  repeat' first
    | with_reducible assumption
    | (extract_lets +onlyGivenNames t; guard_hyp t : State := _; refine Sound.cut (Q := Sound s₀ t) ?_ ?_; (on_goal 1 => (subst t)); (on_goal 2 => (clear_value t; intro _)))
    | (fail_if_no_progress extract_lets +onlyGivenNames t; first | clear_value t)
    | with_reducible apply Sound.modCx
    | with_reducible apply State.writePlace_sound
    | with_reducible apply Sound.foldl
    | intro _ _ _
    | split

theorem execStashSpillFetch_sound {s₀ : State} (ctx : Nat) {s : State} (hs : Sound s₀ s) : SoundOut s₀ (execStashSpillFetch ctx s) := by
  unfold execStashSpillFetch
  repeat' first
    | with_reducible apply SoundOut.next
    | with_reducible assumption
    | with_reducible apply State.fetchSpill_sound
    | with_reducible apply Sound.foldl
    | intro _ _ _
    | split

end Sys2Proof.Machine
end

