-- ==== Sys2Proof/Laws/SoundFaults.lean ====
section
/-! SUPPORT. What every operation of Machine/Faults.lean keeps (Sound). -/

namespace Sys2Proof.Machine

open Sys2Proof

theorem State.abortWbs_sound {s₀ : State} {s : State} (p : WbEntry → Bool) (detail : Nat) (hs : Sound s₀ s) : Sound s₀ (State.abortWbs s p detail) := by
  unfold State.abortWbs
  repeat' first
    | with_reducible assumption
    | with_reducible apply State.finish_sound
    | with_reducible apply Sound.foldl
    | intro _ _ _

theorem State.dropTestWbs_sound {s₀ : State} {s : State} (hs : Sound s₀ s) : Sound s₀ (State.dropTestWbs s) := by
  unfold State.dropTestWbs
  repeat' first
    | with_reducible assumption
    | with_reducible rfl
    | (with_reducible apply Sound.upd)

theorem State.abandonAll_sound {s₀ : State} {s : State} (hs : Sound s₀ s) : Sound s₀ (State.abandonAll s) := by
  unfold State.abandonAll
  repeat' first
    | with_reducible assumption
    | with_reducible apply Sound.modCx
    | with_reducible apply State.dropTestWbs_sound
    | with_reducible apply Sound.foldl
    | intro _ _ _

theorem execMcCoreWatchdog_sound {s₀ : State} (core : Nat) (t : Nat) {s : State} (hs : Sound s₀ s) : SoundOut s₀ (execMcCoreWatchdog core t s) := by
  unfold execMcCoreWatchdog
  repeat' first
    | with_reducible apply SoundOut.next
    | with_reducible assumption
    | (extract_lets +onlyGivenNames t; guard_hyp t : State := _; refine Sound.cut (Q := Sound s₀ t) ?_ ?_; (on_goal 1 => (subst t)); (on_goal 2 => (clear_value t; intro _)))
    | (fail_if_no_progress extract_lets +onlyGivenNames t; first | guard_hyp t : Mc := _ | clear_value t)
    | with_reducible apply Sound.tick
    | with_reducible apply State.fault_sound
    | with_reducible apply State.sweepWbs_sound
    | with_reducible apply State.abortWbs_sound
    | with_reducible apply State.abandonAll_sound
    | split
    | with_reducible rfl
    | (with_reducible apply Sound.upd)

theorem execMcCoreRestartComplete_sound {s₀ : State} (core : Nat) {s : State} (hs : Sound s₀ s) : SoundOut s₀ (execMcCoreRestartComplete core s) := by
  unfold execMcCoreRestartComplete
  repeat' first
    | with_reducible apply SoundOut.next
    | with_reducible assumption
    | split
    | with_reducible rfl
    | (with_reducible apply Sound.upd)

theorem State.endLaunch_sound {s₀ : State} {s : State} (k : Nat) (hs : Sound s₀ s) : Sound s₀ (State.endLaunch s k) := by
  unfold State.endLaunch
  repeat' first
    | with_reducible assumption
    | with_reducible apply State.failLeg_sound
    | with_reducible apply Sound.foldl
    | intro _ _ _

theorem execCoreLogicFault_sound {s₀ : State} (core : Nat) (t : Nat) {s : State} (hs : Sound s₀ s) : SoundOut s₀ (execCoreLogicFault core t s) := by
  unfold execCoreLogicFault
  repeat' first
    | with_reducible apply SoundOut.next
    | with_reducible assumption
    | with_reducible apply Sound.tick
    | with_reducible apply State.startTest_sound
    | with_reducible apply State.endLaunch_sound
    | split

theorem execTier0Uncorrectable_sound {s₀ : State} (core : Nat) (off : Nat) (t : Nat) {s : State} (hs : Sound s₀ s) : SoundOut s₀ (execTier0Uncorrectable core off t s) := by
  unfold execTier0Uncorrectable
  repeat' first
    | with_reducible apply SoundOut.next
    | with_reducible assumption
    | (extract_lets +onlyGivenNames t; guard_hyp t : State := _; refine Sound.cut (Q := Sound s₀ t) ?_ ?_; (on_goal 1 => (subst t)); (on_goal 2 => (clear_value t; intro _)))
    | with_reducible apply Sound.modCor
    | with_reducible apply Sound.tick
    | with_reducible apply State.startTest_sound
    | split

theorem execTier0Corrected_sound {s₀ : State} (core : Nat) (off : Nat) (t : Nat) {s : State} (hs : Sound s₀ s) : SoundOut s₀ (execTier0Corrected core off t s) := by
  unfold execTier0Corrected
  repeat' first
    | with_reducible apply SoundOut.next
    | with_reducible assumption
    | (fail_if_no_progress extract_lets +onlyGivenNames t; first | clear_value t)
    | with_reducible apply Sound.modCor
    | with_reducible apply Sound.tick
    | with_reducible apply State.startTest_sound
    | split

theorem State.loseCopy_sound {s₀ : State} {s : State} (id : LineId) (hs : Sound s₀ s) : Sound s₀ (State.loseCopy s id) := by
  unfold State.loseCopy
  repeat' first
    | with_reducible assumption
    | with_reducible apply State.putHome_sound
    | with_reducible apply State.dropAll_sound
    | with_reducible apply State.makePz_sound
    | with_reducible apply State.poisonLine_sound
    | split

theorem execL1Parity_sound {s₀ : State} (core : Nat) (line : LineId) (t : Nat) {s : State} (hs : Sound s₀ s) : SoundOut s₀ (execL1Parity core line t s) := by
  unfold execL1Parity
  repeat' first
    | with_reducible apply SoundOut.next
    | with_reducible assumption
    | (extract_lets +onlyGivenNames t; guard_hyp t : State := _; refine Sound.cut (Q := Sound s₀ t) ?_ ?_; (on_goal 1 => (subst t)); (on_goal 2 => (clear_value t; intro _)))
    | with_reducible apply Sound.tick
    | with_reducible apply State.serve_sound
    | with_reducible apply State.startTest_sound
    | with_reducible apply State.loseCopy_sound
    | split

theorem execSensorFault_sound {s₀ : State} (sensor : Sensor) (t : Nat) {s : State} (hs : Sound s₀ s) : SoundOut s₀ (execSensorFault sensor t s) := by
  unfold execSensorFault
  repeat' first
    | with_reducible apply SoundOut.next
    | with_reducible assumption
    | with_reducible apply Sound.tick
    | with_reducible apply State.whenPowered_sound
    | with_reducible apply State.sensorFails_sound
    | intro _ _

theorem State.recoverSweep_sound {s₀ : State} {s : State} (core : Nat) (hs : Sound s₀ s) : Sound s₀ (State.recoverSweep s core) := by
  unfold State.recoverSweep
  repeat' first
    | with_reducible assumption
    | (fail_if_no_progress extract_lets +onlyGivenNames t; first | clear_value t)
    | with_reducible apply Sound.modRun
    | with_reducible apply State.modLeg_sound
    | with_reducible apply Sound.foldl
    | intro _ _ _

theorem State.failCore_sound {s₀ : State} {s : State} (core kind info : Nat) (hs : Sound s₀ s) : Sound s₀ (State.failCore s core kind info) := by
  unfold State.failCore
  repeat' first
    | with_reducible assumption
    | (extract_lets +onlyGivenNames t; guard_hyp t : State := _; refine Sound.cut (Q := Sound s₀ t) ?_ ?_; (on_goal 1 => (subst t)); (on_goal 2 => (clear_value t; intro _)))
    | (fail_if_no_progress extract_lets +onlyGivenNames t; first | clear_value t)
    | with_reducible apply Sound.modClu
    | with_reducible apply Sound.modCor
    | with_reducible apply State.retire_sound
    | with_reducible apply State.failLeg_sound
    | with_reducible apply State.endLaunch_sound
    | with_reducible apply State.recoverSweep_sound
    | with_reducible apply Sound.foldl
    | intro _ _ _
    | split

theorem State.failBank_sound {s₀ : State} {s : State} (core b kind info : Nat) (hs : Sound s₀ s) : Sound s₀ (State.failBank s core b kind info) := by
  unfold State.failBank
  repeat' first
    | with_reducible assumption
    | with_reducible apply Sound.modCor
    | with_reducible apply State.retire_sound
    | with_reducible apply State.failCore_sound
    | split

theorem State.failChannel_sound {s₀ : State} {s : State} (k kind info : Nat) (hs : Sound s₀ s) : Sound s₀ (State.failChannel s k kind info) := by
  unfold State.failChannel
  repeat' first
    | with_reducible assumption
    | with_reducible apply Sound.freeVal
    | with_reducible apply State.couplerFails_sound
    | with_reducible apply State.repairLine_sound
    | split

theorem State.failPc_sound {s₀ : State} {s : State} (h pc info : Nat) (hs : Sound s₀ s) : Sound s₀ (State.failPc s h pc info) := by
  unfold State.failPc
  repeat' first
    | with_reducible assumption
    | with_reducible apply Sound.modStack
    | with_reducible apply Sound.freeVal
    | with_reducible apply State.fault_sound
    | (with_reducible refine Sound.of_eq_snd (by assumption) ?_)
    | split

theorem State.fitWidth_sound {s₀ : State} {s : State} (p : Nat) (hs : Sound s₀ s) : Sound s₀ (State.fitWidth s p) := by
  unfold State.fitWidth
  repeat' first
    | with_reducible assumption
    | (fail_if_no_progress extract_lets +onlyGivenNames t; first | clear_value t)
    | with_reducible apply State.setWidth_sound
    | with_reducible apply State.portDown_sound
    | split

theorem State.failLane_sound {s₀ : State} {s : State} (p l info : Nat) (hs : Sound s₀ s) : Sound s₀ (State.failLane s p l info) := by
  unfold State.failLane
  repeat' first
    | with_reducible assumption
    | (extract_lets +onlyGivenNames t; guard_hyp t : State := _; refine Sound.cut (Q := Sound s₀ t) ?_ ?_; (on_goal 1 => (subst t)); (on_goal 2 => (clear_value t; intro _)))
    | (fail_if_no_progress extract_lets +onlyGivenNames t; first | clear_value t)
    | with_reducible apply Sound.modPort
    | with_reducible apply State.retire_sound
    | with_reducible apply State.fitWidth_sound

theorem State.passLane_sound {s₀ : State} {s : State} (p l : Nat) (hs : Sound s₀ s) : Sound s₀ (State.passLane s p l) := by
  unfold State.passLane
  repeat' first
    | with_reducible assumption
    | with_reducible apply Sound.modPort
    | with_reducible apply State.fitWidth_sound

theorem State.clearSuspect_sound {s₀ : State} {s : State} (p : Nat) (hs : Sound s₀ s) : Sound s₀ (State.clearSuspect s p) := by
  unfold State.clearSuspect
  repeat' first
    | with_reducible assumption
    | with_reducible apply Sound.modPort
    | split

theorem State.failUnit_sound {s₀ : State} {s : State} (u : TestUnit) (kind info : Nat) (hs : Sound s₀ s) : Sound s₀ (State.failUnit s u kind info) := by
  unfold State.failUnit
  repeat' first
    | with_reducible assumption
    | with_reducible apply State.failCore_sound
    | with_reducible apply State.failBank_sound
    | with_reducible apply State.failChannel_sound
    | with_reducible apply State.failPc_sound
    | with_reducible apply State.failLane_sound
    | split

theorem State.passUnit_sound {s₀ : State} {s : State} (x : TestRun) (hs : Sound s₀ s) : Sound s₀ (State.passUnit s x) := by
  unfold State.passUnit
  repeat' first
    | with_reducible assumption
    | (extract_lets +onlyGivenNames t; guard_hyp t : State := _; refine Sound.cut (Q := Sound s₀ t) ?_ ?_; (on_goal 1 => (subst t)); (on_goal 2 => (clear_value t; intro _)))
    | (fail_if_no_progress extract_lets +onlyGivenNames t; first | clear_value t)
    | with_reducible apply State.fault_sound
    | with_reducible apply State.passLane_sound
    | split

theorem State.answerTest_sound {s₀ : State} {s : State} (x : TestRun) (ok : Bool) (hs : Sound s₀ s) : Sound s₀ (State.answerTest s x ok) := by
  unfold State.answerTest
  repeat' first
    | with_reducible assumption
    | with_reducible apply State.finish_sound
    | split

theorem State.testDone_sound {s₀ : State} {s : State} (x : TestRun) (pass : Bool) (t : Nat) (hs : Sound s₀ s) : Sound s₀ (State.testDone s x pass t) := by
  unfold State.testDone
  repeat' first
    | with_reducible assumption
    | (extract_lets +onlyGivenNames t; guard_hyp t : State := _; refine Sound.cut (Q := Sound s₀ t) ?_ ?_; (on_goal 1 => (subst t)); (on_goal 2 => (clear_value t; intro _)))
    | (fail_if_no_progress extract_lets +onlyGivenNames t; first | guard_hyp t : Mc := _ | clear_value t)
    | with_reducible apply Sound.modCol
    | with_reducible apply State.sweepWbs_sound
    | with_reducible apply State.endPause_sound
    | with_reducible apply State.clearSuspect_sound
    | with_reducible apply State.failUnit_sound
    | with_reducible apply State.passUnit_sound
    | with_reducible apply State.answerTest_sound
    | split
    | with_reducible rfl
    | (with_reducible apply Sound.upd)

theorem execSelfTestComplete_sound {s₀ : State} (unit : TestUnit) (pass : Bool) (t : Nat) {s : State} (hs : Sound s₀ s) : SoundOut s₀ (execSelfTestComplete unit pass t s) := by
  unfold execSelfTestComplete
  repeat' first
    | with_reducible apply SoundOut.next
    | with_reducible assumption
    | with_reducible apply Sound.tick
    | with_reducible apply State.testDone_sound
    | split

end Sys2Proof.Machine
end

