-- ==== Sys2Proof/Laws/SoundResets.lean ====
section
/-! SUPPORT. What every operation of Machine/Resets.lean keeps (Sound). -/

namespace Sys2Proof.Machine

open Sys2Proof

theorem State.pauseLeg_sound {s₀ : State} {s : State} (g : LegRun) (hs : Sound s₀ s) : Sound s₀ (State.pauseLeg s g) := by
  unfold State.pauseLeg
  repeat' first
    | with_reducible assumption
    | with_reducible apply State.modLeg_sound
    | with_reducible apply State.endLeg_sound
    | split

theorem State.cutLonely_sound {s₀ : State} {s : State} (g : LegRun) (hs : Sound s₀ s) : Sound s₀ (State.cutLonely s g) := by
  unfold State.cutLonely
  repeat' first
    | with_reducible assumption
    | with_reducible apply State.closeLegLocks_sound
    | with_reducible apply State.dropLeg_sound

theorem State.resetLeg_sound {s₀ : State} {s : State} (g : LegRun) (hs : Sound s₀ s) : Sound s₀ (State.resetLeg s g) := by
  unfold State.resetLeg
  repeat' first
    | with_reducible assumption
    | (extract_lets +onlyGivenNames t; guard_hyp t : State := _; refine Sound.cut (Q := Sound s₀ t) ?_ ?_; (on_goal 1 => (subst t)); (on_goal 2 => (clear_value t; intro _)))
    | with_reducible apply State.dropMu_sound
    | with_reducible apply State.withdraw_sound
    | with_reducible apply State.dropLeg_sound
    | with_reducible apply State.pauseLeg_sound
    | with_reducible apply State.cutLonely_sound
    | split

theorem State.keepStep_sound {s₀ : State} {s : State} (c : Nat) (lost : Bool) (hs : Sound s₀ s) : Sound s₀ (State.keepStep s c lost) := by
  unfold State.keepStep
  repeat' first
    | with_reducible assumption
    | with_reducible apply Sound.modRun
    | with_reducible apply State.dropLeg_sound
    | with_reducible apply Sound.foldl
    | intro _ _ _
    | split

theorem State.loseStep_sound {s₀ : State} {s : State} (c : Nat) (hs : Sound s₀ s) : Sound s₀ (State.loseStep s c) := by
  unfold State.loseStep
  repeat' first
    | with_reducible assumption
    | (extract_lets +onlyGivenNames t; guard_hyp t : State := _; refine Sound.cut (Q := Sound s₀ t) ?_ ?_; (on_goal 1 => (subst t)); (on_goal 2 => (clear_value t; intro _)))
    | with_reducible apply Sound.modCx
    | with_reducible apply Sound.modRun
    | with_reducible apply State.dropLeg_sound
    | with_reducible apply State.voidStep_sound
    | with_reducible apply State.loseRank_sound
    | with_reducible apply Sound.foldl
    | intro _ _ _
    | split

theorem State.resetCtx_sound {s₀ : State} {s : State} (c : Nat) (lost : Bool) (hs : Sound s₀ s) : Sound s₀ (State.resetCtx s c lost) := by
  unfold State.resetCtx
  repeat' first
    | with_reducible assumption
    | (extract_lets +onlyGivenNames t; guard_hyp t : State := _; refine Sound.cut (Q := Sound s₀ t) ?_ ?_; (on_goal 1 => (subst t)); (on_goal 2 => (clear_value t; intro _)))
    | with_reducible apply Sound.modCx
    | with_reducible apply State.resetLeg_sound
    | with_reducible apply State.keepStep_sound
    | with_reducible apply State.loseStep_sound
    | with_reducible apply Sound.foldl
    | split

theorem State.allCols_sound {s₀ : State} {s : State} (f : Column → Column) (hs : Sound s₀ s) : Sound s₀ (State.allCols s f) := by
  unfold State.allCols
  repeat' first
    | with_reducible assumption
    | with_reducible apply Sound.modCol
    | with_reducible apply Sound.foldl
    | intro _ _ _

theorem State.dropCopies_sound {s₀ : State} {s : State} (hs : Sound s₀ s) : Sound s₀ (State.dropCopies s) := by
  unfold State.dropCopies
  repeat' first
    | with_reducible assumption
    | (extract_lets +onlyGivenNames t; guard_hyp t : State := _; refine Sound.cut (Q := Sound s₀ t) ?_ ?_; (on_goal 1 => (subst t)); (on_goal 2 => (clear_value t; intro _)))
    | (fail_if_no_progress extract_lets +onlyGivenNames t; first | guard_hyp t : Cellar := _ | clear_value t)
    | with_reducible apply State.putHome_sound
    | with_reducible apply Sound.foldl
    | intro _ _ _
    | with_reducible rfl
    | (with_reducible apply Sound.upd)

theorem State.warmCellar_sound {s₀ : State} {s : State} (hs : Sound s₀ s) : Sound s₀ (State.warmCellar s) := by
  unfold State.warmCellar
  repeat' first
    | with_reducible assumption
    | (extract_lets +onlyGivenNames t; guard_hyp t : State := _; refine Sound.cut (Q := Sound s₀ t) ?_ ?_; (on_goal 1 => (subst t)); (on_goal 2 => (clear_value t; intro _)))
    | (fail_if_no_progress extract_lets +onlyGivenNames t; first | guard_hyp t : Cellar := _ | clear_value t)
    | with_reducible apply State.recallAll_sound
    | with_reducible apply State.releaseShelves_sound
    | with_reducible apply State.arrive_sound
    | (with_reducible refine fun _ e => State.immArrive_sound _ ?_ e)
    | with_reducible apply State.poisonLine_sound
    | with_reducible apply State.allCols_sound
    | with_reducible apply State.dropCopies_sound
    | with_reducible apply Sound.foldl
    | with_reducible apply Sound.getD
    | intro _ _ _
    | with_reducible rfl
    | (with_reducible apply Sound.upd)

theorem State.coldCellar_sound {s₀ : State} {s : State} (hs : Sound s₀ s) : Sound s₀ (State.coldCellar s) := by
  unfold State.coldCellar
  repeat' first
    | with_reducible assumption
    | (extract_lets +onlyGivenNames t; guard_hyp t : State := _; refine Sound.cut (Q := Sound s₀ t) ?_ ?_; (on_goal 1 => (subst t)); (on_goal 2 => (clear_value t; intro _)))
    | (fail_if_no_progress extract_lets +onlyGivenNames t; first | guard_hyp t : Cellar := _ | clear_value t)
    | with_reducible apply State.releaseShelves_sound
    | with_reducible apply State.loseCopy_sound
    | with_reducible apply State.allCols_sound
    | with_reducible apply State.dropCopies_sound
    | with_reducible apply Sound.foldl
    | with_reducible rfl
    | (with_reducible apply Sound.upd)

theorem State.allCores_sound {s₀ : State} {s : State} (f : Core → Core) (hs : Sound s₀ s) : Sound s₀ (State.allCores s f) := by
  unfold State.allCores
  repeat' first
    | with_reducible assumption
    | with_reducible apply Sound.modCor
    | with_reducible apply Sound.foldl
    | intro _ _ _

theorem State.allStacks_sound {s₀ : State} {s : State} (f : Stack → Stack) (hs : Sound s₀ s) : Sound s₀ (State.allStacks s f) := by
  unfold State.allStacks
  repeat' first
    | with_reducible assumption
    | with_reducible apply Sound.modStack
    | with_reducible apply Sound.foldl
    | intro _ _ _

theorem State.allPorts_sound {s₀ : State} {s : State} (f : Port → Port) (hs : Sound s₀ s) : Sound s₀ (State.allPorts s f) := by
  unfold State.allPorts
  repeat' first
    | with_reducible assumption
    | with_reducible apply Sound.modPort
    | with_reducible apply Sound.foldl
    | intro _ _ _

theorem State.dropUpdate_sound {s₀ : State} {s : State} (hs : Sound s₀ s) : Sound s₀ (State.dropUpdate s) := by
  unfold State.dropUpdate
  repeat' first
    | with_reducible assumption
    | (fail_if_no_progress extract_lets +onlyGivenNames t; first | guard_hyp t : Mc := _ | clear_value t)
    | split
    | with_reducible rfl
    | (with_reducible apply Sound.upd)

theorem State.coldStart_sound {s₀ : State} {s : State} (cause : Nat) (hs : Sound s₀ s) : Sound s₀ (State.coldStart s cause) := by
  unfold State.coldStart
  extract_lets s1 lost s2 s3 s4 s5
  have h1 : Sound s₀ s1 := State.idleLanes_sound (State.setAlive_sound _ hs)
  clear_value s1 lost
  have h2 : Sound s₀ s2 := h1.noRings rfl
  clear_value s2
  have h3 : Sound s₀ s3 := Sound.foldl (fun t c ht => State.resetCtx_sound _ _ ht) _ (State.coldCellar_sound h2)
  clear_value s3
  have h4 : Sound s₀ s4 := State.allPorts_sound _ (State.allStacks_sound _ (State.allCores_sound _ (State.allClu_sound _ h3)))
  clear_value s4
  have h5 : Sound s₀ s5 := State.dropUpdate_sound h4
  clear_value s5
  refine ⟨h5.pending, h5.now, h5.free, h5.out, h5.seq, fun i => ?_⟩
  have j := h5.inv i
  exact ⟨j.mem, j.tables, j.faultLog, j.flashLog, j.faultLen, j.flashLen, j.repairs, Nat.zero_le _, by show 2 ≤ 6; decide⟩

theorem State.warmReset_sound {s₀ : State} {s : State} (hs : Sound s₀ s) : Sound s₀ (State.warmReset s) := by
  unfold State.warmReset
  repeat' first
    | with_reducible assumption
    | (extract_lets +onlyGivenNames t; guard_hyp t : State := _; refine Sound.cut (Q := Sound s₀ t) ?_ ?_; (on_goal 1 => (subst t)); (on_goal 2 => (clear_value t; intro _)))
    | (fail_if_no_progress extract_lets +onlyGivenNames t; first | guard_hyp t : Mc := _ | guard_hyp t : Fabric := _ | clear_value t)
    | with_reducible apply State.setAlive_sound
    | with_reducible apply State.idleLanes_sound
    | with_reducible apply State.trainPorts_sound
    | with_reducible apply State.allClu_sound
    | with_reducible apply State.startDue_sound
    | with_reducible apply State.abortWbs_sound
    | with_reducible apply State.dropTestWbs_sound
    | with_reducible apply State.resetCtx_sound
    | with_reducible apply State.warmCellar_sound
    | with_reducible apply State.allCores_sound
    | with_reducible apply State.allPorts_sound
    | with_reducible apply Sound.foldl
    | intro _ _ _
    | split
    | with_reducible rfl
    | rfl
    | (with_reducible apply Sound.upd)

theorem State.darkened_sound {s₀ : State} {s : State} (hs : Sound s₀ s) : Sound s₀ (State.darkened s) := by
  unfold State.darkened
  extract_lets r s1
  have h : Sound s₀ s1 := State.dropUpdate_sound hs
  clear_value s1
  refine ⟨h.pending, h.now, h.free, h.out, h.seq, fun i => ?_⟩
  have j := h.inv i
  refine ⟨?_, by rfl, logWf_nil _, j.flashLog, Nat.zero_le _, j.flashLen, j.repairs, Nat.zero_le _, by show 2 ≤ 6; decide⟩
  obtain ⟨_, _, _, _, _, _, _, h9⟩ := (mems_and _).1 j.mem
  exact (mems_and _).2 ⟨rfl, rfl, rfl, rfl, rfl, rfl, rfl, h9⟩

theorem State.setTrip_sound {s₀ : State} {s : State} (b : Bool) (hs : Sound s₀ s) : Sound s₀ (State.setTrip s b) := by
  unfold State.setTrip
  repeat' first
    | with_reducible assumption
    | with_reducible apply Sound.emit
    | split
    | with_reducible rfl
    | (with_reducible apply Sound.upd)

theorem State.losePower_sound {s₀ : State} {s : State} (hs : Sound s₀ s) : Sound s₀ (State.losePower s) := by
  unfold State.losePower
  repeat' first
    | with_reducible assumption
    | (extract_lets +onlyGivenNames t; guard_hyp t : State := _; refine Sound.cut (Q := Sound s₀ t) ?_ ?_; (on_goal 1 => (subst t)); (on_goal 2 => (clear_value t; intro _)))
    | (fail_if_no_progress extract_lets +onlyGivenNames t; first | guard_hyp t : Mc := _ | clear_value t)
    | with_reducible apply State.setService_sound
    | with_reducible apply State.setAlive_sound
    | with_reducible apply State.idleLanes_sound
    | with_reducible apply State.darkened_sound
    | with_reducible apply State.setTrip_sound
    | with_reducible rfl
    | (with_reducible apply Sound.upd)

theorem execPowerLoss_sound {s₀ : State} (t : Nat) {s : State} (hs : Sound s₀ s) : SoundOut s₀ (execPowerLoss t s) := by
  unfold execPowerLoss
  repeat' first
    | with_reducible apply SoundOut.next
    | with_reducible assumption
    | with_reducible apply Sound.tick
    | with_reducible apply State.losePower_sound
    | split

theorem execPowerOn_sound {s₀ : State} (t : Nat) {s : State} (hs : Sound s₀ s) : SoundOut s₀ (execPowerOn t s) := by
  unfold execPowerOn
  repeat' first
    | with_reducible apply SoundOut.next
    | with_reducible assumption
    | (fail_if_no_progress extract_lets +onlyGivenNames t; first | guard_hyp t : Mc := _ | guard_hyp t : Power := _ | clear_value t)
    | with_reducible apply Sound.tick
    | split
    | with_reducible rfl
    | (with_reducible apply Sound.upd)

theorem execPowerStagePhaseFault_sound {s₀ : State} (stage : Nat) (phase : Nat) (holds : Bool) (t : Nat) {s : State} (hs : Sound s₀ s) : SoundOut s₀ (execPowerStagePhaseFault stage phase holds t s) := by
  unfold execPowerStagePhaseFault
  repeat' first
    | with_reducible apply SoundOut.next
    | with_reducible assumption
    | (extract_lets +onlyGivenNames t; guard_hyp t : State := _; refine Sound.cut (Q := Sound s₀ t) ?_ ?_; (on_goal 1 => (subst t)); (on_goal 2 => (clear_value t; intro _)))
    | (fail_if_no_progress extract_lets +onlyGivenNames t; first | guard_hyp t : Power := _ | clear_value t)
    | with_reducible apply Sound.tick
    | with_reducible apply State.retire_sound
    | with_reducible apply State.whenPowered_sound
    | with_reducible apply State.losePower_sound
    | intro _ _
    | split
    | with_reducible rfl
    | (with_reducible apply Sound.upd)

theorem State.tripNow_sound {s₀ : State} {s : State} (hs : Sound s₀ s) : Sound s₀ (State.tripNow s) := by
  unfold State.tripNow
  extract_lets s1 d s2
  have h1 : Sound s₀ s1 := State.setTrip_sound _ (State.idleLanes_sound (State.setAlive_sound _ hs))
  have hd : Sound s₀ d := State.darkened_sound h1
  clear_value s1 d
  refine State.setTg_sound _ ⟨hd.pending, hd.now, hd.free, hd.out, h1.seq, fun i => ?_⟩
  have j := h1.inv i
  have k := hd.inv i
  obtain ⟨a1, a2, a3, a4, a5, a6, a7, a8⟩ := (mems_and _).1 k.mem
  obtain ⟨_, _, _, _, _, _, b8, _⟩ := (mems_and _).1 j.mem
  exact ⟨(mems_and _).2 ⟨a1, a2, a3, a4, a5, a6, b8, a8⟩, k.tables, j.faultLog, j.flashLog, j.faultLen, j.flashLen, j.repairs, j.lost, j.gate⟩

theorem execThermalTrip_sound {s₀ : State} (die : Die) (temp : Nat) (t : Nat) {s : State} (hs : Sound s₀ s) : SoundOut s₀ (execThermalTrip die temp t s) := by
  unfold execThermalTrip
  repeat' first
    | with_reducible apply SoundOut.next
    | with_reducible assumption
    | with_reducible apply Sound.tick
    | with_reducible apply State.whenPowered_sound
    | with_reducible apply State.noteTemp_sound
    | with_reducible apply State.tripNow_sound
    | intro _ _
    | split

theorem State.endTrip_sound {s₀ : State} {s : State} (hs : Sound s₀ s) : Sound s₀ (State.endTrip s) := by
  unfold State.endTrip
  extract_lets s1 s2
  have h : Sound s₀ s2 := State.dropUpdate_sound (State.setTg_sound _ (State.setTrip_sound _ hs))
  clear_value s2
  refine ⟨h.pending, h.now, h.free, h.out, h.seq, fun i => ?_⟩
  have j := h.inv i
  exact ⟨j.mem, j.tables, j.faultLog, j.flashLog, j.faultLen, j.flashLen, j.repairs, j.lost, by show 2 ≤ 6; decide⟩

theorem execResetNAssert_sound {s₀ : State} (t : Nat) {s : State} (hs : Sound s₀ s) : SoundOut s₀ (execResetNAssert t s) := by
  unfold execResetNAssert
  repeat' first
    | with_reducible apply SoundOut.next
    | with_reducible assumption
    | (extract_lets +onlyGivenNames t; guard_hyp t : State := _; refine Sound.cut (Q := Sound s₀ t) ?_ ?_; (on_goal 1 => (subst t)); (on_goal 2 => (clear_value t; intro _)))
    | (fail_if_no_progress extract_lets +onlyGivenNames t; first | guard_hyp t : Mc := _ | clear_value t)
    | with_reducible apply Sound.tick
    | with_reducible apply State.coldStart_sound
    | split
    | with_reducible rfl
    | (with_reducible apply Sound.upd)

theorem execResetNRelease_sound {s₀ : State} (t : Nat) {s : State} (hs : Sound s₀ s) : SoundOut s₀ (execResetNRelease t s) := by
  unfold execResetNRelease
  repeat' first
    | with_reducible apply SoundOut.next
    | with_reducible assumption
    | (extract_lets +onlyGivenNames t; guard_hyp t : State := _; refine Sound.cut (Q := Sound s₀ t) ?_ ?_; (on_goal 1 => (subst t)); (on_goal 2 => (clear_value t; intro _)))
    | (fail_if_no_progress extract_lets +onlyGivenNames t; first | guard_hyp t : Mc := _ | clear_value t)
    | with_reducible apply Sound.tick
    | with_reducible apply State.endTrip_sound
    | split
    | with_reducible rfl
    | (with_reducible apply Sound.upd)

theorem execWatchdogExpiry_sound {s₀ : State} (t : Nat) {s : State} (hs : Sound s₀ s) : SoundOut s₀ (execWatchdogExpiry t s) := by
  unfold execWatchdogExpiry
  repeat' first
    | with_reducible apply SoundOut.next
    | with_reducible assumption
    | with_reducible apply Sound.tick
    | with_reducible apply State.whenPowered_sound
    | with_reducible apply State.coldStart_sound
    | intro _ _
    | split

theorem State.joinReset_sound {s₀ : State} {s : State} (e : PrioEntry) (hs : Sound s₀ s) : Sound s₀ (State.joinReset s e) := by
  unfold State.joinReset
  repeat' first
    | with_reducible assumption
    | split
    | with_reducible rfl
    | (with_reducible apply Sound.upd)

theorem State.clearClusters_sound {s₀ : State} {s : State} (c : Nat) (hs : Sound s₀ s) : Sound s₀ (State.clearClusters s c) := by
  unfold State.clearClusters
  repeat' first
    | with_reducible assumption
    | (extract_lets +onlyGivenNames t; guard_hyp t : State := _; refine Sound.cut (Q := Sound s₀ t) ?_ ?_; (on_goal 1 => (subst t)); (on_goal 2 => (clear_value t; intro _)))
    | (fail_if_no_progress extract_lets +onlyGivenNames t; first | clear_value t)
    | with_reducible apply Sound.modClu
    | with_reducible apply Sound.modCor
    | with_reducible apply Sound.clear
    | with_reducible apply Sound.foldl
    | intro _ _ _

theorem State.contextReset_sound {s₀ : State} {s : State} (c : Nat) (hs : Sound s₀ s) : Sound s₀ (State.contextReset s c) := by
  unfold State.contextReset
  repeat' first
    | with_reducible assumption
    | (extract_lets +onlyGivenNames t; guard_hyp t : State := _; refine Sound.cut (Q := Sound s₀ t) ?_ ?_; (on_goal 1 => (subst t)); (on_goal 2 => (clear_value t; intro _)))
    | (fail_if_no_progress extract_lets +onlyGivenNames t; first | clear_value t)
    | with_reducible apply Sound.modCx
    | with_reducible apply State.finish_sound
    | with_reducible apply State.thawCtx_sound
    | with_reducible apply State.freezeNow_sound
    | with_reducible apply State.cutLonely_sound
    | with_reducible apply State.clearClusters_sound
    | with_reducible apply Sound.foldl
    | intro _ _ _

theorem execResetContext_sound {s₀ : State} (e : PrioEntry) {s : State} (hs : Sound s₀ s) : SoundOut s₀ (execResetContext e s) := by
  unfold execResetContext
  repeat' first
    | with_reducible apply SoundOut.next
    | with_reducible assumption
    | with_reducible apply State.sweepWbs_sound
    | with_reducible apply State.finishPrio_sound
    | with_reducible apply State.runPrio_sound
    | with_reducible apply State.joinReset_sound
    | with_reducible apply State.contextReset_sound
    | intro _ _
    | split

theorem execResetWarm_sound {s₀ : State} (e : PrioEntry) (t : Nat) {s : State} (hs : Sound s₀ s) : SoundOut s₀ (execResetWarm e t s) := by
  unfold execResetWarm
  repeat' first
    | with_reducible apply SoundOut.next
    | with_reducible assumption
    | with_reducible apply Sound.tick
    | with_reducible apply State.finishPrio_sound
    | with_reducible apply State.runPrio_sound
    | with_reducible apply State.warmReset_sound
    | with_reducible apply State.joinReset_sound
    | intro _ _
    | split

theorem execResetCold_sound {s₀ : State} (e : PrioEntry) (t : Nat) {s : State} (hs : Sound s₀ s) : SoundOut s₀ (execResetCold e t s) := by
  unfold execResetCold
  repeat' first
    | with_reducible apply SoundOut.next
    | with_reducible assumption
    | with_reducible apply Sound.tick
    | with_reducible apply State.finishPrio_sound
    | with_reducible apply State.runPrio_sound
    | with_reducible apply State.coldStart_sound
    | with_reducible apply State.endTrip_sound
    | with_reducible apply State.joinReset_sound
    | intro _ _
    | split

end Sys2Proof.Machine
end

