-- ==== Sys2Proof/Laws/SoundBringup.lean ====
section
/-! SUPPORT. What every operation of Machine/Bringup.lean keeps (Sound). -/

namespace Sys2Proof.Machine

open Sys2Proof

theorem State.rejectImage_sound {s₀ : State} {s : State} (b : Bool) (hs : Sound s₀ s) : Sound s₀ (State.rejectImage s b) := by
  unfold State.rejectImage
  repeat' first
    | with_reducible assumption
    | with_reducible apply State.fault_sound

theorem State.modFlash_sound {s₀ : State} {s : State} (f : Flash → Flash) (hs : Sound s₀ s) : Sound s₀ (State.modFlash s f) := by
  unfold State.modFlash
  repeat' first
    | with_reducible assumption
    | with_reducible rfl
    | (with_reducible apply Sound.upd)

theorem State.pickImage_sound {s₀ : State} {s : State} (hs : Sound s₀ s) : Sound s₀ (State.pickImage s) := by
  unfold State.pickImage
  repeat' first
    | with_reducible assumption
    | with_reducible apply hf
    | (extract_lets +onlyGivenNames t; guard_hyp t : State := _; refine Sound.cut (Q := Sound s₀ t) ?_ ?_; (on_goal 1 => (subst t)); (on_goal 2 => (clear_value t; intro _)))
    | (extract_lets +onlyGivenNames t; guard_hyp t : State → _ → State := _; refine Sound.cut (Q := ∀ x y0, Sound s₀ x → Sound s₀ (t x y0)) ?_ ?_; (on_goal 1 => (intro x y0 hx; subst t)); (on_goal 2 => (clear_value t; intro hf)))
    | (fail_if_no_progress extract_lets +onlyGivenNames t; first | guard_hyp t : Mc := _ | guard_hyp t : Mgmt := _ | clear_value t)
    | with_reducible apply State.rejectImage_sound
    | with_reducible apply State.modFlash_sound
    | split
    | with_reducible rfl
    | (with_reducible apply Sound.upd)

theorem State.takeConfig_sound {s₀ : State} {s : State} (hs : Sound s₀ s) : Sound s₀ (State.takeConfig s) := by
  unfold State.takeConfig
  repeat' first
    | with_reducible assumption
    | (extract_lets +onlyGivenNames t; guard_hyp t : State := _; refine Sound.cut (Q := Sound s₀ t) ?_ ?_; (on_goal 1 => (subst t)); (on_goal 2 => (clear_value t; intro _)))
    | (fail_if_no_progress extract_lets +onlyGivenNames t; first | guard_hyp t : Mgmt := _ | clear_value t)
    | with_reducible apply Sound.freeVal
    | with_reducible apply State.modFlash_sound
    | (with_reducible refine Sound.of_eq_snd (by assumption) ?_)
    | split
    | with_reducible rfl
    | (with_reducible apply Sound.upd)

theorem State.applyConfig_sound {s₀ : State} {s : State} (hs : Sound s₀ s) : Sound s₀ (State.applyConfig s) := by
  unfold State.applyConfig
  repeat' first
    | with_reducible assumption
    | (extract_lets +onlyGivenNames t; guard_hyp t : State := _; refine Sound.cut (Q := Sound s₀ t) ?_ ?_; (on_goal 1 => (subst t)); (on_goal 2 => (clear_value t; intro _)))
    | (fail_if_no_progress extract_lets +onlyGivenNames t; first | guard_hyp t : Fabric := _ | guard_hyp t : Beat := _ | clear_value t)
    | with_reducible apply Sound.freeVal
    | with_reducible apply State.faultTraining_sound
    | split
    | with_reducible rfl
    | (with_reducible apply Sound.upd)

theorem State.columnOut_sound {s₀ : State} {s : State} (k : Nat) (hs : Sound s₀ s) : Sound s₀ (State.columnOut s k) := by
  unfold State.columnOut
  repeat' first
    | with_reducible assumption
    | (extract_lets +onlyGivenNames t; guard_hyp t : State := _; refine Sound.cut (Q := Sound s₀ t) ?_ ?_; (on_goal 1 => (subst t)); (on_goal 2 => (clear_value t; intro _)))
    | (fail_if_no_progress extract_lets +onlyGivenNames t; first | clear_value t)
    | with_reducible apply Sound.modCol
    | split

theorem State.channelOut_sound {s₀ : State} {s : State} (k : Nat) (hs : Sound s₀ s) : Sound s₀ (State.channelOut s k) := by
  unfold State.channelOut
  repeat' first
    | with_reducible assumption
    | (extract_lets +onlyGivenNames t; guard_hyp t : State := _; refine Sound.cut (Q := Sound s₀ t) ?_ ?_; (on_goal 1 => (subst t)); (on_goal 2 => (clear_value t; intro _)))
    | (fail_if_no_progress extract_lets +onlyGivenNames t; first | clear_value t)
    | with_reducible apply Sound.modCol
    | split

theorem State.applyRepair_sound {s₀ : State} {s : State} (r : Repair) (hs : Sound s₀ s) : Sound s₀ (State.applyRepair s r) := by
  unfold State.applyRepair
  repeat' first
    | with_reducible assumption
    | (extract_lets +onlyGivenNames t; guard_hyp t : State := _; refine Sound.cut (Q := Sound s₀ t) ?_ ?_; (on_goal 1 => (subst t)); (on_goal 2 => (clear_value t; intro _)))
    | (fail_if_no_progress extract_lets +onlyGivenNames t; first | guard_hyp t : Heat := _ | guard_hyp t : Power := _ | clear_value t)
    | with_reducible apply Sound.modClu
    | with_reducible apply Sound.modCor
    | with_reducible apply Sound.modCol
    | with_reducible apply Sound.modStack
    | with_reducible apply Sound.modPort
    | with_reducible apply State.columnOut_sound
    | with_reducible apply State.channelOut_sound
    | split
    | with_reducible rfl
    | (with_reducible apply Sound.upd)

theorem State.applyMap_sound {s₀ : State} {s : State} (p : Repair → Bool) (hs : Sound s₀ s) : Sound s₀ (State.applyMap s p) := by
  unfold State.applyMap
  repeat' first
    | with_reducible assumption
    | with_reducible apply State.applyRepair_sound
    | with_reducible apply Sound.foldl

theorem State.serviceFromMap_sound {s₀ : State} {s : State} (hs : Sound s₀ s) : Sound s₀ (State.serviceFromMap s) := by
  unfold State.serviceFromMap
  repeat' first
    | with_reducible assumption
    | (fail_if_no_progress extract_lets +onlyGivenNames t; first | clear_value t)
    | with_reducible apply State.setService_sound
    | with_reducible apply State.setCauses_sound

theorem State.hardRepair_sound {s₀ : State} {s : State} (h : Nat) (hs : Sound s₀ s) : Sound s₀ (State.hardRepair s h) := by
  unfold State.hardRepair
  refine Sound.foldl (fun t e ht => ?_) _ hs
  have hf := ht.freeVal
  split
  next v u hu =>
    have h1 : Sound s₀ u := Sound.of_eq_snd hu hf
    split
    · extract_lets w
      have hw : Sound s₀ w := h1.modStack _ _
      clear_value w
      exact hw.setMc (le_refl _) fun j => ⟨j.faultLog, j.flashLog, j.faultLen, j.flashLen,
        le_trans List.erase_sublist.length_le j.repairs, j.lost⟩
    · exact h1

theorem State.retireUnits_sound {s₀ : State} {s : State} (l : List TestUnit) (hs : Sound s₀ s) : Sound s₀ (State.retireUnits s l) := by
  unfold State.retireUnits
  repeat' first
    | with_reducible assumption
    | with_reducible apply State.failUnit_sound
    | with_reducible apply Sound.foldl
    | intro _ _ _
    | split

theorem State.stagesUp_sound {s₀ : State} {s : State} (hs : Sound s₀ s) : Sound s₀ (State.stagesUp s) := by
  unfold State.stagesUp
  repeat' first
    | with_reducible assumption
    | with_reducible apply State.setStage_sound
    | with_reducible apply Sound.foldl
    | intro _ _ _

theorem State.step11_sound {s₀ : State} {s : State} (hs : Sound s₀ s) : Sound s₀ (State.step11 s) := by
  unfold State.step11
  extract_lets m s1
  have h : Sound s₀ s1 := by
    refine State.allCores_sound _ (hs.mems fun e => ?_)
    obtain ⟨_, h2, h3, h4, h5, h6, h7, h8⟩ := (mems_and _).1 e
    exact (mems_and _).2 ⟨rfl, h2, h3, h4, h5, h6, h7, h8⟩
  clear_value s1
  exact State.applyMap_sound _ (State.allCols_sound _ h)

theorem State.zeroMemories_sound {s₀ : State} {s : State} (hs : Sound s₀ s) : Sound s₀ (State.zeroMemories s) := by
  unfold State.zeroMemories
  split
  · exact hs
  · extract_lets s1
    have h : Sound s₀ s1 := State.allStacks_sound _ hs
    clear_value s1
    refine ⟨h.pending, h.now, h.free, h.out, h.seq, fun i => ?_⟩
    have j := h.inv i
    obtain ⟨h1, _, h3, _, _, _, h8, h9⟩ := (mems_and _).1 j.mem
    exact ⟨(mems_and _).2 ⟨h1, rfl, h3, rfl, rfl, rfl, h8, h9⟩, j.tables, j.faultLog, j.flashLog, j.faultLen, j.flashLen, j.repairs, j.lost, j.gate⟩

theorem State.answerResets_sound {s₀ : State} {s : State} (hs : Sound s₀ s) : Sound s₀ (State.answerResets s) := by
  unfold State.answerResets
  repeat' first
    | with_reducible assumption
    | (extract_lets +onlyGivenNames t; guard_hyp t : State := _; refine Sound.cut (Q := Sound s₀ t) ?_ ?_; (on_goal 1 => (subst t)); (on_goal 2 => (clear_value t; intro _)))
    | (fail_if_no_progress extract_lets +onlyGivenNames t; first | guard_hyp t : HostIf := _ | guard_hyp t : Mc := _ | clear_value t)
    | with_reducible apply State.finishPrio_sound
    | with_reducible apply Sound.foldl
    | intro _ _ _
    | with_reducible rfl
    | (with_reducible apply Sound.upd)

theorem State.raiseMinimum_sound {s₀ : State} {s : State} (hs : Sound s₀ s) : Sound s₀ (State.raiseMinimum s) := by
  unfold State.raiseMinimum
  repeat' first
    | with_reducible assumption
    | (fail_if_no_progress extract_lets +onlyGivenNames t; first | clear_value t)
    | with_reducible apply State.modFlash_sound
    | split

theorem State.step14_sound {s₀ : State} {s : State} (hs : Sound s₀ s) : Sound s₀ (State.step14 s) := by
  unfold State.step14
  repeat' first
    | with_reducible assumption
    | (extract_lets +onlyGivenNames t; guard_hyp t : State := _; refine Sound.cut (Q := Sound s₀ t) ?_ ?_; (on_goal 1 => (subst t)); (on_goal 2 => (clear_value t; intro _)))
    | (fail_if_no_progress extract_lets +onlyGivenNames t; first | guard_hyp t : Mc := _ | clear_value t)
    | with_reducible apply State.evict_sound
    | with_reducible apply State.selfRefresh_sound
    | with_reducible apply State.react_sound
    | with_reducible apply State.sweepWbs_sound
    | with_reducible apply State.startDue_sound
    | with_reducible apply State.modFlash_sound
    | with_reducible apply State.answerResets_sound
    | with_reducible apply State.raiseMinimum_sound
    | with_reducible apply Sound.foldl
    | intro _ _ _
    | split
    | with_reducible rfl
    | (with_reducible apply Sound.upd)

theorem State.bringStep_sound {s₀ : State} {s : State} (n : Nat) (fails : List TestUnit) (x : Training) (hs : Sound s₀ s) : Sound s₀ (State.bringStep s n fails x) := by
  unfold State.bringStep
  extract_lets +onlyGivenNames l
  clear_value l
  split
  · exact State.setTrip_sound _ (State.setStage_sound _ _ hs)
  · extract_lets +onlyGivenNames m p s1
    have h : Sound s₀ s1 := by
      refine ⟨hs.pending, hs.now, hs.free, hs.out, hs.seq, fun i => ?_⟩
      have j := hs.inv i
      exact ⟨j.mem, j.tables, j.flashLog, j.flashLog, le_trans j.flashLen (by decide), j.flashLen, j.repairs, j.lost, j.gate⟩
    clear_value s1
    exact State.serviceFromMap_sound (State.applyMap_sound _ h)
  · exact State.stagesUp_sound hs
  · extract_lets +onlyGivenNames s1 m s2
    have h1 : Sound s₀ s1 := State.applyMap_sound _ (State.allStacks_sound _ (State.setStage_sound _ _ hs))
    clear_value s1
    have h2 : Sound s₀ s2 := Sound.foldl (fun t e ht => State.hardRepair_sound _ ht) _ (h1.upd rfl rfl rfl rfl rfl rfl rfl rfl rfl rfl)
    clear_value s2
    exact State.retireUnits_sound _ (State.selfRefresh_sound _ h2)
  · exact State.trainPorts_sound (State.applyMap_sound _ (State.setStage_sound _ _ hs))
  · exact State.setAlive_sound _ hs
  · split
    · exact State.linkReturns_sound hs
    · exact hs
  · exact State.retireUnits_sound _ (State.step11_sound hs)
  · exact State.retireUnits_sound _ (State.trainChannels_sound _ hs)
  · exact State.zeroMemories_sound hs
  · exact hs

theorem State.setBring_sound {s₀ : State} {s : State} (n : Nat) (hs : Sound s₀ s) : Sound s₀ (State.setBring s n) := by
  unfold State.setBring
  repeat' first
    | with_reducible assumption
    | with_reducible rfl
    | (with_reducible apply Sound.upd)

theorem execBringupStepComplete_sound {s₀ : State} (fails : List TestUnit) (x : Training) {s : State} (hs : Sound s₀ s) : SoundOut s₀ (execBringupStepComplete fails x s) := by
  unfold execBringupStepComplete
  repeat' first
    | with_reducible apply SoundOut.next
    | with_reducible assumption
    | (fail_if_no_progress extract_lets +onlyGivenNames t; first | clear_value t)
    | with_reducible apply Sound.tick
    | with_reducible apply State.pickImage_sound
    | with_reducible apply State.takeConfig_sound
    | with_reducible apply State.applyConfig_sound
    | with_reducible apply State.step14_sound
    | with_reducible apply State.bringStep_sound
    | with_reducible apply State.setBring_sound
    | split

end Sys2Proof.Machine
end

