-- ==== Sys2Proof/Laws/SoundStores.lean ====
section
/-! SUPPORT. What every operation of Machine/Stores.lean keeps (Sound). -/

namespace Sys2Proof.Machine

open Sys2Proof

theorem State.readAreas_sound {s₀ : State} {s : State} (c : Nat) (fuel : List (Nat × Nat)) (hs : Sound s₀ s) : Sound s₀ (State.readAreas s c fuel).1 := by
  induction fuel generalizing s c  with
  | nil => exact hs
  | cons _ _ ih =>
    unfold State.readAreas
    repeat' first
      | with_reducible assumption
      | with_reducible apply State.readAll_sound
      | (with_reducible refine Sound.of_eq (by assumption) ?_)
      | with_reducible apply ih
      | split

theorem State.readParts_sound {s₀ : State} {s : State} (c : Nat) (fuel : List (Tensor × Nat)) (hs : Sound s₀ s) : Sound s₀ (State.readParts s c fuel).1 := by
  induction fuel generalizing s c  with
  | nil => exact hs
  | cons _ _ ih =>
    unfold State.readParts
    repeat' first
      | with_reducible assumption
      | with_reducible apply State.readAreas_sound
      | (with_reducible refine Sound.of_eq (by assumption) ?_)
      | with_reducible apply ih
      | split

theorem State.exportFails_sound {s₀ : State} {s : State} (c : Nat) (w : Waybill) (hs : Sound s₀ s) : Sound s₀ (State.exportFails s c w) := by
  unfold State.exportFails
  repeat' first
    | with_reducible assumption
    | with_reducible apply Sound.modCx
    | with_reducible apply State.finish_sound
    | with_reducible apply State.retryAll_sound

theorem execExportStart_sound {s₀ : State} (ctx : Nat) {s : State} (hs : Sound s₀ s) : SoundOut s₀ (execExportStart ctx s) := by
  unfold execExportStart
  repeat' first
    | with_reducible apply SoundOut.next
    | with_reducible assumption
    | (fail_if_no_progress extract_lets +onlyGivenNames t; first | clear_value t)
    | with_reducible apply Sound.modCx
    | with_reducible apply Sound.freeVal
    | with_reducible apply State.tell_sound
    | with_reducible apply State.readParts_sound
    | with_reducible apply State.exportFails_sound
    | (with_reducible refine Sound.of_eq (by assumption) ?_)
    | split

theorem execStoreGrant_sound {s₀ : State} (ctx : Nat) (base : Nat) {s : State} (hs : Sound s₀ s) : SoundOut s₀ (execStoreGrant ctx base s) := by
  unfold execStoreGrant
  repeat' first
    | with_reducible apply SoundOut.next
    | with_reducible assumption
    | (extract_lets +onlyGivenNames t; guard_hyp t : State := _; refine Sound.cut (Q := Sound s₀ t) ?_ ?_; (on_goal 1 => (subst t)); (on_goal 2 => (clear_value t; intro _)))
    | (fail_if_no_progress extract_lets +onlyGivenNames t; first | clear_value t)
    | with_reducible apply Sound.modCx
    | with_reducible apply Sound.emit
    | with_reducible apply State.tell_sound
    | with_reducible apply State.retryAll_sound
    | split

theorem execStoreRefuse_sound {s₀ : State} (ctx : Nat) {s : State} (hs : Sound s₀ s) : SoundOut s₀ (execStoreRefuse ctx s) := by
  unfold execStoreRefuse
  repeat' first
    | with_reducible apply SoundOut.next
    | with_reducible assumption
    | with_reducible apply State.exportFails_sound
    | split

theorem execStoreDone_sound {s₀ : State} (ctx : Nat) (ok : Bool) {s : State} (hs : Sound s₀ s) : SoundOut s₀ (execStoreDone ctx ok s) := by
  unfold execStoreDone
  repeat' first
    | with_reducible apply SoundOut.next
    | with_reducible assumption
    | with_reducible apply Sound.modCx
    | with_reducible apply State.finish_sound
    | with_reducible apply State.exportFails_sound
    | split

theorem execStoreTimeout_sound {s₀ : State} (x : CtxTime) {s : State} (hs : Sound s₀ s) : SoundOut s₀ (execStoreTimeout x s) := by
  unfold execStoreTimeout
  repeat' first
    | with_reducible apply SoundOut.next
    | with_reducible assumption
    | with_reducible apply Sound.tick
    | with_reducible apply State.exportFails_sound
    | split

theorem execStoreOpen_sound {s₀ : State} (ctx : Nat) (src : Nat) (srcCtx : Nat) (size : Nat) {s : State} (hs : Sound s₀ s) : SoundOut s₀ (execStoreOpen ctx src srcCtx size s) := by
  unfold execStoreOpen
  repeat' first
    | with_reducible apply SoundOut.next
    | with_reducible assumption
    | (fail_if_no_progress extract_lets +onlyGivenNames t; first | clear_value t)
    | with_reducible apply Sound.modCx
    | with_reducible apply State.tell_sound
    | split

theorem State.readHead_sound {s₀ : State} {s : State} (c base size : Nat) (hs : Sound s₀ s) : Sound s₀ (State.readHead s c base size).1 := by
  unfold State.readHead
  repeat' first
    | with_reducible assumption
    | with_reducible apply State.readAll_sound
    | (with_reducible refine Sound.of_eq (by assumption) ?_)
    | split

theorem execStoreClose_sound {s₀ : State} (ctx : Nat) (src : Nat) (srcCtx : Nat) (digest : BitVec 384) {s : State} (hs : Sound s₀ s) : SoundOut s₀ (execStoreClose ctx src srcCtx digest s) := by
  unfold execStoreClose
  repeat' first
    | with_reducible apply SoundOut.next
    | with_reducible assumption
    | with_reducible apply State.tell_sound
    | with_reducible apply State.readHead_sound
    | (with_reducible refine Sound.of_eq (by assumption) ?_)
    | split

theorem State.discardScratch_sound {s₀ : State} {s : State} (c : Nat) (hs : Sound s₀ s) : Sound s₀ (State.discardScratch s c) := by
  unfold State.discardScratch
  repeat' first
    | with_reducible assumption
    | with_reducible apply State.rangeLine_sound
    | with_reducible apply Sound.foldl
    | intro _ _ _

theorem State.restoreFails_sound {s₀ : State} {s : State} (c : Nat) (w : Waybill) (detail detail2 : Nat) (hs : Sound s₀ s) : Sound s₀ (State.restoreFails s c w detail detail2) := by
  unfold State.restoreFails
  repeat' first
    | with_reducible assumption
    | with_reducible apply Sound.modCx
    | with_reducible apply State.finish_sound
    | with_reducible apply State.freeze_sound

theorem State.restoreDone_sound {s₀ : State} {s : State} (c : Nat) (w : Waybill) (hs : Sound s₀ s) : Sound s₀ (State.restoreDone s c w) := by
  unfold State.restoreDone
  repeat' first
    | with_reducible assumption
    | (extract_lets +onlyGivenNames t; guard_hyp t : State := _; refine Sound.cut (Q := Sound s₀ t) ?_ ?_; (on_goal 1 => (subst t)); (on_goal 2 => (clear_value t; intro _)))
    | (fail_if_no_progress extract_lets +onlyGivenNames t; first | clear_value t)
    | with_reducible apply Sound.modCx
    | with_reducible apply State.finish_sound
    | with_reducible apply State.tell_sound
    | with_reducible apply State.sendMirror_sound
    | with_reducible apply State.rejoin_sound
    | with_reducible apply State.discardScratch_sound
    | split

theorem State.askAdmit_sound {s₀ : State} {s : State} (c : Nat) (k : Takeover) (leader : Option Nat) (hs : Sound s₀ s) : Sound s₀ (State.askAdmit s c k leader) := by
  unfold State.askAdmit
  repeat' first
    | with_reducible assumption
    | (extract_lets +onlyGivenNames t; guard_hyp t : State := _; refine Sound.cut (Q := Sound s₀ t) ?_ ?_; (on_goal 1 => (subst t)); (on_goal 2 => (clear_value t; intro _)))
    | with_reducible apply Sound.modCx
    | with_reducible apply State.tell_sound
    | split

theorem State.fetchShard_sound {s₀ : State} {s : State} (c tensor rank : Nat) (hs : Sound s₀ s) : Sound s₀ (State.fetchShard s c tensor rank) := by
  unfold State.fetchShard
  repeat' first
    | with_reducible assumption
    | (fail_if_no_progress extract_lets +onlyGivenNames t; first | clear_value t)
    | with_reducible apply State.startFetch_sound
    | split

theorem State.nextFetch_sound {s₀ : State} {s : State} (c : Nat) (hs : Sound s₀ s) : Sound s₀ (State.nextFetch s c) := by
  unfold State.nextFetch
  repeat' first
    | with_reducible assumption
    | (fail_if_no_progress extract_lets +onlyGivenNames t; first | clear_value t)
    | with_reducible apply State.restoreDone_sound
    | with_reducible apply State.askAdmit_sound
    | with_reducible apply State.fetchShard_sound
    | split

theorem State.takeFails_sound {s₀ : State} {s : State} (c : Nat) (w : Waybill) (check : Nat) (hs : Sound s₀ s) : Sound s₀ (State.takeFails s c w check) := by
  unfold State.takeFails
  repeat' first
    | with_reducible assumption
    | with_reducible apply Sound.modCx
    | with_reducible apply State.finish_sound
    | with_reducible apply State.faultTraining_sound

theorem State.restoreUnits_sound {s₀ : State} {s : State} (c addr size : Nat) (raw new : List Byte) (seals : Nat → Nat) (fuel : Nat) (x1 : Nat) (hs : Sound s₀ s) : Sound s₀ (State.restoreUnits s c addr size raw new seals fuel x1).1 := by
  induction fuel generalizing s c addr size raw new seals x1 with
  | zero => exact hs
  | succ _ ih =>
    unfold State.restoreUnits
    repeat' first
      | with_reducible assumption
      | (fail_if_no_progress extract_lets +onlyGivenNames t; first | clear_value t)
      | with_reducible apply State.dmaWrite_sound
      | with_reducible apply ih
      | split

theorem State.restoreArrays_sound {s₀ : State} {s : State} (c : Nat) (bs : List Byte) (e sealOff size first step : Nat) (fuel : List (Nat × Nat)) (x1 : Nat) (x2 : Nat) (hs : Sound s₀ s) : Sound s₀ (State.restoreArrays s c bs e sealOff size first step fuel x1 x2).1 := by
  induction fuel generalizing s c bs e sealOff size first step x1 x2 with
  | nil => exact hs
  | cons _ _ ih =>
    unfold State.restoreArrays
    repeat' first
      | with_reducible assumption
      | (fail_if_no_progress extract_lets +onlyGivenNames t; first | clear_value t)
      | with_reducible apply State.restoreUnits_sound
      | (with_reducible refine Sound.of_eq (by assumption) ?_)
      | with_reducible apply ih
      | split

theorem State.restoreShards_sound {s₀ : State} {s : State} (c : Nat) (bs : List Byte) (fuel : Nat) (x1 : Nat) (x2 : Nat) (hs : Sound s₀ s) : Sound s₀ (State.restoreShards s c bs fuel x1 x2).1 := by
  induction fuel generalizing s c bs x1 x2 with
  | zero => exact hs
  | succ _ ih =>
    unfold State.restoreShards
    repeat' first
      | with_reducible assumption
      | (fail_if_no_progress extract_lets +onlyGivenNames t; first | clear_value t)
      | with_reducible apply State.restoreArrays_sound
      | (with_reducible refine Sound.of_eq (by assumption) ?_)
      | with_reducible apply ih
      | split

theorem State.rebuild_sound {s₀ : State} {s : State} (c step : Nat) (hs : Sound s₀ s) : Sound s₀ (State.rebuild s c step) := by
  unfold State.rebuild
  repeat' first
    | with_reducible assumption
    | with_reducible apply State.regenShard_sound
    | with_reducible apply Sound.foldl
    | intro _ _ _
    | split

theorem State.publishAll_sound {s₀ : State} {s : State} (c step : Nat) (hs : Sound s₀ s) : Sound s₀ (State.publishAll s c step) := by
  unfold State.publishAll
  repeat' first
    | with_reducible assumption
    | with_reducible apply State.publish_sound
    | with_reducible apply Sound.foldl
    | intro _ _ _

theorem State.stopForRestore_sound {s₀ : State} {s : State} (c : Nat) (hs : Sound s₀ s) : Sound s₀ (State.stopForRestore s c) := by
  unfold State.stopForRestore
  repeat' first
    | with_reducible assumption
    | (extract_lets +onlyGivenNames t; guard_hyp t : State := _; refine Sound.cut (Q := Sound s₀ t) ?_ ?_; (on_goal 1 => (subst t)); (on_goal 2 => (clear_value t; intro _)))
    | with_reducible apply State.cutLegs_sound
    | with_reducible apply State.sendTrailer_sound
    | with_reducible apply State.withdraw_sound
    | with_reducible apply State.voidStep_sound
    | with_reducible apply State.dropTraffic_sound
    | with_reducible apply State.dropLegs_sound
    | split

theorem State.giveWay_sound {s₀ : State} {s : State} (c : Nat) (hs : Sound s₀ s) : Sound s₀ (State.giveWay s c) := by
  unfold State.giveWay
  repeat' first
    | with_reducible assumption
    | (extract_lets +onlyGivenNames t; guard_hyp t : State := _; refine Sound.cut (Q := Sound s₀ t) ?_ ?_; (on_goal 1 => (subst t)); (on_goal 2 => (clear_value t; intro _)))
    | (extract_lets +onlyGivenNames t; guard_hyp t : _ × State := _; refine Sound.cut (Q := Sound s₀ t.2) ?_ ?_; (on_goal 1 => (subst t)); (on_goal 2 => (clear_value t; intro _)))
    | with_reducible apply Sound.modCx
    | with_reducible apply Sound.freeVal
    | with_reducible apply State.finish_sound
    | with_reducible apply State.takeFails_sound
    | split

theorem execRestore_sound {s₀ : State} (w : Waybill) (img : List Byte) {s : State} (hs : Sound s₀ s) : SoundOut s₀ (execRestore w img s) := by
  unfold execRestore
  repeat' first
    | with_reducible apply SoundOut.next
    | with_reducible assumption
    | (extract_lets +onlyGivenNames t; guard_hyp t : State := _; refine Sound.cut (Q := Sound s₀ t) ?_ ?_; (on_goal 1 => (subst t)); (on_goal 2 => (clear_value t; intro _)))
    | (fail_if_no_progress extract_lets +onlyGivenNames t; first | clear_value t)
    | with_reducible apply Sound.modCx
    | with_reducible apply State.startWb_sound
    | with_reducible apply State.restoreFails_sound
    | with_reducible apply State.nextFetch_sound
    | with_reducible apply State.restoreShards_sound
    | with_reducible apply State.rebuild_sound
    | with_reducible apply State.publishAll_sound
    | with_reducible apply State.stopForRestore_sound
    | with_reducible apply State.giveWay_sound
    | (with_reducible refine Sound.of_eq (by assumption) ?_)
    | intro _ _ _
    | split

theorem execTakeover_sound {s₀ : State} (w : Waybill) {s : State} (hs : Sound s₀ s) : SoundOut s₀ (execTakeover w s) := by
  unfold execTakeover
  repeat' first
    | with_reducible apply SoundOut.next
    | with_reducible assumption
    | (extract_lets +onlyGivenNames t; guard_hyp t : State := _; refine Sound.cut (Q := Sound s₀ t) ?_ ?_; (on_goal 1 => (subst t)); (on_goal 2 => (clear_value t; intro _)))
    | (fail_if_no_progress extract_lets +onlyGivenNames t; first | clear_value t)
    | with_reducible apply Sound.modCx
    | with_reducible apply State.tell_sound
    | with_reducible apply State.startWb_sound
    | with_reducible apply State.takeFails_sound
    | intro _ _ _
    | split

theorem State.workingSeals_sound {s₀ : State} {s : State} (c : Nat) (t : Tensor) (rank : Nat) (hs : Sound s₀ s) : Sound s₀ (State.workingSeals s c t rank).1 := by
  unfold State.workingSeals
  repeat' first
    | with_reducible assumption
    | with_reducible apply State.readAll_sound
    | (with_reducible refine Sound.of_eq (by assumption) ?_)
    | split

theorem execTakeoverQuery_sound {s₀ : State} (ctx : Nat) (src : Nat) (q : TakeoverQuery) {s : State} (hs : Sound s₀ s) : SoundOut s₀ (execTakeoverQuery ctx src q s) := by
  unfold execTakeoverQuery
  repeat' first
    | with_reducible apply SoundOut.next
    | with_reducible assumption
    | (extract_lets +onlyGivenNames t; guard_hyp t : State × _ := _; refine Sound.cut (Q := Sound s₀ t.1) ?_ ?_; (on_goal 1 => (subst t)); (on_goal 2 => (clear_value t; intro _)))
    | with_reducible apply State.tell_sound
    | with_reducible apply State.workingSeals_sound
    | split

theorem State.adoptShards_sound {s₀ : State} {s : State} (c : Nat) (b : Buffer) (last : Nat) (hs : Sound s₀ s) : Sound s₀ (State.adoptShards s c b last) := by
  unfold State.adoptShards
  repeat' first
    | with_reducible assumption
    | (extract_lets +onlyGivenNames t; guard_hyp t : State := _; refine Sound.cut (Q := Sound s₀ t) ?_ ?_; (on_goal 1 => (subst t)); (on_goal 2 => (clear_value t; intro _)))
    | with_reducible apply Sound.modCx
    | with_reducible apply State.dmaWrite_sound
    | with_reducible apply State.regenShard_sound
    | with_reducible apply Sound.foldl
    | intro _ _ _
    | split

theorem State.askSeals_sound {s₀ : State} {s : State} (c : Nat) (k : Takeover) (hs : Sound s₀ s) : Sound s₀ (State.askSeals s c k) := by
  unfold State.askSeals
  repeat' first
    | with_reducible assumption
    | with_reducible apply Sound.modCx
    | with_reducible apply State.tell_sound
    | with_reducible apply State.nextFetch_sound
    | with_reducible apply State.takeFails_sound
    | with_reducible apply State.publishAll_sound
    | split

theorem State.takeState_sound {s₀ : State} {s : State} (c : Nat) (k : Takeover) (inMask gone : Bool) (last : Nat) (hs : Sound s₀ s) : Sound s₀ (State.takeState s c k inMask gone last) := by
  unfold State.takeState
  repeat' first
    | with_reducible assumption
    | with_reducible apply Sound.modCx
    | with_reducible apply State.tell_sound
    | with_reducible apply State.takeFails_sound
    | split

theorem State.takeBuffer_sound {s₀ : State} {s : State} (c : Nat) (k : Takeover) (ob : Option Buffer) (hs : Sound s₀ s) : Sound s₀ (State.takeBuffer s c k ob) := by
  unfold State.takeBuffer
  repeat' first
    | with_reducible assumption
    | (extract_lets +onlyGivenNames t; guard_hyp t : State := _; refine Sound.cut (Q := Sound s₀ t) ?_ ?_; (on_goal 1 => (subst t)); (on_goal 2 => (clear_value t; intro _)))
    | (fail_if_no_progress extract_lets +onlyGivenNames t; first | clear_value t)
    | with_reducible apply Sound.modCx
    | with_reducible apply State.tell_sound
    | with_reducible apply State.takeFails_sound
    | with_reducible apply State.adoptShards_sound
    | with_reducible apply State.askSeals_sound
    | split

theorem State.takeSeals_sound {s₀ : State} {s : State} (c : Nat) (k : Takeover) (id : Word) (l : List DWord) (hs : Sound s₀ s) : Sound s₀ (State.takeSeals s c k id l) := by
  unfold State.takeSeals
  repeat' first
    | with_reducible assumption
    | with_reducible apply State.takeFails_sound
    | with_reducible apply State.workingSeals_sound
    | with_reducible apply State.askSeals_sound
    | (with_reducible refine Sound.of_eq (by assumption) ?_)
    | split

theorem execTakeoverQueryReply_sound {s₀ : State} (ctx : Nat) (r : TakeoverReply) {s : State} (hs : Sound s₀ s) : SoundOut s₀ (execTakeoverQueryReply ctx r s) := by
  unfold execTakeoverQueryReply
  repeat' first
    | with_reducible apply SoundOut.next
    | with_reducible assumption
    | with_reducible apply State.takeState_sound
    | with_reducible apply State.takeBuffer_sound
    | with_reducible apply State.takeSeals_sound
    | split

theorem State.afterUnit_sound {s₀ : State} {s : State} (c : Nat) (f : Fetching) (hs : Sound s₀ s) : Sound s₀ (State.afterUnit s c f) := by
  unfold State.afterUnit
  repeat' first
    | with_reducible assumption
    | (fail_if_no_progress extract_lets +onlyGivenNames t; first | clear_value t)
    | with_reducible apply State.restoreFails_sound
    | with_reducible apply State.nextFetch_sound
    | with_reducible apply State.takeFails_sound
    | split

theorem execFetchUnitArrival_sound {s₀ : State} (ctx : Nat) (tensor : Nat) (rank : Nat) (unit : Nat) (bytes : List Byte) (sealv : DWord) (step : Nat) {s : State} (hs : Sound s₀ s) : SoundOut s₀ (execFetchUnitArrival ctx tensor rank unit bytes sealv step s) := by
  unfold execFetchUnitArrival
  repeat' first
    | with_reducible apply SoundOut.next
    | with_reducible assumption
    | (fail_if_no_progress extract_lets +onlyGivenNames t; first | clear_value t)
    | with_reducible apply State.takeUnit_sound
    | with_reducible apply State.restoreFails_sound
    | with_reducible apply State.afterUnit_sound
    | split

end Sys2Proof.Machine
end

