-- ==== Sys2Proof/Laws/SoundManagement.lean ====
section
/-! SUPPORT. What every operation of Machine/Management.lean keeps (Sound). -/

namespace Sys2Proof.Machine

open Sys2Proof

theorem State.onBus_sound {s₀ : State} {s : State} (f : State → State) (hs : Sound s₀ s) (hf : ∀ t, Sound s₀ t → Sound s₀ (f t)) : Sound s₀ (State.onBus s f) := by
  unfold State.onBus
  repeat' first
    | with_reducible assumption
    | with_reducible apply hf
    | split

theorem State.onRom_sound {s₀ : State} {s : State} (f : State → State) (hs : Sound s₀ s) (hf : ∀ t, Sound s₀ t → Sound s₀ (f t)) : Sound s₀ (State.onRom s f) := by
  unfold State.onRom
  repeat' first
    | with_reducible assumption
    | with_reducible apply hf
    | split

theorem execMctpPriorityMessage_sound {s₀ : State} (vendor : BitVec 16) (subtype : Byte) (hdr : BitVec 512) {s : State} (hs : Sound s₀ s) : SoundOut s₀ (execMctpPriorityMessage vendor subtype hdr s) := by
  unfold execMctpPriorityMessage
  repeat' first
    | with_reducible apply SoundOut.next
    | with_reducible assumption
    | with_reducible apply Sound.emit
    | with_reducible apply State.onBus_sound
    | intro _ _
    | split
    | with_reducible rfl
    | (with_reducible apply Sound.upd)

theorem execGetVendorDefined_sound {s₀ : State} {s : State} (hs : Sound s₀ s) : SoundOut s₀ (execGetVendorDefined s) := by
  unfold execGetVendorDefined
  repeat' first
    | with_reducible apply SoundOut.next
    | with_reducible assumption
    | with_reducible apply Sound.emit
    | with_reducible apply State.onRom_sound
    | intro _ _

theorem execI3cDynamicAddress_sound {s₀ : State} (addr : BitVec 7) {s : State} (hs : Sound s₀ s) : SoundOut s₀ (execI3cDynamicAddress addr s) := by
  unfold execI3cDynamicAddress
  repeat' first
    | with_reducible apply SoundOut.next
    | with_reducible assumption
    | with_reducible apply State.onRom_sound
    | intro _ _
    | with_reducible rfl
    | (with_reducible apply Sound.upd)

theorem execSetEndpointId_sound {s₀ : State} (eid : Byte) {s : State} (hs : Sound s₀ s) : SoundOut s₀ (execSetEndpointId eid s) := by
  unfold execSetEndpointId
  repeat' first
    | with_reducible apply SoundOut.next
    | with_reducible assumption
    | with_reducible apply State.onRom_sound
    | intro _ _
    | with_reducible rfl
    | (with_reducible apply Sound.upd)

theorem execPldmEventsEnable_sound {s₀ : State} (on : Bool) {s : State} (hs : Sound s₀ s) : SoundOut s₀ (execPldmEventsEnable on s) := by
  unfold execPldmEventsEnable
  repeat' first
    | with_reducible apply SoundOut.next
    | with_reducible assumption
    | with_reducible apply State.onBus_sound
    | intro _ _
    | with_reducible rfl
    | (with_reducible apply Sound.upd)

theorem State.spdmAnswer_sound {s₀ : State} {s : State} (request : Nat) (content : List Byte) (hs : Sound s₀ s) : Sound s₀ (State.spdmAnswer s request content) := by
  unfold State.spdmAnswer
  repeat' first
    | with_reducible assumption
    | (extract_lets +onlyGivenNames t; guard_hyp t : State := _; refine Sound.cut (Q := Sound s₀ t) ?_ ?_; (on_goal 1 => (subst t)); (on_goal 2 => (clear_value t; intro _)))
    | (fail_if_no_progress extract_lets +onlyGivenNames t; first | guard_hyp t : Mgmt := _ | clear_value t)
    | with_reducible apply Sound.emit
    | with_reducible apply Sound.freeVal
    | with_reducible rfl
    | (with_reducible apply Sound.upd)

theorem State.spdmReady_sound {s₀ : State} {s : State} (slot : Nat) (f : State → State) (hs : Sound s₀ s) (hf : ∀ t, Sound s₀ t → Sound s₀ (f t)) : Sound s₀ (State.spdmReady s slot f) := by
  unfold State.spdmReady
  repeat' first
    | with_reducible assumption
    | with_reducible apply Sound.emit
    | with_reducible apply State.onBus_sound
    | with_reducible apply hf
    | intro _ _
    | split

theorem State.spdmStage_sound {s₀ : State} {s : State} (n : Nat) (hs : Sound s₀ s) : Sound s₀ (State.spdmStage s n) := by
  unfold State.spdmStage
  repeat' first
    | with_reducible assumption
    | with_reducible rfl
    | (with_reducible apply Sound.upd)

theorem State.spdmSigned_sound {s₀ : State} {s : State} (request : Nat) (nonce : BitVec 256) (content : List Byte) (hs : Sound s₀ s) : Sound s₀ (State.spdmSigned s request nonce content) := by
  unfold State.spdmSigned
  repeat' first
    | with_reducible assumption
    | (fail_if_no_progress extract_lets +onlyGivenNames t; first | clear_value t)
    | with_reducible apply State.spdmAnswer_sound

theorem execGetVersion_sound {s₀ : State} {s : State} (hs : Sound s₀ s) : SoundOut s₀ (execGetVersion s) := by
  unfold execGetVersion
  repeat' first
    | with_reducible apply SoundOut.next
    | with_reducible assumption
    | with_reducible apply State.onBus_sound
    | with_reducible apply State.spdmAnswer_sound
    | with_reducible apply State.spdmStage_sound
    | intro _ _
    | with_reducible rfl
    | (with_reducible apply Sound.upd)

theorem execGetCapabilities_sound {s₀ : State} {s : State} (hs : Sound s₀ s) : SoundOut s₀ (execGetCapabilities s) := by
  unfold execGetCapabilities
  repeat' first
    | with_reducible apply SoundOut.next
    | with_reducible assumption
    | with_reducible apply Sound.emit
    | with_reducible apply State.onBus_sound
    | with_reducible apply State.spdmAnswer_sound
    | with_reducible apply State.spdmStage_sound
    | intro _ _
    | split

theorem execNegotiateAlgorithms_sound {s₀ : State} (p384 : Bool) (sha384 : Bool) {s : State} (hs : Sound s₀ s) : SoundOut s₀ (execNegotiateAlgorithms p384 sha384 s) := by
  unfold execNegotiateAlgorithms
  repeat' first
    | with_reducible apply SoundOut.next
    | with_reducible assumption
    | with_reducible apply Sound.emit
    | with_reducible apply State.onBus_sound
    | with_reducible apply State.spdmAnswer_sound
    | with_reducible apply State.spdmStage_sound
    | intro _ _
    | split

theorem execGetDigests_sound {s₀ : State} {s : State} (hs : Sound s₀ s) : SoundOut s₀ (execGetDigests s) := by
  unfold execGetDigests
  repeat' first
    | with_reducible apply SoundOut.next
    | with_reducible assumption
    | with_reducible apply State.spdmAnswer_sound
    | with_reducible apply State.spdmReady_sound
    | intro _ _

theorem execGetCertificate_sound {s₀ : State} (slot : Nat) (off : Nat) (len : Nat) {s : State} (hs : Sound s₀ s) : SoundOut s₀ (execGetCertificate slot off len s) := by
  unfold execGetCertificate
  repeat' first
    | with_reducible apply SoundOut.next
    | with_reducible assumption
    | with_reducible apply State.spdmAnswer_sound
    | with_reducible apply State.spdmReady_sound
    | intro _ _

theorem execChallenge_sound {s₀ : State} (slot : Nat) (nonce : BitVec 256) {s : State} (hs : Sound s₀ s) : SoundOut s₀ (execChallenge slot nonce s) := by
  unfold execChallenge
  repeat' first
    | with_reducible apply SoundOut.next
    | with_reducible assumption
    | with_reducible apply State.spdmReady_sound
    | with_reducible apply State.spdmSigned_sound
    | intro _ _

theorem execGetMeasurements_sound {s₀ : State} (index : Nat) (nonce : BitVec 256) {s : State} (hs : Sound s₀ s) : SoundOut s₀ (execGetMeasurements index nonce s) := by
  unfold execGetMeasurements
  repeat' first
    | with_reducible apply SoundOut.next
    | with_reducible assumption
    | with_reducible apply Sound.emit
    | with_reducible apply State.spdmReady_sound
    | with_reducible apply State.spdmSigned_sound
    | intro _ _
    | split

theorem State.sensorValue_sound {s₀ : State} {s : State} (x : PldmSensor) (hs : Sound s₀ s) : Sound s₀ (s.sensorValue x).1 := by
  unfold State.sensorValue
  split
  · exact hs.freeVal
  all_goals exact hs

theorem execGetSensorReading_sound {s₀ : State} (sensor : PldmSensor) {s : State} (hs : Sound s₀ s) : SoundOut s₀ (execGetSensorReading sensor s) := by
  unfold execGetSensorReading
  repeat' first
    | with_reducible apply SoundOut.next
    | with_reducible assumption
    | (extract_lets +onlyGivenNames t; guard_hyp t : State × _ := _; refine Sound.cut (Q := Sound s₀ t.1) ?_ ?_; (on_goal 1 => (subst t)); (on_goal 2 => (clear_value t; intro _)))
    | with_reducible apply Sound.emit
    | with_reducible apply State.onBus_sound
    | with_reducible apply State.sensorValue_sound
    | intro _ _

theorem execDigitalSetpointEffecter_sound {s₀ : State} (watts : Nat) (t : Nat) {s : State} (hs : Sound s₀ s) : SoundOut s₀ (execDigitalSetpointEffecter watts t s) := by
  unfold execDigitalSetpointEffecter
  repeat' first
    | with_reducible apply SoundOut.next
    | with_reducible assumption
    | with_reducible apply Sound.tick
    | with_reducible apply State.writeSetpoint_sound
    | with_reducible apply State.onBus_sound
    | intro _ _
    | split

theorem execDeepFloorEffecter_sound {s₀ : State} (deep : Bool) (t : Nat) {s : State} (hs : Sound s₀ s) : SoundOut s₀ (execDeepFloorEffecter deep t s) := by
  unfold execDeepFloorEffecter
  repeat' first
    | with_reducible apply SoundOut.next
    | with_reducible assumption
    | with_reducible apply Sound.tick
    | with_reducible apply State.writeSetpoint_sound
    | with_reducible apply State.onBus_sound
    | intro _ _

theorem execCoolantFlowEffecter_sound {s₀ : State} (flow : Nat) {s : State} (hs : Sound s₀ s) : SoundOut s₀ (execCoolantFlowEffecter flow s) := by
  unfold execCoolantFlowEffecter
  repeat' first
    | with_reducible apply SoundOut.next
    | with_reducible assumption
    | with_reducible apply State.writeCoolant_sound
    | with_reducible apply State.onBus_sound
    | intro _ _

theorem execPlateLimitEffecter_sound {s₀ : State} (limit : Nat) {s : State} (hs : Sound s₀ s) : SoundOut s₀ (execPlateLimitEffecter limit s) := by
  unfold execPlateLimitEffecter
  repeat' first
    | with_reducible apply SoundOut.next
    | with_reducible assumption
    | with_reducible apply State.writeCoolant_sound
    | with_reducible apply State.onBus_sound
    | intro _ _

theorem execFirmwareUpdateTransfer_sound {s₀ : State} (component : Nat) (bytes : List Byte) {s : State} (hs : Sound s₀ s) : SoundOut s₀ (execFirmwareUpdateTransfer component bytes s) := by
  unfold execFirmwareUpdateTransfer
  repeat' first
    | with_reducible apply SoundOut.next
    | with_reducible assumption
    | (extract_lets +onlyGivenNames t; guard_hyp t : State := _; refine Sound.cut (Q := Sound s₀ t) ?_ ?_; (on_goal 1 => (subst t)); (on_goal 2 => (clear_value t; intro _)))
    | (fail_if_no_progress extract_lets +onlyGivenNames t; first | guard_hyp t : Mgmt := _ | clear_value t)
    | with_reducible apply State.modFlash_sound
    | with_reducible apply State.onRom_sound
    | intro _ _
    | split
    | with_reducible rfl
    | (with_reducible apply Sound.upd)

theorem execActivateFirmware_sound {s₀ : State} {s : State} (hs : Sound s₀ s) : SoundOut s₀ (execActivateFirmware s) := by
  unfold execActivateFirmware
  repeat' first
    | with_reducible apply SoundOut.next
    | with_reducible assumption
    | (extract_lets +onlyGivenNames t; guard_hyp t : State := _; refine Sound.cut (Q := Sound s₀ t) ?_ ?_; (on_goal 1 => (subst t)); (on_goal 2 => (clear_value t; intro _)))
    | (fail_if_no_progress extract_lets +onlyGivenNames t; first | guard_hyp t : Mgmt := _ | clear_value t)
    | with_reducible apply State.modFlash_sound
    | with_reducible apply State.onRom_sound
    | intro _ _
    | split
    | with_reducible rfl
    | (with_reducible apply Sound.upd)

theorem State.onTap_sound {s₀ : State} {s : State} (f : State → State) (hs : Sound s₀ s) (hf : ∀ t, Sound s₀ t → Sound s₀ (f t)) : Sound s₀ (State.onTap s f) := by
  unfold State.onTap
  repeat' first
    | with_reducible assumption
    | with_reducible apply hf
    | split

theorem State.setTap_sound {s₀ : State} {s : State} (i : TapInstr) (hs : Sound s₀ s) : Sound s₀ (State.setTap s i) := by
  unfold State.setTap
  repeat' first
    | with_reducible assumption
    | with_reducible rfl
    | (with_reducible apply Sound.upd)

theorem execExtest_sound {s₀ : State} (cells : List Bool) {s : State} (hs : Sound s₀ s) : SoundOut s₀ (execExtest cells s) := by
  unfold execExtest
  repeat' first
    | with_reducible apply SoundOut.next
    | with_reducible assumption
    | with_reducible apply State.onTap_sound
    | with_reducible apply State.setTap_sound
    | intro _ _
    | split
    | with_reducible rfl
    | (with_reducible apply Sound.upd)

theorem execSamplePreload_sound {s₀ : State} (pins : List Bool) {s : State} (hs : Sound s₀ s) : SoundOut s₀ (execSamplePreload pins s) := by
  unfold execSamplePreload
  repeat' first
    | with_reducible apply SoundOut.next
    | with_reducible assumption
    | with_reducible apply Sound.emit
    | with_reducible apply State.onTap_sound
    | with_reducible apply State.setTap_sound
    | intro _ _

theorem execIdcode_sound {s₀ : State} {s : State} (hs : Sound s₀ s) : SoundOut s₀ (execIdcode s) := by
  unfold execIdcode
  repeat' first
    | with_reducible apply SoundOut.next
    | with_reducible assumption
    | with_reducible apply Sound.emit
    | with_reducible apply State.onTap_sound
    | with_reducible apply State.setTap_sound
    | intro _ _

theorem execTestmode_sound {s₀ : State} {s : State} (hs : Sound s₀ s) : SoundOut s₀ (execTestmode s) := by
  unfold execTestmode
  repeat' first
    | with_reducible apply SoundOut.next
    | with_reducible assumption
    | (extract_lets +onlyGivenNames t; guard_hyp t : State := _; refine Sound.cut (Q := Sound s₀ t) ?_ ?_; (on_goal 1 => (subst t)); (on_goal 2 => (clear_value t; intro _)))
    | (fail_if_no_progress extract_lets +onlyGivenNames t; first | guard_hyp t : HostIf := _ | guard_hyp t : Mc := _ | clear_value t)
    | with_reducible apply State.setAlive_sound
    | with_reducible apply State.idleLanes_sound
    | with_reducible apply State.onTap_sound
    | with_reducible apply State.setTap_sound
    | intro _ _
    | split
    | with_reducible rfl
    | (with_reducible apply Sound.upd)

theorem execWrapsel_sound {s₀ : State} (stack : BitVec 4) {s : State} (hs : Sound s₀ s) : SoundOut s₀ (execWrapsel stack s) := by
  unfold execWrapsel
  repeat' first
    | with_reducible apply SoundOut.next
    | with_reducible assumption
    | with_reducible apply State.onTap_sound
    | with_reducible apply State.setTap_sound
    | intro _ _
    | with_reducible rfl
    | (with_reducible apply Sound.upd)

theorem execBypass_sound {s₀ : State} {s : State} (hs : Sound s₀ s) : SoundOut s₀ (execBypass s) := by
  unfold execBypass
  repeat' first
    | with_reducible apply SoundOut.next
    | with_reducible assumption
    | with_reducible apply Sound.emit
    | with_reducible apply State.onTap_sound
    | with_reducible apply State.setTap_sound
    | intro _ _

theorem execTapReset_sound {s₀ : State} {s : State} (hs : Sound s₀ s) : SoundOut s₀ (execTapReset s) := by
  unfold execTapReset
  repeat' first
    | with_reducible apply SoundOut.next
    | with_reducible assumption
    | with_reducible apply State.onTap_sound
    | with_reducible apply State.setTap_sound
    | intro _ _

end Sys2Proof.Machine
end

