-- ==== Sys2Proof/Laws/SoundStep.lean ====
section
/-! SUPPORT. What every command keeps. -/

namespace Sys2Proof.Machine

open Sys2Proof

/-- Every command leaves the queue alone, lets the timer and the counters only grow, and keeps the invariant. -/
theorem exec_sound (i : Instr) (s : State) : SoundOut s (exec i s) := by
  have h := Sound.refl s
  cases i
  case identify => exact execIdentify_sound _ h
  case regRead => exact execRegRead_sound _ h
  case stepRecords => exact execStepRecords_sound _ h
  case faultLog => exact execFaultLog_sound _ h
  case ctxCreate => exact execCtxCreate_sound _ h
  case ctxEnd => exact execCtxEnd_sound _ h
  case placement => exact execPlacement_sound _ h
  case lscaleSet => exact execLscaleSet_sound _ h
  case hparamSet => exact execHparamSet_sound _ h
  case fnLoad => exact execFnLoad_sound _ h
  case recipeLoad => exact execRecipeLoad_sound _ h
  case legLoad => exact execLegLoad_sound _ h
  case mapSet => exact execMapSet_sound _ h
  case shelfCreate => exact execShelfCreate_sound _ h
  case shelfRelease => exact execShelfRelease_sound _ h
  case rangePrefetch => exact execRangePrefetch_sound _ h
  case rangeFlush => exact execRangeFlush_sound _ h
  case rangeInvalidate => exact execRangeInvalidate_sound _ h
  case rangeDiscard => exact execRangeDiscard_sound _ h
  case rangeClose => exact execRangeClose_sound _ h
  case copyLines => exact execCopyLines_sound _ h
  case tileMove => exact execTileMove_sound _ h
  case stepWaybill => exact execStepWaybill_sound _ h
  case legWaybill => exact execLegWaybill_sound _ h
  case routeLoad => exact execRouteLoad_sound _ h
  case routeDefault => exact execRouteDefault_sound _ h
  case portRetrain => exact execPortRetrain_sound _ h
  case exportWaybill => exact execExportWaybill_sound _ h
  case restore => exact execRestore_sound _ _ h
  case takeover => exact execTakeover_sound _ h
  case setpoint => exact execSetpoint_sound _ _ h
  case shedClear => exact execShedClear_sound _ h
  case coolant => exact execCoolant_sound _ h
  case selfTest => exact execSelfTest_sound _ h
  case hbmRate => exact execHbmRate_sound _ h
  case status => exact execStatus_sound _ h
  case powerCap => exact execPowerCap_sound _ _ h
  case shedLatch => exact execShedLatch_sound _ _ h
  case priorityShedClear => exact execPriorityShedClear_sound _ h
  case resetContext => exact execResetContext_sound _ h
  case resetWarm => exact execResetWarm_sound _ _ h
  case resetCold => exact execResetCold_sound _ _ h
  case quiesceDepart => exact execQuiesceDepart_sound _ h
  case quiesceRejoin => exact execQuiesceRejoin_sound _ h
  case freezeTileBoundary => exact execFreezeTileBoundary_sound _ _ h
  case freezeImmediate => exact execFreezeImmediate_sound _ h
  case thaw => exact execThaw_sound _ h
  case crashDump => exact execCrashDump_sound _ h
  case freezeComplete => exact execFreezeComplete_sound _ h
  case waybillFetch => exact execWaybillFetch_sound _ _ _ h
  case sqDoorbell => exact execSqDoorbell_sound _ _ h
  case cqDoorbell => exact execCqDoorbell_sound _ _ h
  case priorityDoorbell => exact execPriorityDoorbell_sound _ _ h
  case ringEnable => exact execRingEnable_sound _ _ h
  case ringDisable => exact execRingDisable_sound _ _ h
  case ringDrainComplete => exact execRingDrainComplete_sound _ h
  case receiptWriteFailure => exact execReceiptWriteFailure_sound _ h
  case heldReceiptsWrite => exact execHeldReceiptsWrite_sound h
  case registerWrite => exact execRegisterWrite_sound _ _ _ h
  case leaseSWrite => exact execLeaseSWrite_sound _ _ _ h
  case rcRead => exact execRcRead_sound _ h
  case lowHalfRead => exact execLowHalfRead_sound _ h
  case highHalfRead => exact execHighHalfRead_sound _ h
  case tier3WindowApply => exact execTier3WindowApply_sound h
  case tileProductForward => exact execTileProductForward_sound _ _ h
  case tileProductDataGradient => exact execTileProductDataGradient_sound _ _ h
  case tileProductWeightGradient => exact execTileProductWeightGradient_sound _ _ h
  case elementwise => exact execElementwise_sound _ _ h
  case reduction => exact execReduction_sound _ _ h
  case gather => exact execGather_sound _ _ h
  case scatter => exact execScatter_sound _ _ h
  case rowNormForward => exact execRowNormForward_sound _ _ h
  case rowNormBackward => exact execRowNormBackward_sound _ _ h
  case softmaxForward => exact execSoftmaxForward_sound _ _ h
  case softmaxBackward => exact execSoftmaxBackward_sound _ _ h
  case reduceScatterSend => exact execReduceScatterSend_sound _ _ h
  case pointToPointSend => exact execPointToPointSend_sound _ _ h
  case shardFetch => exact execShardFetch_sound _ _ h
  case buddyMirror => exact execBuddyMirror_sound _ _ h
  case checkpointExport => exact execCheckpointExport_sound _ _ h
  case sweepSegment => exact execSweepSegment_sound _ _ h
  case recipeLaunch => exact execRecipeLaunch_sound _ _ h
  case descriptorComplete => exact execDescriptorComplete_sound _ _ h
  case nop => exact execNop_sound _ _ h
  case exit => exact execExit_sound _ _ h
  case bar => exact execBar_sound _ _ h
  case barRelease => exact execBarRelease_sound _ h
  case fence => exact execFence_sound _ _ h
  case ifMask => exact execIfMask_sound _ _ h
  case elseMask => exact execElseMask_sound _ _ h
  case endIf => exact execEndIf_sound _ _ h
  case loop => exact execLoop_sound _ _ h
  case bra => exact execBra_sound _ _ h
  case spr => exact execSpr_sound _ _ h
  case iadd => exact execIadd_sound _ _ h
  case isub => exact execIsub_sound _ _ h
  case imul => exact execImul_sound _ _ h
  case imad => exact execImad_sound _ _ h
  case imin => exact execImin_sound _ _ h
  case imax => exact execImax_sound _ _ h
  case andBits => exact execAndBits_sound _ _ h
  case orBits => exact execOrBits_sound _ _ h
  case xorBits => exact execXorBits_sound _ _ h
  case shl => exact execShl_sound _ _ h
  case shr => exact execShr_sound _ _ h
  case sar => exact execSar_sound _ _ h
  case addi => exact execAddi_sound _ _ h
  case lui => exact execLui_sound _ _ h
  case icmp => exact execIcmp_sound _ _ h
  case sel => exact execSel_sound _ _ h
  case fadd => exact execFadd_sound _ _ h
  case fsub => exact execFsub_sound _ _ h
  case fmul => exact execFmul_sound _ _ h
  case ffma => exact execFfma_sound _ _ h
  case fmin => exact execFmin_sound _ _ h
  case fmax => exact execFmax_sound _ _ h
  case fcmp => exact execFcmp_sound _ _ h
  case fn => exact execFn_sound _ _ h
  case cvt => exact execCvt_sound _ _ h
  case f2i => exact execF2i_sound _ _ h
  case i2f => exact execI2f_sound _ _ h
  case ldl => exact execLdl_sound _ _ h
  case stl => exact execStl_sound _ _ h
  case ldg => exact execLdg_sound _ _ h
  case stg => exact execStg_sound _ _ h
  case ldt => exact execLdt_sound _ _ h
  case prf => exact execPrf_sound _ _ h
  case atom => exact execAtom_sound _ _ h
  case red => exact execRed_sound _ _ h
  case shfl => exact execShfl_sound _ _ h
  case vote => exact execVote_sound _ _ h
  case rand => exact execRand_sound _ _ h
  case wellHaltEnd => exact execWellHaltEnd_sound _ _ _ h
  case wellHaltTimeout => exact execWellHaltTimeout_sound _ _ _ h
  case orderedContributionArrival => exact execOrderedContributionArrival_sound _ h
  case contributionResend => exact execContributionResend_sound _ h
  case completionNoticeArrival => exact execCompletionNoticeArrival_sound _ h
  case immediateOperationArrival => exact execImmediateOperationArrival_sound _ h
  case pressWaitTimeout => exact execPressWaitTimeout_sound _ _ _ _ h
  case homeRequest => exact execHomeRequest_sound _ h
  case channelRetrim => exact execChannelRetrim_sound _ _ _ _ h
  case unscheduledRetrim => exact execUnscheduledRetrim_sound _ _ _ _ _ h
  case couplerRemap => exact execCouplerRemap_sound _ _ _ h
  case columnEvacuationComplete => exact execColumnEvacuationComplete_sound _ h
  case lineCheckFailure => exact execLineCheckFailure_sound _ _ _ _ _ h
  case cellarUncorrectable => exact execCellarUncorrectable_sound _ _ h
  case cellarCorrected => exact execCellarCorrected_sound _ _ h
  case columnControllerSilent => exact execColumnControllerSilent_sound _ _ h
  case thrashIntervalEnd => exact execThrashIntervalEnd_sound _ h
  case hbmCorrectedError => exact execHbmCorrectedError_sound _ _ h
  case hbmReadParityFailure => exact execHbmReadParityFailure_sound _ _ h
  case hbmWriteParityFailure => exact execHbmWriteParityFailure_sound _ _ h
  case hbmUncorrectableError => exact execHbmUncorrectableError_sound _ _ h
  case temperatureReadout => exact execTemperatureReadout_sound _ _ _ h
  case refreshRateFall => exact execRefreshRateFall_sound _ _ _ h
  case outriderFetchStart => exact execOutriderFetchStart_sound _ h
  case caravanFillComplete => exact execCaravanFillComplete_sound _ h
  case caravanFillError => exact execCaravanFillError_sound _ _ _ h
  case tileRegenerated => exact execTileRegenerated_sound _ _ _ _ h
  case stashSpillFetch => exact execStashSpillFetch_sound _ h
  case admissionPass => exact execAdmissionPass_sound _ h
  case legComplete => exact execLegComplete_sound _ _ _ h
  case stepAdmission => exact execStepAdmission_sound _ _ h
  case stepClose => exact execStepClose_sound _ _ _ _ h
  case trailerArrival => exact execTrailerArrival_sound _ _ h
  case sealPublish => exact execSealPublish_sound _ _ h
  case fetchUnitArrival => exact execFetchUnitArrival_sound _ _ _ _ _ _ _ h
  case verifyRequest => exact execVerifyRequest_sound _ _ _ _ _ h
  case verifyReply => exact execVerifyReply_sound _ h
  case mirrorUnitArrival => exact execMirrorUnitArrival_sound _ _ h
  case mirrorAcknowledgement => exact execMirrorAcknowledgement_sound _ _ h
  case maskArrival => exact execMaskArrival_sound _ _ h
  case resumeNoticeArrival => exact execResumeNoticeArrival_sound _ _ _ h
  case resendNoticeArrival => exact execResendNoticeArrival_sound _ _ _ h
  case voidNoticeArrival => exact execVoidNoticeArrival_sound _ _ h
  case spareAdmitRequest => exact execSpareAdmitRequest_sound _ _ _ h
  case lossNoticeArrival => exact execLossNoticeArrival_sound _ h
  case neighbourLost => exact execNeighbourLost_sound _ _ h
  case departureNoticeArrival => exact execDepartureNoticeArrival_sound _ h
  case neighbourDeparted => exact execNeighbourDeparted_sound _ _ h
  case isolated => exact execIsolated_sound _ h
  case flitReceive => exact execFlitReceive_sound _ _ _ h
  case controlFlitReceive => exact execControlFlitReceive_sound _ _ _ h
  case controlFlitSend => exact execControlFlitSend_sound _ h
  case replayTimeout => exact execReplayTimeout_sound _ _ h
  case laneDown => exact execLaneDown_sound _ _ _ h
  case widthChangeComplete => exact execWidthChangeComplete_sound _ _ h
  case portTrainingComplete => exact execPortTrainingComplete_sound _ _ _ _ _ h
  case packetRoute => exact execPacketRoute_sound _ _ h
  case heldPacketTimeout => exact execHeldPacketTimeout_sound _ _ h
  case packetArrival => exact execPacketArrival_sound _ h
  case reduceScatterContributionArrival => exact execReduceScatterContributionArrival_sound _ _ h
  case packetAcknowledgement => exact execPacketAcknowledgement_sound _ _ h
  case linkTimeout => exact execLinkTimeout_sound _ _ h
  case shedNAssert => exact execShedNAssert_sound _ h
  case shedNRelease => exact execShedNRelease_sound _ h
  case chatterClear => exact execChatterClear_sound _ h
  case envSetSample => exact execEnvSetSample_sound _ _ h
  case beatEdge => exact execBeatEdge_sound _ _ h
  case beatInvalid => exact execBeatInvalid_sound _ h
  case slotBoundary => exact execSlotBoundary_sound _ _ h
  case leaseExpiry => exact execLeaseExpiry_sound _ h
  case inputUndervoltage => exact execInputUndervoltage_sound _ h
  case inputRecovery => exact execInputRecovery_sound _ h
  case powerLoss => exact execPowerLoss_sound _ h
  case powerOn => exact execPowerOn_sound _ h
  case bringupStepComplete => exact execBringupStepComplete_sound _ _ h
  case governorTick => exact execGovernorTick_sound _ _ h
  case heatModelUpdate => exact execHeatModelUpdate_sound _ _ _ _ h
  case inletSensorFailure => exact execInletSensorFailure_sound _ h
  case dieThrottle => exact execDieThrottle_sound _ _ _ h
  case throttleRelease => exact execThrottleRelease_sound _ _ _ h
  case thermalTrip => exact execThermalTrip_sound _ _ _ h
  case retentionFloorReached => exact execRetentionFloorReached_sound _ h
  case deepFloorEntry => exact execDeepFloorEntry_sound _ _ h
  case deepFloorExit => exact execDeepFloorExit_sound _ h
  case retentionFloorExit => exact execRetentionFloorExit_sound _ h
  case idlePointEntry => exact execIdlePointEntry_sound _ h
  case clusterRotation => exact execClusterRotation_sound _ h
  case turnGivenUp => exact execTurnGivenUp_sound _ _ h
  case clockStep => exact execClockStep_sound _ _ h
  case resetNAssert => exact execResetNAssert_sound _ h
  case resetNRelease => exact execResetNRelease_sound _ h
  case watchdogExpiry => exact execWatchdogExpiry_sound _ h
  case perstNAssert => exact execPerstNAssert_sound h
  case perstNRelease => exact execPerstNRelease_sound h
  case mcCoreWatchdog => exact execMcCoreWatchdog_sound _ _ h
  case mcCoreRestartComplete => exact execMcCoreRestartComplete_sound _ h
  case coreLogicFault => exact execCoreLogicFault_sound _ _ h
  case tier0Uncorrectable => exact execTier0Uncorrectable_sound _ _ _ h
  case tier0Corrected => exact execTier0Corrected_sound _ _ _ h
  case l1Parity => exact execL1Parity_sound _ _ _ h
  case powerStagePhaseFault => exact execPowerStagePhaseFault_sound _ _ _ _ h
  case sensorFault => exact execSensorFault_sound _ _ h
  case selfTestComplete => exact execSelfTestComplete_sound _ _ _ h
  case exportStart => exact execExportStart_sound _ h
  case storeOpen => exact execStoreOpen_sound _ _ _ _ h
  case storeGrant => exact execStoreGrant_sound _ _ h
  case storeRefuse => exact execStoreRefuse_sound _ h
  case storeClose => exact execStoreClose_sound _ _ _ _ h
  case storeDone => exact execStoreDone_sound _ _ h
  case storeTimeout => exact execStoreTimeout_sound _ h
  case mctpPriorityMessage => exact execMctpPriorityMessage_sound _ _ _ h
  case getVendorDefined => exact execGetVendorDefined_sound h
  case i3cDynamicAddress => exact execI3cDynamicAddress_sound _ h
  case getVersion => exact execGetVersion_sound h
  case getCapabilities => exact execGetCapabilities_sound h
  case negotiateAlgorithms => exact execNegotiateAlgorithms_sound _ _ h
  case getDigests => exact execGetDigests_sound h
  case getCertificate => exact execGetCertificate_sound _ _ _ h
  case challenge => exact execChallenge_sound _ _ h
  case getMeasurements => exact execGetMeasurements_sound _ _ h
  case getSensorReading => exact execGetSensorReading_sound _ h
  case digitalSetpointEffecter => exact execDigitalSetpointEffecter_sound _ _ h
  case deepFloorEffecter => exact execDeepFloorEffecter_sound _ _ h
  case coolantFlowEffecter => exact execCoolantFlowEffecter_sound _ h
  case plateLimitEffecter => exact execPlateLimitEffecter_sound _ h
  case firmwareUpdateTransfer => exact execFirmwareUpdateTransfer_sound _ _ h
  case activateFirmware => exact execActivateFirmware_sound h
  case extest => exact execExtest_sound _ h
  case samplePreload => exact execSamplePreload_sound _ h
  case idcode => exact execIdcode_sound h
  case testmode => exact execTestmode_sound h
  case wrapsel => exact execWrapsel_sound _ h
  case bypass => exact execBypass_sound h
  case snoop => exact execSnoop_sound _ _ h
  case irqDelayExpiry => exact execIrqDelayExpiry_sound _ h
  case hostLinkDown => exact execHostLinkDown_sound _ h
  case retrimComplete => exact execRetrimComplete_sound _ _ h
  case rowRetirementComplete => exact execRowRetirementComplete_sound _ _ _ _ h
  case takeoverQuery => exact execTakeoverQuery_sound _ _ _ h
  case takeoverQueryReply => exact execTakeoverQueryReply_sound _ _ h
  case mirrorUnitRerequest => exact execMirrorUnitRerequest_sound _ _ _ _ h
  case tapReset => exact execTapReset_sound h
  case setEndpointId => exact execSetEndpointId_sound _ h
  case pldmEventsEnable => exact execPldmEventsEnable_sound _ h

end Sys2Proof.Machine
end

