-- ==== Sys2Proof/Machine/GeluTable.lean ====
section
/-! DEFINITION. What the manual says of the built-in T5 table of GELU-tanh, whose contents it does not give (05 R137, log 9). -/

namespace Sys2Proof.Machine

open Sys2Proof

/-- The real number of an exact value; an infinity or NaN has none. -/
noncomputable def FVal.real : FVal → Option ℝ
  | .fin neg m e => some ((if neg then -1 else 1) * (m : ℝ) * (2 : ℝ) ^ e)
  | _ => none

/-- GELU-tanh. PRESUMED (log 9): the manual names the function and its minimum, and gives no formula. -/
noncomputable def geluTanh (x : ℝ) : ℝ := x / 2 * (1 + Real.tanh (Real.sqrt (2 / Real.pi) * (x + 0.044715 * x ^ 3)))

/-- The pre-activation at which GELU-tanh has its minimum (05 R137). -/
noncomputable def geluMin : ℝ := -0.75179

/-- What 05 R137 says of the table: at an FP32 output y it gives the derivative at the pre-activation x at or above the minimum that has that output, within
2^−16 relative. An output of a pre-activation below the minimum is one of these too, and gets the same result. -/
def T5Table (t : FnTable) : Prop :=
  ∀ (y : Word) (x v : ℝ), geluMin ≤ x → (val32 y).real = some v → geluTanh x = v →
    ∃ d : ℝ, (val32 (fnEval t y)).real = some d ∧ |d - deriv geluTanh x| ≤ |deriv geluTanh x| / 2 ^ 16

end Sys2Proof.Machine
end

