-- ==== Sys2Proof/Tests/Slice0.lean ====
section
/-! SUPPORT. Tests: what the checks of WellFormed refuse, a few effects, and for every statement of Certificates/Slice0 that has hypotheses a witness
that meets those of each clause. Expected values come from the tables of spec/. -/

namespace Sys2Proof.Tests

open Sys2Proof Sys2Proof.Machine

/- Kernel evaluation waits for every proof before it: in order, no thread waits for another. -/
set_option Elab.async false

/-! ### States and commands -/

/-- The block after bring-up, at full power, with context 0 and cluster 0 running. -/
def up : State :=
  { State.reset with
    mc := { State.reset.mc with bringup := 14, coreAlive := [true, true, true], zeroDone := true }
    host := { HostIf.init with linkUp := true, perst := false }
    cel := { State.reset.cel with trained := true }
    tg := { State.reset.tg with st := 0, allowance := 3300, dmaPaused := false, admitStop := false, cfg := { State.reset.tg.cfg with envSrc := 1 } }
    pwr := { State.reset.pwr with stages := List.replicate 8 .up, alive := true }
    cl := [(0, { Cluster.init with held := false, owner := some 0 })]
    ctx := [(0, { Ctx.init with live := true })] }

/-- `up` with another cluster 0. -/
def upCl (f : Cluster → Cluster) : State := up.modClu 0 f

/-- `up` with another context 0. -/
def upCx (f : Ctx → Ctx) : State := up.modCx 0 f

/-- A leg of context 0 with ID 0 on cluster 0. -/
def leg0 : LegRun :=
  { ctx := 0, id := 0, inst := ⟨0, ⟨0, 0, 0, 0⟩, some 0, false⟩, inStep := true, clusters := [0], committed := 0, peak := 0, energy := 0, status := 0, detail := 0,
    orderDep := false, outRows := 0, wb := none, resume := [], failed := [] }

/-- A recipe launch of one core, 32 threads, 8 registers, from instruction 0 (03 Table 3-5). -/
def launchDesc : BitVec 512 := pack 512 [(0, 8, 0x80), (384, 13, 0), (400, 2, 0), (402, 7, 1), (416, 32, 32), (448, 32, 1)]

/-- The strand that the tests run: core 0, strand 0. -/
def u0 : StrandRef := ⟨0, 0⟩

/-- A strand of the launch with live lanes `live`. -/
def strand0 (live : BitVec 32) : Strand :=
  { base := 0, live := live, stack := [], pc := 0, fresh := 0, regs := [], preds := [], atBar := none, loopAt := [], waiting := [], reds := [] }

/-- The launch runs on core 0 with one strand `t` and the word w at its pc. -/
def recipe (t : Strand) (w : Word) : State :=
  { (upCl fun x => { x with leg := some (0, 0), runs := [⟨launchDesc, .vector, 0, 0, [], [], 32, []⟩], recipe := tset 0 [] t.pc w }) with
    legs := [leg0]
    cores := [(0, { Core.init with strands := [(0, some t)] })] }

/-- The strand can run the word. -/
def runs (t : Strand) (w : Word) : Bool := ((recipe t w).ready u0 w).isSome

/-- Where the launch of `recipe` runs. -/
def where0 : Where := ⟨0, decodeDesc launchDesc, 0, 0, launchDesc⟩

def formA (d a b : BitVec 5) (f : BitVec 4) (m : BitVec 3) : FormA := ⟨d, a, b, 0, false, f, m⟩
def formC (d : BitVec 5) (p : BitVec 3) (imm : BitVec 17) : FormC := ⟨d, p, false, imm⟩

/-! ### WellFormed refuses each kind of number out of range -/

def badWaybill : Waybill := ⟨64, 0, []⟩
def badLine : LineId := .scratch 1536 0

/-- One ill-formed command for each check of the parts that commands carry. -/
theorem test_ill_formed_parts : ((([.identify badWaybill, .status ⟨false, 16, 0⟩, .nop ⟨1536, 0⟩ ⟨0, 0, false, 0⟩, .nop ⟨0, 64⟩ ⟨0, 0, false, 0⟩, .cellarCorrected badLine 0,
   .cellarCorrected (.scratch 0 (79 * 65536)) 0, .cellarCorrected (.scratch 0 1) 0, .cellarCorrected (.window 1536 0) 0, .cellarCorrected (.window 0 (2 ^ 64)) 0,
   .cellarCorrected (.window 0 1) 0,
   .contributionResend ⟨4, false, 0, .scratch 0 0, .fadd, 0, 0, ⟨false, 0, 0, 0, 0⟩, false, 0, 0, 0, 0, 0, 0⟩,
   .contributionResend ⟨0, false, 0, badLine, .fadd, 0, 0, ⟨false, 0, 0, 0, 0⟩, false, 0, 0, 0, 0, 0, 0⟩,
   .contributionResend ⟨0, false, 0, .scratch 0 0, .fadd, 0, 0, ⟨false, 256, 0, 0, 0⟩, false, 0, 0, 0, 0, 0, 0⟩,
   .immediateOperationArrival ⟨4, .scratch 0 0, 0, .add, 0, 0, ⟨0, 0⟩, 0, 0, 0⟩, .immediateOperationArrival ⟨0, badLine, 0, .add, 0, 0, ⟨0, 0⟩, 0, 0, 0⟩,
   .immediateOperationArrival ⟨0, .scratch 0 0, 64, .add, 0, 0, ⟨0, 0⟩, 0, 0, 0⟩, .immediateOperationArrival ⟨0, .scratch 0 0, 0, .add, 0, 0, ⟨1536, 0⟩, 0, 0, 0⟩,
   .immediateOperationArrival ⟨0, .scratch 0 0, 0, .add, 0, 0, ⟨0, 0⟩, 32, 0, 0⟩,
   .homeRequest ⟨5, .scratch 0 0, 0, .tileRead⟩, .homeRequest ⟨0, badLine, 0, .tileRead⟩, .homeRequest ⟨0, .scratch 0 0, 3, .tileRead⟩,
   .homeRequest ⟨0, .scratch 0 0, 0, .l1Read 1536⟩, .homeRequest ⟨0, .scratch 0 0, 0, .l1Write 1536⟩, .homeRequest ⟨0, .scratch 0 0, 0, .dropCopy 1536⟩,
   .homeRequest ⟨0, .scratch 0 0, 0, .ownerEvict 1536 false 0⟩, .dieThrottle (.base 4) 0 0, .dieThrottle (.cellar 48) 0 0, .dieThrottle (.hbm 16) 0 0,
   .sensorFault (.base 4) 0, .sensorFault (.cellarC1 48) 0, .sensorFault (.cellarC4 48) 0, .sensorFault (.hbm 16) 0] : List Instr)).all fun i => !i.wf) = true := by decide +kernel

/-- The other checks of parts, and those of plain numbers. -/
theorem test_ill_formed_numbers : ((([.selfTestComplete (.core 1536) true 0, .selfTestComplete (.bank 1536 0) true 0, .selfTestComplete (.bank 0 8) true 0, .selfTestComplete (.channel 1536) true 0,
   .selfTestComplete (.pc 16 0) true 0, .selfTestComplete (.pc 0 64) true 0, .selfTestComplete (.lane 12 0) true 0, .selfTestComplete (.lane 0 8) true 0,
   .getSensorReading (.hottestBase 4), .getSensorReading (.hbmStack 16), .packetArrival ⟨0, 4, []⟩, .sqDoorbell 64 0, .registerWrite 0x400000 .full 0,
   .elementwise 48 0, .barRelease 1536, .completionNoticeArrival ⟨4, 0, false, 0, 0⟩, .couplerRemap 0 true 256, .hbmCorrectedError 0x10000000000 0,
   .temperatureReadout [] [] 0, .stepAdmission 4 0, .resumeNoticeArrival 0 8192 0, .spareAdmitRequest 0 0 8192, .lossNoticeArrival 8192, .neighbourLost ⟨12, false⟩ 0,
   .departureNoticeArrival ⟨12, none⟩, .departureNoticeArrival ⟨0, some 8192⟩, .bringupStepComplete [] ⟨[⟨1536, .riser 2, 0, 20⟩], 0⟩,
   .bringupStepComplete [] ⟨[⟨0, .coupler true 272, 0, 20⟩], 0⟩, .deepFloorExit ⟨[⟨0, .riser 1, 0, 20⟩], 0⟩, .deepFloorExit ⟨[⟨0, .riser 5, 0, 20⟩], 0⟩,
   .deepFloorExit ⟨[⟨0, .command 24, 0, 20⟩], 0⟩, .deepFloorExit ⟨[⟨0, .coupler false 0, 50, 15⟩], 0⟩, .storeTimeout ⟨4, 0⟩,
   .slotBoundary 0 64,
   .controlFlitReceive 0 ⟨none, none, []⟩ 0, .widthChangeComplete 0 [], .laneDown 0 8 0, .bringupStepComplete [.lane 12 0] ⟨[], 0⟩, .clockStep 48 0, .mcCoreWatchdog 3 0,
   .tier0Corrected 0 262144 0, .powerStagePhaseFault 8 0 true 0, .powerStagePhaseFault 0 6 true 0, .getCertificate 8 0 0, .firmwareUpdateTransfer 3 [],
   .rowRetirementComplete 16 0 0 [], .rowRetirementComplete 0 64 0 [], .rowRetirementComplete 0 0 65536 [], .mirrorUnitRerequest 0 0 3 0] : List Instr)).all fun i => !i.wf) = true := by decide +kernel

theorem test_well_formed : (Instr.nop ⟨1535, 63⟩ ⟨0, 0, false, 0⟩).wf = true ∧ (Instr.sqDoorbell 63 0).wf = true ∧ (Instr.clockStep 47 0).wf = true
    ∧ (Instr.selfTestComplete (.lane 11 7) true 0).wf = true := by decide

/-! ### Effects, with values from the tables of spec/ -/

/-- A field of the next state. -/
def after {α : Type} (i : Instr) (s : State) (f : State → α) (d : α) : α :=
  match exec i s with
  | .next t => f t
  | _ => d

/-- Register 3 of lane 0 after instruction i with g1 = a and g2 = b. -/
def result (i : Instr) (w a b : Word) : Option Word :=
  after i (recipe { strand0 1 with regs := [(1, some a), (2, some b)] } w) (fun t => (t.strandAt u0).map fun t => t.reg 0 3) none

/-- 03 Table 3-7: the low 32 bits; arithmetic shift; b is the second source. -/
theorem test_integer : result (.iadd u0 (formA 3 1 2 0 0)) (encA 0x0A (formA 3 1 2 0 0)) 0xFFFFFFFF 1 = some 0
    ∧ result (.isub u0 (formA 3 1 2 0 0)) (encA 0x0B (formA 3 1 2 0 0)) 1 2 = some 0xFFFFFFFF
    ∧ result (.sar u0 (formA 3 1 2 0 0)) (encA 0x15 (formA 3 1 2 0 0)) 0x80000000 31 = some 0xFFFFFFFF
    ∧ result (.addi u0 ⟨3, 1, 0xFFFF⟩) (encI 0x16 ⟨3, 1, 0xFFFF⟩) 0 0 = some 0xFFFFFFFF
    ∧ result (.lui u0 ⟨3, 0, 0x8000⟩) (encI 0x17 ⟨3, 0, 0x8000⟩) 0 0 = some 0x80000000 := by decide +kernel

/-- 02 R30, R35: 1 + 2 = 3; 1.5 − 2 = −0.5; a NaN operand of FMIN. -/
theorem test_float : result (.fadd u0 (formA 3 1 2 0 0)) (encA 0x1A (formA 3 1 2 0 0)) 0x3F800000 0x40000000 = some 0x40400000
    ∧ result (.fsub u0 (formA 3 1 2 0 0)) (encA 0x1B (formA 3 1 2 0 0)) 0x3FC00000 0x40000000 = some 0xBF000000
    ∧ result (.fmin u0 (formA 3 1 2 0 0)) (encA 0x1E (formA 3 1 2 0 0)) 0x7F800001 0 = some 0x7FC00000 := by decide +kernel

/-- 02 R42: 464 rounds to 448 in E4M3; the largest finite values of Table 2-2. -/
theorem test_formats : (ffmt 6).map (fun f => f.encode .near true (val32 0x43E80000)) = some 0x7E ∧ (ffmt 6).map (fun f => to32 (f.decode 0x7E)) = some 0x43E00000
    ∧ (ffmt 7).map (fun f => to32 (f.decode 0x7B)) = some 0x47600000 ∧ (ffmt 10).map (fun f => to32 (f.decode 7)) = some 0x40C00000 := by decide +kernel

/-- 10 R336, R349: SHED_N low sends a running module to the retention floor, at 380 W. -/
theorem test_shed : after (.shedNAssert 5) up (fun t => (t.tg.st, t.tg.allowance)) (9, 0) = (4, 380) := by decide +kernel

/-- 11 R376: the doorbell's low field is the tail, enabled by bit 12. -/
theorem test_doorbell : after (.sqDoorbell 63 0x1ABC) up (fun t => (t.ring 63).sqTail) 0 = 0xABC := by decide +kernel

/-- 13 Table 13-8 and R465: IDCODE's least significant bit is 1. -/
theorem test_idcode : after .idcode up (fun t => t.out.map fun o => match o with | .jtag l => (l.length, l.head?) | _ => (0, none)) [] = [(32, some true)] := by decide +kernel

/-- 13 R443: the BAR answers 0 before bring-up step 5. -/
theorem test_early_read : after (.rcRead 0x10000) State.reset (fun t => t.out) [] = [.barRead 0x10000 0] := by decide +kernel

/-- 01 R23: clocks move in steps of 25 MHz. -/
theorem test_clock_step : after (.clockStep 0 5) (up.modClu 0 fun x => { x with target := 76 }) (fun t => (t.clu 0).clock) 0 = 25 := by decide +kernel

/-- 12 Table 12-2: an uncorrectable error of tier 0 tests its bank, with fault kind 0x02. -/
theorem test_tier0 : after (.tier0Uncorrectable 0 32768 5) up (fun t => t.mc.tests) [] = [⟨.bank 0 1, 2, 32768, none⟩] := by decide +kernel

/-! ### Recipes -/

theorem witness_ArithmeticResults :
    (intOps.all fun q => runs (strand0 1) (encA q.2.1 (formA 1 2 3 0 0)) && !regsBad where0 [1, 2, 3]) = true
    ∧ (floatOps.all fun q => runs (strand0 1) (encA q.2.1 (formA 7 7 7 0 7))) = true ∧ regsBad where0 [7, 7, 7] = false
    ∧ runs (strand0 1) (encA 0x1D (formA 1 2 3 0 0)) = true := by decide

theorem witness_RegisterResults :
    ([0x0D, 0x2D, 0x24].all fun o => runs (strand0 1) (encA o (formA 1 2 3 0 0))) = true
    ∧ runs (strand0 1) (encA 0x09 (formA 1 15 0 0 0)) = true ∧ regsBad where0 [1] = false ∧ (15 : BitVec 5).toNat < 16
    ∧ runs (strand0 1) (encA 0x22 (formA 1 2 0 2 0)) = true ∧ (ffmt 2).isSome = true ∧ runs (strand0 1) (encA 0x22 (formA 1 2 0 5 0)) = true
    ∧ (ffmt 5).isSome = true
    ∧ runs (strand0 1) (encA 0x2F (formA 1 2 3 0 3)) = true ∧ (3 : BitVec 3).toNat ≤ 3 ∧ runs (strand0 1) (encA 0x23 (formA 1 2 0 0 0)) = true
    ∧ runs (strand0 1) (encA 0x21 (formA 1 2 0 0 0)) = true
    ∧ runs (strand0 1) (encI 0x16 ⟨1, 2, 0xFFFF⟩) = true ∧ runs (strand0 1) (encI 0x17 ⟨7, 0, 0xFFFF⟩) = true ∧ regsBad where0 [7, 0] = false := by decide

theorem witness_PredicateResults :
    runs (strand0 1) (encA 0x18 (formA 7 2 3 7 0)) = true ∧ (7 : BitVec 4).toNat ≤ 7 ∧ runs (strand0 1) (encA 0x20 (formA 7 2 3 5 0)) = true
    ∧ (5 : BitVec 4).toNat ≤ 5 ∧ regsBad where0 [2, 3] = false
    ∧ runs (strand0 1) (encA 0x19 (formA 1 2 3 0 0)) = true ∧ runs (strand0 1) (encA 0x2E (formA 1 0 0 0 0)) = true ∧ regsBad where0 [1] = false := by decide

/-- Lane 0 lives, nothing is active: the mask stack is [0]. -/
def masked : Strand := { strand0 1 with stack := [0] }

theorem witness_StrandControl :
    runs (strand0 1) (encC 0x00 (formC 0 0 0)) = true ∧ runs (strand0 1) (encA 0x03 (formA 0 0 0 0 2)) = true ∧ (2 : BitVec 3).toNat ≤ 2
    ∧ runs (strand0 1) (encC 0x08 ⟨0, 0, true, 3⟩) = true ∧ ((strand0 1).lanes.all fun l => !(strand0 1).guard l 0 true) = true
    ∧ runs (strand0 1) (encC 0x08 (formC 0 0 3)) = true ∧ ((strand0 1).lanes.all fun l => (strand0 1).guard l 0 false) = true ∧ (strand0 1).lanes ≠ []
    ∧ runs masked (encC 0x01 (formC 0 0 0)) = true
    ∧ runs (strand0 1) (encC 0x01 (formC 0 0 0)) = true ∧ ((recipe (strand0 1) 0).launchOn 0).isSome = true
    ∧ runs (strand0 1) (encC 0x02 (formC 0 0 0)) = true
    ∧ ((recipe { strand0 1 with atBar := some 5 } 0).cor 0).strands = [(0, some { strand0 1 with atBar := some 5 })] := by decide

theorem witness_MasksAndLoops :
    runs { strand0 1 with stack := List.replicate 15 1 } (encC 0x04 (formC 0 0 0)) = true ∧ (Strand.depth { strand0 1 with stack := List.replicate 15 1 }) < 16
    ∧ runs masked (encC 0x05 (formC 0 0 0)) = true ∧ runs masked (encC 0x06 (formC 0 0 0)) = true ∧ masked.stack = [0]
    ∧ runs (strand0 1) (encC 0x07 (formC 7 0 0x1FFFF)) = true ∧ regsBad where0 [7] = false ∧ (strand0 1).depth < 16
    ∧ runs { strand0 1 with loopAt := (List.range 16).map fun i => (i + 1, 0) } (encC 0x07 (formC 1 0 0)) = true
    ∧ (((List.range 16).map fun i => (i + 1, (0 : BitVec 32))).any fun e => e.1 == nextPc 0) = true := by decide

/-- Register 1 of lane 0 holds v. -/
def lane1 (v : Word) : Strand := { strand0 1 with regs := [(1, some v)] }

/-- The strand reaches the word with the tier-0 offset 0x37FFC in register 1, the last word that LDL and STL may use. -/
theorem witness_LocalMemory :
    runs (lane1 0x37FFC) (encA 0x25 (formA 2 1 0 0 2)) = true ∧ runs (lane1 0x37FFC) (encA 0x26 (formA 2 1 0 0 2)) = true
    ∧ regsBad where0 [2, 1, 0] = false ∧ (formA 2 1 0 0 2).m.toNat ≤ 2
    ∧ ((lane1 0x37FFC).guarded (formA 2 1 0 0 2) = [0]) ∧ localOff (lane1 0x37FFC) (formA 2 1 0 0 2) 0 = 0x37FFC ∧ 0x37FFC % 2 ^ 2 = 0
    ∧ (recipe (lane1 0x37FFC) 0).mem.wf = true ∧ ((recipe (lane1 0x37FFC) 0).cor 0).badWords = []
    ∧ (recipe (lane1 0x37FFC) 0).writeCounts where0 1 0x37FFC = true := by decide
/-- A scratch window of one page at address 0, homed in cluster 0. -/
def scratchMap : List MapEntry := [⟨0, 1, 2, 0, false, 0, 1⟩]

/-- `recipe` in a leg outside any step, with the scratch window. -/
def recipeMap (t : Strand) (w : Word) : State :=
  { recipe t w with
    legs := [{ leg0 with inStep := false }]
    ctx := [(0, { Ctx.init with live := true, map := scratchMap })]
    cl := tmod Cluster.init (recipe t w).cl 0 fun x => { x with scratchUnits := 1 } }

/-- One lane that takes its step. -/
theorem lanes_one {R : State → Nat → State → Prop} {s : State} {l : Nat} (h : ∃ s', R s l s') : ∃ s', Lanes R s [l] s' :=
  h.elim fun s' h => ⟨s', .cons h (.nil s')⟩

/-- A load from sound tier 2. -/
theorem load_flat {s : State} {p : Where} {u : StrandRef} {a n k : Nat} (h : s.resolve p.ctx (s.muOf p) a = .flat .tier2 k) (hp : s.poisoned k = false)
    (hq : s.placePaused (.flat .tier2 k) = false) : s.loadBytes p u a n = (.done s, s.read .tier2 k n) := by simp [State.loadBytes, h, hp, hq]

theorem witness_MemoryInstructions :
    (([(0x27, 2), (0x28, 2), (0x29, 0), (0x2B, 4), (0x2C, 4), (0x2A, 0)] : List (Nat × BitVec 3)).all fun q =>
      ((recipeMap (strand0 1) (encA q.1 (formA 1 0 0 3 q.2))).ready u0 (encA q.1 (formA 1 0 0 3 q.2))).isSome) = true
    ∧ regsBad where0 [1, 0, 0] = false
    ∧ (∃ s', Lanes (ldgLane u0 (formA 1 0 0 3 2) (strand0 1) where0) (recipe (strand0 1) 0) [0] s')
    ∧ (∃ s', Lanes (stgLane u0 (formA 1 0 0 3 2) (strand0 1) where0) (recipe (strand0 1) 0) [0] s')
    ∧ (∃ s', Lanes (ldtLane u0 (formA 1 0 0 3 0) (strand0 1) where0) (recipe (strand0 1) 0) [0] s')
    ∧ (∃ s', Lanes (atomLane u0 (formA 1 0 0 3 4) (strand0 1) where0) (recipeMap (strand0 1) 0) [0] s')
    ∧ (∃ s', Lanes (redLane u0 (formA 1 0 0 3 4) (strand0 1) where0) (recipeMap (strand0 1) 0) [0] s')
    ∧ (∃ s', Lanes (ldtLane u0 (formA 1 0 1 3 0) (lane1 4096) where0) (recipe (lane1 4096) 0) [0] s')
    ∧ (∃ s', Lanes (prfLane u0 (formA 1 0 0 3 0) (strand0 1) where0) (recipe (strand0 1) 0) [0] s') ∧ (recipeMap (strand0 1) 0).anyPause = false := by
  refine ⟨by decide, by decide, lanes_one ?_, lanes_one ?_, lanes_one ?_, lanes_one ?_, lanes_one ?_, lanes_one ?_, lanes_one ?_, by decide⟩
  · exact ⟨_, by decide, _, _, load_flat (k := 0) (by decide +kernel) (by decide +kernel) (by decide +kernel), rfl⟩
  · exact ⟨_, by decide, rfl⟩
  · exact ⟨_, by decide, (if_neg (by decide)).mpr ⟨by decide, by decide, by decide, _, _, rfl, rfl⟩⟩
  · exact ⟨_, by decide, by decide, .scratch 0 0, 0, by decide, by decide, _, rfl, rfl⟩
  · exact ⟨_, by decide, .scratch 0 0, 0, 0, _, by decide, by decide, rfl, rfl⟩
  · exact ⟨_, by decide, (if_pos (by decide)).mpr rfl⟩
  · exact ⟨recipe (strand0 1) 0, rfl⟩

/-- Lanes 0 and 1 live, and p1 holds in lane 0 only. -/
def split1 : Strand := { strand0 3 with preds := [(1, some true), (9, some false)] }

theorem witness_StrandFaults :
    ((intOps ++ floatOps).all fun q => runs (strand0 1) (encA q.2.1 (formA 8 0 0 0 0))) = true ∧ regsBad where0 [8, 0, 0] = true
    ∧ runs (strand0 1) (encA 0x09 (formA 1 16 0 0 0)) = true ∧ 16 ≤ (16 : BitVec 5).toNat
    ∧ runs (strand0 1) (encA 0x18 (formA 1 2 3 8 0)) = true ∧ runs (strand0 1) (encA 0x20 (formA 1 2 3 6 0)) = true
    ∧ runs (strand0 1) (encA 0x22 (formA 1 2 0 1 0)) = true ∧ runs (strand0 1) (encA 0x22 (formA 1 2 0 6 0)) = true
    ∧ runs (strand0 1) (encI 0x17 ⟨1, 1, 0⟩) = true ∧ runs (strand0 1) (encA 0x03 (formA 0 0 0 0 3)) = true
    ∧ runs { strand0 1 with stack := List.replicate 16 1 } (encC 0x04 (formC 0 0 0)) = true ∧ 16 ≤ (Strand.depth { strand0 1 with stack := List.replicate 16 1 })
    ∧ runs (strand0 1) (encC 0x05 (formC 0 0 0)) = true ∧ runs (strand0 1) (encC 0x06 (formC 0 0 0)) = true ∧ (strand0 1).stack = []
    ∧ runs split1 (encC 0x08 (formC 0 1 3)) = true ∧ split1.lanes = [0, 1] ∧ split1.guard 0 1 false = true ∧ split1.guard 1 1 false = false
    ∧ runs (lane1 0x38000) (encA 0x25 (formA 2 1 0 0 2)) = true ∧ runs (lane1 0x38000) (encA 0x26 (formA 2 1 0 0 2)) = true
    ∧ (lane1 0x38000).guarded (formA 2 1 0 0 2) = [0] ∧ 0x38000 ≤ localOff (lane1 0x38000) (formA 2 1 0 0 2) 0
    ∧ runs (lane1 1) (encA 0x25 (formA 2 1 0 0 1)) = true ∧ localOff (lane1 1) (formA 2 1 0 0 1) 0 % 2 ^ 1 ≠ 0 := by decide
/-! ### Descriptors -/

/-- A descriptor on core 0 of one tile in each dimension: operand formats at module addresses 0, 0x10000, 0x20000 and 0x30000, C at location `cl`,
accumulation and parameters as given (03 Table 3-2). -/
def desc (kind fa fb fc fd cl : Nat) (accum : Bool) (param : Nat) : BitVec 512 :=
  pack 512 [(0, 8, kind), (16, 16, 7), (112, 4, fa), (128, 48, 0x10000), (176, 4, fb), (192, 48, if cl = 2 then 0 else 0x20000), (240, 4, fc), (244, 2, cl),
    (254, 1, b2n accum), (256, 16, 1), (272, 16, 1), (288, 16, 1), (320, 48, 0x30000), (368, 4, fd), (384, 64, param), (448, 32, 1)]

/-- One descriptor for each row of the table. -/
def descs : List (BitVec 512) :=
  [desc 0x10 2 2 1 0 0 false 0, desc 0x11 2 2 1 0 0 false 0, desc 0x12 2 2 1 0 2 true 0, desc 0x20 1 0 1 0 0 false 0, desc 0x30 1 0 1 0 0 false 0,
   desc 0x40 1 0 1 11 0 false 64, desc 0x41 1 0 1 11 0 false 1, desc 0x50 1 0 1 0 0 false 0, desc 0x51 1 0 1 1 0 false 0, desc 0x52 1 0 1 0 0 false 0,
   desc 0x53 1 0 1 1 0 false 0, desc 0x60 1 0 1 0 0 true 0, desc 0x60 1 0 1 0 0 false 1, desc 0x60 1 0 1 0 0 false 2, desc 0x60 1 0 1 0 0 false 3,
   desc 0x60 1 0 1 0 0 false 4, desc 0x70 1 1 2 1 0 false 0, launchDesc]

/-- w stands at the head of the queue of cluster 0, for a leg of phase 3. -/
def queued (w : BitVec 512) : State :=
  { (upCl fun x => { x with leg := some (0, 0), queue := [w], scratchUnits := 1 }) with
    legs := [{ leg0 with inst := { leg0.inst with entry := ⟨0, 3, 0, 0⟩, mu := none } }] }

theorem witness_DescriptorRuns :
    descRows.length = descs.length
    ∧ ((descs.zip descRows).all fun q => (queued q.1).atHead 0 q.1 && (queued q.1).mayStart 0 (decodeDesc q.1) && (queued q.1).descOk 0 ((queued q.1).legMu 0 0) (decodeDesc q.1)) = true
    ∧ (∀ q ∈ descs.zip descRows, q.2.2.1 (decodeDesc q.1)) := by
  refine ⟨by decide, by decide, ?_⟩
  simp only [descs, descRows, List.zip_cons_cons, List.zip_nil_left, List.forall_mem_cons, List.not_mem_nil, false_imp_iff, implies_true, and_true]
  decide

theorem witness_DescriptorIssue :
    ((up.clu 0).queue.head? ≠ some (desc 0x20 1 0 1 0 0 false 0))
    ∧ (let w := desc 0x20 1 0 1 0 0 false 0 ||| pack 512 [(480, 6, 63), (486, 1, 1)]
       (decodeDesc w).waitEn = true ∧ tget 0 ((queued w).clu 0).events (decodeDesc w).waitEvent = 0
         ∧ (queued w).descOk 0 ((queued w).legMu 0 0) (decodeDesc w) = true)
    ∧ (let w := desc 0x20 1 0 1 0 0 false 0
       let r : DescRun := ⟨w, .vector, 0, 0, [], [], 0, []⟩
       let s := (queued w).modClu 0 fun x => { x with runs := [r] }
       (s.clu 0).runs = [r] ∧ some (r.ctx, r.leg) = (s.clu 0).leg ∧ r.desc &&& ((decodeDesc w).mask.setWidth 512 <<< 448) ≠ 0
         ∧ r.pipe = (decodeDesc w).pipe ∧ s.hazard 0 (decodeDesc r.desc) (decodeDesc w) = true
         ∧ s.descOk 0 (s.legMu 0 0) (decodeDesc w) = true) := by decide

/-- Descriptors that 03 R83 rejects, one for each reason of the statement, in its order. -/
def rejects : List (BitVec 512) :=
  let e := desc 0x20 1 0 1 0 0 false 0
  [desc 0x21 1 0 1 0 0 false 0, e ||| pack 512 [(8, 4, 4)], e ||| pack 512 [(8, 4, 1)], e - pack 512 [(448, 32, 1)], e - pack 512 [(256, 16, 1)],
   desc 0x10 2 2 1 0 0 false 0 - pack 512 [(288, 16, 1)], e ||| pack 512 [(120, 2, 3)], e ||| pack 512 [(248, 3, 5)],
   desc 0x10 2 2 1 0 0 false 0 ||| pack 512 [(312, 2, 1), (315, 3, 2)], desc 0x20 1 0 1 1 0 false 4, e ||| pack 512 [(309, 1, 1)]]

theorem witness_RejectedDescriptors :
    (rejects.all fun w => (queued w).atHead 0 w && !(queued w).descOk 0 none (decodeDesc w)) = true
    ∧ (rejects.map fun w => (decodeDesc w).kind) = [0x21, 0x20, 0x20, 0x20, 0x20, 0x10, 0x20, 0x20, 0x10, 0x20, 0x20]
    ∧ kindKnown 0x21 = false ∧ (queued 0).legOf 0 0 ≠ none
    ∧ (decodeDesc (rejects.getD 1 0)).ctx = 4 ∧ (decodeDesc (rejects.getD 3 0)).mask = 0 ∧ (decodeDesc (rejects.getD 4 0)).m = 0
    ∧ (decodeDesc (rejects.getD 5 0)).k = 0 ∧ (decodeDesc (rejects.getD 6 0)).a.hint = 3 ∧ (decodeDesc (rejects.getD 7 0)).bsize = 5
    ∧ (decodeDesc (rejects.getD 8 0)).splitIndex = 2 ^ (decodeDesc (rejects.getD 8 0)).splitCount
    ∧ (queued 0).fnSlot 0 0 = none := by decide

/-- A descriptor that runs on core 0 of cluster 0, all tiles done. -/
def doneState : State :=
  { (upCl fun x => { x with leg := some (0, 0), runs := [⟨desc 0x20 1 0 1 0 0 false 0, .vector, 0, 0, [(0, 1)], [], 0, []⟩] }) with legs := [leg0] }

theorem witness_DescriptorsAndBatches :
    (doneState.doneRun 0 .vector).isSome = true ∧ doneState.clusterRuns 0 0 = true
    ∧ (((recipe (strand0 1) 0).clu 0).runs.find? fun r => r.desc == launchDesc) = some ⟨launchDesc, .vector, 0, 0, [], [], 32, []⟩
    ∧ (decodeDesc launchDesc).threads = 32 ∧ (0 : Nat) < (decodeDesc launchDesc).threads := by decide

theorem test_running_sum : sumFloat (fun _ => .near) 0 0 [val32 0x3F800000, val32 0x40000000, val32 0x40400000] = 0x40C00000 := by decide +kernel
/-! ### Waits, the press and the home protocol -/

/-- A step of one micro-batch just admitted. -/
def run0 : StepRun :=
  { wb := ⟨0, 0, []⟩, mcount := 1, lr := 0, advance := 1, record := 0, legList := [⟨0, 0, 0, 0⟩], rosters := [], todo := [], dropped := [], applied := [], reported := [],
    withdrawn := false, finite := true, orderDep := false, trailers := [], trailerSent := false, voidNotice := false, decision := none, mismatch := false,
    digestBad := none, divisor := 1, sets := [], lean := [], poisonLean := [], recomputes := [], spilled := [], leanCount := 0, tAdmit := 0, tForward := 0,
    tBackward := 0, tReduce := 0, tSweep := 0, wellHalts := 0, sealBad := 0, rolledBack := 0, tilesSwept := 0, sealRepair := false, recovered := false,
    mirrorWait := false, segments := [], noticesIn := [], cursorIn := 0, scaleIn := 0, estEnergy := 0, startNs := 0, minExp := 0, contributors := 0, lostRank := false }

/-- Core 0 stands in its descriptor since 5 ns at tile address 0x100, for the reason `why`; its tiles are done. -/
def halted (why : HaltWhy) : State := doneState.modClu 0 fun x => { x with runs := x.runs.map fun r => { r with halts := [⟨0, 5, 0x100, why⟩] } }

/-- A packet of type 0 with tag 9 in flight since 0 ns (09 Table 9-5). -/
def flight0 : Flight := ⟨⟨pack 128 [(112, 16, 9)], 2, []⟩, 0, 0, 0, 0, 7, 0, 0⟩

/-- `up` with `flight0`. -/
def flying : State := { up with fab := { up.fab with flights := [flight0] }, legs := [leg0] }

/-- A contribution packet (type 1) of a segment that has stopped for a new mask generation. -/
def flight1 : Flight := { flight0 with p := ⟨pack 128 [(28, 4, 1), (112, 16, 9)], 2, []⟩ }

/-- `flight1` in flight in a step that holds its segment. -/
def stoppedFlight : State :=
  { (upCx fun x => { x with run := some { run0 with segments := [⟨1, 1, 0, pack 512 [(16, 16, flight0.seq)], flight0.leg, true, false⟩] } }) with
    fab := { up.fab with flights := [flight1] } }

theorem witness_WaitsAndLimits :
    (((halted .missing).tick 9).haltedRun 0 .vector).isSome = true ∧ ((halted .missing).clu (clusterOf 0)).frozen = false ∧ ((halted .missing).cx 0).parked = false
    ∧ (let s := up.modCol 0 fun x => { x with waiters := [(0, 0, .scratch 0 0, 5)] }
       (s.cx 0).parked = false ∧ (s.col (s.pressCol (.scratch 0 0))).waiters = [(0, 0, .scratch 0 0, 5)])
    ∧ (flying.fab.flights.find? (fun f => f.p.tag == 9 && decide (f.sent + 100000 ≤ 100000))) = some flight0
    ∧ flying.legOf flight0.ctx flight0.leg = some leg0 ∧ flight0.p.type ≠ 1
    ∧ (let u := ((halted .missing).tick 9).retry (clusterOf 0) (desc 0x20 1 0 1 0 0 false 0) 0
       (u.clu 0).runs.all (fun q => q.halts.isEmpty) = true)
    ∧ flying.fab.flights.find? (fun f => f.p.tag == 9) = some flight0 ∧ flying.flightStopped flight0 = false
    ∧ stoppedFlight.fab.flights.find? (fun f => f.p.tag == 9) = some flight1 ∧ stoppedFlight.flightStopped flight1 = true := by decide

/-- A contribution to word 0 of the first scratch line of column 0, from outside any step. -/
def contrib0 : Contribution := ⟨0, false, 1, .scratch 0 0, .fadd, 1, 0x3F800000, ⟨false, 0, 0, 0, 0⟩, true, 0, 0, 0, 0, 0, 0⟩

/-- Line state `st` at the first scratch line of column 0, with the contribution on its way. -/
def pressed (st : LineSt) : State :=
  { (upCl fun x => { x with scratchUnits := 1 }) with
    cel := { up.cel with sent := [contrib0], lines := [(.scratch 0 0, { HomeLine.init with st := st })] } }

theorem witness_PressTraffic :
    contrib0 ∈ (pressed .v).cel.sent ∧ contrib0.key.coll = false ∧ (pressed .v).refusingStop contrib0.line = none
    ∧ (pressed .v).isFirst contrib0.line contrib0.src contrib0.no = true
    ∧ (let s : State := { pressed .v with cel := { (pressed .v).cel with sent := [contrib0, { contrib0 with no := 1 }] } }
       ∃ x ∈ s.cel.sent, x.line = contrib0.line ∧ x.src = contrib0.src ∧ x.no < 1)
    ∧ (let s : State := { pressed .v with pwr := State.reset.pwr }
       (s.refusingStop contrib0.line).isSome = true ∧ contrib0 ∈ s.cel.sent ∧ s.isFirst contrib0.line contrib0.src contrib0.no = true)
    ∧ (let s := up.modCol 0 fun x => { x with refused := [contrib0] }
       contrib0 ∈ (s.col (s.pressCol contrib0.line)).refused)
    ∧ (let s := upCx fun x => { x with run := some run0, mask := ⟨0, 0, [0, 1], false, 0⟩ }
       let nt : Notice := ⟨0, 1, true, 0, 1⟩
       (s.cx nt.ctx).run = some run0 ∧ nt ∉ run0.noticesIn ∧ s.noticeDue nt run0 = true)
    ∧ contrib0.inStep = false ∧ (pressed .rl).mem.wf = true ∧ ((pressed .rl).homeLine contrib0.line).st = .rl ∧ ((pressed .rl).col 0).leftMap = false
    ∧ (pressed .v).linePaused contrib0.line = false ∧ (pressed .rl).linePaused contrib0.line = false
    ∧ (let s := up.modCol 0 fun x => { x with refused := [contrib0] }
       s.refusingStop contrib0.line = none ∧ s.linePaused contrib0.line = false)
    ∧ (let s := (pressed .v).modCol 0 fun x => { x with failing := [(true, 255)] }
       s.refusingStop contrib0.line = none ∧ s.linePaused contrib0.line = true) := by decide +kernel

/-- An immediate operation on word 63 of the same line. -/
def imm0 : ImmReq := ⟨0, .scratch 0 0, 63, .cas, 1, 0, u0, 31, 1, 0⟩

/-- A read of core 0. -/
def read0 (line : LineId) : HomeReq := ⟨0, line, 0, .l1Read 0⟩

/-- A cache window at address 0 of column 0, whose set 0 holds 16 locked lines. -/
def fullSet : State :=
  { (upCx fun x => { x with map := [⟨0, 1, 1, 0, false, 0, 1⟩] }) with
    cel := { up.cel with lines := (List.range 16).map fun i => (.window 0 (1048576 * (i + 1)), { HomeLine.init with st := .rl }) } }

theorem witness_HomeProtocol :
    (let s := { pressed .rl with cel := { (pressed .rl).cel with sentImm := [imm0] } }
     imm0 ∈ s.cel.sentImm ∧ imm0.line = .scratch 0 0 ∧ (s.homeLine imm0.line).st = .rl ∧ s.isFirst imm0.line (clusterOf imm0.at_.core) imm0.no = true
       ∧ s.refusingStop imm0.line = none ∧ (s.col 0).leftMap = false)
    ∧ (let s := { pressed .v with cel := { (pressed .v).cel with sentImm := [imm0] } }
       imm0 ∈ s.cel.sentImm ∧ (s.homeLine imm0.line).st = .v ∧ s.isFirst imm0.line (clusterOf imm0.at_.core) imm0.no = true ∧ s.cel.l1 = []
         ∧ s.refusingStop imm0.line = none ∧ (s.col 0).leftMap = false ∧ s.mem.wf = true ∧ imm0.word < 64)
    ∧ ((pressed .rl).requestLine 0 (.scratch 0 0)).isSome = true ∧ fullSet.refusingStop (.window 0 0) = none ∧ ((pressed .v).requestLine 0 (.scratch 0 65280)).isSome = true
    ∧ (∃ t d, (pressed .v).homeStep 0 (.scratch 0 0) false 0 0 (.l1Read 0) = (t, .data d))
    ∧ (fullSet.requestLine 0 (.window 0 0)).isSome = true ∧ (∃ t, fullSet.homeStep 0 (.window 0 0) false 0 0 (.l1Read 0) = (t, .noWay))
    ∧ (read0 (.scratch 0 0)).ev = .l1Read 0 ∧ 0 < (pressed .v).scratchUnits 0 * 65536 ∧ ((pressed .v).homeLine (.scratch 0 0)).st = .v
    ∧ (pressed .v).cel.l1 = [] ∧ ((pressed .v).directory 0).length < 8192 := by
  refine ⟨by decide, by decide, by decide, by decide, by decide, ⟨_, _, rfl⟩, by decide, ⟨_, rfl⟩, by decide, by decide, by decide, by decide, by decide⟩

theorem witness_HomeProtocol_pause :
    ([LineSt.rl, .v].all fun st => !State.linePaused { pressed st with cel := { (pressed st).cel with sentImm := [imm0] } } imm0.line
      && !(pressed st).linePaused (.scratch 0 0)) = true
    ∧ fullSet.linePaused (.window 0 0) = false
    ∧ (let s := (pressed .v).modCol 0 fun x => { x with retrim := true }
       (s.requestLine 0 (.scratch 0 0)).isSome = true ∧ s.refusingStop (.scratch 0 0) = none ∧ s.linePaused (.scratch 0 0) = true) := by decide +kernel
/-! ### Waybills -/

/-- A waybill of ring 0 with tag 1: opcode, context, parameter fields and buffer. -/
def way (op ctx : Nat) (fs : List (Nat × Nat × Nat)) (buf : List Byte) (len : Nat := buf.length) : Waybill :=
  ⟨0, pack 512 ([(0, 16, op), (16, 16, 1), (32, 4, ctx), (64, 32, len)] ++ fs.map fun f => (160 + f.1, f.2)), buf⟩

/-- The waybill waits in s. -/
def withWb (s : State) (w : Waybill) : State := { s with host := { s.host with wbs := [⟨w, false, false, none⟩] } }

/-- The waybill starts in s with opcode op. -/
def startsB (s : State) (w : Waybill) (op : Nat) : Bool :=
  w.op == op && match s.waiting w with
  | some e => s.wbMayStart e && match s.checkWb e with | (_, .go _) => true | _ => false
  | none => false

theorem begins_of {s : State} {w : Waybill} {op : Nat} (h : startsB s w op = true) : ∃ u bs, begins s w op u bs := by
  unfold startsB at h
  rcases hw : s.waiting w with _ | e
  · simp [hw] at h
  · simp only [hw, Bool.and_eq_true, beq_iff_eq] at h
    rcases hc : s.checkWb e with ⟨v, c⟩
    rw [hc] at h
    cases c with
    | go bs => simp at h; exact ⟨v.markStarted e, bs, h.1, e, v, hw, h.2, hc, rfl⟩
    | _ => simp at h

def starts (s : State) (w : Waybill) (op : Nat) : Bool := startsB (withWb s w) w op

/-- `up` with ring 0 enabled and one waybill to fetch, the ring buffer wrapping. -/
def posted : State := up.modRing 0 fun r => { r with enable := true, enabled := true, sqHead := 4095, sqTail := 0 }

theorem witness_WaybillsFetchedAndChecked :
    5 ≤ posted.mc.bringup ∧ posted.mc.coreAlive.getD 1 false = true ∧ posted.host.linkUp = true ∧ posted.grant = some 0
    ∧ opFields (way 0xFFFF 0 [] []).op = none
    ∧ (let w : Waybill := ⟨0, pack 512 [(0, 16, 1), (32, 4, 15), (63, 1, 1)], []⟩
       opFields w.op = some [] ∧ w.hdr.getLsbD 63 = true)
    ∧ (opFields (way 1 15 [] []).op).any (fun fs => up.firstBad (way 1 15 [] []) fs == none) = true ∧ ctxNone 1 = true ∧ (way 1 15 [] []).context = 0xF
    ∧ (opFields (way 0x1002 4 [] []).op).any (fun fs => up.firstBad (way 0x1002 4 [] []) fs == none) = true ∧ ctxNone 0x1002 = false ∧ ctxAny 0x1002 = false
    ∧ 4 ≤ (way 0x1002 4 [] []).context
    ∧ (opFields (way 0x1002 3 [] []).op).any (fun fs => up.firstBad (way 0x1002 3 [] []) fs == none) = true ∧ (way 0x1002 3 [] []).context < 4
    ∧ (way 0x1002 3 [] []).op ≠ 0x1001 := by decide +kernel

/-- Completion ring 0 with its tail at the last slot and its head ahead. -/
def ready0 : State := withWb (up.modRing 0 fun r => { r with enable := true, enabled := true, cqTail := 4095, cqHead := 1, outstanding := 1 }) (way 1 15 [] [])

theorem witness_Receipts :
    ready0.host.wbs.find? (fun e => e.wb == way 1 15 [] []) = some ⟨way 1 15 [] [], false, false, none⟩ ∧ (way 1 15 [] []).quiet = false
    ∧ ready0.host.linkUp = true ∧ ready0.host.held = [] ∧ (ready0.ring 0).halted = false ∧ (ready0.ring 0).waiting = [] ∧ (ready0.ring 0).full = false
    ∧ (let w : Waybill := ⟨0, pack 512 [(0, 16, 1), (32, 4, 15), (39, 1, 1)], []⟩
       (withWb up w).host.wbs.find? (fun e => e.wb == w) = some ⟨w, false, false, none⟩ ∧ w.quiet = true)
    ∧ ({ ready0 with host := { ready0.host with linkUp := false } } : State).host.linkUp = false
    ∧ (0xFFFF : Nat) < 2 ^ 16 ∧ (15 : Nat) < 16 ∧ (3 : Nat) < 4 ∧ (255 : Nat) < 256 ∧ 2 ^ 64 - 1 < 2 ^ 64 := by decide +kernel

theorem witness_EventsWrittenOrLost :
    ready0.host.linkUp = true ∧ ready0.host.held = [] ∧ ready0.host.eventEn = false
    ∧ (let s : State := { ready0 with host := { ready0.host with eventEn := true } }
       s.host.eventEn = true ∧ (s.ring s.host.eventRing).enabled = true ∧ (s.ring s.host.eventRing).full = false ∧ (s.ring s.host.eventRing).fullWait = false
         ∧ (s.ring s.host.eventRing).halted = false ∧ (s.ring s.host.eventRing).waiting = [] ∧ s.host.eventRing < 64) := by decide

theorem witness_InfoWaybills :
    starts up (way 0x0001 15 [] []) 0x0001 = true
    ∧ starts up (way 0x0002 15 [(0, 22, 0x1000), (32, 8, 1)] [] 8) 0x0002 = true
    ∧ (way 0x0002 15 [(0, 22, 0x1000), (32, 8, 1)] [] 8).p 32 8 = 1
    ∧ starts up (way 0x0003 0 [(0, 5, 16)] [] 69632) 0x0003 = true
    ∧ starts up (way 0x0004 15 [(0, 64, 2 ^ 64 - 1)] []) 0x0004 = true := by decide +kernel

theorem witness_ConfigurationAndContexts :
    ((([(0x1003, [], 0), (0x1004, [(0, 5, 24)], 0), (0x1005, [(0, 4, 15)], 0), (0x1006, [(0, 4, 15)], 6192), (0x1007, [(48, 13, 8191)], 4), (0x2002, [], 32)] :
      List (Nat × List (Nat × Nat × Nat) × Nat)).all fun q => starts up (way q.1 0 q.2.1 [] q.2.2) q.1) = true)
    ∧ (up.cx 0).run.isNone = true ∧ up.legs = [] ∧ ((upCx fun x => { x with run := some run0 }).cx 0).run.isSome = true
    ∧ (way 0x1005 0 [(0, 4, 15)] []).bufModule = false ∧ (way 0x1004 0 [(6, 1, 1)] []).p 6 1 = 1 ∧ (way 0x1004 0 [] []).p 6 1 = 0
    ∧ (up.clu 0).owner = some 0 ∧ (up.clu 1).owner = none
    ∧ starts up (way 0x1001 0 [(128, 5, 24)] []) 0x1001 = true ∧ (up.cx 0).live = true
    ∧ starts up (way 0x1001 3 [(128, 5, 24)] []) 0x1001 = true ∧ (up.cx 3).live = false ∧ starts up (way 0x1002 0 [] []) 0x1002 = true := by decide +kernel

/-- A leg program for cluster 0 with one descriptor, its last bit set (11 Table 11-12). -/
def legImage : List Byte := [1] ++ List.replicate 63 0 ++ [1] ++ List.replicate 63 0 ++ List.replicate 62 0 ++ [1, 0]

/-- A cache window of the lowest 16 pages in context 0. -/
def cached : State := upCx fun x => { x with map := [⟨0, 16, 1, 0, false, 0, 1⟩] }

/-- Shelf 63 is the only free number. -/
def shelved : State := { cached with cel := { cached.cel with shelves := (List.range 63).map fun i => (i, some ⟨0, 2 ^ 20 * i, 1, 0, 0⟩) } }

theorem witness_MemoryWaybills :
    starts shelved (way 0x2003 0 [(64, 32, 16), (100, 4, 12)] []) 0x2003 = true
    ∧ (cached.cx 0).map = [⟨0, 16, 1, 0, false, 0, 1⟩] ∧ shelved.quotaAt ⟨0, 16, 1, 0, false, 0, 1⟩ ⟨0, 0, 16, 0, 12⟩ + 12 ≤ 12
    ∧ tget none shelved.cel.shelves 63 = none ∧ ((List.range 63).all fun j => (tget none shelved.cel.shelves j).isSome) = true
    ∧ (shelved.cx 0).map.find? (fun e => e.mode == 1 && decide (e.base ≤ 0 ∧ 0 + 4096 * 16 ≤ e.base + 4096 * e.pages)) = some ⟨0, 16, 1, 0, false, 0, 1⟩
    ∧ (let s : State := { cached with cel := { cached.cel with shelves := (List.range 64).map fun i => (i, some ⟨0, 2 ^ 20 * (i + 1), 1, 0, 0⟩) } }
       starts s (way 0x2003 0 [(64, 32, 16), (100, 4, 12)] []) 0x2003 = true ∧ s.quotaAt ⟨0, 16, 1, 0, false, 0, 1⟩ ⟨0, 0, 16, 0, 12⟩ + 12 ≤ 12
         ∧ ((List.range 64).all fun j => (tget none s.cel.shelves j).isSome) = true)
    ∧ starts up (way 0x2003 0 [(64, 32, 16), (100, 4, 12)] []) 0x2003 = true ∧ (up.cx 0).map = []
    ∧ (let s : State := { cached with cel := { cached.cel with shelves := [(0, some ⟨0, 0, 1, 0, 1⟩)] } }
       starts s (way 0x2003 0 [(64, 32, 16), (100, 4, 12)] []) 0x2003 = true ∧ 12 < s.quotaAt ⟨0, 16, 1, 0, false, 0, 1⟩ ⟨0, 0, 16, 0, 12⟩ + 12)
    ∧ starts shelved (way 0x2004 15 [(0, 6, 62)] []) 0x2004 = true ∧ starts shelved (way 0x2004 15 [(0, 6, 63)] []) 0x2004 = true
    ∧ starts up (way 0x2001 0 [(0, 48, 0x100)] legImage) 0x2001 = true
    ∧ ((List.range 2).all fun i => !up.lineLocked 0 (0x100 / 256 * 256 + 256 * i)) = true
    ∧ starts up (way 0x2006 0 [(64, 48, 0x10000), (128, 48, 256)] []) 0x2006 = true
    ∧ (let w := way 0x2006 0 [(64, 48, 0x10000), (128, 48, 256)] []
       up.resolve 0 none 0 = .flat .tier2 0 ∧ up.mustWait 0 0 = false ∧ up.cannotWrite 0 0x10000 = false ∧ up.mustWait 0 0x10000 = false
         ∧ up.resolve 0 none 0x10000 = .flat .tier2 0x10000 ∧ up.poisoned 0 = false ∧ up.mem.wf = true ∧ up.tg.dmaPaused = false ∧ w.p 128 48 = 256)
    ∧ up.hostDma = true ∧ ((List.range 256).all fun a => !isTier3 a) = true
    ∧ (let w := way 0x2007 0 [(64, 48, 0x10000), (128, 32, 1)] []
       let s : State := { up with mem := up.mem.put .tier2 (twrite 0 [] 0 [6]) }
       starts s w 0x2007 = true ∧ w.p 128 32 = 1 ∧ w.p 160 1 = 0 ∧ tileFmt 6 = true ∧ hdrFmt (lineOf (s.read .tier2 0 256)).toNat = 6
         ∧ hdrState (lineOf (s.read .tier2 0 256)).toNat < 2 ∧ 0x10000 + tileBytes 6 ≤ s.tier2Size ∧ s.mem.wf = true
         ∧ ((List.range (tileBytes 6 / 256)).all fun i => s.mapEntry 0 (256 * i) == none && s.mapEntry 0 (0x10000 + 256 * i) == none && !s.poisoned (256 * i)
           && !s.mustWait 0 (256 * i) && !s.mustWait 0 (0x10000 + 256 * i)) = true)
    ∧ starts up (way 0x2006 0 [(0, 48, 2 ^ 48 - 256), (128, 48, 256)] []) 0x2006 = true ∧ up.resolve 0 none (2 ^ 48 - 256) = .outside
    ∧ starts up (way 0x2007 0 [(64, 48, 0x10000), (128, 32, 0)] []) 0x2007 = true ∧ up.moveTiles 0 0 0 0 [] = (up, .tiles [])
    ∧ starts up (way 0x2007 0 [(0, 48, 2 ^ 48 - 256), (128, 32, 1)] []) 0x2007 = true ∧ up.moveTiles 0 (2 ^ 48 - 256) 1 0 [] = (up, .bad) := by decide +kernel

theorem witness_RangeWaybills :
    ((List.range 5).all fun op => starts up (way 0x2005 0 [(64, 48, 256), (128, 3, op)] []) 0x2005 && (way 0x2005 0 [(64, 48, 256), (128, 3, op)] []).p 128 3 == op) = true
    ∧ up.resolve 0 none 0 ≠ .outside ∧ up.hostDma = true ∧ up.noWay 0 0 = false ∧ up.placePaused (up.resolve 0 none 0) = false ∧ up.resolve 0 none (2 ^ 48 - 256) = .outside
    ∧ (withWb up (way 0x2005 0 [(64, 48, 256)] [])).host.wbs.all (fun e => !e.started) = true
    ∧ (let s := recipeMap (strand0 1) 0
       s.resolve 0 none 0xF00 = .homed (.scratch 0 0xF00) 0 false 0 0 ∧ (s.homeLine (.scratch 0 0xF00)).st ≠ .rl)
    ∧ (let s : State := { recipeMap (strand0 1) 0 with cel := (pressed .rl).cel }
       s.resolve 0 none 0 = .homed (.scratch 0 0) 0 false 0 0 ∧ (s.homeLine (.scratch 0 0)).st = .rl) := by decide +kernel
theorem natOfBytes_zeros (n : Nat) : natOfBytes (List.replicate n 0#8) = 0 := by
  induction n with
  | zero => rfl
  | succ n ih => simp [List.replicate_succ, natOfBytes, ih]

theorem natAt_zeros (n off k : Nat) : natAt (List.replicate n 0#8) off k = 0 := by
  simp [natAt, slice, List.drop_replicate, List.take_replicate, List.replicate_append_replicate, natOfBytes_zeros]

theorem badLayout_zeros (w : Waybill) (n : Nat) (h : w.op = 0x4001) : badLayout w (List.replicate n 0#8) = none := by
  unfold badLayout
  rw [h]
  simp only [natAt_zeros, Option.map_eq_none_iff, List.find?_eq_none]
  intro i _
  decide

theorem slice_none (n : Nat) : slice [] 0 n = List.replicate n 0#8 := by simp [slice]

theorem checkWb_host {s : State} {w : Waybill} (h1 : s.checkHeader w = none) (h2 : w.bufModule = false) (h3 : ¬ w.length < bufferNeed w)
    (h4 : badLayout w (slice w.buf 0 w.length) = none) (h5 : s.hostDma = true) : s.checkWb ⟨w, false, false, none⟩ = (s, .go (slice w.buf 0 w.length)) := by
  simp [State.checkWb, h1, h2, h3, h4, h5]

/-- A route table of zeros, port 0 for every module. -/
def routes : Waybill := way 0x4001 15 [(0, 12, 0xFFF)] [] 16384

theorem begins_routes : ∃ u bs, begins (withWb up routes) routes 0x4001 u bs := by
  refine ⟨_, _, by decide +kernel, ⟨routes, false, false, none⟩, withWb up routes, by decide +kernel, by decide +kernel,
    checkWb_host (by decide +kernel) (by decide +kernel) (by decide +kernel) ?_ (by decide +kernel), rfl⟩
  rw [show routes.buf = [] from rfl, slice_none]
  exact badLayout_zeros _ _ (by decide +kernel)

theorem witness_ControlWaybills :
    starts up (way 0x3001 0 [(0, 16, 256)] []) 0x3001 = true ∧ starts up (way 0x3002 0 [] []) 0x3002 = true ∧ starts up (way 0x5001 0 [(0, 13, 8190)] []) 0x5001 = true
    ∧ starts up (way 0x4003 15 [(0, 4, 11)] []) 0x4003 = true ∧ starts up (way 0x4002 15 [] []) 0x4002 = true := by decide +kernel

theorem witness_TollgateWaybills :
    starts (up.tick 5) (way 0x6001 15 [(0, 12, 3300), (12, 1, 1)] []) 0x6001 = true ∧ starts up (way 0x6002 15 [] []) 0x6002 = true
    ∧ starts up (way 0x6003 15 [(0, 6, 40), (8, 8, 85)] []) 0x6003 = true ∧ (way 0x6003 15 [(0, 6, 40), (8, 8, 85)] []).p 0 6 = 40
    ∧ (way 0x6003 15 [(0, 6, 40), (8, 8, 85)] []).p 8 8 = 85
    ∧ starts up (way 0x7002 15 [(0, 1, 1)] []) 0x7002 = true
    ∧ (let w := way 0x7001 15 [(0, 3, 4), (16, 16, 11), (32, 16, 7)] []
       starts up w 0x7001 = true ∧ testUnitOf (w.p 0 3) (w.p 16 16) (w.p 32 16) = some (.lane 11 7) ∧ up.mc.tests = []
         ∧ starts { up with mc := { up.mc with tests := [⟨.lane 11 7, 0x0A, 0, none⟩] } } w 0x7001 = true) := by decide +kernel

/-- `up` with an envelope of 700 W. -/
def lowered : State := { up with tg := { up.tg with digitalW := 700 } }

/-- SHED_N is low. -/
def shedding : State := { up with tg := { up.tg with shed := true } }

/-- Eight changes of SHED_N within a second. -/
def chatter8 : State := { up with tg := { up.tg with changes := [1, 2, 3, 4, 5, 6, 7, 8] } }

theorem witness_EnvelopeTerms :
    lowered.envelope.2 = .power 700 ∧ shedding.envelope.2 = .floor .retention ∧ shedding.bringupDone = true ∧ ¬(shedding.tg.st = 3 ∧ Floor.retention = .retention)
    ∧ State.powered { up with pwr := { up.pwr with switch := false } } = false
    ∧ up.powered = true ∧ up.tg.shed = false ∧ shedding.powered = true ∧ shedding.tg.shed = true ∧ (lastSecond shedding.tg.changes 9).length < 8
    ∧ (lastSecond chatter8.tg.changes 9).length ≤ 8
    ∧ (let s : State := { up with tg := { up.tg with changes := [0, 1, 2, 3, 4, 5, 6, 7, 8] } }
       s.powered = true ∧ 8 < (lastSecond s.tg.changes 9).length)
    ∧ (let s : State := { up with tg := { up.tg with cfg := { up.tg.cfg with lease := 1 } } }
       s.powered = true ∧ s.tg.cfg.lease ≠ 0 ∧ s.tg.leaseArmed = true ∧ s.tg.setAt + 1000000000 * s.tg.cfg.lease ≤ 1000000000)
    ∧ up.tg.cfg.lease = 0 := by decide +kernel

/-- A priority entry of slot 15 with the given opcode, context and parameters. -/
def prio (op ctx : Nat) (fs : List (Nat × Nat × Nat)) : PrioEntry := ⟨false, 15, (way op ctx fs []).hdr⟩

/-- `up` with the entry at the front. -/
def withPrio (s : State) (e : PrioEntry) : State := { s with host := { s.host with prioQ := [e] } }

/-- The entry is the next that core 3 serves. -/
def serving (s : State) (e : PrioEntry) (op : Nat) : Bool :=
  decide (5 ≤ s.mc.bringup) && s.nextPrio == some e && s.checkPrio (PrioEntry_wb e) == none && fld e.hdr 0 16 == op

theorem serves_of {s : State} {e : PrioEntry} {op : Nat} (h : serving s e op = true) : serves s e op := by
  simp only [serving, Bool.and_eq_true, decide_eq_true_eq, beq_iff_eq] at h
  exact ⟨h.1.1.1, h.1.1.2, h.1.2, h.2⟩

def served (op ctx : Nat) (fs : List (Nat × Nat × Nat)) : Bool := serving (withPrio up (prio op ctx fs)) (prio op ctx fs) op

theorem witness_PriorityOperations :
    served 0xF001 15 [] = true ∧ served 0xF002 15 [(0, 12, 3300), (12, 1, 1)] = true
    ∧ served 0xF003 15 [(0, 1, 1)] = true ∧ fld (prio 0xF003 15 [(0, 1, 1)]).hdr 160 1 = 1 ∧ served 0xF003 15 [] = true ∧ fld (prio 0xF003 15 []).hdr 160 1 = 0
    ∧ served 0xF005 15 [(0, 1, 1)] = true ∧ up.fab.selfDeparted = false
    ∧ (let s : State := { up with fab := { up.fab with selfDeparted := true } }
       serving (withPrio s (prio 0xF005 15 [])) (prio 0xF005 15 []) 0xF005 = true ∧ s.fab.selfDeparted = true ∧ s.tg.st ≠ 3)
    ∧ served 0xF006 15 [(0, 4, 15)] = true ∧ fld (prio 0xF006 15 [(0, 4, 15)]).hdr 164 1 = 0
    ∧ served 0xF006 15 [(0, 4, 15), (4, 1, 1)] = true ∧ fld (prio 0xF006 15 [(0, 4, 15), (4, 1, 1)]).hdr 164 1 = 1 ∧ (up.cx 0).live = true
    ∧ served 0xF007 15 [(0, 4, 15)] = true ∧ served 0xF008 15 [] = true
    ∧ (let s : State := { up with mc := { up.mc with freezeReq := some (prio 0xF006 15 [], 7) } }
       s.mc.freezeReq = some (prio 0xF006 15 [], 7)) := by decide +kernel

theorem witness_PriorityRing :
    (prio 0xF001 15 []).mctp = false ∧ (prio 0xF001 15 []).slot < 16 ∧ up.host.linkUp = true
    ∧ (let s : State := { up with host := { up.host with prioQ := [prio 0xF001 15 []], mctpQ := [⟨true, 0, 1⟩] } }
       s.host.prioBusy = false ∧ s.host.mctpBusy = false ∧ s.host.barServed = false)
    ∧ (let s : State := { up with host := { up.host with prioQ := [prio 0xF001 15 []], mctpQ := [⟨true, 0, 1⟩], barServed := true } }
       s.host.prioBusy = false ∧ s.host.mctpBusy = false ∧ s.host.barServed = true)
    ∧ 5 ≤ up.mc.bringup ∧ up.host.prioTail < 16 ∧ up.host.prioHead < 16 ∧ (15 : DWord).getLsbD 14 = false
    ∧ (fld (15 : DWord) 0 4 + 16 - up.host.prioTail) % 16 = 15
    ∧ (let s : State := { up with host := { up.host with prioTail := 15, prioHead := 0 } }
       15 < (fld (0 : DWord) 0 4 + 16 - s.host.prioTail) % 16 + (s.host.prioTail + 16 - s.host.prioHead) % 16
         ∧ (fld (0 : DWord) 0 4 + 16 - s.host.prioTail) % 16 ≠ 0) := by decide +kernel

/-- `up` with ring 63 as given. -/
def ring63 (f : Ring → Ring) : State := up.modRing 63 f

theorem witness_RingsAndHostLink :
    5 ≤ up.mc.bringup ∧ up.host.linkUp = true ∧ ((0x1FFF : DWord).getLsbD 12 = true ∧ (0x1FFF : DWord).getLsbD 28 = false)
    ∧ ((0x1FFF0000 : DWord).getLsbD 12 = false ∧ (0x1FFF0000 : DWord).getLsbD 28 = true ∧ (up.ring 63).halted = false ∧ (up.ring 63).waiting = [])
    ∧ ((1 : DWord).getLsbD 0 = true ∧ (up.ring 63).enabled = false)
    ∧ (((ring63 fun r => { r with enabled := true }).ring 63).enabled = true ∧ ((ring63 fun r => { r with enabled := true }).ring 63).enable = false)
    ∧ ((0 : DWord).getLsbD 0 = false ∧ ((ring63 fun r => { r with enabled := true, outstanding := 1 }).ring 63).outstanding ≠ 0)
    ∧ (let s := ring63 fun r => { r with enabled := true }
       (s.ring 63).outstanding = 0 ∧ (s.ring 63).waiting = [] ∧ s.host.held = [] ∧ (s.ring 63).heldEnable = false ∧ (s.ring 63).halted = false)
    ∧ (let s : State := { up with host := { up.host with linkUp := false } }
       s.host.linkUp = false ∧ s.linkCan = true ∧ 8 ≤ s.mc.bringup ∧ s.host.held = [])
    ∧ up.host.linkUp = true ∧ (8 : Nat) < up.host.linkWidth
    ∧ (let s := ring63 fun r => { r with gathered := 1, irqDelay := 1, irqEn := true }
       (s.ring 63).gathered ≠ 0 ∧ (s.ring 63).irqDelay ≠ 0 ∧ (s.ring 63).irqEn = true)
    ∧ (let s : State := { up with host := { up.host with t3Cxl := true } }
       s.host.t3Cxl = true ∧ s.snooped 0 = [])
    ∧ (let s : State := { up with host := { up.host with t3Cxl := true, t3Enable := true, t3Base := 0, t3Size := 1 }
                                  cel := { up.cel with lines := [(.window 0 0x400000000000, { HomeLine.init with st := .v })] } }
       s.host.t3Cxl = true ∧ s.snooped 0 = [.window 0 0x400000000000] ∧ (s.homeLine (.window 0 0x400000000000)).st = .v
         ∧ s.isDirect (.window 0 0x400000000000) = false ∧ s.cel.l1 = []
         ∧ ({ s with cel := { s.cel with lines := [(.window 0 0x400000000000, { HomeLine.init with st := .rl })] } } : State).snooped 0 = [.window 0 0x400000000000]) := by decide +kernel

theorem witness_RegisterAccess :
    5 ≤ up.mc.bringup ∧ up.host.linkUp = true ∧ (regAt (0x2130F8 / 8 * 8)).isSome = false ∧ (regAt (0x212FF8 / 8 * 8)).isSome = true ∧ State.reset.mc.bringup < 5
    ∧ tget none up.host.latch (0x10000 / 8 * 8) = none ∧ regAt 0x10000 = some .mcStatus
    ∧ regAt 0x200000 = some .celCfg ∧ (((List.range 0x100).map fun i => regAt (0x11000 + 8 * i)).contains (some (.acccfg 3))) = true
    ∧ (((List.range 0x100).map fun i => regAt (0x11000 + 8 * i)).contains (some (.stashcfg 3))) = true
    ∧ (((List.range 0x100).map fun i => regAt (0x11000 + 8 * i)).contains (some (.bscfg 3))) = true
    ∧ (((List.range 0x200).map fun i => regAt (8 * i)).contains (some (.ringCfg 63))) = true ∧ fld (1 : DWord) 0 4 ≠ 0
    ∧ (let s : State := { up with host := { up.host with t3Pending := some (0, 1) } }
       s.host.t3Pending = some (0, 1) ∧ s.mapsTier3 = false)
    ∧ State.mapsTier3 (upCx fun x => { x with map := [⟨0x400000000000, 1, 0, 0, false, 0, 1⟩] }) = true := by decide +kernel
/-! ### Columns, stacks and caravans -/

/-- A clock change of cluster 47 runs. -/
def clocking : State := up.modClu 47 fun x => { x with target := 76 }

theorem witness_Retrims :
    1968750000 % 2000000000 = 1535 % 64 * 31250000 ∧ 1968750001 % 2000000000 ≠ 1535 % 64 * 31250000
    ∧ (up.tick 1968750000).canRetrim 1535 = true ∧ (up.tick 1968750000).retrimFree 1535 = true
    ∧ (clocking.tick 1968750000).canRetrim 1535 = true ∧ (clocking.tick 1968750000).retrimFree 1535 = false
    ∧ ((2 : Nat) < 3 ∧ ([(true, 255)] : List (Bool × Nat)) = [(true, 255)] ∧ (up.col 1535).failing = [] ∧ (up.col 1535).evacuating = false
      ∧ (up.col 1535).spares true < 16)
    ∧ (up.tick 5).canRetrim 1535 = true ∧ (5 : Nat) < 6 ∧ (6 : Nat) ≤ 6 ∧ (up.tick 5).retrimFree 1535 = true ∧ (clocking.tick 5).retrimFree 1535 = false
    ∧ ((List.range 32).all fun i => (up.col (clusterOf 1535 * 32 + i)).retrimDue == none) = true
    ∧ (let s := (up.modCol 1535 fun x => { x with retrim := true }).modCol 1504 fun x => { x with retrimDue := some (5, []) }
       let u := (s.tick 5).modCol 1535 fun x => { x with retrim := false }
       clusterOf 1535 * 32 + 0 = 1504 ∧ (u.col 1504).retrimDue = some (5, []) ∧ u.canRetrim 1504 = true ∧ u.retrimFree 1504 = true) := by decide +kernel

theorem witness_ChannelEvents :
    (let s := up.modCol 1535 fun x => { x with failing := [(true, 255)] }
     (true, 255) ∈ (s.col 1535).failing ∧ s.mc.repairMap.length < 16384)
    ∧ (up.col 0).leftMap = false ∧ (up.col 0).couplerFails = []
    ∧ ([0, 3, 4].all fun n => let s := up.modCol 0 fun x => { x with crcTries := [(.scratch 0 0, n)] }
       !(s.col 0).leftMap && (s.col 0).couplerFails == [] && (((s.col 0).crcTries.find? fun e => e.1 == .scratch 0 0).map Prod.snd).getD 0 == n) = true
    ∧ (⟨.scratch 0 0, true⟩ : LineCheck).first = true ∧ (⟨.scratch 0 0, false⟩ : LineCheck).first = false := by decide +kernel

theorem witness_ColumnEvents :
    (let s := up.modCol 0 fun x => { x with evacuating := true }
     (s.col 0).evacuating = true ∧ s.atFloor = false)
    ∧ (up.col 0).evacuating = false ∧ (up.col 0).silent = false ∧ (up.col 0).leftMap = false ∧ (up.col 0).leaving = false ∧ up.inCellar (.scratch 0 0) = true
    ∧ (let s := up.modCol 0 fun x => { x with corrected := [(.scratch 0 0, 0), (.scratch 0 0, 1), (.scratch 0 0, 2)] }
       s.inCellar (.scratch 0 0) = true
         ∧ 3 ≤ (((s.col 0).corrected.filter fun e => decide (3599999999999 < e.2 + 3600000000000)).filter fun e => e.1 == .scratch 0 0).length
         ∧ (((s.col 0).corrected.filter fun e => decide (3600000000000 < e.2 + 3600000000000)).filter fun e => e.1 == .scratch 0 0).length < 3) := by decide +kernel

theorem witness_ThrashReduction :
    (let s := up.modCol 0 fun x => { x with fills := 256, evictions := 65 }
     256 ≤ (s.col 0).fills ∧ (s.col 0).fills < 4 * (s.col 0).evictions ∧ (s.col 0).thrashing = false ∧ s.cel.thrashWarn = true)
    ∧ (let s := up.modCol 0 fun x => { x with fills := 256, evictions := 64, quiet := 15 }
       4 * (s.col 0).evictions ≤ (s.col 0).fills ∧ (s.col 0).quiet = 15)
    ∧ (let s := up.modCol 0 fun x => { x with fills := 255, evictions := 65, quiet := 14 }
       (s.col 0).fills < 256 ∧ (s.col 0).quiet ≠ 15) := by decide

/-- Stack 0 as given. -/
def stk0 (f : Stack → Stack) : State := up.modStack 0 f

theorem witness_HbmErrors :
    up.tier2Size ≤ 0xBFFFFFFF00 ∧ (0xBFFFFFFF00 : Nat) < up.hbmSize
    ∧ (let tries (s : State) (x : HbmAccess) (kind : Nat) : Nat :=
        if x.first then 0 else (((s.stack (stackOf x.addr)).tries.find? fun e => e.1 == triesKey x.addr kind).map Prod.snd).getD 0
       tries up ⟨0xBFFFFFFF00, true⟩ 0 < 3 ∧ tries up ⟨0xBFFFFFFF00, true⟩ 1 < 3 ∧ tries up ⟨0xBFFFFFFF00, true⟩ 2 < 1
         ∧ ((List.range 3).all fun kind => tries (stk0 fun x => { x with tries := [(triesKey 0 kind, if kind = 2 then 1 else 3)] }) ⟨0, false⟩ kind
           == if kind = 2 then 1 else 3) = true)
    ∧ (((stk0 fun x => { x with history := [(0, 1), (0, 2), (0, 3)] }).stack 0).history.filter fun e => e.1 == rowOf 0 * 64 + pcOf 0).length = 3
    ∧ (up.stack 0).history = [] := by decide +kernel

theorem witness_RowsAndRefresh :
    (let s := stk0 fun x => { x with moving := [(63, 65535)] }
     (63, 65535) ∈ (s.stack 0).moving ∧ s.atFloor = false ∧ s.mc.repairMap.length < 16384)
    ∧ ([85, 86, 95, 96] : List Nat)[1]? = some 86 ∧ ([85] : List Nat)[15]? = none ∧ up.pwr.sensorsBad = []
    ∧ ((stk0 fun x => { x with mult := 1, above := (5, 6) }).stack 0).above.1 + 100000000 ≤ 100000005
    ∧ ((stk0 fun x => { x with mult := 1 }).stack 0).mult = 1
    ∧ ((stk0 fun x => { x with mult := 2, above := (5, 6) }).stack 0).above.2 + 100000000 ≤ 100000006
    ∧ (up.clu 47).refreshOver.1 + 100000000 ≤ 100000000 := by decide +kernel

/-- A trained tensor of one tile at address 0, of format code 2. -/
def tensor0 : Tensor :=
  { master := 0x10000, moment1 := 0x20000, moment2 := 0x30000, working := 0, localG := 0x40000, reduced := 0x50000, seals := 0x60000, kTiles := 1, nTiles := 1, id := 9,
    fmt := 2, hset := 0, frozen := false, tied := false }

/-- A placement of a group of n with the tensor, a caravan entry of layer 0 over it and a stash slot. -/
def place0 (n rank : Nat) : Placement :=
  { sections := [], stages := 1, stage := 0, layers := 1, n := n, rank := rank, buddyEn := decide (1 < n), buddy := (rank + 1) % n, clusters := [], group := List.range n,
    tensors := [tensor0], tied := [], stash := [⟨0, false, 64⟩], caravan := [⟨0, 2, 1, 1, 1⟩] }

/-- Context 0 runs a step whose leg of layer 0 visits the caravan; the module is rank 0 of a group of one. -/
def caravaned (f : Caravan → Caravan) : State :=
  upCx fun x => { x with place := some (place0 1 0), run := some { run0 with todo := [⟨0, ⟨0, 0, 0, 0⟩, some 0, false⟩] }, car := f x.car }

/-- The outrider fetches layer 0 into slot 2. -/
def fetching0 : State := caravaned fun x => { x with fetch := some (2, 0, 0), slots := [(2, some ⟨0, false, [], 0⟩)] }

theorem witness_OutriderFetch :
    ((caravaned id).cx 0).car.fetch = none ∧ ((caravaned id).cx 0).run.isSome = true ∧ (caravaned id).atFloor = false ∧ (caravaned id).tg.st ≠ 6
    ∧ (caravaned id).nextVisit 0 = some (0, 0) ∧ 0 ≤ ((caravaned id).cx 0).car.inForce ∧ 0 ≤ ((caravaned id).cx 0).car.latchedW
    ∧ ((caravaned id).freeSlot 0 0).isSome = true
    ∧ (let s := (caravaned fun x => { x with inForce := 0, slots := [(0, some ⟨0, true, [], 0⟩)] }).modCx 0 fun x => { x with run := some { run0 with
          todo := [⟨0, ⟨0, 0, 0, 0⟩, some 0, false⟩, ⟨0, ⟨0, 0, 1, 1⟩, some 0, false⟩] } }
       s.nextVisit 0 = some (1, 1) ∧ min (s.cx 0).car.inForce (s.cx 0).car.latchedW < 1) := by decide +kernel

theorem witness_CaravanFills :
    (fetching0.cx 0).car.fetch = some (2, 0, 0) ∧ fetching0.carEntry 0 0 = some ⟨0, 2, 1, 1, 1⟩ ∧ fetching0.tilesToFill 0 0 ⟨0, 2, 1, 1, 1⟩ = [0]
    ∧ fetching0.fillWaits 0 0 ⟨0, 2, 1, 1, 1⟩ 0 = false ∧ tget none (fetching0.cx 0).car.slots 2 = some ⟨0, false, [], 0⟩
    ∧ (let s : State := { fetching0 with tg := { fetching0.tg with st := 3 } }
       (s.cx 0).car.fetch = some (2, 0, 0) ∧ s.carEntry 0 0 = some ⟨0, 2, 1, 1, 1⟩ ∧ s.tilesToFill 0 0 ⟨0, 2, 1, 1, 1⟩ = [0]
         ∧ s.fillWaits 0 0 ⟨0, 2, 1, 1, 1⟩ 0 = true)
    ∧ (let s := caravaned fun x => { x with fetch := some (2, 1, 0), slots := [(2, some ⟨1, false, [], 0⟩)] }
       (s.cx 0).car.fetch = some (2, 1, 0) ∧ s.carEntry 0 1 = none) := by decide +kernel

/-- Tile 0 of layer 0 is poisoned. -/
def poisoned0 : State := caravaned fun x => { x with poisoned := [(0, 0)] }

theorem witness_TileRegeneration :
    poisoned0.carEntry 0 0 = some ⟨0, 2, 1, 1, 1⟩ ∧ (0, 0) ∈ (poisoned0.cx 0).car.poisoned ∧ poisoned0.workingOf 0 0 = some (tensor0, 0)
    ∧ (poisoned0.tryRegen 0 tensor0 0 0 0).isSome = true
    ∧ (let s := poisoned0.modCx 0 fun x => { x with place := some { place0 1 0 with tensors := [] } }
       s.carEntry 0 0 = some ⟨0, 2, 1, 1, 1⟩ ∧ (0, 0) ∈ (s.cx 0).car.poisoned ∧ s.workingOf 0 0 = none ∧ (4 : Nat) ≤ 4)
    ∧ (let t := { tensor0 with frozen := true }
       let s := poisoned0.modCx 0 fun x => { x with place := some { place0 1 0 with tensors := [t] } }
       s.carEntry 0 0 = some ⟨0, 2, 1, 1, 1⟩ ∧ (0, 0) ∈ (s.cx 0).car.poisoned ∧ s.workingOf 0 0 = some (t, 0) ∧ (s.tryRegen 0 t 0 0 0).isNone = true)
    ∧ (let s := poisoned0.modCx 0 fun x => { x with place := some { place0 2 1 with caravan := [⟨0, 2, 1, 1, 1⟩] } }
       s.carEntry 0 0 = some ⟨0, 2, 1, 1, 1⟩ ∧ (0, 0) ∈ (s.cx 0).car.poisoned ∧ s.workingOf 0 0 = some (tensor0, 0) ∧ (s.tryRegen 0 tensor0 0 0 0).isNone = true
         ∧ (s.tryRegen 0 tensor0 0 0 2).isSome = true) := by decide +kernel

theorem witness_SpillFetch :
    up.inDeep = false ∧ ((up.cx 0).stash.filter (up.spillWanted 0)) = []
    ∧ (let x : StashTile := ⟨0, 0, 0, 2048, true, false, false, none⟩
       let s := upCx fun y => { y with place := some (place0 1 0), stash := [x], run := some { run0 with todo := [⟨0, ⟨0, 1, 0, 0⟩, some 0, false⟩] }, latched := { y.latched with areaMib := 1 }, map := [⟨0x800000, 1, 2, 0, true, 0, 1⟩] }
       let u := s.modCx 0 fun y => { y with stash := y.stash.map fun z => if z = x then { x with fetched := true, area := some 0 } else z }
       (s.cx 0).stash.filter (s.spillWanted 0) = [x] ∧ (s.cx 0).areaRoom x.bytes = some 0
         ∧ ((List.range (x.bytes / 256)).all fun i => u.writeWaits (u.stashPlace 0 x.slot x.mu (x.off + 256 * i)) == none) = true)
    ∧ (let x : StashTile := ⟨0, 0, 0, 2048, true, false, false, none⟩
       let s := upCx fun y => { y with place := some (place0 1 0), stash := [x], run := some { run0 with todo := [⟨0, ⟨0, 1, 0, 0⟩, some 0, false⟩] } }
       (s.cx 0).stash.filter (s.spillWanted 0) = [x] ∧ (s.cx 0).areaRoom x.bytes = none) := by decide +kernel
/-! ### The tollgate -/

/-- BEAT valid with its last edge at 1 ms. -/
def beating : State := { up with beat := { up.beat with valid := true, lastEdge := some 1000000 } }

theorem witness_BeatAndSlots :
    beating.powered = true ∧ beating.beat.valid = true ∧ beating.beat.lastEdge = some 1000000
    ∧ (1000000 + 15385000 ≤ 16385000 / 10 * 10 ∧ 16385000 / 10 * 10 ≤ 1000000 + 22222000) ∧ (1000000 + 15385000 ≤ 23222009 / 10 * 10 ∧ 23222009 / 10 * 10 ≤ 1000000 + 22222000)
    ∧ (12999999 / 10 * 10 < 1000000 + 12000000 ∧ 12999999 / 10 * 10 ≤ 1000000 + 40000000) ∧ (lastSecond beating.beat.rejTimes 12999999).length < 8
    ∧ 1000000 + 40000000 < 41000010 / 10 * 10 ∧ 41000009 / 10 * 10 ≤ 1000000 + 40000000
    ∧ lowered.envelope.2 = .power 700 ∧ lowered.tg.st ≠ 3 ∧ lowered.tg.st ≠ 6 ∧ lowered.tg.entering ≠ some .deep
    ∧ (let s : State := { lowered with tg := { lowered.tg with allowance := 699 } }
       s.tg.allowance ≤ 700)
    ∧ shedding.envelope.2 = .floor .retention
    ∧ (6400 * (306249 - up.beat.slotAt) < 980 * up.beat.period ∧ 980 * up.beat.period ≤ 6400 * (306250 - up.beat.slotAt))
    ∧ (1 = (up.beat.slot + 1) % 64 ∧ 2 ≠ (up.beat.slot + 1) % 64) := by decide +kernel

/-- `up` with cluster 0 as given. -/
def clu0 (f : Cluster → Cluster) : State := up.modClu 0 f

/-- A base die throttled since 5 ns, in the window of the owned slot. -/
def throttled0 : State := { up with pwr := { up.pwr with throttles := [(.base 0, 5)] }, beat := { up.beat with slot := up.ownedSlot } }

theorem witness_GovernorAndHeat :
    up.powered = true ∧ up.tg.st = 0 ∧ up.tg.allowance * 102 / 100 < (3367 : Rat) ∧ ((3300 : Nat) : Rat) ≤ up.tg.allowance ∧ 0 ≤ up.tg.allowance
    ∧ ((up.clu 0).held = false ∧ 24 < ((clu0 fun x => { x with clock := 25 }).clu 0).clock)
    ∧ ((List.range 48).all fun k => (up.clu k).held || decide ((up.clu k).clock ≤ 24)) = true ∧ ((List.range 48).all fun j => j == 0 || (up.clu j).held) = true
    ∧ Sensor.inlet ∉ up.pwr.sensorsBad ∧ Sensor.inlet ∈ (State.pwr { up with pwr := { up.pwr with sensorsBad := [.inlet] } }).sensorsBad
    ∧ 100 < 101 ∧ throttled0.powered = true ∧ throttled0.inWindow 99999 = true ∧ throttled0.inWindow 100000 = false
    ∧ (Die.base 0, 5) ∈ throttled0.pwr.throttles ∧ ((99999 : Nat) < 5 + 100000000)
    ∧ (let s : State := { throttled0 with beat := { throttled0.beat with slotAt := 100000005 } }
       s.powered = true ∧ s.inWindow 100000005 = true ∧ (Die.base 0, 5) ∈ s.pwr.throttles ∧ 5 + 100000000 ≤ 100000005)
    ∧ 115 ≤ tripLimit (.base 0) ∧ tripLimit (.base 0) < 116 ∧ up.pwr.trip = false := by decide +kernel

/-- The tollgate in state st, in the window of the owned slot. -/
def floored (st : Nat) (s : State) : State := { s with tg := { s.tg with st := st }, beat := { s.beat with slot := s.ownedSlot } }

/-- SHED_N is low and asks for the deep floor. -/
def sheddingDeep : State := { up with tg := { up.tg with shed := true, cfg := { up.tg.cfg with shedFloor := true } } }

theorem witness_FloorsAndTurns :
    ((floored 4 up).powered = true ∧ (floored 4 up).tg.st = 4)
    ∧ ((floored 2 sheddingDeep).powered = true ∧ (floored 2 sheddingDeep).tg.st = 2 ∧ (floored 2 sheddingDeep).bringupDone = true
      ∧ (floored 2 sheddingDeep).wantsDeep = true)
    ∧ (up.tg.st ≠ 2) ∧ ((floored 2 up).wantsDeep = false ∧ (floored 2 up).tg.entering ≠ some .deep) ∧ (up.tg.st ≠ 3)
    ∧ ((floored 3 up).powered = true ∧ (floored 3 up).tg.st = 3 ∧ (floored 3 up).wantsDeep = false ∧ (floored 3 up).inWindow 0 = true
      ∧ (floored 3 up).inWindow 100000 = false)
    ∧ ((floored 2 up).powered = true ∧ (floored 2 up).tg.st = 2 ∧ (floored 2 up).bringupDone = true ∧ (floored 2 up).tg.entering ≠ some .deep
      ∧ (floored 2 up).inWindow 99999 = true ∧ (floored 2 up).envelope.2 = .power 3300)
    ∧ ((up.tg.lastLeg + 10000000 ≤ 10000000) ∧ (9999999 < up.tg.lastLeg + 10000000) ∧ up.legs = [])
    ∧ (let s := halted .missing
       s.powered = true ∧ s.tg.st = 0 ∧ (s.clu 0).held = false ∧ s.haltedLong 0 100005 = true ∧ s.haltedLong 0 100004 = false ∧ (up.clu 1).held = true)
    ∧ (let s := (halted .missing).modClu 47 fun x => { x with leg := some (0, 0) }
       (s.workAfter 0).find? (fun k => (s.clu k).held && !(s.tg.yielded.contains k)) = some 47 ∧ (s.clu 0).held = false ∧ s.haltedLong 0 100005 = true)
    ∧ (let s : State := { floored 5 up with tg := { (floored 5 up).tg with leaving := some (6, true) } }
       s.tg.st = 5 ∧ s.tg.leaving = some (6, true) ∧ s.now < 6 ∧ 6 ≤ (s.tick 6).now)
    ∧ (up.powered = true ∧ up.tg.st = 0)
    ∧ (up.modCol 31 fun x => { x with retrim := true }).retrimming 0 = true ∧ up.retrimming 0 = false
    ∧ ((clu0 fun x => { x with target := 76 }).clu 0).clock < ((clu0 fun x => { x with target := 76 }).clu 0).target := by decide +kernel

/-- Whichever draw the calibrated curve gives (log 8), the exit from the retention floor falls under one of its two clauses. -/
theorem witness_FloorsAndTurns_fits :
    (floored 2 up).fits (Config.basePower 24 0 true 4) = true ∨ (floored 2 up).fits (Config.basePower 24 0 true 4) = false := Bool.eq_false_or_eq_true _

/-! ### Ports and packets -/

/-- Port 11 up at width 4 to module 7, with one flit unacknowledged. -/
def linked : State := up.modPort 11 fun x => { x with width := 4, own := 0xFF, peer := 0xFF, peerAlive := true, peerId := 7, replay := [(2047, 5, 0)], nakSent := false }

/-- A flit of zeros with its CRC. -/
def flit0 : BitVec 2048 := BitVec.ofNat 2048 (2791528945 <<< 2016)

/-- The CRC-32 of 252 zero bytes, as the usual CRC-32 gives it; in pieces of 36 bytes. -/
theorem crc_zeros : crc32 (List.replicate 252 0) = 2791528945 := by
  have h1 : (List.replicate 36 (0 : Byte)).foldl (fun r b => crc32Bits 8 (Nat.xor r b.toNat)) 4294967295 = 2504609066 := by decide +kernel
  have h2 : (List.replicate 36 (0 : Byte)).foldl (fun r b => crc32Bits 8 (Nat.xor r b.toNat)) 2504609066 = 4030547117 := by decide +kernel
  have h3 : (List.replicate 36 (0 : Byte)).foldl (fun r b => crc32Bits 8 (Nat.xor r b.toNat)) 4030547117 = 4035117580 := by decide +kernel
  have h4 : (List.replicate 36 (0 : Byte)).foldl (fun r b => crc32Bits 8 (Nat.xor r b.toNat)) 4035117580 = 2415262307 := by decide +kernel
  have h5 : (List.replicate 36 (0 : Byte)).foldl (fun r b => crc32Bits 8 (Nat.xor r b.toNat)) 2415262307 = 3400967169 := by decide +kernel
  have h6 : (List.replicate 36 (0 : Byte)).foldl (fun r b => crc32Bits 8 (Nat.xor r b.toNat)) 3400967169 = 2070577298 := by decide +kernel
  have h7 : (List.replicate 36 (0 : Byte)).foldl (fun r b => crc32Bits 8 (Nat.xor r b.toNat)) 2070577298 = 1503438350 := by decide +kernel
  have h : (List.replicate 252 (0 : Byte)) = List.replicate 36 0 ++ (List.replicate 36 0 ++ (List.replicate 36 0 ++ (List.replicate 36 0 ++ (List.replicate 36 0
    ++ (List.replicate 36 0 ++ List.replicate 36 0))))) := by decide +kernel
  unfold crc32
  rw [h, List.foldl_append, List.foldl_append, List.foldl_append, List.foldl_append, List.foldl_append, List.foldl_append]
  rw [show (0xFFFFFFFF : Nat) = 4294967295 from rfl, h1, h2, h3, h4, h5, h6, h7]
  decide +kernel

/-- A flit with the reserved bit set, with its CRC. -/
def flit1 : BitVec 2048 := BitVec.ofNat 2048 (2 ^ 15 + 689255040 * 2 ^ 2016)

/-- Its CRC-32, as the usual CRC-32 gives it; in pieces of 36 bytes. -/
theorem crc_flit1 : crc32 (0 :: 0x80 :: List.replicate 250 0) = 689255040 := by
  have h1 : ((0 : Byte) :: 0x80 :: List.replicate 34 (0 : Byte)).foldl (fun r b => crc32Bits 8 (Nat.xor r b.toNat)) 4294967295 = 2265474481 := by decide +kernel
  have h2 : (List.replicate 36 (0 : Byte)).foldl (fun r b => crc32Bits 8 (Nat.xor r b.toNat)) 2265474481 = 825678776 := by decide +kernel
  have h3 : (List.replicate 36 (0 : Byte)).foldl (fun r b => crc32Bits 8 (Nat.xor r b.toNat)) 825678776 = 627155195 := by decide +kernel
  have h4 : (List.replicate 36 (0 : Byte)).foldl (fun r b => crc32Bits 8 (Nat.xor r b.toNat)) 627155195 = 1233556104 := by decide +kernel
  have h5 : (List.replicate 36 (0 : Byte)).foldl (fun r b => crc32Bits 8 (Nat.xor r b.toNat)) 1233556104 = 2827796806 := by decide +kernel
  have h6 : (List.replicate 36 (0 : Byte)).foldl (fun r b => crc32Bits 8 (Nat.xor r b.toNat)) 2827796806 = 606394473 := by decide +kernel
  have h7 : (List.replicate 36 (0 : Byte)).foldl (fun r b => crc32Bits 8 (Nat.xor r b.toNat)) 606394473 = 3605712255 := by decide +kernel
  have h : (0 : Byte) :: 0x80 :: List.replicate 250 0 = (0 :: 0x80 :: List.replicate 34 0) ++ (List.replicate 36 0 ++ (List.replicate 36 0 ++ (List.replicate 36 0
    ++ (List.replicate 36 0 ++ (List.replicate 36 0 ++ List.replicate 36 0))))) := by decide +kernel
  unfold crc32
  rw [h, List.foldl_append, List.foldl_append, List.foldl_append, List.foldl_append, List.foldl_append, List.foldl_append]
  rw [show (0xFFFFFFFF : Nat) = 4294967295 from rfl, h1, h2, h3, h4, h5, h6, h7]
  decide +kernel

theorem witness_FlitTraffic_reserved : crc32 (slice (lineBytes flit1) 0 252) = BitVec.ofNat 32 (natAt (lineBytes flit1) 252 4) ∧ flit1.getLsbD 15 = true := by
  have h0 : slice (lineBytes flit1) 0 252 = 0 :: 0x80 :: List.replicate 250 0 := by decide +kernel
  rw [h0, crc_flit1]
  decide +kernel

/-- A control flit that acknowledges flit a. -/
def ctl (a : Option Nat) : CtlFlit := ⟨a, none, ownCredits⟩

theorem witness_ControlFlits :
    (11 : Nat) < 12 ∧ (linked.port 11).width ≠ 0 ∧ (ctl none).nak = none ∧ (ctl (some 2047)).ack = some 2047 ∧ (linked.port 11).sends = true
    ∧ (up.port 11).sends = false ∧ (linked.port 11).replay ≠ [] ∧ (up.port 11).replay = [] := by decide +kernel

theorem witness_FlitTraffic :
    (11 : Nat) < 12 ∧ (linked.port 11).width ≠ 0 ∧ crc32 (slice (lineBytes (0 : BitVec 2048)) 0 252) ≠ BitVec.ofNat 32 (natAt (lineBytes (0 : BitVec 2048)) 252 4)
    ∧ crc32 (slice (lineBytes flit0) 0 252) = BitVec.ofNat 32 (natAt (lineBytes flit0) 252 4) ∧ flit0.getLsbD 15 = false ∧ fld flit0 0 11 = (linked.port 11).rxSeq
    ∧ flit0.getLsbD 27 = false
    ∧ (let s := linked.modPort 11 fun x => { x with rxSeq := 2047, nakSent := true }
       fld flit0 0 11 ≠ (s.port 11).rxSeq ∧ (s.port 11).nakSent = true ∧ (s.port 11).width ≠ 0)
    ∧ (let s := linked.modPort 11 fun x => { x with rxSeq := 2047 }
       fld flit0 0 11 ≠ (s.port 11).rxSeq ∧ (s.port 11).nakSent = false ∧ (fld flit0 0 11 + 2048 - (s.port 11).rxSeq) % 2048 < 1024)
    ∧ (let f : BitVec 2048 := 0x6000
       f.getLsbD 13 = true ∧ f.getLsbD 14 = true ∧ fld f 11 2 ≠ 2)
    ∧ (linked.port 11).sends = true ∧ (up.port 11).sends = false
    ∧ ((linked.port 11).replay[0]?.map fun e => e.1) = some 2047 ∧ (linked.port 11).paused = false ∧ (linked.port 11).training = false ∧ (up.port 11).replay = []
    ∧ (linked.port 11).replay ≠ [] := by
  have h0 : slice (lineBytes (0 : BitVec 2048)) 0 252 = List.replicate 252 0 := by decide +kernel
  have h1 : slice (lineBytes flit0) 0 252 = List.replicate 252 0 := by decide +kernel
  rw [h0, h1, crc_zeros]
  decide +kernel

/-- A packet from module 1 to `dst` with type and virtual channel, of step8 s. -/
def packet (dst type step8 : Nat) (data : List Line) : Packet := ⟨pack 128 [(0, 13, dst), (13, 13, 1), (28, 4, type), (104, 8, step8)], 3, data⟩

theorem witness_PortsAndRoutes :
    (linked.port 11).own.getLsbD 7 = true ∧ linked.underTest (.lane 11 7) = false ∧ (up.port 11).paused = false
    ∧ ((linked.modPort 11 fun x => { x with paused := true }).port 11).paused = true
    ∧ up.tg.st ≠ 3 ∧ up.fab.selfDeparted = false ∧ (up.port 11).width = 0 ∧ ((0x0F : BitVec 8) &&& ~~~(up.port 11).retired) &&& 0xF0 = 0
    ∧ ((0x80 : BitVec 8) &&& ~~~(up.port 11).retired) &&& 0x80 ≠ 0 ∧ (0x0F : BitVec 8) ≠ 0xFF ∧ (0x0F : BitVec 8) &&& 0x0F = 0x0F
    ∧ (packet 8191 0 0 []).dst = up.fab.moduleId ∧ (packet 8190 0 0 []).dst ≠ up.fab.moduleId
    ∧ (let s : State := { up with fab := { up.fab with lost := [8190] } }
       (packet 8190 0 0 []).dst ∈ s.fab.lost)
    ∧ (packet 8190 0 0 []).dst ∉ up.fab.lost ∧ (packet 8190 0 0 []).dst ∉ up.fab.departed ∧ (packet 8190 2 0 []).type = 2
    ∧ ((List.range 12).all fun n => decide (packet 8190 0 0 [] ∉ (up.port n).got)) = true
    ∧ (packet 8190 0 0 []).hops ≠ 64 ∧ ((up.fab.candidates 8190).any fun e => up.outPort (packet 8190 0 0 []) e.1 e.2 == none) = true
    ∧ ((up.fab.candidates 8190).any fun e => (List.range 12).any fun n =>
      (up.modPort n fun x => { x with width := 1 }).outPort (packet 8190 0 0 []) e.1 e.2 == some n) = true
    ∧ (up.fab.defaultHop 8190).isSome = true
    ∧ (let s : State := { up with fab := { up.fab with holding := [(packet 8190 0 0 [], 0)] } }
       s.fab.holding.find? (fun e => e.1 == packet 8190 0 0 [] && decide (e.2 + 100000 ≤ 100000)) = some (packet 8190 0 0 [], 0)
         ∧ (99999 : Nat) < 0 + 100000) := by decide +kernel
/-- Rank 0 of a group of two in a step, the reduced gradients of the tensor in a scratch window. -/
def grouped (f : Ctx → Ctx) : State :=
  (upCx fun x => f { x with place := some (place0 2 0), map := [⟨0x50000, 2, 2, 0, false, 0, 1⟩], run := some run0, mask := ⟨0, 0, [0, 1], false, 0⟩ }).modClu 0
    fun x => { x with scratchUnits := 1 }

/-- The module is 8191 and the sender 1, so the packets below carry the group's rank 1. -/
def reducePacket (step8 : Nat) : Packet := ⟨pack 128 [(0, 13, 8191), (13, 13, 1), (28, 4, 1), (40, 48, 0x50000), (104, 8, step8)], 0, [0]⟩

/-- The packet spells contributions of this state. -/
def spells (s : State) (p : Packet) : Bool := (s.spelled p).any fun l => l.any fun c => c.leg == 0

theorem witness_PacketArrivals :
    (packet 0 0 0 []).dst ≠ up.fab.moduleId ∧ (packet 8191 3 0 []).dst = up.fab.moduleId ∧ (packet 8191 3 0 []).type = 3 ∧ (packet 8191 4 0 []).type = 4
    ∧ (up.landLines 0 0 [5]).isSome = true ∧ (packet 8191 0 0 [5]).type = 0 ∧ (up.landLines 0 0xF00000000000 [5]).isNone = true
    ∧ up.resolve 0 none 0 = .flat .tier2 0
    ∧ (reducePacket 128).type = 1 ∧ (reducePacket 128).dst = up.fab.moduleId ∧ spells (grouped id) (reducePacket 128) = true
    ∧ 128 ≤ ((reducePacket 128).step8 + 256 - ((grouped id).cx 0).step % 256) % 256
    ∧ ((reducePacket 127).step8 + 256 - ((grouped id).cx 0).step % 256) % 256 = 127 ∧ spells (grouped id) (reducePacket 127) = true
    ∧ (((grouped fun x => { x with run := none }).cx 0).run = none ∧ spells (grouped fun x => { x with run := none }) (reducePacket 0) = true)
    ∧ (let s := grouped fun x => { x with mask := ⟨0, 1, [0, 1], false, 1⟩ }
       (s.cx 0).run = some run0 ∧ (reducePacket 0).gen < (s.cx 0).restartNow ∧ spells s (reducePacket 0) = true)
    ∧ (let s := grouped fun x => { x with mask := ⟨0, 0, [0], false, 0⟩ }
       (s.cx 0).run = some run0 ∧ (s.cx 0).maskNow = true ∧ (s.spelled (reducePacket 0)).any (fun l => l.any fun x => x.key.r == 1) = true ∧ 1 ∉ (s.cx 0).mask.members)
    ∧ ((grouped id).cx 0).restartNow ≤ (reducePacket 0).gen ∧ ((grouped id).cx 0).maskNow = true
    ∧ ((grouped id).spelled (reducePacket 0)).any (fun l => l.all fun x => (grouped id).refusingStop x.line == none) = true
    ∧ (let s : State := { grouped id with pwr := { (grouped id).pwr with stages := List.replicate 8 .off } }
       (s.spelled (reducePacket 0)).any (fun l => l.any fun x => (s.refusingStop x.line).isSome) = true)
    ∧ (packet 8191 2 0 []).type = 2 ∧ (up.readLines 0 none none 1 0 []).2.1 = none ∧ up.mapEntry 0 0 = none ∧ (0 : Nat) < up.tier2Size
    ∧ up.placePaused (up.resolve 0 none 0) = false ∧ up.placePaused (.flat .tier2 0) = false
    ∧ ((grouped id).spelled (reducePacket 0)).any (fun l => l.all fun x => !(grouped id).linePaused x.line) = true
    ∧ (let s := (grouped id).modCol 0 fun x => { x with failing := [(true, 255)] }
       (s.spelled (reducePacket 0)).any (fun l => l.any fun x => (s.refusingStop x.line).isNone && s.linePaused x.line) = true)
    ∧ ((grouped id).spelled (reducePacket 0)).any (fun l => l.all fun x => ((grouped id).cx 0).mask.members.contains x.key.r) = true := by decide +kernel

/-! ### Legs and steps -/

/-- A STEP waybill of one micro-batch with an empty leg list. -/
def stepWb : Waybill := way 0x3001 0 [(0, 16, 1)] (List.replicate 16 0)

/-- A placement without tensors, caravan and stash. -/
def placeNone : Placement := { place0 1 0 with tensors := [], caravan := [], stash := [] }

/-- The step waits in context 0 under placement p. -/
def waiting (p : Option Placement) (w : Waybill) : State := { upCx fun x => { x with place := p, queue := [w] } with host := { up.host with wbs := [⟨w, true, false, none⟩] } }

theorem witness_Admission :
    (let s := now up 5
     s.bringupDone = true ∧ s.mc.coreAlive.getD 0 false = true ∧ s.stackFailed = false ∧ s.tg.admitStop = false ∧ s.atFloor = false ∧ s.tg.st ≠ 5 ∧ s.tg.st ≠ 6
       ∧ s.tg.lastCtx < 4)
    ∧ (now State.reset 5).bringupDone = false
    ∧ (let g : LegProg := ⟨[0, 47], 0, 0, 0, [(0, [1]), (47, [2, 3])]⟩
       (g.lists.map Prod.fst).Nodup)
    ∧ up.nextStep 0 = none
    ∧ (waiting none stepWb).nextStep 0 = some stepWb ∧ (waiting none stepWb).stepReady 0 = true ∧ ((waiting none stepWb).cx 0).place = none
    ∧ (let s := waiting (some placeNone) stepWb
       let b := (s.tick 5).buffer stepWb
       s.stepReady 0 = true ∧ s.nextStep 0 = some stepWb ∧ (s.cx 0).place ≠ none
         ∧ (match parseStep b.2 with | .ok (legs, _) => (b.1.stepBad 0 (stepWb.p 0 16) legs).isNone | _ => false) = true ∧ (b.1.cx 0).take = none)
    ∧ (let s := waiting (some (place0 1 0)) stepWb
       let b := (s.tick 5).buffer stepWb
       s.stepReady 0 = true ∧ s.nextStep 0 = some stepWb ∧ (s.cx 0).place ≠ none
         ∧ (match parseStep b.2 with | .ok (legs, _) => (b.1.stepBad 0 (stepWb.p 0 16) legs).isSome | _ => false) = true)
    ∧ (let w := way 0x3001 0 [(0, 16, 1)] [0xFF]
       let s := waiting (some placeNone) w
       let b := (s.tick 5).buffer w
       s.stepReady 0 = true ∧ s.nextStep 0 = some w ∧ (match parseStep b.2 with | .error _ => true | _ => false) = true) := by decide +kernel

/-- `up` with the leg g. -/
def withLeg (g : LegRun) : State := { up with legs := [g] }

theorem witness_LegCompletes :
    up.legOf 0 0 = none ∧ (withLeg leg0).legOf 0 0 = some leg0 ∧ leg0.status = 0 ∧ leg0.inStep = true ∧ (withLeg leg0).legDone leg0 = true
    ∧ (let s := { queued (desc 0x20 1 0 1 0 0 false 0) with legs := [leg0] }
       s.legOf 0 0 = some leg0 ∧ s.legDone leg0 = false)
    ∧ (let g := { leg0 with inStep := false, wb := some stepWb, orderDep := true }
       (withLeg g).legOf 0 0 = some g ∧ g.inStep = false ∧ g.wb = some stepWb ∧ (withLeg g).legDone g = true)
    ∧ (let g := { leg0 with status := 0x0501, inst := { leg0.inst with entry := ⟨0, 2, 0, 0⟩ } }
       (withLeg g).legOf 0 0 = some g ∧ g.inStep = true ∧ g.status ≠ 0 ∧ g.inst.entry.phase = 2)
    ∧ (let g := { leg0 with status := 0x0501, inst := { leg0.inst with entry := ⟨0, 1, 0, 0⟩ } }
       (withLeg g).legOf 0 0 = some g ∧ g.status ≠ 0 ∧ g.inst.entry.phase < 2 ∧ g.inst.mu = some 0)
    ∧ (let g := { leg0 with status := 0x0604, inst := { leg0.inst with entry := ⟨0, 3, 0, 0⟩ } }
       (withLeg g).legOf 0 0 = some g ∧ g.inStep = true ∧ g.status = 0x0604 ∧ g.inst.entry.phase = 3)
    ∧ (let g := { leg0 with status := 0x0501, inst := { leg0.inst with entry := ⟨0, 3, 0, 0⟩ }, resume := [(0, 0x30000, [])] }
       (withLeg g).legOf 0 0 = some g ∧ g.inStep = true ∧ g.status ≠ 0 ∧ g.status ≠ 0x0604 ∧ g.inst.entry.phase = 3
         ∧ (g.resume.all fun e => !g.failed.contains (e.1, fld e.2.1 16 16)) = true ∧ g.clusters ≠ [])
    ∧ (let g := { leg0 with status := 0x0501, inst := { leg0.inst with entry := ⟨0, 3, 0, 0⟩ }, resume := [(0, 0x30000, [])], failed := [(0, 3)] }
       (withLeg g).legOf 0 0 = some g ∧ g.status ≠ 0x0604 ∧ (g.resume.any fun e => g.failed.contains (e.1, fld e.2.1 16 16)) = true)
    ∧ (let g := { leg0 with status := 0x0501, inst := { leg0.inst with entry := ⟨0, 3, 0, 0⟩ }, clusters := [] }
       (withLeg g).legOf 0 0 = some g ∧ g.status ≠ 0x0604 ∧ g.resume = [] ∧ g.clusters = [])
    ∧ (let g := { leg0 with status := 0x0501, inst := { leg0.inst with entry := ⟨0, 4, 0, 0⟩ } }
       (withLeg g).legOf 0 0 = some g ∧ g.status ≠ 0 ∧ g.inst.entry.phase = 4 ∧ g.clusters ≠ []
         ∧ ((((withLeg g).tick 5).legReceiptOf g g.status g.detail).cx g.ctx).fetching = none) := by decide +kernel

/-- Context 0 in the step r. -/
def inRun (r : StepRun) : State := upCx fun x => { x with place := some placeNone, run := some r }

theorem witness_StepEnds :
    ((upCx fun x => { x with stuck := true }).cx 0).stuck = true ∧ (up.cx 0).run = none
    ∧ (let r := { run0 with decision := some .sweep }
       let v := ((inRun r).tick 5).settleStep 0
       ((inRun r).cx 0).stuck = false ∧ (inRun r).host.linkUp = true ∧ (inRun r).tg.dmaPaused = false
         ∧ ((v.cx 0).run.any fun r => r.decision.isSome && r.todo.isEmpty && !r.lostRank) = true ∧ v.legs = [])
    ∧ (let r := { run0 with decision := some .sweep, lostRank := true }
       let v := ((inRun r).tick 5).settleStep 0
       ((inRun r).cx 0).stuck = false ∧ ((v.cx 0).run.any fun r => r.decision.isSome && r.todo.isEmpty && r.lostRank) = true ∧ v.legs = [])
    ∧ (let r := { run0 with decision := some .void_, todo := [⟨0, ⟨0, 3, 0, 0⟩, none, false⟩] }
       let v := ((inRun r).tick 5).settleStep 0
       ((inRun r).cx 0).stuck = false ∧ ((v.cx 0).run.any fun r => !r.todo.isEmpty) = true)
    ∧ run0.mismatch = false ∧ ({ run0 with decision := some .skip } : StepRun).decision = some .skip ∧ ({ run0 with decision := some .sweep } : StepRun).decision ≠ some .skip
    ∧ LScale.init.fixed = false ∧ LScale.init.probe = false ∧ ({ LScale.init with clean := 1999 } : LScale).clean = 1999
    ∧ ({ LScale.init with probe := true, clean := 49, probeLeft := 1 } : LScale).probe = true
    ∧ ({ LScale.init with fixed := true } : LScale).fixed = true := by decide +kernel

/-! ### Groups -/

theorem witness_GroupMessages :
    ((grouped id).cx 0).run = some run0 ∧ (⟨1, 0, true, 0, 1, false, 0⟩ : Trailer).step8 = ((grouped id).cx 0).step % 256
    ∧ ((grouped fun x => { x with run := none }).cx 0).run = none
    ∧ (⟨1, 1, true, 0, 1, false, 0⟩ : Trailer).step8 = (((grouped id).cx 0).step + 1) % 256
    ∧ ((List.range 2).all fun k => (⟨1, 2, true, 0, 1, false, 0⟩ : Trailer).step8 != (((grouped id).cx 0).step + k) % 256) = true
    ∧ ((grouped id).cx 0).step = 0 ∧ ((grouped fun x => { x with run := none }).cx 0).step = 0
    ∧ ((grouped fun x => { x with mask := { x.mask with gen := 1 } }).cx 0).mask.gen = 1 ∧ ((grouped id).cx 0).mask.gen < 1 ∧ (up.cx 3).live = false ∧ (up.cx 0).place = none
    ∧ ((grouped id).cx 0).take = none ∧ ((grouped id).cx 0).mask.members ≠ [] ∧ ((grouped id).cx 0).mask.step = 0 ∧ ((grouped id).cx 0).mask.gen = 0
    ∧ ((grouped id).cx 0).live = true ∧ ((grouped id).cx 0).place ≠ none
    ∧ (let s := grouped fun x => { x with mask := { x.mask with members := [0] }, lost := [1] }
       s.leads 0 = true ∧ 1 ∉ (s.cx 0).mask.members ∧ 1 < s.groupSize 0 ∧ 1 ∈ (s.cx 0).lost)
    ∧ (let s := grouped fun x => { x with mask := { x.mask with members := [0] }, departed := [1] }
       s.leads 0 = true ∧ 1 ∉ (s.cx 0).mask.members ∧ 1 < s.groupSize 0 ∧ 1 ∈ (s.cx 0).departed)
    ∧ (let s := grouped fun x => { x with mask := ⟨3, 0, [], false, 0⟩ }
       (s.cx 0).live = true ∧ (s.cx 0).place ≠ none ∧ (s.cx 0).take = none ∧ (s.cx 0).mask.step < 4 ∧ (s.cx 0).mask.members = [])
    ∧ 1 ∈ ((grouped id).cx 0).mask.members ∧ (grouped id).groupSize 0 ≤ 2 := by decide +kernel

/-- Port 11 knows its neighbour 7, and is down since 5 ns. -/
def neighbour (f : Port → Port) : State := up.modPort 11 fun x => f { x with peerAlive := true, peerId := 7, downSince := some 5 }

theorem witness_LossAndDeparture :
    up.fab.moduleId = 8191 ∧ 7 ∉ up.fab.lost ∧ 7 ≠ up.fab.moduleId
    ∧ (let s : State := { up with fab := { up.fab with lost := [7] } }
       7 ∈ s.fab.lost)
    ∧ (up.port 11).known = false ∧ ((neighbour id).port 11).known = true ∧ ((neighbour id).port 11).peerId ∉ (neighbour id).fab.lost
    ∧ (11 : Nat) < 12 ∧ ((neighbour id).tick 20005).downLong 7 = true ∧ ((neighbour id).tick 20004).downLong 7 = false ∧ ((neighbour id).port 11).departed = false
    ∧ (let s : State := { neighbour id with fab := { (neighbour id).fab with lost := [7] } }
       (s.port 11).known = true ∧ (s.port 11).peerId ∈ s.fab.lost)
    ∧ 7 ∉ up.fab.departed
    ∧ (let s : State := { up with fab := { up.fab with departed := [7] } }
       7 ∈ s.fab.departed)
    ∧ (let s := neighbour fun x => { x with departed := true }
       (s.port 11).departed = true ∧ (s.port 11).peerAlive = true ∧ (s.tick 20005).downLong (s.port 11).peerId = true ∧ (s.port 11).peerId ∉ s.fab.departed ∧ (s.port 11).peerId ∉ s.fab.lost
         ∧ ((List.range 12).all fun p => !((s.port p).known && (s.port p).peerId == (s.port 11).peerId) || (s.port p).downSince.any fun u => decide (u + 20000 ≤ 20005)) = true)
    ∧ (let s := neighbour fun x => { x with departed := true, downSince := none }
       (s.port 11).departed = true ∧ (s.port 11).known = true ∧ (s.port 11).downSince = none)
    ∧ up.fab.isolated = false ∧ up.fab.selfDeparted = false ∧ 8 ≤ up.mc.bringup
    ∧ ((List.range 12).all fun n => (up.port n).width == 0 && (up.port n).downSince.all fun u => decide (u + 20000 ≤ 20000)) = true
    ∧ (up.cx 0).live = true ∧ (linked.port 11).width ≠ 0 := by decide +kernel
/-! ### Shards, records and takeovers -/

/-- Context 0 holds a group of two at rank r, after a sweep of step 3; the shard's published seals are one seal v. -/
def sealed0 (r : Nat) (v : Nat) (f : Ctx → Ctx) : State :=
  (upCx fun x => f { x with place := some (place0 2 r), lastSweep := some ⟨3, none, 1, [], 0⟩, masterSeals := [(9, [])] }).write .tier2 0x60000
    (bytesOfNat 64 (9 + 2 ^ 128 + 2 ^ 192) ++ bytesOfNat 8 v)

/-- The unit that context 0 fetches. -/
def fetch0 : Fetching := ⟨0, 1, 0, 0, 0, false, 0, 0⟩

def block0 : CtxBlock := ⟨0, 0, 0, false, 0, false, 0, 0, 0, [], [], [], 0⟩

/-- A verify request for unit 0 of the rank that owns no row of the tensor: an empty unit, whose seal is 0. -/
def verified (v : Nat) : Option (List DWord) × Option (List Byte) :=
  let p := (sealed0 1 v id).published 0 tensor0
  (p.2, (p.1.readAll 0 ((workingArea tensor0 2 1).1) (unitBytes (workingArea tensor0 2 1).2 0)).2)

theorem witness_ShardTraffic :
    (sealed0 0 0 id).sealStep 0 = some 3 ∧ ((sealed0 0 0 id).tensorsOf 0)[0]? = some (tensor0, 0) ∧ (sealed0 0 0 id).sweptShard 0 tensor0 = true
    ∧ up.sealStep 0 = none ∧ (sealed0 0 0 id).tensorsOf 0 = [(tensor0, 0)]
    ∧ ([5] : List Byte).length = ([6] : List Byte).length ∧ (0 + 255) % tileBytes 2 < 256
    ∧ (let s := sealed0 0 0 fun x => { x with fetching := some fetch0 }
       (s.cx 0).fetching = some fetch0 ∧ s.fetchStep 0 tensor0 = none ∧ fetch0.rank ≠ 0)
    ∧ (let s := sealed0 0 0 fun x => { x with fetching := some fetch0, run := some run0 }
       (s.cx 0).fetching = some fetch0 ∧ s.fetchStep 0 tensor0 = some 0)
    ∧ sealOf (tileBytes 2) 0 [] ≠ 1 ∧ ({ fetch0 with tries := 1 } : Fetching).tries < 2
    ∧ (up.cx 0).fetching = none
    ∧ (let s := sealed0 0 0 fun x => { x with fetching := some { fetch0 with verify := true } }
       (s.cx 0).fetching = some { fetch0 with verify := true })
    ∧ ((sealed0 1 0 id).cx 0).lastSweep.isSome = true ∧ verified 0 = (some [0], some []) ∧ verified 1 = (some [1], some []) ∧ sealOf (tileBytes 2) 0 [] = 0
    ∧ (((sealed0 1 1 id).readAll 0 tensor0.master (masterBytes tensor0 2 1)).2 = some []) ∧ sealsOf (tileBytes 1) [] = []
    ∧ (((sealed0 1 1 id).cx 0).masterSeals.find? fun e => e.1 == tensor0.id).map Prod.snd = some []
    ∧ (2 : Nat) ≠ 0 ∧ sealOf (tileBytes 1) (0 * sealUnit) [] ≠ 1 ∧ ((sealed0 0 0 id).cx 0).again = [] ∧ (sealed0 0 0 id).groupModule 0 1 = some 1
    ∧ (let b : Buffer := ⟨1, 3, false, [], some block0⟩
       let s := sealed0 0 0 fun x => { x with buffers := [b] }
       (s.cx 0).buffers = [b] ∧ b.block.isSome = true ∧ b.complete = false ∧ (s.cx 0).again = [])
    ∧ (let s := sealed0 0 0 fun x => { x with mirroring := some (3, block0) }
       (s.cx 0).mirroring.map Prod.fst = some 3 ∧ (s.cx 0).mirroring = some (3, block0) ∧ s.buddyModule 0 = some 1 ∧ (s.trained 0 9).isSome = true) := by decide +kernel

theorem witness_ShardTraffic_again :
    (let s := sealed0 0 0 fun x => { x with fetching := some fetch0, run := some run0, restore := some stepWb }
     (s.cx 0).fetching = some fetch0 ∧ s.fetchStep 0 tensor0 = some 0 ∧ (0 : Nat) ≠ 1 ∧ (s.cx 0).restore = some stepWb)
    ∧ (let s := sealed0 0 0 fun x => { x with fetching := some fetch0, run := some run0 }
       (s.cx 0).fetching = some fetch0 ∧ s.fetchStep 0 tensor0 = some 0 ∧ (s.cx 0).restore = none)
    ∧ ([0, 1, 2].all fun n => let s := sealed0 0 0 fun x => { x with again := [(9, 0, n)] }
         (((s.cx 0).again.find? fun e => e.1 == 9 && e.2.1 == 0).map fun e => e.2.2).getD 0 == n && s.groupModule 0 1 == some 1) = true := by decide +kernel

def exportWb0 : Waybill := way 0x5001 0 [(0, 13, 7)] []

/-- An export of context 0 to store 7. -/
def export0 (base : Option Nat) : Export := ⟨exportWb0, 0, [], 0, true, base, base.isSome, 7⟩

/-- The export has been fetched and started under a placement without shards. -/
def exporting (lost : List Nat) : State :=
  { (upCx fun x => { x with place := some placeNone }) with host := { up.host with wbs := [⟨exportWb0, true, false, none⟩] }, fab := { up.fab with lost := lost } }

/-- Context 0 is a store with one window of one page, and one grant. -/
def store0 : State := upCx fun x => { x with map := [⟨0, 1, 0, 0, false, 0, 1⟩], grants := [⟨1, 2, 0, 0⟩] }

theorem witness_CheckpointStores :
    ((upCx fun x => { x with exp := some (export0 none) }).cx 0).exp = some (export0 none) ∧ (export0 none).base = none
    ∧ ((upCx fun x => { x with exp := some (export0 (some 4096)) }).cx 0).exp = some (export0 (some 4096)) ∧ (export0 (some 4096)).base = some 4096
    ∧ (export0 none).since + 100000000 ≤ 100000007 ∧ 100000006 < (export0 none).since + 100000000 ∧ (up.cx 0).exp = none ∧ up.exportWb 0 = none
    ∧ ((exporting [7]).exportWb 0 = some exportWb0 ∧ ((exporting [7]).cx 0).live = true ∧ ((exporting [7]).cx 0).run = none ∧ ((exporting [7]).cx 0).exp = none
      ∧ ((exporting [7]).cx 0).restore = none ∧ (exporting [7]).reachable (exportWb0.p 0 13) = false)
    ∧ ((exporting []).exportWb 0 = some exportWb0 ∧ (exporting []).reachable (exportWb0.p 0 13) = true ∧ (((exporting []).readParts 0 ((exporting []).ownShards 0)).2 = some [])
      ∧ ((exporting []).cx 0).place = some placeNone)
    ∧ (up.cx 0).storeWindow = none ∧ (store0.cx 0).storeWindow = some ⟨0, 1, 0, 0, false, 0, 1⟩ ∧ (store0.cx 0).storeNext ⟨0, 1, 0, 0, false, 0, 1⟩ = 0
    ∧ 0 + 4096 ≤ 0 + 4096 * 1 ∧ 0 + 4096 * 1 < 0 + 4097 ∧ (up.cx 0).grants = []
    ∧ (store0.cx 0).grants.reverse.find? (fun g => g.src == 1 && g.srcCtx == 2) = some ⟨1, 2, 0, 0⟩ ∧ (store0.readHead 0 0 0).2 = some [] := by decide +kernel

theorem natOfBytes_bytesOfNat (n v : Nat) : natOfBytes (bytesOfNat n v) = v % 256 ^ n := by
  induction n generalizing v with
  | zero => simp [bytesOfNat, natOfBytes, Nat.mod_one]
  | succ n ih => rw [bytesOfNat, natOfBytes, ih, BitVec.toNat_ofNat, show 256 ^ (n + 1) = 256 * 256 ^ n from Nat.pow_succ', Nat.mod_mul, show (2 : ℕ) ^ 8 = 256 from rfl, Nat.mod_mod]

theorem bytesOfNat_length (n v : Nat) : (bytesOfNat n v).length = n := by
  induction n generalizing v with
  | zero => rfl
  | succ n ih => simp [bytesOfNat, ih]

theorem slice_at {x y z : List Byte} {a n : Nat} (ha : x.length = a) (hn : y.length = n) : slice (x ++ y ++ z) a n = y := by
  subst ha hn
  simp [slice, List.append_assoc]

/-- The bytes of a record's header before the placement digest: version 1, the rest 0 (12 Table 12-4). -/
def head48 : List Byte := 1 :: List.replicate 47 0

/-- The header up to its digest, for the placement of `exporting` and n shards. -/
def head976 (n : Byte) : List Byte := head48 ++ bytesOfNat 8 placeNone.digest.toNat ++ (List.replicate 16 0 ++ n :: List.replicate 903 0)

/-- A record with n directory entries of zeros. -/
def record0 (n : Byte) (tail : List Byte) : List Byte :=
  head976 n ++ bytesOfNat 48 (sha384Field (head976 n ++ List.replicate 48 0 ++ tail)).toNat ++ tail

theorem record0_good {n : Byte} {tail : List Byte} {s : State} (hp : (s.cx 0).place = some placeNone) (h0 : natAt (record0 n tail) 0 4 = 1)
    (h56 : natAt (record0 n tail) 56 2 = 0) (h58 : natAt (record0 n tail) 58 2 = 0) (h72 : natAt (record0 n tail) 72 2 = n.toNat)
    (ht : slice (record0 n tail) 1024 (128 * n.toNat) = tail)
    (hs : sealBytesOf (record0 n tail) = 0) :
    s.recordBad 0 (record0 n tail) = none := by
  have l48 : head48.length = 48 := by decide
  have l976 : (head976 n).length = 976 := by
    rw [head976, List.length_append, List.length_append, bytesOfNat_length, l48, List.length_append, List.length_cons, List.length_replicate, List.length_replicate]
  have h48 : natAt (record0 n tail) 48 8 = placeNone.digest.toNat := by
    have : slice (record0 n tail) 48 8 = bytesOfNat 8 placeNone.digest.toNat := by
      rw [record0, head976, List.append_assoc, List.append_assoc (head48 ++ _)]
      exact slice_at l48 (bytesOfNat_length _ _)
    rw [natAt, this, natOfBytes_bytesOfNat]
    exact Nat.mod_eq_of_lt placeNone.digest.isLt
  have h976 : natAt (record0 n tail) 976 48 = (sha384Field (head976 n ++ List.replicate 48 0 ++ tail)).toNat := by
    rw [natAt, record0, slice_at l976 (bytesOfNat_length _ _), natOfBytes_bytesOfNat]
    exact Nat.mod_eq_of_lt (sha384Field (head976 n ++ List.replicate 48 0 ++ tail)).isLt
  have hd : slice (record0 n tail) 0 976 = head976 n := by
    have h := slice_at (x := []) (y := head976 n) (z := bytesOfNat 48 (sha384Field (head976 n ++ List.replicate 48 0 ++ tail)).toNat ++ tail) rfl l976
    rwa [List.nil_append, ← List.append_assoc] at h
  have hh : recordHead (record0 n tail) = (head976 n ++ List.replicate 48 0 ++ tail, sha384Field (head976 n ++ List.replicate 48 0 ++ tail)) := by
    simp only [recordHead, h72, h976, hd, hs, Nat.add_zero, ht, BitVec.ofNat_toNat, BitVec.setWidth_eq]
  have hr : placeNone.rank = 0 ∧ placeNone.n = 1 := by decide
  have ha : placeNone.agrees placeNone.digest = true := by simp [Placement.agrees]
  simp [State.recordBad, hh, h0, h56, h58, h48, hp, hr, ha, bitsOf]

theorem witness_CheckpointStores_unreadable :
    (let s := (store0.modCx 0 fun x => { x with grants := [⟨1, 2, 0, 256⟩] }).modStack (stackOf 0) fun x => { x with poison := [0] }
     (s.cx 0).grants.reverse.find? (fun g => g.src == 1 && g.srcCtx == 2) = some ⟨1, 2, 0, 256⟩ ∧ (s.readHead 0 0 256).2 = none)
    ∧ (let s := ((exporting []).modCx 0 fun x => { x with place := some (place0 1 0) }).modStack (stackOf 0x10000) fun x => { x with poison := [0x100] }
       s.exportWb 0 = some exportWb0 ∧ (s.cx 0).live = true ∧ (s.cx 0).run = none ∧ (s.cx 0).exp = none ∧ (s.cx 0).restore = none
         ∧ s.reachable (exportWb0.p 0 13) = true ∧ (s.readParts 0 (s.ownShards 0)).2 = none) := by decide +kernel

def restoreWb : Waybill := way 0x5002 0 [] []

/-- The state in which the record of `restoreWb` is judged. -/
def restoring (u : State) : State := ((u.giveWay 0).stopForRestore 0).modCx 0 fun x => { x with fetched := [], fetching := none }

def takeoverWb : Waybill := way 0x5003 0 [] []

/-- A takeover of rank 1 of a group of two, at stage k. -/
def taking (k : Nat) : State := upCx fun x => { x with place := some (place0 2 1), take := some ⟨way 0x5003 0 [(0, 13, 1)] [], 1, k, 5, none, 0, []⟩ }

theorem witness_Takeover_seals :
    (let s := (taking 3).modCx 0 fun x => { x with take := x.take.map fun k => { k with wanted := [9] } }
     (s.cx 0).take.map (fun k => (k.stage, k.wanted.head?)) = some (3, some 9) ∧ s.trained 0 9 = some tensor0 ∧ (s.workingSeals 0 tensor0 1).2 = some [])
    ∧ (([] : List DWord) ≠ [0]) ∧ (up.cx 0).take = none ∧ (((taking 1).cx 0).mask.members.contains 1) = false := by decide +kernel

theorem witness_RestoreAndTakeover :
    starts (exporting []) restoreWb 0x5002 = true
    ∧ (let v := restoring ((withWb (exporting []) restoreWb).markStarted ⟨restoreWb, false, false, none⟩)
       v.recordBad 0 [] = some 0xFFFFFFF0
       ∧ (v.recordBad 0 (record0 0 []) = none ∧ v.restoreShards 0 (record0 0 []) (natAt (record0 0 []) 72 2) 0 0 = (v, none))
       ∧ (v.recordBad 0 (record0 1 (List.replicate 128 0)) = none
         ∧ v.restoreShards 0 (record0 1 (List.replicate 128 0)) (natAt (record0 1 (List.replicate 128 0)) 72 2) 0 0 = (v, some (0xFFFFFFF2, 0))))
    ∧ (let w := way 0x5003 0 [(0, 13, 1)] []
       let s := upCx fun x => { x with place := some (place0 2 1) }
       starts s w 0x5003 = true ∧ (s.cx 0).place = some (place0 2 1) ∧ s.leaderOf 0 = some 0 ∧ (place0 2 1).rank = w.p 0 13 ∧ (s.cx 0).run = none ∧ (s.cx 0).restore = none
         ∧ (s.cx 0).take = none)
    ∧ starts up takeoverWb 0x5003 = true ∧ (up.cx 0).place = none ∧ up.trained 0 9 = none ∧ (up.cx 0).take = none
    ∧ (((taking 1).cx 0).take.map fun k => k.stage) = some 1 ∧ (taking 1).buddyModule 0 = some 0 ∧ (taking 1).reachable 0 = true
    ∧ (((taking 2).cx 0).take.map fun k => (k.stage, k.rank, k.swept)) = some (2, 1, 5)
    ∧ ((⟨1, 5, false, [], none⟩ : Buffer).complete = false ∧ (⟨0, 5, true, [], none⟩ : Buffer).owner ≠ 1 ∧ (⟨1, 4, true, [], none⟩ : Buffer).step ≠ 5) := by
  refine ⟨by decide +kernel, ⟨by decide +kernel, ⟨record0_good ?_ ?_ ?_ ?_ ?_ ?_ ?_, ?_⟩, ⟨record0_good ?_ ?_ ?_ ?_ ?_ ?_ ?_, ?_⟩⟩, ?_⟩ <;> decide +kernel
/-! ### Faults, resets and management -/

/-- Two watchdogs of core 2 within the hour. -/
def watched : State := { up with mc := { up.mc with coreRestarts := [(2, 5), (2, 6)] } }

theorem witness_FaultHandling :
    (3 : Nat) ≤ 3 ∧ (State.reset.mc.coreAlive.getD 2 false = false) ∧ watched.mc.coreAlive.getD 2 false = true
    ∧ ((watched.mc.coreRestarts.filter fun e => decide (7 < e.2 + 3600000000000)).filter fun e => e.1 == 2).length = 2 ∧ up.mc.coreAlive.getD 1 false = true
    ∧ 5 ≤ up.mc.bringup ∧ up.coresUp = true ∧ up.coreInUse 1535 = true ∧ (262143 : Nat) < 262144 ∧ State.reset.coresUp = false
    ∧ (let s := up.modCor 0 fun x => { x with corrected := List.replicate 7 (7, 5) }
       7 ≤ (((s.cor 0).corrected.filter fun e => decide (3600000000004 < e.2 + 3600000000000)).filter fun e => e.1 == 262143 / 32768).length
         ∧ (((s.cor 0).corrected.filter fun e => decide (3600000000005 < e.2 + 3600000000000)).filter fun e => e.1 == 262143 / 32768).length < 7)
    ∧ up.cel.l1 = []
    ∧ (let x : L1Line := ⟨0, .scratch 0 0, 0, true, true⟩
       let s : State := { up with cel := { up.cel with l1 := [x] } }
       s.cel.l1.find? (fun x => x.core == 0 && x.line == .scratch 0 0) = some x ∧ x.modified = true)
    ∧ (let x : L1Line := ⟨0, .scratch 0 0, 0, false, false⟩
       let s : State := { up with cel := { up.cel with l1 := [x] } }
       s.cel.l1.find? (fun x => x.core == 0 && x.line == .scratch 0 0) = some x ∧ x.modified = false)
    ∧ up.mc.repairMap.length + 2 ≤ 16384 ∧ (⟨.bank 32 7, 2, 0, none⟩ : TestRun).kind ≠ 0
    ∧ (let s : State := { up with mc := { up.mc with repairMap := List.replicate 16384 (.cause 4) } }
       16384 < s.mc.repairMap.length + 1) := by decide +kernel

/-- A test of core 1535 in progress. -/
def testing : State := { up with mc := { up.mc with tests := [⟨.core 1535, 1, 0, none⟩] } }

theorem witness_SelfTests :
    up.mc.tests = [] ∧ testing.mc.tests.find? (fun r => r.unit == .core 1535) = some ⟨.core 1535, 1, 0, none⟩ ∧ testing.mc.coreAlive.getD 2 false = true
    ∧ TestUnit.core 1535 ∉ testing.tg.shedWork ∧ testing.unitRetired (.core 1535) = false
    ∧ ((recentTests testing.mc.testHistory 9).filter fun e => e.1 == .core 1535).length < 3
    ∧ (let s : State := { testing with mc := { testing.mc with testHistory := List.replicate 3 (.core 1535, 5) } }
       3 ≤ ((recentTests s.mc.testHistory 86400000000004).filter fun e => e.1 == .core 1535).length)
    ∧ ((up.modClu 47 fun x => { x with rem32 := 31 }).clu 47).rem32 = 31
    ∧ (let x := (up.modClu 47 fun x => { x with rem32 := 0, rem33 := 31 }).clu 47
       x.rem32 ≠ 31 ∧ x.rem33 = 31)
    ∧ ((up.clu 47).rem32 ≠ 31 ∧ (up.clu 47).rem33 ≠ 31)
    ∧ (let x := (up.clu 47).dropRemount 31
       x.rem32 = 0x3F ∧ x.failed32 = false)
    ∧ (let x := ((up.modClu 47 fun x => { x with rem32 := 31 }).clu 47).dropRemount 31
       x.failed32 = true ∧ x.rem33 = 0x3F ∧ x.failed33 = false)
    ∧ (let x := ((up.modClu 47 fun x => { x with rem32 := 0, rem33 := 1 }).clu 47).dropRemount 31
       x.rem32 ≠ 0x3F ∧ x.rem33 ≠ 0x3F) := by decide +kernel

/-- The module has tripped and its plate has been cool for 60 s at time 60 s. -/
def tripped : State := { up with pwr := { up.pwr with trip := true }, heat := { up.heat with coolSince := some 0 } }

/-- A RESET entry of level k. -/
def resetEntry (k : Nat) : PrioEntry := prio 0xF004 (if k = 1 then 0 else 15) [(0, 2, k)]

theorem witness_Resets :
    (State.pwr { up with pwr := { up.pwr with switch := false } }).switch = false ∧ up.pwr.switch = true ∧ up.powered = true ∧ (7, 5) ∉ up.pwr.stageBad
    ∧ State.powered { up with pwr := { up.pwr with switch := false } } = false ∧ up.pwr.trip = false
    ∧ (tripped.powered = true ∧ tripped.pwr.trip = true ∧ (tripped.tick 59999999999).plateCool = false ∧ (tripped.tick 60000000000).plateCool = true)
    ∧ up.mc.resetNLow = false
    ∧ (serving (withPrio up (resetEntry 1)) (resetEntry 1) 0xF004 = true ∧ fld (resetEntry 1).hdr 160 2 = 1)
    ∧ (serving ((withPrio up (resetEntry 2)).tick 5) (resetEntry 2) 0xF004 = true ∧ fld (resetEntry 2).hdr 160 2 = 2)
    ∧ (serving ((withPrio up (resetEntry 3)).tick 5) (resetEntry 3) 0xF004 = true ∧ fld (resetEntry 3).hdr 160 2 = 3 ∧ up.mc.resetting = none)
    ∧ (serving ((withPrio tripped (resetEntry 3)).tick 5) (resetEntry 3) 0xF004 = true ∧ tripped.mc.resetting = none) := by decide +kernel

/-- Bring-up step n + 1 is under way. -/
def rising (n : Nat) (zeroed : Bool) : State := { up with mc := { up.mc with bringup := n, zeroDone := zeroed } }

/-- Whether an image verifies is open (log 10): the last clause has a premise that holds exactly when the empty image's signature does. -/
theorem witness_BringUp :
    up.bringReady = false ∧ ((List.range 13).all fun n => (rising (n + 1) false).bringReady) = true ∧ (rising 12 true).mc.zeroDone = true
    ∧ (rising 12 false).mc.zeroDone = false ∧ (rising 3 false).mgmt.pendingCfg = none
    ∧ ∀ b, Flash.init.imageOk b = Config.imageSignatureOk [] := by
  refine ⟨by decide, by decide, by decide, by decide, by decide, fun b => ?_⟩
  cases b <;> simp [Flash.imageOk, Flash.init, Flash.isRejected, Flash.image, Flash.secVersion]

theorem witness_Management :
    State.reset.busServed = false ∧ up.busServed = true ∧ up.romServed = true ∧ (1 : BitVec 16) ≠ up.mc.flash.vendorId ∧ (0 : BitVec 16) = up.mc.flash.vendorId
    ∧ (up.mgmt.update = none)
    ∧ (let s : State := { up with mgmt := { up.mgmt with update := some (1, [5]) } }
       s.romServed = true ∧ s.mgmt.update = some (1, [5]))
    ∧ (let s : State := { up with mgmt := { up.mgmt with update := some (2, [5]) } }
       s.romServed = true ∧ s.mgmt.update = some (2, [5])) := by decide +kernel

theorem witness_SpdmAndTestAccess :
    ((List.range 4).all fun n => State.busServed { up with mgmt := { up.mgmt with spdm := n } }) = true ∧ up.mgmt.spdm = 0
    ∧ (let s : State := { up with mgmt := { up.mgmt with spdm := 3, measured := [[5]] } }
       s.mgmt.spdm = 3 ∧ s.mgmt.measured[1 - 1]? = some [5])
    ∧ up.pwr.switch = true ∧ up.mc.testMode = false ∧ up.mc.resetNLow = false
    ∧ (let s : State := { up with mc := { up.mc with testMode := true, resetNLow := true } }
       s.pwr.switch = true ∧ s.mc.testMode = true ∧ s.mc.resetNLow = true) := by decide +kernel

/-! ### The queue -/

theorem witness_StepRunsFront : (State.pending { up with pending := [.idcode, .bypass] }) = [.idcode, .bypass] := by decide

theorem witness_StepIdle : State.reset.pending = [] := by decide

/-- The invariant of a state with empty memories and no records. -/
theorem witness_StepKeepsInv : State.Inv { State.reset with pending := [.bypass] } ∧ ∃ t, step { State.reset with pending := [.bypass] } = .next t := by
  refine ⟨⟨by decide, by decide, ?_, ?_, by decide, by decide, by decide, by decide, by decide⟩, ⟨_, rfl⟩⟩ <;> exact ⟨by decide, by decide⟩

end Sys2Proof.Tests
end

namespace Sys2Proof.Machine

open Sys2Proof Sys2Proof.Claims

/-! ### What reads and writes of the registers do (00 R4 to R8)

A read runs `clearLow` and `clearHigh` on the state; a write runs `writeReg`. The lemmas say once what these leave as it was, then what each command does
in each of its cases. -/

section

variable {s : State}

/-! The fields that a read clears -/

@[simp] theorem State.clearLow_out (s : State) (r : Reg) : (s.clearLow r).out = s.out := by cases r <;> rfl
@[simp] theorem State.clearLow_mem (s : State) (r : Reg) : (s.clearLow r).mem = s.mem := by cases r <;> rfl
@[simp] theorem State.clearLow_cores (s : State) (r : Reg) : (s.clearLow r).cores = s.cores := by cases r <;> rfl
@[simp] theorem State.clearLow_legs (s : State) (r : Reg) : (s.clearLow r).legs = s.legs := by cases r <;> rfl
@[simp] theorem State.clearLow_host (s : State) (r : Reg) : (s.clearLow r).host = s.host := by cases r <;> rfl
@[simp] theorem State.clearLow_bringup (s : State) (r : Reg) : (s.clearLow r).mc.bringup = s.mc.bringup := by cases r <;> rfl
@[simp] theorem State.clearHigh_out (s : State) (r : Reg) : (s.clearHigh r).out = s.out := by cases r <;> rfl
@[simp] theorem State.clearHigh_mem (s : State) (r : Reg) : (s.clearHigh r).mem = s.mem := by cases r <;> rfl
@[simp] theorem State.clearHigh_cores (s : State) (r : Reg) : (s.clearHigh r).cores = s.cores := by cases r <;> rfl
@[simp] theorem State.clearHigh_legs (s : State) (r : Reg) : (s.clearHigh r).legs = s.legs := by cases r <;> rfl
@[simp] theorem State.clearHigh_host (s : State) (r : Reg) : (s.clearHigh r).host = s.host := by cases r <;> rfl
@[simp] theorem State.clearHigh_bringup (s : State) (r : Reg) : (s.clearHigh r).mc.bringup = s.mc.bringup := by cases r <;> rfl

/-- No register shows what the module has sent. -/
@[simp] theorem State.regFields_emit (s : State) (o : Output) (r : Reg) : (s.emit o).regFields r = s.regFields r := by cases r <;> rfl

/-- A field after a read of its register. -/
def Reg.fieldAfterRead (r : Reg) (f : Nat × Nat × Nat) : Nat × Nat × Nat := if (f.1, f.2.1) ∈ rcFields r then (f.1, f.2.1, 0) else f

/-- The counters of a context after they are changed. -/
@[simp] theorem State.cx_modCtxCnt_self (s : State) (c : Nat) (f : CtxCnt → CtxCnt) :
    (s.modCtxCnt c f).cx c = { s.cx c with cnt := f (s.cx c).cnt } := State.cx_modCx_self ..

/-- The counters of a cluster after they are changed. -/
@[simp] theorem State.clu_modCnt_self (s : State) (c : Nat) (f : ClCnt → ClCnt) :
    (s.modCnt c f).clu c = { s.clu c with cnt := f (s.clu c).cnt } := State.clu_modClu_self ..

/-- A change of a port that keeps its dateline field keeps where the dateline lies. -/
theorem State.isDateline_modPort (s : State) (p : Nat) (f : Port → Port) (h : (f (s.port p)).dateline = (s.port p).dateline) :
    (s.modPort p f).isDateline p = s.isDateline p := by
  simp only [State.isDateline, State.port_modPort_self, h]
  rfl

/-- A register without RC fields is read without effect. -/
theorem State.clear_of_rcFields_nil (s : State) {r : Reg} (h : rcFields r = []) : (s.clearLow r).clearHigh r = s := by
  cases r <;> simp_all [rcFields, State.clearLow, State.clearHigh]

theorem Reg.fieldAfterRead_of_rcFields_nil {r : Reg} (h : rcFields r = []) : r.fieldAfterRead = id := by
  funext f
  simp [Reg.fieldAfterRead, h]

/-- A read clears the RC fields of its register and leaves its others. -/
theorem State.regFields_clear (s : State) (r : Reg) : ((s.clearLow r).clearHigh r).regFields r = (s.regFields r).map r.fieldAfterRead := by
  by_cases h : rcFields r = []
  · rw [s.clear_of_rcFields_nil h, Reg.fieldAfterRead_of_rcFields_nil h, List.map_id]
  cases r
  case mcStatus | tgBeat | shedstat | fabricCfg => rfl
  case lscale | stashstat | caravan | fetchstat =>
    simp [State.regFields, State.clearLow, State.clearHigh, Reg.fieldAfterRead, rcFields, satFld]
  case dispStatus | cvtNan | accStatus | rowengCnt | pressStat =>
    simp [State.regFields, State.clearLow, State.clearHigh, Reg.fieldAfterRead, rcFields, Cluster.wellHalt]
  case portStat | stackStat | chanStat =>
    simp [State.regFields, State.clearLow, State.clearHigh, Reg.fieldAfterRead, rcFields, Port.lanes, State.isDateline_modPort]
  all_goals exact absurd rfl h

/-! The halves of a register -/

theorem low_half (v : DWord) : v &&& 0xFFFFFFFF#64 = BitVec.ofNat 64 (v.toNat % 2 ^ 32) := by
  refine BitVec.eq_of_toNat_eq ?_
  have mask : (0xFFFFFFFF#64).toNat = 2 ^ 32 - 1 := rfl
  rw [BitVec.toNat_and, mask, Nat.and_two_pow_sub_one_eq_mod, BitVec.toNat_ofNat]
  omega

theorem high_half (v : DWord) : v >>> 32 = BitVec.ofNat 64 (v.toNat / 2 ^ 32) := by
  refine BitVec.eq_of_toNat_eq ?_
  rw [BitVec.toNat_ushiftRight, Nat.shiftRight_eq_div_pow, BitVec.toNat_ofNat]
  omega

theorem latched_half (v : DWord) : (v.extractLsb' 32 32).setWidth 64 = BitVec.ofNat 64 (v.toNat / 2 ^ 32) := by
  refine BitVec.eq_of_toNat_eq ?_
  rw [BitVec.toNat_setWidth, BitVec.extractLsb'_toNat, Nat.shiftRight_eq_div_pow, BitVec.toNat_ofNat]
  omega

/-! Which accesses are served -/

theorem State.barServes_of_le (h : 5 ≤ s.mc.bringup) : s.barServes = true := decide_eq_true h
theorem State.barServes_of_lt (h : s.mc.bringup < 5) : s.barServes = false := decide_eq_false (by omega)
theorem State.hostServes_iff (s : State) : s.hostServes = true ↔ 5 ≤ s.mc.bringup ∧ s.host.linkUp = true := by
  simp [State.hostServes, State.barServes]
theorem State.hostServes_of_le (hb : 5 ≤ s.mc.bringup) (hl : s.host.linkUp = true) : s.hostServes = true := s.hostServes_iff.2 ⟨hb, hl⟩

/-! Reads -/

variable {off : Nat} {r : Reg}

theorem exec_rcRead_of_hostServes (hs : s.hostServes = true) (hr : regAt (off / 8 * 8) = some r) :
    exec (.rcRead off) s = .next (((s.clearLow r).clearHigh r).emit (.barRead off (s.image r))) := by
  obtain ⟨hb, hl⟩ := s.hostServes_iff.1 hs
  simp [exec, execRcRead, State.readReg, State.barServes_of_le hb, hl, hr]

theorem exec_rcRead_of_unlisted (hs : s.hostServes = true) (hr : regAt (off / 8 * 8) = none) :
    exec (.rcRead off) s = .next (s.emit (.barRead off 0)) := by
  obtain ⟨hb, hl⟩ := s.hostServes_iff.1 hs
  simp [exec, execRcRead, State.readReg, State.barServes_of_le hb, hl, hr]

/-- The low half is answered, the high half latched, and the RC fields of both are cleared. -/
theorem exec_lowHalfRead_of_hostServes (hs : s.hostServes = true) (hr : regAt (off / 8 * 8) = some r) :
    exec (.lowHalfRead off) s
      = .next ((((s.clearLow r).clearHigh r).setLatch (off / 8 * 8) (some ((s.image r).extractLsb' 32 32))).emit
          (.barRead off (s.image r &&& 0xFFFFFFFF#64))) := by
  obtain ⟨hb, hl⟩ := s.hostServes_iff.1 hs
  simp [exec, execLowHalfRead, State.readReg, State.barServes_of_le hb, hl, hr]

theorem exec_highHalfRead_of_latched {w : Word} (hs : s.hostServes = true) (hw : tget none s.host.latch (off / 8 * 8) = some w) :
    exec (.highHalfRead off) s = .next ((s.setLatch (off / 8 * 8) none).emit (.barRead off (w.setWidth 64))) := by
  obtain ⟨hb, hl⟩ := s.hostServes_iff.1 hs
  simp [exec, execHighHalfRead, State.barServes_of_le hb, hl, hw]

theorem exec_highHalfRead_of_not_latched (hs : s.hostServes = true) (hr : regAt (off / 8 * 8) = some r)
    (hw : tget none s.host.latch (off / 8 * 8) = none) :
    exec (.highHalfRead off) s = .next ((s.clearHigh r).emit (.barRead off (s.image r >>> 32))) := by
  obtain ⟨hb, hl⟩ := s.hostServes_iff.1 hs
  simp [exec, execHighHalfRead, State.barServes_of_le hb, hl, hr, hw]

/-- Before bring-up step 5 every kind of read returns 0 (13 R443). -/
theorem exec_read_of_bringup_lt (hb : s.mc.bringup < 5) {i : Instr} (hi : i ∈ ([.rcRead off, .lowHalfRead off, .highHalfRead off] : List Instr)) :
    exec i s = .next (s.emit (.barRead off 0)) := by
  have hb := State.barServes_of_lt hb
  simp only [List.mem_cons, List.not_mem_nil, or_false] at hi
  obtain rfl | rfl | rfl := hi
  · simp [exec, execRcRead, hb]
  · simp [exec, execLowHalfRead, hb]
  · simp [exec, execHighHalfRead, hb]

/-- With the host link down no kind of read arrives (01 R20, 11 R374). -/
theorem exec_read_of_linkDown (hb : 5 ≤ s.mc.bringup) (hl : s.host.linkUp = false) {i : Instr}
    (hi : i ∈ ([.rcRead off, .lowHalfRead off, .highHalfRead off] : List Instr)) : exec i s = .next s := by
  have hb := State.barServes_of_le hb
  simp only [List.mem_cons, List.not_mem_nil, or_false] at hi
  obtain rfl | rfl | rfl := hi
  · simp [exec, execRcRead, hb, hl]
  · simp [exec, execLowHalfRead, hb, hl]
  · simp [exec, execHighHalfRead, hb, hl]

/-- A read of a low half, then of the high half at the same offset, returns both halves of the value that the register had before the first (00 R8). -/
theorem lowHalfRead_then_highHalfRead (hs : s.hostServes = true) (hr : regAt (off / 8 * 8) = some r) :
    ∃ t u : State, exec (.lowHalfRead off) s = .next t ∧ t.out = s.out ++ [.barRead off (BitVec.ofNat 64 ((s.image r).toNat % 2 ^ 32))]
      ∧ exec (.highHalfRead off) t = .next u ∧ u.out = t.out ++ [.barRead off (BitVec.ofNat 64 ((s.image r).toNat / 2 ^ 32))] := by
  refine ⟨_, _, exec_lowHalfRead_of_hostServes hs hr, ?_, exec_highHalfRead_of_latched (w := (s.image r).extractLsb' 32 32) ?_ ?_, ?_⟩
  · simp [State.setLatch, low_half]
  · simpa [State.setLatch, State.hostServes, State.barServes] using hs
  · simp [State.setLatch, tget_tset]
  · simp [State.setLatch, latched_half]

/-- RC_READ, LOW_HALF_READ and HIGH_HALF_READ. -/
theorem registerReads : RegisterReads := by
  intro s off
  refine ⟨fun hb hl r hr => ?_, fun hb hl => exec_rcRead_of_unlisted (State.hostServes_of_le hb hl), fun hb i => exec_read_of_bringup_lt hb,
    fun hb hl i => exec_read_of_linkDown hb hl, fun hb hl r hr hw => ?_⟩
  · have hs := State.hostServes_of_le hb hl
    refine ⟨⟨_, exec_rcRead_of_hostServes hs hr, by simp [State.image], ?_, by simp, by simp, by simp⟩, lowHalfRead_then_highHalfRead hs hr⟩
    exact (State.regFields_emit ..).trans (s.regFields_clear r)
  · exact ⟨_, exec_highHalfRead_of_not_latched (State.hostServes_of_le hb hl) hr hw, by simp [high_half], by simp⟩

/-! Writes -/

variable {v : DWord} {a : Access}

theorem State.writeReg_of_readOnly (s : State) (h : readOnly r) (v : DWord) (t : Nat) : s.writeReg r v t = s := by
  cases r <;> simp only [readOnly] at h <;> rfl

theorem State.barWrite_of_not_hostServes (h : s.hostServes = false) (t : Nat) : s.barWrite off a v t = s := by
  unfold State.barWrite
  split <;> simp [h]

theorem State.barWrite_of_unlisted (s : State) (h : regAt (off / 8 * 8) = none) (t : Nat) : s.barWrite off a v t = s := by
  simp [State.barWrite, h]

theorem State.barWrite_of_readOnly (s : State) (hr : regAt (off / 8 * 8) = some r) (h : readOnly r) (t : Nat) : s.barWrite off a v t = s := by
  simp [State.barWrite, hr, State.writeReg_of_readOnly s h]

/-- A served write of 64 bits. -/
theorem State.barWrite_full (hs : s.hostServes = true) (hr : regAt (off / 8 * 8) = some r) (t : Nat) :
    s.barWrite off .full v t = s.writeReg r v t := by
  simp [State.barWrite, hs, hr, widen]

/-- The writes that change nothing (00 R5, 01 R20, 11 R374, 13 R443). -/
theorem exec_registerWrite_ignored
    (h : s.mc.bringup < 5 ∨ s.host.linkUp = false ∨ regAt (off / 8 * 8) = none ∨ ∃ r, regAt (off / 8 * 8) = some r ∧ readOnly r) :
    exec (.registerWrite off a v) s = .next s := by
  suffices s.barWrite off a v s.now = s from congrArg _ this
  obtain hb | hl | hr | ⟨r, hr, ho⟩ := h
  · exact State.barWrite_of_not_hostServes (by simp [State.hostServes, State.barServes_of_lt hb]) _
  · exact State.barWrite_of_not_hostServes (by simp [State.hostServes, hl]) _
  · exact s.barWrite_of_unlisted hr _
  · exact s.barWrite_of_readOnly hr ho _

theorem exec_registerWrite_full (hs : s.hostServes = true) (hr : regAt (off / 8 * 8) = some r) :
    exec (.registerWrite off .full v) s = .next (s.writeReg r v s.now) := congrArg _ (State.barWrite_full hs hr _)

/-! A reserved encoding leaves its field as it was (00 R6). -/

theorem keepUnless_decide (p : Prop) [Decidable p] (old new : Nat) : keepUnless (decide p) old new = if p then new else old := by
  by_cases h : p <;> simp [keepUnless, h]

theorem keepUnless_le (x y old new : Nat) : keepUnless (decide (x ≤ y)) old new = if y < x then old else new := by
  by_cases h : x ≤ y <;> simp [keepUnless, h, Nat.not_lt.2, Nat.lt_of_not_le]

theorem keepUnless_bne (x y old new : Nat) : keepUnless (x != y) old new = if x = y then old else new := by
  by_cases h : x = y <;> simp [keepUnless, h]

/-- A served write of TG_CFG (10 Table 10-11): its fields as written, a reserved value left out, and the lease timer set where the lease changes (R341). -/
theorem exec_leaseSWrite_full (hs : s.hostServes = true) (t : Nat) :
    ∃ u : State, exec (.leaseSWrite .full v t) s = .next u.react ∧ u.tg.cfg.lease = fld v 32 16
      ∧ u.tg.setAt = (if fld v 32 16 = s.tg.cfg.lease then s.tg.setAt else t) ∧ u.tg.cfg.slot = fld v 6 6 ∧ u.tg.cfg.slotEn = v.getLsbD 4
      ∧ u.tg.cfg.envSrc = (if fld v 0 2 = 3 then s.tg.cfg.envSrc else fld v 0 2) ∧ u.tg.cfg.ramp = (if fld v 16 16 < 10 then s.tg.cfg.ramp else fld v 16 16)
      ∧ u.tg.cfg.fallback = (if 3300 < fld v 48 16 then s.tg.cfg.fallback else fld v 48 16) ∧ u.tg.allowance = s.tg.allowance ∧ u.mem = s.mem := by
  have hs' : (s.tick t).hostServes = true := hs
  have hr : regAt (0x20000 / 8 * 8) = some .tgCfg := by decide
  refine ⟨_, congrArg _ (State.barWrite_full hs' hr t), rfl, rfl, rfl, rfl, keepUnless_bne .., keepUnless_le .., keepUnless_le .., rfl, rfl⟩

/-- A served write of CEL_CFG (06 Table 6-13). -/
theorem State.writeReg_celCfg (s : State) (v : DWord) (t : Nat) :
    let u := s.writeReg .celCfg v t
    u.cel.keepCap = (if fld v 0 4 ≤ 12 then fld v 0 4 else s.cel.keepCap) ∧ u.cel.thrashEn = v.getLsbD 4 ∧ u.cel.thrashWarn = v.getLsbD 5
      ∧ u.cel.pressWaitMs = (if fld v 16 16 = 0 then s.cel.pressWaitMs else fld v 16 16) ∧ { u with cel := s.cel } = s :=
  ⟨keepUnless_decide .., rfl, rfl, keepUnless_bne .., rfl⟩

theorem State.writeReg_ringCfg (s : State) (n : Nat) (h : fld v 0 4 ≠ 0) (t : Nat) :
    s.writeReg (.ringCfg n) v t = s.modRing n fun x => { x with weight := fld v 0 4, irqCount := fld v 8 8, irqDelay := fld v 16 16 } := by
  simp [State.writeReg, keepUnless, h]

/-- The window written while it was in use takes effect (07 R252). -/
theorem exec_tier3WindowApply_of_unmapped {b n : Nat} (hp : s.host.t3Pending = some (b, n)) (hm : s.mapsTier3 = false) :
    exec .tier3WindowApply s = .next { s with host := { s.host with t3Base := b, t3Size := n, t3Pending := none } } := by
  simp [exec, execTier3WindowApply, hp, hm]

/-- The window stands while a context maps a tier-3 range (07 R252). -/
theorem exec_tier3WindowApply_of_mapped (hm : s.mapsTier3 = true) : exec .tier3WindowApply s = .next s := by
  simp only [exec, execTier3WindowApply, hm]
  split <;> rfl

/-- REGISTER_WRITE, LEASE_S_WRITE and TIER3_WINDOW_APPLY. -/
theorem registerWrites : RegisterWrites := by
  intro s off v a
  refine ⟨exec_registerWrite_ignored, fun hb hl => ?_, fun t hb hl => exec_leaseSWrite_full (State.hostServes_of_le hb hl) t,
    fun b n => exec_tier3WindowApply_of_unmapped, exec_tier3WindowApply_of_mapped⟩
  have write {r : Reg} (hr : regAt (off / 8 * 8) = some r) := exec_registerWrite_full (v := v) (State.hostServes_of_le hb hl) hr
  refine ⟨fun c hr => write hr, fun c hr => write hr, fun c hr => write hr, fun n hr hw => ?_, fun ho => ?_, fun hr => ⟨_, write hr, s.writeReg_celCfg v s.now⟩⟩
  · rw [write hr, s.writeReg_ringCfg n hw]
  · exact write (r := .eventCfg) (by rw [ho]; decide)

end

/-- Settles O36: a read answers the register's image and clears its RC fields only, and a write sets the writable fields of its register. -/
theorem registerAccess : Obligations.RegisterAccess := ⟨registerReads, registerWrites⟩

end Sys2Proof.Machine

namespace Sys2Proof.Machine

open Sys2Proof Sys2Proof.Claims

/-! ### What a report leaves as it was (11 R387, 12 R412)

Events, fault records and the replacement request write outputs, host memory, rings and the MC's own records; nothing else of the block. -/

/-- State t is s after reports: it may differ in outputs, memories, the host interface and the MC's records. -/
def Reported (s t : State) : Prop := ∃ (o : List Output) (m : Mems) (h : HostIf) (c : Mc), t = { s with out := o, mem := m, host := h, mc := c }

section

variable {s t u : State}

theorem Reported.refl (s : State) : Reported s s := ⟨_, _, _, _, rfl⟩

theorem Reported.trans (h : Reported s t) (h' : Reported t u) : Reported s u := by
  obtain ⟨_, _, _, _, rfl⟩ := h
  obtain ⟨_, _, _, _, rfl⟩ := h'
  exact ⟨_, _, _, _, rfl⟩

theorem Reported.tg (h : Reported s t) : t.tg = s.tg := by obtain ⟨_, _, _, _, rfl⟩ := h; rfl
theorem Reported.fab (h : Reported s t) : t.fab = s.fab := by obtain ⟨_, _, _, _, rfl⟩ := h; rfl
theorem Reported.cel (h : Reported s t) : t.cel = s.cel := by obtain ⟨_, _, _, _, rfl⟩ := h; rfl
theorem Reported.clu (h : Reported s t) (k : Nat) : t.clu k = s.clu k := by obtain ⟨_, _, _, _, rfl⟩ := h; rfl
theorem Reported.col (h : Reported s t) (k : Nat) : t.col k = s.col k := by obtain ⟨_, _, _, _, rfl⟩ := h; rfl

theorem State.irq_eq (s : State) (n : Nat) (ev now : Bool) : ∃ o h, s.irq n ev now = { s with out := o, host := h } := by
  unfold State.irq
  extract_lets g r
  split
  · exact ⟨_, _, rfl⟩
  split
  · split <;> exact ⟨_, _, rfl⟩
  · exact ⟨_, _, rfl⟩

theorem State.postReceipt_eq (s : State) (n : Nat) (r : BitVec 256) (irqNow : Bool) :
    ∃ o m h, s.postReceipt n r irqNow = { s with out := o, mem := m, host := h } := by
  unfold State.postReceipt
  extract_lets g a w v
  split
  · exact ⟨_, _, _, rfl⟩
  split
  · exact ⟨_, _, _, rfl⟩
  obtain ⟨o, h, e⟩ := v.irq_eq n (isEvent r) irqNow
  exact ⟨o, w.mem, h, e⟩

theorem State.postEvent_eq (s : State) (r : BitVec 256) :
    ∃ o m h n, s.postEvent r = { s with out := o, mem := m, host := h, mc := { s.mc with eventsLost := n } } := by
  unfold State.postEvent
  extract_lets n isOpen
  clear_value isOpen
  split
  · obtain ⟨o, m, h, e⟩ := s.postReceipt_eq n (r ||| BitVec.ofNat 256 (2 ^ 56 * n)) false
    exact ⟨o, m, h, _, e⟩
  · cases isOpen <;> exact ⟨_, _, _, _, rfl⟩

/-- Of the MC's records an event changes none but the count of lost events (11 R387). -/
theorem State.event_eq (s : State) (code ctx detail : Nat) :
    ∃ o m h n, s.event code ctx detail = { s with out := o, mem := m, host := h, mc := { s.mc with eventsLost := n } } := by
  unfold State.event
  split
  · exact s.postEvent_eq _
  · exact ⟨_, _, _, _, rfl⟩

theorem State.event_reported (s : State) (code ctx detail : Nat) : Reported s (s.event code ctx detail) := by
  obtain ⟨o, m, h, n, e⟩ := s.event_eq code ctx detail
  exact ⟨o, m, h, _, e⟩

@[simp] theorem State.event_repairMap (s : State) (code ctx detail : Nat) : (s.event code ctx detail).mc.repairMap = s.mc.repairMap := by
  obtain ⟨o, m, h, n, e⟩ := s.event_eq code ctx detail
  rw [e]

theorem State.setService_reported (s : State) (b : Bool) : Reported s (s.setService b) := by
  unfold State.setService
  split <;> exact ⟨_, _, _, _, rfl⟩

theorem State.setCauses_reported (s : State) (l : List Nat) : Reported s (s.setCauses l) := by
  unfold State.setCauses
  extract_lets c
  split
  · exact Reported.refl s
  split <;> exact ⟨_, _, _, _, rfl⟩

theorem State.service_reported (s : State) (cause : Nat) : Reported s (s.service cause) :=
  Reported.trans (Reported.trans (Reported.trans ⟨_, _, _, _, rfl⟩ (State.setService_reported ..)) (State.setCauses_reported ..)) (State.event_reported ..)

theorem State.fault_reported (s : State) (kind outcome ctx unit sub spare detail cause : Nat) :
    Reported s (s.fault kind outcome ctx unit sub spare detail cause) := by
  unfold State.fault
  extract_lets step f lastN mc recorded told
  have h : Reported s told := Reported.trans ⟨_, _, _, _, rfl⟩ (recorded.event_reported ..)
  split
  · exact h
  · exact h.trans (State.service_reported ..)

theorem State.retire_reported (s : State) (l : List Repair) (kind outcome ctx unit sub spare detail cause : Nat) :
    Reported s (s.retire l kind outcome ctx unit sub spare detail cause) := by
  unfold State.retire
  extract_lets full told
  have h : Reported s told := Reported.trans ⟨_, _, _, _, rfl⟩ ((s.repairNote l).fault_reported ..)
  split
  · exact h.trans (State.service_reported ..)
  · exact h

/-- A fault that names no cause leaves the repair map to what it retires (12 R421). -/
theorem State.fault_repairMap_of_no_cause (s : State) (kind outcome ctx unit sub spare detail : Nat) :
    (s.fault kind outcome ctx unit sub spare detail 0).mc.repairMap = s.mc.repairMap := by
  simp [State.fault]

/-- A retirement is entered in the repair map while it has room (12 R421). -/
theorem State.retire_repairMap (s : State) (l : List Repair) (h : s.mc.repairMap.length + l.length ≤ 16384) (kind outcome ctx unit sub spare detail : Nat) :
    (s.retire l kind outcome ctx unit sub spare detail 0).mc.repairMap = s.mc.repairMap ++ l := by
  have notFull : ¬ 16384 < s.mc.repairMap.length + l.length := by omega
  simp [State.retire, notFull, State.fault_repairMap_of_no_cause, State.repairNote, List.take_of_length_le (show l.length ≤ 16384 - s.mc.repairMap.length by omega)]

end

/-! ### Retrims of the vertical channels (06 R165, R166; 01 R23) -/

section

variable {s : State} {k margin t : Nat} {l : List (Bool × Nat)}

@[simp] theorem State.col_tick (s : State) (t k : Nat) : (s.tick t).col k = s.col k := rfl
@[simp] theorem State.clu_tick (s : State) (t k : Nat) : (s.tick t).clu k = s.clu k := rfl

theorem State.canRetrim_iff (s : State) (k : Nat) : s.canRetrim k = true ↔ s.cel.trained = true ∧ s.bringupDone = true ∧ s.mc.coreAlive.getD 2 false = true
    ∧ (s.col k).retrim = false ∧ (s.col k).failed = false ∧ (s.col k).leftMap = false := by
  simp only [State.canRetrim, Bool.and_eq_true, Bool.not_eq_true', and_assoc]

/-- New trims change nothing else of a column (log 113), and no other column. -/
theorem State.newTrims_col (s : State) (k j : Nat) : ∃ trims, (s.newTrims k).col j = { s.col j with trims := trims } := by
  unfold State.newTrims
  rw [State.col_modCol]
  split
  case isTrue h => exact h ▸ ⟨_, rfl⟩
  case isFalse => exact ⟨_, rfl⟩

theorem State.newTrims_col_of_ne (s : State) {k j : Nat} (h : j ≠ k) : (s.newTrims k).col j = s.col j := State.col_modCol_of_ne _ h _

/-- A retrim that finds no failing coupler (06 R165). -/
theorem State.startRetrim_of_no_failing (s : State) (k : Nat) (h : margin < 3 → l = []) :
    s.startRetrim k margin l = (s.newTrims k).modCol k fun x => { x with retrim := true, retrimDue := none, margin := min margin 31 } := by
  have none_fails : (if margin < 3 then l else []) = [] := by
    split
    case isTrue low => exact h low
    case isFalse => rfl
  simp [State.startRetrim, none_fails]

/-- A coupler of a channel that carries traffic, with a spare left for it, waits for its remap (06 R166). -/
theorem State.couplerFails_of_spare {up : Bool} {coupler : Nat} (hfailed : (s.col k).failed = false) (hleaving : (s.col k).leaving = false)
    (hfailing : (s.col k).failing = []) (hspare : (s.col k).spares up < 16) :
    s.couplerFails k up coupler = s.modCol k fun x => { x with failing := x.failing ++ [(up, coupler)] } := by
  simp [State.couplerFails, hfailed, hleaving, hfailing, hspare]

theorem exec_channelRetrim_of_free (ht : t % 2000000000 = k % 64 * 31250000) (hc : (s.tick t).canRetrim k = true) (hf : (s.tick t).retrimFree k = true) :
    exec (.channelRetrim k margin l t) s = .next ((s.tick t).startRetrim k margin l) := by
  simp [exec, execChannelRetrim, ht, hc, State.dueRetrim, hf]

theorem exec_channelRetrim_of_not_free (ht : t % 2000000000 = k % 64 * 31250000) (hc : (s.tick t).canRetrim k = true) (hf : (s.tick t).retrimFree k = false) :
    exec (.channelRetrim k margin l t) s = .next ((s.tick t).modCol k fun x => { x with retrimDue := some (margin, l) }) := by
  simp [exec, execChannelRetrim, ht, hc, State.dueRetrim, hf]

theorem exec_channelRetrim_of_not_due (ht : t % 2000000000 ≠ k % 64 * 31250000) : exec (.channelRetrim k margin l t) s = .next (s.tick t) := by
  simp [exec, execChannelRetrim, ht]

/-- A retrim that leaves one coupler below 3 taps: the channel pauses, and the coupler waits for its remap (06 R166). -/
theorem State.startRetrim_failing {up : Bool} {coupler : Nat} (hfailed : (s.col k).failed = false) (hleaving : (s.col k).leaving = false)
    (hfailing : (s.col k).failing = []) (hspare : (s.col k).spares up < 16) (hm : margin < 3) :
    let u := s.startRetrim k margin [(up, coupler)]
    (u.col k).retrim = true ∧ (u.col k).margin = margin ∧ (u.col k).failing = [(up, coupler)] ∧ ∀ j, j ≠ k → u.col j = s.col j := by
  let w := (s.newTrims k).modCol k fun x => { x with retrim := true, retrimDue := none, margin := min margin 31 }
  obtain ⟨trims, htrims⟩ := s.newTrims_col k k
  have hw : w.col k = { s.col k with trims := trims, retrim := true, retrimDue := none, margin := min margin 31 } := by
    simp only [w, State.col_modCol_self, htrims]
  have step : s.startRetrim k margin [(up, coupler)] = w.modCol k fun x => { x with failing := x.failing ++ [(up, coupler)] } := by
    simp only [State.startRetrim, hm, if_true, List.foldl_cons, List.foldl_nil]
    exact State.couplerFails_of_spare (hw ▸ hfailed) (hw ▸ hleaving) (hw ▸ hfailing) (hw ▸ hspare)
  intro u
  have hu : u.col k = { w.col k with failing := (w.col k).failing ++ [(up, coupler)] } := by simp only [u, step, State.col_modCol_self]
  rw [hw] at hu
  refine ⟨by rw [hu], by rw [hu]; exact Nat.min_eq_left (by omega), by rw [hu, hfailing]; rfl, fun j hj => ?_⟩
  simp only [u, step]
  rw [State.col_modCol_of_ne _ hj, State.col_modCol_of_ne _ hj, State.newTrims_col_of_ne _ hj]

/-- A change of a channel that keeps what it says of its retrim keeps when the retrims of a cluster may run. -/
theorem State.retrimFree_modCol (s : State) (k : Nat) {f : Column → Column} (hf : (f (s.col k)).retrim = (s.col k).retrim) (j : Nat) :
    (s.modCol k f).retrimFree j = s.retrimFree j := by
  have kept (i : Nat) : ((s.modCol k f).col i).retrim = (s.col i).retrim := by
    rw [State.col_modCol]
    split
    case isTrue h => rw [h, hf]
    case isFalse => rfl
  simp only [State.retrimFree, State.retrimming, kept]
  rfl

theorem exec_unscheduledRetrim {before : Nat} (hc : (s.tick t).canRetrim k = true) (hb : before < 6) :
    exec (.unscheduledRetrim k before margin l t) s
      = .next (((s.tick t).modCol k fun x => { x with extraRetrims := satAdd 0xFFFF x.extraRetrims 1, margin := before }).dueRetrim k margin l) := by
  simp [exec, execUnscheduledRetrim, hc, show ¬ 6 ≤ before by omega]

theorem exec_unscheduledRetrim_of_margin {before : Nat} (hb : 6 ≤ before) : exec (.unscheduledRetrim k before margin l t) s = .next (s.tick t) := by
  simp [exec, execUnscheduledRetrim, hb]

/-- What a retrim that is due does to the columns and leaves of the memories, where no coupler fails. -/
theorem State.dueRetrim_of_no_failing (s : State) (k : Nat) (hr : (s.col k).retrim = false) (hl : margin < 3 → l = []) :
    let u := s.dueRetrim k margin l
    (∀ j, j ≠ k → u.col j = s.col j) ∧ u.mem = s.mem ∧ (u.col k).extraRetrims = (s.col k).extraRetrims
      ∧ (s.retrimFree k = true → (u.col k).retrim = true ∧ (u.col k).margin = min margin 31)
      ∧ (s.retrimFree k = false → (u.col k).retrim = false ∧ (u.col k).margin = (s.col k).margin ∧ (u.col k).retrimDue = some (margin, l)) := by
  unfold State.dueRetrim
  split
  case isTrue free =>
    obtain ⟨trims, htrims⟩ := s.newTrims_col k k
    rw [State.startRetrim_of_no_failing s k hl]
    intro u
    have hu : u.col k = { s.col k with trims := trims, retrim := true, retrimDue := none, margin := min margin 31 } := by
      simp only [u, State.col_modCol_self, htrims]
    refine ⟨fun j hj => ?_, rfl, by rw [hu], fun _ => ⟨by rw [hu], by rw [hu]⟩, fun busy => absurd free (by simp [busy])⟩
    simp only [u]
    rw [State.col_modCol_of_ne _ hj, State.newTrims_col_of_ne _ hj]
  case isFalse busy =>
    intro u
    have hu : u.col k = { s.col k with retrimDue := some (margin, l) } := State.col_modCol_self ..
    rw [hu]
    exact ⟨fun j hj => State.col_modCol_of_ne _ hj _, rfl, rfl, fun h => absurd h busy, fun _ => ⟨hr, rfl, rfl⟩⟩

theorem State.startDue_of_none (s : State) (cl : Nat) (h : ∀ i < 32, (s.col (cl * 32 + i)).retrimDue = none) : s.startDue cl = s := by
  have none_due : (((List.range 32).map fun i => cl * 32 + i).find? fun k => (s.col k).retrimDue.isSome && s.canRetrim k) = none := by
    simp +contextual [h]
  simp [State.startDue, none_due]

/-- The lowest channel of a cluster whose retrim is due starts it (01 R23). -/
theorem State.startDue_of_lowest (s : State) (cl : Nat) {i m : Nat} {f : List (Bool × Nat)} (hi : i < 32)
    (hdue : (s.col (cl * 32 + i)).retrimDue = some (m, f)) (hlow : ∀ j < i, (s.col (cl * 32 + j)).retrimDue = none)
    (hcan : s.canRetrim (cl * 32 + i) = true) (hfree : s.retrimFree (cl * 32 + i) = true) : s.startDue cl = s.startRetrim (cl * 32 + i) m f := by
  have first : (((List.range 32).map fun i => cl * 32 + i).find? fun k => (s.col k).retrimDue.isSome && s.canRetrim k) = some (cl * 32 + i) := by
    rw [List.find?_map, List.find?_range_eq_some.2 ⟨by simp [hdue, hcan], List.mem_range.2 hi, fun j hj => by simp [hlow j hj]⟩]
    rfl
  simp [State.startDue, first, hdue, hfree]

/-- CHANNEL_RETRIM, UNSCHEDULED_RETRIM and RETRIM_COMPLETE. -/
theorem retrims : Retrims := by
  refine ⟨fun s k margin t l ht hc => ⟨fun hf hl => ?_, exec_channelRetrim_of_not_free ht hc, fun up coupler hf hm hl hfailing hevac hspare => ?_⟩,
    fun s k margin t l => exec_channelRetrim_of_not_due, fun s k before margin t l hc hb hl => ?_, fun s k before margin t l => exec_unscheduledRetrim_of_margin,
    fun s u k t hu => ⟨fun hnone => ?_, fun i m f hi hdue hlow hcan hfree => ?_⟩⟩
  · rw [exec_channelRetrim_of_free ht hc hf, State.startRetrim_of_no_failing _ _ hl]
  · obtain ⟨-, -, -, -, hfailed, hleft⟩ := (State.canRetrim_iff ..).1 hc
    subst hl
    exact ⟨_, exec_channelRetrim_of_free ht hc hf,
      State.startRetrim_failing (s := s.tick t) hfailed (by simp only [Column.leaving, hleft]; exact hevac) hfailing hspare hm⟩
  · obtain ⟨-, -, -, hr, -, -⟩ := (State.canRetrim_iff ..).1 hc
    let v := (s.tick t).modCol k fun x => { x with extraRetrims := satAdd 0xFFFF x.extraRetrims 1, margin := before }
    have hv : v.col k = { s.col k with extraRetrims := satAdd 0xFFFF (s.col k).extraRetrims 1, margin := before } := State.col_modCol_self ..
    have hfree : v.retrimFree k = (s.tick t).retrimFree k := State.retrimFree_modCol _ _ rfl k
    obtain ⟨others, mem, extra, free, busy⟩ := v.dueRetrim_of_no_failing k (hv ▸ hr) hl
    rw [hv] at extra busy
    rw [hfree] at free busy
    exact ⟨_, exec_unscheduledRetrim hc hb, extra, fun j hj => (others j hj).trans (State.col_modCol_of_ne _ hj _), mem, free, busy⟩
  · have due_kept (i : Nat) : (u.col i).retrimDue = (s.col i).retrimDue := by
      rw [hu, State.col_modCol]
      split
      case isTrue h => rw [h]; rfl
      case isFalse => rfl
    rw [← u.startDue_of_none (clusterOf k) fun i hi => (due_kept _).trans (hnone i hi), hu]
    rfl
  · rw [← u.startDue_of_lowest _ hi hdue hlow hcan hfree, hu]
    rfl

end

/-! ### Couplers and lines of a channel (06 R166, R167, R196) -/

section

variable {s : State} {k coupler t : Nat} {up : Bool}

/-- A failing coupler of a column remapped to the next spare of its direction (06 R196). -/
def Column.remapped (x : Column) (up : Bool) (coupler : Nat) : Column := { x with
  failing := x.failing.erase (up, coupler)
  couplerFails := x.couplerFails.filter fun f => !(f.1 == up && f.2.1 == coupler)
  upSpares := if up then x.upSpares + 1 else x.upSpares, downSpares := if up then x.downSpares else x.downSpares + 1 }

theorem State.remapCoupler_of_failing (h : (up, coupler) ∈ (s.col k).failing) : s.remapCoupler k up coupler
    = (s.modCol k fun x => x.remapped up coupler).retire [.coupler k up coupler] 0x05 1 (s.ownerCtx (clusterOf k)) k coupler ((s.col k).spares up) 0 0 := by
  have listed : (s.col k).failing.contains (up, coupler) = true := List.contains_iff_mem.2 h
  simp only [State.remapCoupler, listed, Bool.not_true, Bool.false_eq_true, if_false]
  rfl

theorem State.remapCoupler_of_not_failing (h : (up, coupler) ∉ (s.col k).failing) : s.remapCoupler k up coupler = s := by
  simp [State.remapCoupler, h]

theorem exec_couplerRemap_of_failing (h : (up, coupler) ∈ (s.col k).failing) :
    exec (.couplerRemap k up coupler) s = .next (s.remapCoupler k up coupler).endPause := by
  simp [exec, execCouplerRemap, h]

/-- COUPLER_REMAP. -/
theorem couplerRemaps (s : State) (k coupler : Nat) (up : Bool) (h : (up, coupler) ∈ (s.col k).failing) :
    ∃ u v : State, exec (.couplerRemap k up coupler) s = .next v.endPause
      ∧ v = u.retire [.coupler k up coupler] 0x05 1 (s.ownerCtx (clusterOf k)) k coupler (if up then (s.col k).upSpares else (s.col k).downSpares) 0 0
      ∧ (s.mc.repairMap.length < 16384 → v.mc.repairMap = s.mc.repairMap ++ [.coupler k up coupler])
      ∧ (u.col k).failing = (s.col k).failing.erase (up, coupler)
      ∧ (u.col k).upSpares = (s.col k).upSpares + (if up then 1 else 0) ∧ (u.col k).downSpares = (s.col k).downSpares + (if up then 0 else 1)
      ∧ u.mem = s.mem := by
  have hu : (s.modCol k fun x => x.remapped up coupler).col k = (s.col k).remapped up coupler := State.col_modCol_self ..
  refine ⟨s.modCol k fun x => x.remapped up coupler, s.remapCoupler k up coupler, exec_couplerRemap_of_failing h, State.remapCoupler_of_failing h,
    fun room => ?_, ?_, ?_, ?_, rfl⟩
  · rw [State.remapCoupler_of_failing h, State.retire_repairMap]
    · rfl
    · exact room
  · rw [hu]; rfl
  · rw [hu]; cases up <;> rfl
  · rw [hu]; cases up <;> rfl

/-- A change of a column depends on what the column holds only. -/
theorem State.modCol_congr {f g : Column → Column} (h : f (s.col k) = g (s.col k)) : s.modCol k f = s.modCol k g := by
  simp only [State.modCol, tmod]
  exact congrArg (fun x => { s with cel := { s.cel with columns := tset Column.init s.cel.columns k x } }) h

/-- A failure of a line's check noted in its column: a transfer sent again is counted, its tries are, and so is the coupler that failed (06 R166, R167). -/
def Column.checkFailed (x : Column) (line : LineId) (n : Nat) (fails : List (Bool × Nat × Nat)) : Column := { x with
  crcResends := if n < 4 then satAdd 0xFFFF x.crcResends 1 else x.crcResends
  crcTries := (x.crcTries.filter fun e => e.1 != line) ++ [(line, n)]
  couplerFails := fails }

theorem exec_lineCheckFailure_of_held {x : LineCheck} (hm : (((s.col k).crcTries.find? fun e => e.1 == x.line).map Prod.snd).getD 0 = 4) :
    exec (.lineCheckFailure k x up coupler t) s = .next (s.tick t) := by
  simp [exec, execLineCheckFailure, hm]

/-- A coupler's first failure in a millisecond does not make it failing. -/
theorem exec_lineCheckFailure_of_first {x : LineCheck} {m : Nat} (hl : (s.col k).leftMap = false) (hc : (s.col k).couplerFails = [])
    (hm : (((s.col k).crcTries.find? fun e => e.1 == x.line).map Prod.snd).getD 0 = m) (h4 : m ≠ 4) :
    let n := if x.first then 1 else m + 1
    let u := (s.tick t).modCol k fun y => y.checkFailed x.line n [(up, coupler, t)]
    exec (.lineCheckFailure k x up coupler t) s = .next (if n < 4 then u else u.startTest (.channel k) 0x05 (couplerInfo up coupler) none) := by
  intro n u
  have noted : ((s.tick t).modCol k fun y => { y with
      crcResends := if n < 4 then satAdd 0xFFFF y.crcResends 1 else y.crcResends
      crcTries := ((s.col k).crcTries.filter fun e => e.1 != x.line) ++ [(x.line, n)]
      couplerFails := [(up, coupler, t)] }) = u := State.modCol_congr rfl
  simp only [exec, execLineCheckFailure, State.col_tick, hm, hl, h4, hc]
  simp [← noted, n]

/-- LINE_CHECK_FAILURE. -/
theorem lineCheckFailures (s : State) (k coupler t : Nat) (up : Bool) (x : LineCheck) (hl : (s.col k).leftMap = false) (hc : (s.col k).couplerFails = []) :
    let m := (((s.col k).crcTries.find? fun e => e.1 == x.line).map Prod.snd).getD 0
    let n := if x.first then 1 else m + 1
    (m ≠ 4 → n < 4 → ∃ u : State, exec (.lineCheckFailure k x up coupler t) s = .next u ∧ (u.col k).crcResends = min 0xFFFF ((s.col k).crcResends + 1)
      ∧ (x.line, n) ∈ (u.col k).crcTries ∧ (∀ j, j ≠ k → u.col j = s.col j) ∧ u.mc = s.mc ∧ u.mem = s.mem)
    ∧ (m ≠ 4 → 4 ≤ n → ∃ u : State, exec (.lineCheckFailure k x up coupler t) s = .next (u.startTest (.channel k) 0x05 (coupler * 2 + b2n up) none)
      ∧ (u.col k).crcResends = (s.col k).crcResends ∧ (x.line, n) ∈ (u.col k).crcTries ∧ u.mc = s.mc)
    ∧ (m = 4 → exec (.lineCheckFailure k x up coupler t) s = .next (s.tick t)) := by
  intro m n
  let u := (s.tick t).modCol k fun y => y.checkFailed x.line n [(up, coupler, t)]
  have hu : u.col k = (s.col k).checkFailed x.line n [(up, coupler, t)] := State.col_modCol_self ..
  have tried : (x.line, n) ∈ (u.col k).crcTries := by rw [hu]; simp [Column.checkFailed]
  have step (h4 : m ≠ 4) : exec (.lineCheckFailure k x up coupler t) s
      = .next (if n < 4 then u else u.startTest (.channel k) 0x05 (couplerInfo up coupler) none) := exec_lineCheckFailure_of_first hl hc rfl h4
  refine ⟨fun h4 again => ⟨u, ?_, ?_, tried, fun j hj => State.col_modCol_of_ne _ hj _, rfl, rfl⟩, fun h4 fourth => ⟨u, ?_, ?_, tried, rfl⟩,
    exec_lineCheckFailure_of_held⟩
  · rw [step h4, if_pos again]
  · rw [hu]; exact if_pos again
  · rw [step h4, if_neg (by omega)]; rfl
  · rw [hu]; exact if_neg (by omega)

theorem channelEvents : ChannelEvents := ⟨couplerRemaps, lineCheckFailures⟩

end

/-! ### Columns and words of the cellar (06 R168, R198; 12 R423) -/

section

variable {s : State} {k t : Nat}

theorem State.cacheLock_col (s : State) (id : LineId) (k : Nat) : (s.cacheLock id).col k = s.col k := by cases id <;> rfl

theorem State.leftMap_col (s : State) (k : Nat) : ((s.leftMap k).col k).leftMap = true ∧ ((s.leftMap k).col k).evacuating = false := by
  simp only [State.leftMap, State.col_modCol_self, and_self]

/-- The locked scratch lines of a column that has left stand in the substitute's cache part; no column changes (06 R198 step 4). -/
theorem State.cacheLocks_col (s : State) (l : List LineId) (p : State → LineId → Bool) (k : Nat) :
    (l.foldl (fun s id => if p s id then s.cacheLock id else s) s).col k = s.col k :=
  List.foldlRecOn l _ (motive := fun (u : State) => u.col k = s.col k) rfl fun u hu id _ => by
    split
    · rw [State.cacheLock_col, hu]
    · exact hu

/-- COLUMN_EVACUATION_COMPLETE of a column on the way out, not at a floor. -/
theorem columnEvacuations (s : State) (k : Nat) (he : (s.col k).evacuating = true) (hf : s.atFloor = false ∨ s.bringupDone = false) :
    ∃ t : State, exec (.columnEvacuationComplete k) s = .next ((((s.col k).substitute.elim t t.serveColumn).evacDone k).countLost)
      ∧ (t.col k).leftMap = true ∧ (t.col k).evacuating = false := by
  have goes : ¬ ((!(s.col k).evacuating) = true ∨ (s.atFloor && s.bringupDone) = true) := by
    rcases hf with h | h <;> simp [he, h]
  unfold exec
  simp only [execColumnEvacuationComplete, if_neg goes]
  refine ⟨_, rfl, ?_⟩
  rw [State.cacheLocks_col _ _ fun u id => u.evacLine id && (u.homeLine id).st == .rl]
  exact State.leftMap_col ..

theorem exec_columnEvacuationComplete_of_waits (h : (s.col k).evacuating = false ∨ (s.atFloor = true ∧ s.bringupDone = true)) :
    exec (.columnEvacuationComplete k) s = .next s := by
  have waits : (!(s.col k).evacuating) = true ∨ (s.atFloor && s.bringupDone) = true := by simpa using h
  simp only [exec, execColumnEvacuationComplete, if_pos waits]

theorem State.startLeaving_evacuating (s : State) (k : Nat) : ((s.startLeaving k).col k).evacuating = true := by
  simp only [State.startLeaving, State.col_modCol_self]

theorem State.nameSubstitute_evacuating (s : State) (k j : Nat) : ((s.nameSubstitute k).col j).evacuating = (s.col j).evacuating := by
  rw [State.nameSubstitute, State.col_modCol]
  split
  case isTrue h => rw [h]
  case isFalse => rfl

/-- A column that leaves the map is evacuated from then on (06 R198 step 1). -/
theorem State.leaveMap_evacuating (h : (s.col k).leaving = false) : ((s.leaveMap k).col k).evacuating = true := by
  simp [State.leaveMap, State.leaveTogether, h, State.nameSubstitute_evacuating, State.startLeaving_evacuating]

/-- COLUMN_CONTROLLER_SILENT. -/
theorem columnsSilent (s : State) (k t : Nat) (hs : (s.col k).silent = false) (hl : (s.col k).leftMap = false) : ∃ (u v : State),
    u = (s.tick t).retire [.column k] 0x08 3 (s.ownerCtx (clusterOf k)) k 0 0xFFFF 0 0 ∧ v = u.leaveMap k
    ∧ exec (.columnControllerSilent k t) s = .next (v.loseColumn k) ∧ ((s.col k).leaving = false → (v.col k).evacuating = true) := by
  refine ⟨_, _, rfl, rfl, ?_, fun h => State.leaveMap_evacuating ?_⟩
  · have answers : ¬ (((s.tick t).col k).silent = true ∨ ((s.tick t).col k).leftMap = true) := by simp [hs, hl]
    simp only [exec, execColumnControllerSilent, if_neg answers]
    rfl
  · rw [(State.retire_reported ..).col]
    exact h

theorem exec_cellarUncorrectable_of_inCellar {line : LineId} (h : s.inCellar line = true) :
    exec (.cellarUncorrectable line t) s = .next (((s.tick t).poisonLine line).startTest (.channel (colNo line)) 0x06 (lineInfo line) none) := by
  have held : (s.tick t).inCellar line = true := h
  simp [exec, execCellarUncorrectable, held]

theorem exec_cellarCorrected_of_inCellar {line : LineId} (h : s.inCellar line = true) :
    let l := (s.col (colNo line)).corrected.filter (fun e => decide (t < e.2 + 3600000000000)) ++ [(line, t)]
    exec (.cellarCorrected line t) s = .next (if (l.filter fun e => e.1 == line).length < 4 then (s.tick t).modCol (colNo line) fun x => { x with corrected := l }
      else ((s.tick t).modCol (colNo line) fun x => { x with corrected := l.filter fun e => e.1 != line }).repairLine line 0x07) := by
  have held : (s.tick t).inCellar line = true := h
  simp [exec, execCellarCorrected, held]

/-- CELLAR_CORRECTED: the fourth corrected error of a line in an hour repairs it. -/
theorem cellarCorrections (s : State) (line : LineId) (t : Nat) (h : s.inCellar line = true) :
    let l := (s.col (colNo line)).corrected.filter (fun e => decide (t < e.2 + 3600000000000))
    ((l.filter fun e => e.1 == line).length < 3 → exec (.cellarCorrected line t) s
      = .next ((s.tick t).modCol (colNo line) fun x => { x with corrected := l ++ [(line, t)] }))
    ∧ (3 ≤ (l.filter fun e => e.1 == line).length → ∃ u : State, exec (.cellarCorrected line t) s = .next (u.repairLine line 0x07)
      ∧ (∀ e ∈ (u.col (colNo line)).corrected, e.1 ≠ line) ∧ u.mc = s.mc) := by
  intro l
  have count : ((l ++ [(line, t)]).filter fun e => e.1 == line).length = (l.filter fun e => e.1 == line).length + 1 := by simp
  refine ⟨fun few => ?_, fun fourth => ⟨(s.tick t).modCol (colNo line) fun x => { x with corrected := (l ++ [(line, t)]).filter fun e => e.1 != line }, ?_, ?_, rfl⟩⟩
  · rw [exec_cellarCorrected_of_inCellar h, if_pos (count.trans_lt (by omega))]
  · rw [exec_cellarCorrected_of_inCellar h, if_neg (Nat.not_lt.2 (le_of_le_of_eq (by omega) count.symm))]
  · rw [State.col_modCol_self]
    intro e he
    simpa using (List.mem_filter.1 he).2

theorem columnEvents : ColumnEvents :=
  ⟨columnEvacuations, fun _ _ => exec_columnEvacuationComplete_of_waits, columnsSilent, fun _ _ _ => exec_cellarUncorrectable_of_inCellar, cellarCorrections⟩

end

/-- Settles O37: retrims, remaps and line checks of the vertical channels, and the columns that leave or fail. -/
theorem cellarEvents : Obligations.CellarEvents := ⟨retrims, channelEvents, columnEvents⟩

/-! ### One change of many parts of the state -/

section

variable {s : State}

theorem tget_foldl_tmod {α : Type} [DecidableEq α] (d : α) (f : α → α) (hf : ∀ x, f (f x) = f x) (l : List Nat) (t : Tbl α) (k : Nat) :
    tget d (l.foldl (fun t j => tmod d t j f) t) k = if k ∈ l then f (tget d t k) else tget d t k := by
  induction l generalizing t with
  | nil => simp
  | cons j l ih =>
    rw [List.foldl_cons, ih, tget_tmod]
    by_cases hj : k = j <;> by_cases hl : k ∈ l <;> simp [hj, hl, hf]

theorem State.foldl_modClu (s : State) (f : Cluster → Cluster) (l : List Nat) :
    l.foldl (fun s k => s.modClu k f) s = { s with cl := l.foldl (fun t k => tmod Cluster.init t k f) s.cl } := by
  induction l generalizing s with
  | nil => rfl
  | cons k l ih => exact ih (s.modClu k f)

theorem State.foldl_modClu_tg (s : State) (f : Cluster → Cluster) (l : List Nat) : (l.foldl (fun s k => s.modClu k f) s).tg = s.tg := by
  rw [State.foldl_modClu]

theorem State.foldl_modStack (s : State) (f : Stack → Stack) (l : List Nat) :
    l.foldl (fun s k => s.modStack k f) s = { s with hbm := { s.hbm with stk := l.foldl (fun t k => tmod Stack.init t k f) s.hbm.stk } } := by
  induction l generalizing s with
  | nil => rfl
  | cons k l ih => exact ih (s.modStack k f)

theorem State.foldl_modPort (s : State) (f : Port → Port) (l : List Nat) :
    l.foldl (fun s k => s.modPort k f) s = { s with fab := { s.fab with ports := l.foldl (fun t k => tmod Port.init t k f) s.fab.ports } } := by
  induction l generalizing s with
  | nil => rfl
  | cons k l ih => exact ih (s.modPort k f)

theorem State.clu_foldl_modClu (s : State) (f : Cluster → Cluster) (hf : ∀ x, f (f x) = f x) (l : List Nat) (k : Nat) :
    (l.foldl (fun s k => s.modClu k f) s).clu k = if k ∈ l then f (s.clu k) else s.clu k := by
  rw [State.foldl_modClu]
  exact tget_foldl_tmod _ f hf l s.cl k

theorem State.allClu_eq (s : State) (f : Cluster → Cluster) :
    s.allClu f = { s with cl := (List.range 48).foldl (fun t k => tmod Cluster.init t k f) s.cl } := s.foldl_modClu f _

theorem State.allClu_clu (s : State) (f : Cluster → Cluster) (hf : ∀ x, f (f x) = f x) {k : Nat} (hk : k < 48) : (s.allClu f).clu k = f (s.clu k) := by
  rw [State.allClu, State.clu_foldl_modClu s f hf, if_pos (List.mem_range.2 hk)]

theorem State.allClu_retention (s : State) (b : Bool) : ∃ c, (s.allClu fun x => { x with retention := b }) = { s with cl := c }
    ∧ ∀ k < 48, (tget Cluster.init c k).retention = b := by
  refine ⟨_, s.allClu_eq _, fun k hk => ?_⟩
  rw [tget_foldl_tmod Cluster.init (fun x : Cluster => { x with retention := b }) (fun _ => rfl), if_pos (List.mem_range.2 hk)]

theorem State.selfRefresh_eq (s : State) (on : Bool) : ∃ h, s.selfRefresh on = { s with hbm := h } := ⟨_, s.foldl_modStack _ _⟩

@[simp] theorem State.selfRefresh_tg (s : State) (on : Bool) : (s.selfRefresh on).tg = s.tg := by obtain ⟨_, e⟩ := s.selfRefresh_eq on; rw [e]

theorem State.selfRefresh_stack (s : State) (on : Bool) {h : Nat} (hh : h < 16) : ((s.selfRefresh on).stack h).selfRefresh = on := by
  have e : (s.selfRefresh on).stack h = { s.stack h with selfRefresh := on } := by
    rw [State.selfRefresh, State.foldl_modStack]
    exact (tget_foldl_tmod _ (fun x : Stack => { x with selfRefresh := on }) (fun _ => rfl) _ _ h).trans (if_pos (List.mem_range.2 hh))
  rw [e]

theorem State.trainPorts_eq (s : State) : ∃ p, s.trainPorts = { s with fab := { s.fab with ports := p } } := ⟨_, s.foldl_modPort _ _⟩

@[simp] theorem State.trainPorts_tg (s : State) : s.trainPorts.tg = s.tg := by obtain ⟨_, e⟩ := s.trainPorts_eq; rw [e]
@[simp] theorem State.trainPorts_cel (s : State) : s.trainPorts.cel = s.cel := by obtain ⟨_, e⟩ := s.trainPorts_eq; rw [e]
@[simp] theorem State.trainPorts_clu (s : State) (k : Nat) : s.trainPorts.clu k = s.clu k := by obtain ⟨_, e⟩ := s.trainPorts_eq; rw [e]; rfl
@[simp] theorem State.trainPorts_selfDeparted (s : State) : s.trainPorts.fab.selfDeparted = s.fab.selfDeparted := by
  obtain ⟨_, e⟩ := s.trainPorts_eq; rw [e]

theorem State.trainPorts_port (s : State) {p : Nat} (hp : p < 12) : (s.trainPorts.port p).training = true := by
  have e : s.trainPorts.port p = { s.port p with training := true } := by
    rw [State.trainPorts, State.foldl_modPort]
    exact (tget_foldl_tmod _ (fun x : Port => { x with training := true }) (fun _ => rfl) _ _ p).trans (if_pos (List.mem_range.2 hp))
  rw [e]

theorem State.holdAll_eq (s : State) : s.holdAll = s.allClu fun x => { x with held := true } := rfl

/-- Widths of ports are the fabric's alone. -/
theorem State.widenPorts_eq (s : State) : ∃ f, s.widenPorts = { s with fab := f } :=
  List.foldlRecOn s.upPorts _ (motive := fun (u : State) => ∃ f, u = { s with fab := f }) ⟨_, rfl⟩ fun u hu p _ => by
    obtain ⟨f, rfl⟩ := hu
    unfold State.setWidth
    split <;> exact ⟨_, rfl⟩

@[simp] theorem State.widenPorts_tg (s : State) : s.widenPorts.tg = s.tg := by obtain ⟨_, e⟩ := s.widenPorts_eq; rw [e]
@[simp] theorem State.widenPorts_stack (s : State) (h : Nat) : s.widenPorts.stack h = s.stack h := by obtain ⟨_, e⟩ := s.widenPorts_eq; rw [e]; rfl

end

/-! ### The state in which an event of the always-on domain acts (10 R349, Table 10-6) -/

section

variable {s : State} {t : Nat}

theorem State.setTg_eq (s : State) (st : Nat) : ∃ o, s.setTg st = { s with out := o, tg := { s.tg with st := st } } := by
  unfold State.setTg
  split
  case isTrue h => exact ⟨s.out, by subst h; rfl⟩
  case isFalse =>
    dsimp only
    split <;> exact ⟨_, rfl⟩

@[simp] theorem State.setTg_tg (s : State) (st : Nat) : (s.setTg st).tg = { s.tg with st := st } := by obtain ⟨_, e⟩ := s.setTg_eq st; rw [e]
@[simp] theorem State.setTg_clu (s : State) (st k : Nat) : (s.setTg st).clu k = s.clu k := by obtain ⟨_, e⟩ := s.setTg_eq st; rw [e]; rfl

/-- The end of an exit from a floor changes the tollgate's state from 5 to 1 or 2, and nothing else of it but that the exit is over. -/
theorem now_eq (s : State) (t : Nat) : ∃ st l o, now s t = { s with now := max s.now t, out := o, tg := { s.tg with st := st, leaving := l } }
    ∧ (st = s.tg.st ∨ s.tg.st = 5 ∧ (st = 1 ∨ st = 2)) := by
  unfold now State.settleFloor
  split
  case h_1 until_ deep _ =>
    split
    case isTrue ends =>
      cases deep
      · obtain ⟨o, e⟩ := ({ s.tick t with tg := { s.tg with leaving := none } } : State).setTg_eq 1
        exact ⟨1, none, o, e, .inr ⟨ends.1, .inl rfl⟩⟩
      · obtain ⟨o, e⟩ := ({ s.tick t with tg := { s.tg with leaving := none } } : State).setTg_eq 2
        exact ⟨2, none, o, e, .inr ⟨ends.1, .inr rfl⟩⟩
    case isFalse => exact ⟨s.tg.st, s.tg.leaving, s.out, rfl, .inl rfl⟩
  case h_2 => exact ⟨s.tg.st, s.tg.leaving, s.out, rfl, .inl rfl⟩

theorem now_of_ne (h : s.tg.st ≠ 5) : now s t = s.tick t := by
  unfold now State.settleFloor
  split
  case h_1 => exact if_neg fun ends => h ends.1
  case h_2 => rfl

/-- Only a module on its way out of a floor can be in another state by then. -/
theorem now_st_ne {n : Nat} (h : s.tg.st ≠ n) (h1 : n ≠ 1) (h2 : n ≠ 2) : (now s t).tg.st ≠ n := by
  obtain ⟨st, l, o, e, rfl | ⟨-, rfl | rfl⟩⟩ := now_eq s t <;> rw [e]
  · exact h
  · exact h1.symm
  · exact h2.symm

@[simp] theorem now_bringupDone (s : State) (t : Nat) : (now s t).bringupDone = s.bringupDone := by obtain ⟨_, _, _, e, -⟩ := now_eq s t; rw [e]; rfl
@[simp] theorem now_wantsDeep (s : State) (t : Nat) : (now s t).wantsDeep = s.wantsDeep := by obtain ⟨_, _, _, e, -⟩ := now_eq s t; rw [e]; rfl
@[simp] theorem now_inWindow (s : State) (t u : Nat) : (now s t).inWindow u = s.inWindow u := by obtain ⟨_, _, _, e, -⟩ := now_eq s t; rw [e]; rfl
@[simp] theorem now_entering (s : State) (t : Nat) : (now s t).tg.entering = s.tg.entering := by obtain ⟨_, _, _, e, -⟩ := now_eq s t; rw [e]
@[simp] theorem now_lastLeg (s : State) (t : Nat) : (now s t).tg.lastLeg = s.tg.lastLeg := by obtain ⟨_, _, _, e, -⟩ := now_eq s t; rw [e]
@[simp] theorem now_legs (s : State) (t : Nat) : (now s t).legs = s.legs := by obtain ⟨_, _, _, e, -⟩ := now_eq s t; rw [e]
@[simp] theorem now_cel (s : State) (t : Nat) : (now s t).cel = s.cel := by obtain ⟨_, _, _, e, -⟩ := now_eq s t; rw [e]
@[simp] theorem now_cl (s : State) (t : Nat) : (now s t).cl = s.cl := by obtain ⟨_, _, _, e, -⟩ := now_eq s t; rw [e]

/-- With power an event acts on that state. -/
theorem whenPowered_tick (h : s.powered = true) (t : Nat) (f : State → State) : (s.tick t).whenPowered f = f (now s t) :=
  if_pos (show (s.tick t).powered = true from h)

end

/-! ### Floors and the idle point (10 R348 to R354) -/

section

variable {s : State} {t : Nat}

theorem exec_retentionFloorReached (hp : s.powered = true) (h4 : s.tg.st = 4) :
    ∃ u : State, exec (.retentionFloorReached t) s = .next u ∧ u.tg.st = 2
      ∧ (u.tg.entering = some .deep ↔ s.tg.entering = some .deep) ∧ u.tg.allowance = s.tg.allowance ∧ u.mem = s.mem ∧ u.cl = s.cl := by
  obtain ⟨o, e⟩ := (s.tick t).setTg_eq 2
  have st4 : (s.tick t).tg.st = 4 := h4
  simp only [exec, execRetentionFloorReached, whenPowered_tick hp, now_of_ne (show s.tg.st ≠ 5 by omega), st4, e]
  refine ⟨_, rfl, rfl, ?_, rfl, rfl, rfl⟩
  by_cases deep : s.tg.entering = some .deep <;> simp [deep]

/-- The deep floor entered (10 R351). -/
theorem deepFloorEntries (s : State) (t : Nat) (hp : s.powered = true) (h2 : s.tg.st = 2) (hb : s.bringupDone = true) (hd : s.wantsDeep = true) :
    exec (.deepFloorEntry false t) s = .next (({ s.tick t with tg := { s.tg with entering := none } } : State).faultTraining 4 0xF 0)
      ∧ ∃ u : State, exec (.deepFloorEntry true t) s = .next u ∧ u.tg.st = 3 ∧ u.tg.allowance = 150 ∧ u.host.linkUp = false ∧ u.cel.trained = false
        ∧ (∀ k < 48, (u.clu k).retention = true) ∧ u.fab.selfDeparted = true ∧ u.tg.entering = none := by
  have enters : ¬ ((s.tick t).tg.st ≠ 2 ∨ (!(s.tick t).bringupDone) = true ∨ (!((s.tick t).wantsDeep || (s.tick t).tg.entering == some .deep)) = true) := by
    have hb' : (s.tick t).bringupDone = true := hb
    have hd' : (s.tick t).wantsDeep = true := hd
    simp [h2, hb', hd']
  simp only [exec, execDeepFloorEntry, whenPowered_tick hp, now_of_ne (show s.tg.st ≠ 5 by omega), if_neg enters]
  refine ⟨rfl, ?_⟩
  have departed : (if (s.tick t).fab.selfDeparted then s.tick t else (s.tick t).depart).fab.selfDeparted = true := by
    split
    case isTrue h => exact h
    case isFalse => rfl
  generalize (if (s.tick t).fab.selfDeparted then s.tick t else (s.tick t).depart) = alone at departed
  obtain ⟨c, kept, retained⟩ := alone.allClu_retention true
  simp only [kept, Bool.not_true, Bool.false_eq_true, if_false]
  obtain ⟨o, e⟩ := State.setTg_eq _ 3
  exact ⟨_, congrArg _ e, rfl, rfl, rfl, rfl, retained, departed, rfl⟩

theorem exec_deepFloorEntry_of_not (hp : s.powered = true) (ok : Bool)
    (h : (now s t).tg.st ≠ 2 ∨ s.bringupDone = false ∨ (s.wantsDeep = false ∧ s.tg.entering ≠ some .deep)) :
    exec (.deepFloorEntry ok t) s = .next (now s t) := by
  have stays : (now s t).tg.st ≠ 2 ∨ (!(now s t).bringupDone) = true ∨ (!((now s t).wantsDeep || (now s t).tg.entering == some .deep)) = true := by
    simpa using h
  simp only [exec, execDeepFloorEntry, whenPowered_tick hp, if_pos stays]

theorem exec_deepFloorExit_of_not (x : Training) (hp : s.powered = true) (h : s.tg.st ≠ 3 ∨ s.wantsDeep = true ∨ s.inWindow x.t = false) :
    exec (.deepFloorExit x) s = .next (now s x.t) := by
  have stays : (now s x.t).tg.st ≠ 3 ∨ (now s x.t).wantsDeep = true ∨ (!(now s x.t).inWindow x.t) = true := by
    simpa using h.imp_left fun h3 => now_st_ne (t := x.t) h3 (by decide) (by decide)
  simp only [exec, execDeepFloorExit, whenPowered_tick hp, if_pos stays]

/-! What training the channels leaves as it was: a column that fails its training freezes its context and leaves reports -/

/-- State t is s after steps of a training: the tollgate, the fabric, that the channels are trained and which clusters are in retention stay. -/
structure Trains (s t : State) : Prop where
  tg : t.tg = s.tg
  fab : t.fab = s.fab
  trained : t.cel.trained = s.cel.trained
  retention : ∀ k, (t.clu k).retention = (s.clu k).retention

theorem Trains.refl (s : State) : Trains s s := ⟨rfl, rfl, rfl, fun _ => rfl⟩

theorem Trains.trans {s t u : State} (h : Trains s t) (h' : Trains t u) : Trains s u :=
  ⟨h'.tg.trans h.tg, h'.fab.trans h.fab, h'.trained.trans h.trained, fun k => (h'.retention k).trans (h.retention k)⟩

theorem Trains.of_reported {s t : State} (h : Reported s t) : Trains s t := ⟨h.tg, h.fab, by rw [h.cel], fun k => by rw [h.clu]⟩

theorem Trains.foldl {α : Type} {f : State → α → State} (hf : ∀ s a, Trains s (f s a)) (l : List α) (s : State) : Trains s (l.foldl f s) :=
  List.foldlRecOn l f (motive := Trains s) (Trains.refl s) fun _ h a _ => h.trans (hf _ a)

theorem State.modCol_trains (s : State) (k : Nat) (f : Column → Column) : Trains s (s.modCol k f) := ⟨rfl, rfl, rfl, fun _ => rfl⟩

theorem State.freeze_trains (s : State) (c : Nat) : Trains s (s.freeze c) := by
  refine Trains.trans (t := s.modCx c fun x => { x with
    evac := x.evac.map fun _ => true, frozen := true, frozenAt := if x.frozen then x.frozenAt else s.now }) ⟨rfl, rfl, rfl, fun _ => rfl⟩ ?_
  refine Trains.foldl (f := fun u k => u.modClu k fun x => { x with frozen := true }) (fun u k => ⟨rfl, rfl, rfl, fun j => ?_⟩) _ _
  rw [State.clu_modClu]
  split
  case isTrue h => rw [h]
  case isFalse => rfl

theorem State.startLeaving_trains (s : State) (k : Nat) : Trains s (s.startLeaving k) := by
  refine Trains.trans ?_ (State.modCol_trains ..)
  split
  case h_1 c _ =>
    split
    · exact Trains.refl s
    · exact (s.freeze_trains c).trans ⟨rfl, rfl, rfl, fun _ => rfl⟩
  case h_2 => exact Trains.refl s

theorem State.leaveTogether_trains (s : State) (l : List Nat) : Trains s (s.leaveTogether l) :=
  (Trains.foldl State.startLeaving_trains _ s).trans (Trains.foldl (fun u k => u.modCol_trains k _) _ _)

theorem State.channelFails_trains (s : State) (k coupler : Nat) : Trains s (s.channelFails k coupler) := by
  unfold State.channelFails
  extract_lets p c noted alone borrowed
  have marked : Trains s noted := s.modCol_trains k _
  split
  · exact Trains.refl s
  split
  · exact ((marked.trans (State.modCol_trains ..)).trans (State.modCol_trains ..)).trans
      ((Trains.of_reported (State.retire_reported ..)).trans (State.leaveTogether_trains ..))
  · exact ((marked.trans (State.modCol_trains ..)).trans (State.modCol_trains ..)).trans (Trains.of_reported (State.retire_reported ..))

theorem State.couplerFails_trains (s : State) (k : Nat) (up : Bool) (coupler : Nat) : Trains s (s.couplerFails k up coupler) := by
  unfold State.couplerFails
  extract_lets x
  split
  · exact Trains.refl s
  split
  · exact s.channelFails_trains k coupler
  · exact s.modCol_trains k _

theorem State.remapCoupler_trains (s : State) (k : Nat) (up : Bool) (coupler : Nat) : Trains s (s.remapCoupler k up coupler) := by
  by_cases h : (up, coupler) ∈ (s.col k).failing
  · rw [State.remapCoupler_of_failing h]
    exact (s.modCol_trains k _).trans (Trains.of_reported (State.retire_reported ..))
  · rw [State.remapCoupler_of_not_failing h]
    exact Trains.refl s

theorem State.shortRun_trains (s : State) (r : TrimRun) : Trains s (s.shortRun r) := by
  unfold State.shortRun
  split
  case h_1 up n _ =>
    split
    · exact (s.couplerFails_trains ..).trans (State.remapCoupler_trains ..)
    · exact Trains.refl s
  case h_2 => exact Trains.refl s
  case h_3 l _ =>
    unfold State.riserFails
    split
    · exact Trains.refl s
    · exact (Trains.of_reported (State.retire_reported ..)).trans (State.leaveTogether_trains ..)

theorem State.trainChannels_trains (s : State) (x : Training) : Trains (s.setTrained true) (s.trainChannels x) :=
  (Trains.foldl (fun u (r : TrimRun) => u.modCol_trains r.k _) _ _).trans (Trains.foldl State.shortRun_trains _ _)

theorem State.leaveFloor_eq (s : State) (until_ : Nat) (deep : Bool) :
    ∃ o, s.leaveFloor until_ deep = { s with out := o, tg := { s.tg with st := 5, leaving := some (until_, deep) } } :=
  ({ s with tg := { s.tg with leaving := some (until_, deep) } } : State).setTg_eq 5

@[simp] theorem State.leaveFloor_tg (s : State) (until_ : Nat) (deep : Bool) :
    (s.leaveFloor until_ deep).tg = { s.tg with st := 5, leaving := some (until_, deep) } := by obtain ⟨_, e⟩ := s.leaveFloor_eq until_ deep; rw [e]
@[simp] theorem State.leaveFloor_fab (s : State) (until_ : Nat) (deep : Bool) : (s.leaveFloor until_ deep).fab = s.fab := by
  obtain ⟨_, e⟩ := s.leaveFloor_eq until_ deep; rw [e]
@[simp] theorem State.leaveFloor_clu (s : State) (until_ : Nat) (deep : Bool) (k : Nat) : (s.leaveFloor until_ deep).clu k = s.clu k := by
  obtain ⟨_, e⟩ := s.leaveFloor_eq until_ deep; rw [e]; rfl

/-- On the way from the deep floor the channels are trained and the ports in training (10 R351). -/
theorem State.leaveFloor_trains (s : State) {until_ : Nat} (x : Training) (ha : s.tg.allowance = 380) (hd : s.fab.selfDeparted = false)
    (hr : ∀ k < 48, (s.clu k).retention = false) :
    let u := ((s.leaveFloor until_ true).trainChannels x).trainPorts
    u.tg.st = 5 ∧ u.tg.leaving = some (until_, true) ∧ u.tg.allowance = 380 ∧ u.fab.selfDeparted = false ∧ u.cel.trained = true
      ∧ (∀ k < 48, (u.clu k).retention = false) ∧ ∀ p < 12, (u.port p).training = true := by
  obtain ⟨tg, fab, trained, retention⟩ := (s.leaveFloor until_ true).trainChannels_trains x
  intro u
  have hu : u.tg = { s.tg with st := 5, leaving := some (until_, true) } := by
    rw [State.trainPorts_tg, tg]
    exact State.leaveFloor_tg ..
  refine ⟨by rw [hu], by rw [hu], by rw [hu]; exact ha, ?_, ?_, fun k hk => ?_, fun p hp => State.trainPorts_port _ hp⟩
  · rw [State.trainPorts_selfDeparted, fab]
    exact (congrArg Fabric.selfDeparted (State.leaveFloor_fab ..)).trans hd
  · rw [State.trainPorts_cel, trained]
    rfl
  · rw [State.trainPorts_clu, retention]
    exact (congrArg Cluster.retention (State.leaveFloor_clu ..)).trans (hr k hk)

/-- The deep floor left in a step window (10 R351). -/
theorem deepFloorExits (s : State) (x : Training) (hp : s.powered = true) (h3 : s.tg.st = 3) (hd : s.wantsDeep = false) (hw : s.inWindow x.t = true) :
    ∃ u : State, exec (.deepFloorExit x) s = .next u ∧ u.tg.st = 5 ∧ u.tg.leaving = some (x.t + 5000000, true) ∧ u.tg.allowance = 380
      ∧ u.fab.selfDeparted = false ∧ u.cel.trained = true ∧ (∀ k < 48, (u.clu k).retention = false) ∧ ∀ p < 12, (u.port p).training = true := by
  have leaves : ¬ ((s.tick x.t).tg.st ≠ 3 ∨ (s.tick x.t).wantsDeep = true ∨ (!(s.tick x.t).inWindow x.t) = true) := by
    have hd' : (s.tick x.t).wantsDeep = false := hd
    have hw' : (s.tick x.t).inWindow x.t = true := hw
    simp [h3, hd', hw']
  simp only [exec, execDeepFloorExit, whenPowered_tick hp, now_of_ne (show s.tg.st ≠ 5 by omega), if_neg leaves]
  obtain ⟨c, woken, awake⟩ := (s.tick x.t).allClu_retention false
  simp only [woken]
  exact ⟨_, rfl, State.leaveFloor_trains _ x rfl rfl awake⟩

/-- On the way from the retention floor the stacks leave self-refresh (10 R350). -/
theorem State.leaveFloor_wakes (s : State) (until_ : Nat) :
    let u := ((s.leaveFloor until_ false).selfRefresh false).widenPorts
    u.tg = { s.tg with st := 5, leaving := some (until_, false) } ∧ ∀ h < 16, (u.stack h).selfRefresh = false := by
  refine ⟨by simp, fun k hk => ?_⟩
  rw [State.widenPorts_stack]
  exact State.selfRefresh_stack _ _ hk

/-- The retention floor left in a step window (10 R349, R350). -/
theorem retentionFloorExits (s : State) (t : Nat) (w : Rat) (hp : s.powered = true) (h2 : s.tg.st = 2) (hb : s.bringupDone = true)
    (he : s.tg.entering ≠ some .deep) (hw : s.inWindow t = true) (henv : s.envelope.2 = .power w) :
    (s.fits (Config.basePower 24 0 true 4) = true → ∃ u : State,
        exec (.retentionFloorExit t) s = .next ((List.range 4).foldl State.unpark u) ∧ u.tg.st = 5 ∧ u.tg.leaving = some (t + 3000000, false)
        ∧ u.tg.admitStop = false ∧ u.tg.dmaPaused = false ∧ u.tg.shedWork = [] ∧ ∀ h < 16, (u.stack h).selfRefresh = false)
      ∧ (s.fits (Config.basePower 24 0 true 4) = false → exec (.retentionFloorExit t) s = .next (s.tick t)) := by
  have hb' : (s.tick t).bringupDone = true := hb
  have hw' : (s.tick t).inWindow t = true := hw
  have henv' : (s.tick t).envelope.2 = .power w := henv
  constructor
  · intro fits
    have fits' : (s.tick t).fits (Config.basePower 24 0 true 4) = true := fits
    let v : State := { s.tick t with tg := { s.tg with entering := none, shedWork := [], admitStop := false, dmaPaused := false } }
    obtain ⟨left, woken⟩ := v.leaveFloor_wakes (t + 3000000)
    refine ⟨((v.leaveFloor (t + 3000000) false).selfRefresh false).widenPorts, ?_, by rw [left], by rw [left], by rw [left], by rw [left], by rw [left], woken⟩
    simp [exec, execRetentionFloorExit, whenPowered_tick hp, now_of_ne (show s.tg.st ≠ 5 by omega), h2, hb', he, hw', fits', henv', v]
  · intro short
    have short' : (s.tick t).fits (Config.basePower 24 0 true 4) = false := short
    simp [exec, execRetentionFloorExit, whenPowered_tick hp, now_of_ne (show s.tg.st ≠ 5 by omega), short']

/-- The idle point entered ten milliseconds after the last leg (10 R354). -/
theorem idlePointEntries (s : State) (t : Nat) (hp : s.powered = true) :
    (((now s t).tg.st ≠ 0 ∨ s.legs ≠ [] ∨ t < s.tg.lastLeg + 10000000) → exec (.idlePointEntry t) s = .next (now s t))
      ∧ (s.tg.st = 0 → s.legs = [] → s.tg.lastLeg + 10000000 ≤ t → ∃ u : State, exec (.idlePointEntry t) s = .next u ∧ u.tg.st = 1
        ∧ ∀ k < 48, (u.clu k).held = true) := by
  constructor
  · intro h
    have stays : (now s t).tg.st ≠ 0 ∨ (!(now s t).legs.isEmpty) = true ∨ t < (now s t).tg.lastLeg + 10000000 := by simpa using h
    simp only [exec, execIdlePointEntry, whenPowered_tick hp, if_pos stays]
  · intro h0 hl ht
    have idles : ¬ ((s.tick t).tg.st ≠ 0 ∨ (!(s.tick t).legs.isEmpty) = true ∨ t < (s.tick t).tg.lastLeg + 10000000) := by simp [h0, hl, ht]
    simp only [exec, execIdlePointEntry, whenPowered_tick hp, now_of_ne (show s.tg.st ≠ 5 by omega), if_neg idles]
    refine ⟨_, rfl, by simp, fun k hk => ?_⟩
    rw [State.setTg_clu, State.holdAll_eq, State.allClu_clu _ (fun x : Cluster => { x with held := true }) (fun _ => rfl) hk]

theorem floorTransitions : FloorTransitions :=
  ⟨fun _ _ => exec_retentionFloorReached, deepFloorEntries, fun _ ok _ hp => exec_deepFloorEntry_of_not hp ok, fun _ => exec_deepFloorExit_of_not,
    deepFloorExits, retentionFloorExits, idlePointEntries⟩

end

/-! ### Turns of the clusters (10 R355) -/

section

variable {s : State} {t cl : Nat}

theorem State.foldl_holdCluster_clu (s : State) (l : List Nat) (k : Nat) :
    (l.foldl State.holdCluster s).clu k = { s.clu k with held := (s.clu k).held || l.contains k } := by
  refine (s.clu_foldl_modClu (fun x => { x with held := true }) (fun _ => rfl) l k).trans ?_
  by_cases h : k ∈ l <;> simp [h]

theorem State.foldl_releaseCluster_clu (s : State) (l : List Nat) (k : Nat) :
    (l.foldl State.releaseCluster s).clu k = { s.clu k with held := (s.clu k).held && !l.contains k } := by
  refine (s.clu_foldl_modClu (fun x => { x with held := false }) (fun _ => rfl) l k).trans ?_
  by_cases h : k ∈ l <;> simp [h]

theorem State.foldl_holdCluster_tg (s : State) (l : List Nat) : (l.foldl State.holdCluster s).tg = s.tg :=
  s.foldl_modClu_tg (fun x => { x with held := true }) l

theorem State.foldl_releaseCluster_tg (s : State) (l : List Nat) : (l.foldl State.releaseCluster s).tg = s.tg :=
  s.foldl_modClu_tg (fun x => { x with held := false }) l

/-- Clusters that run without work, ascending. -/
def State.idlers (s : State) : List Nat := s.running.filter fun k => (s.clu k).leg.isNone

theorem State.runWork_eq (s : State) (turn : List Nat) (n : Nat) :
    s.runWork turn n = turn.foldl State.releaseCluster ((s.idlers.drop (n - turn.length)).foldl State.holdCluster s) := rfl

/-- The clusters of a turn run, and of those without work as many as leave no more than n. -/
theorem State.runWork_clu (s : State) (turn : List Nat) (n k : Nat) : (s.runWork turn n).clu k
    = { s.clu k with held := ((s.clu k).held || (s.idlers.drop (n - turn.length)).contains k) && !turn.contains k } := by
  rw [State.runWork_eq, State.foldl_releaseCluster_clu, State.foldl_holdCluster_clu]

/-- The turn given to some of the clusters with work: the others are held. -/
def State.giveTurn (s : State) (turn : List Nat) (n : Nat) : State :=
  ((s.workClusters.filter fun k => !turn.contains k).foldl State.holdCluster s).runWork turn n

theorem State.giveTurn_tg (s : State) (turn : List Nat) (n : Nat) : (s.giveTurn turn n).tg = s.tg := by
  rw [State.giveTurn, State.runWork_eq, State.foldl_releaseCluster_tg, State.foldl_holdCluster_tg, State.foldl_holdCluster_tg]

theorem State.giveTurn_rest (s : State) (turn : List Nat) (n k : Nat) : { (s.giveTurn turn n).clu k with held := (s.clu k).held } = s.clu k := by
  rw [State.giveTurn, State.runWork_clu, State.foldl_holdCluster_clu]

theorem State.mem_workClusters {k : Nat} : k ∈ s.workClusters ↔ k < 48 ∧ (s.clu k).leg.isSome = true := by simp [State.workClusters]

theorem State.mem_running {k : Nat} : k ∈ s.running ↔ k < 48 ∧ (s.clu k).held = false := by simp [State.running]

theorem State.workClusters_nodup (s : State) : s.workClusters.Nodup := List.nodup_range.filter _

theorem State.running_nodup (s : State) : s.running.Nodup := List.nodup_range.filter _

theorem State.giveTurn_workClusters (s : State) (turn : List Nat) (n : Nat) : (s.giveTurn turn n).workClusters = s.workClusters :=
  List.filter_congr fun k _ => by rw [← s.giveTurn_rest turn n k]

/-- Of the clusters with work those run whose turn it is. -/
theorem State.giveTurn_held (s : State) (turn : List Nat) (n : Nat) {k : Nat} (hk : k ∈ s.workClusters) :
    ((s.giveTurn turn n).clu k).held = !turn.contains k := by
  rw [State.giveTurn, State.runWork_clu, State.foldl_holdCluster_clu]
  by_cases h : k ∈ turn <;> simp [h, hk]

theorem State.giveTurn_working {turn : List Nat} (hsub : turn ⊆ s.workClusters) (hnd : turn.Nodup) (n : Nat) :
    ((s.giveTurn turn n).workClusters.filter fun k => !((s.giveTurn turn n).clu k).held).length = turn.length := by
  rw [State.giveTurn_workClusters]
  refine List.Perm.length_eq ((List.perm_ext_iff_of_nodup (s.workClusters_nodup.filter _) hnd).2 fun k => ?_)
  rw [List.mem_filter]
  refine ⟨fun ⟨hk, hr⟩ => ?_, fun hk => ⟨hsub hk, ?_⟩⟩
  · simpa [s.giveTurn_held turn n hk] using hr
  · simpa [s.giveTurn_held turn n (hsub hk)] using hk

/-- What runs after a turn is given is the turn, and clusters without work that leave no more than n. -/
theorem State.giveTurn_running_length {turn : List Nat} {n : Nat} (hn : turn.length ≤ n) : (s.giveTurn turn n).running.length ≤ n := by
  let waits := (s.workClusters.filter fun k => !turn.contains k).foldl State.holdCluster s
  have waits_clu (k : Nat) : waits.clu k = _ := s.foldl_holdCluster_clu _ k
  have sub : (s.giveTurn turn n).running ⊆ turn ++ waits.idlers.take (n - turn.length) := by
    intro k hk
    obtain ⟨hlt, hrun⟩ := State.mem_running.1 hk
    rw [State.giveTurn, State.runWork_clu] at hrun
    by_cases hturn : k ∈ turn
    · exact List.mem_append_left _ hturn
    refine List.mem_append_right _ ?_
    obtain ⟨hheld, hdrop⟩ : (waits.clu k).held = false ∧ k ∉ waits.idlers.drop (n - turn.length) := by simpa [waits, hturn] using hrun
    have no_work : k ∉ s.workClusters := fun hw => by simp [waits_clu, hw, hturn] at hheld
    have no_leg : (waits.clu k).leg.isNone = true := by
      rw [waits_clu]
      simpa [State.mem_workClusters, hlt] using no_work
    have idle : k ∈ waits.idlers := List.mem_filter.2 ⟨State.mem_running.2 ⟨hlt, hheld⟩, no_leg⟩
    rw [← List.take_append_drop (n - turn.length) waits.idlers] at idle
    exact (List.mem_append.1 idle).resolve_right hdrop
  calc (s.giveTurn turn n).running.length
    _ ≤ (turn ++ waits.idlers.take (n - turn.length)).length := (List.subperm_of_subset (State.running_nodup _) sub).length_le
    _ ≤ turn.length + (n - turn.length) := by
      rw [List.length_append, List.length_take]
      omega
    _ = n := by omega

theorem rotateFrom_perm (p : Nat → Bool) (l : List Nat) : (rotateFrom p l).Perm l := by
  unfold rotateFrom
  split
  case h_1 i _ => exact List.perm_append_comm.trans (by rw [List.take_append_drop])
  case h_2 => exact List.Perm.refl l

/-- The state at a rotation: no cluster has given up its turn. -/
def State.newTurns (s : State) (t : Nat) : State := { s.tick t with tg := { s.tg with yielded := [] } }

theorem exec_clusterRotation_of_stays (hp : s.powered = true) (h0 : s.tg.st = 0)
    (h : s.running.length = 0 ∨ s.workClusters.all (fun k => !(s.clu k).held) = true) : exec (.clusterRotation t) s = .next (s.newTurns t) := by
  have stays : (s.newTurns t).tg.st ≠ 0 ∨ (s.newTurns t).running.length = 0 ∨ (s.newTurns t).workClusters.all (fun k => !((s.newTurns t).clu k).held) = true :=
    .inr h
  simp only [exec, execClusterRotation, whenPowered_tick hp, now_of_ne (show s.tg.st ≠ 5 by omega)]
  exact congrArg _ (if_pos stays)

/-- The next clusters with work take the turn, as many as ran. -/
theorem exec_clusterRotation_of_turns (hp : s.powered = true) (h0 : s.tg.st = 0)
    (h : ¬ (s.running.length = 0 ∨ s.workClusters.all (fun k => !(s.clu k).held) = true)) :
    ∃ last, exec (.clusterRotation t) s = .next ((s.newTurns t).giveTurn ((s.workAfter last).take s.running.length) s.running.length) := by
  have turns : ¬ ((s.newTurns t).tg.st ≠ 0 ∨ (s.newTurns t).running.length = 0
      ∨ (s.newTurns t).workClusters.all (fun k => !((s.newTurns t).clu k).held) = true) := fun e => h (e.resolve_left fun ne => ne h0)
  simp only [exec, execClusterRotation, whenPowered_tick hp, now_of_ne (show s.tg.st ≠ 5 by omega)]
  exact ⟨_, congrArg _ (if_neg turns)⟩

/-- While no cluster runs, or all with work do, as many with work run as can. -/
theorem State.working_of_stays (h : s.running.length = 0 ∨ s.workClusters.all (fun k => !(s.clu k).held) = true) :
    (s.workClusters.filter fun k => !(s.clu k).held).length = min s.running.length s.workClusters.length := by
  have runs : (s.workClusters.filter fun k => !(s.clu k).held) ⊆ s.running := fun k hk => by
    obtain ⟨hw, hr⟩ := List.mem_filter.1 hk
    exact State.mem_running.2 ⟨(State.mem_workClusters.1 hw).1, by simpa using hr⟩
  have few := (List.subperm_of_subset (s.workClusters_nodup.filter _) runs).length_le
  rcases h with none_run | all_run
  · omega
  · have all : (s.workClusters.filter fun k => !(s.clu k).held) = s.workClusters := List.filter_eq_self.2 fun k hk => List.all_eq_true.1 all_run k hk
    rw [all] at few ⊢
    omega

theorem clusterRotations (s : State) (t : Nat) (hp : s.powered = true) (h0 : s.tg.st = 0) :
    ∃ u : State, exec (.clusterRotation t) s = .next u ∧ u.tg.yielded = []
      ∧ (u.workClusters.filter fun k => !(u.clu k).held).length = min s.running.length s.workClusters.length
      ∧ u.running.length ≤ s.running.length ∧ ∀ k, { u.clu k with held := (s.clu k).held } = s.clu k := by
  by_cases h : s.running.length = 0 ∨ s.workClusters.all (fun k => !(s.clu k).held) = true
  · exact ⟨_, exec_clusterRotation_of_stays hp h0 h, rfl, s.working_of_stays h, Nat.le_refl _, fun _ => rfl⟩
  · obtain ⟨last, step⟩ := exec_clusterRotation_of_turns (t := t) hp h0 h
    have order : (s.workAfter last).Perm s.workClusters := rotateFrom_perm _ _
    have sub : (s.workAfter last).take s.running.length ⊆ (s.newTurns t).workClusters := fun k hk => order.subset (List.mem_of_mem_take hk)
    have nodup : ((s.workAfter last).take s.running.length).Nodup := (order.nodup_iff.2 s.workClusters_nodup).sublist (List.take_sublist ..)
    refine ⟨_, step, by rw [State.giveTurn_tg]; rfl, ?_, State.giveTurn_running_length (List.length_take_le ..), State.giveTurn_rest _ _ _⟩
    rw [State.giveTurn_working sub nodup, List.length_take, order.length_eq]

theorem now_haltedLong (s : State) (t k u : Nat) : (now s t).haltedLong k u = s.haltedLong k u := by
  obtain ⟨_, _, _, e, -⟩ := now_eq s t
  rw [e]
  rfl

theorem now_clu (s : State) (t k : Nat) : (now s t).clu k = s.clu k := by rw [State.clu, now_cl, State.clu]

theorem exec_turnGivenUp_of_stays (hp : s.powered = true) (h : (s.clu cl).held = true ∨ s.haltedLong cl t = false) :
    exec (.turnGivenUp cl t) s = .next (now s t) := by
  have stays : (now s t).tg.st ≠ 0 ∨ ((now s t).clu cl).held = true ∨ (!(now s t).haltedLong cl t) = true := by
    rw [now_clu, now_haltedLong]
    exact .inr (by simpa using h)
  simp only [exec, execTurnGivenUp, whenPowered_tick hp, if_pos stays]

/-- A turn given up passes to the next waiting cluster. -/
theorem turnsGivenUp (s : State) (cl t k : Nat) (hp : s.powered = true) (h0 : s.tg.st = 0) (hr : (s.clu cl).held = false) (hh : s.haltedLong cl t = true)
    (hk : (s.workAfter cl).find? (fun k => (s.clu k).held && !(s.tg.yielded.contains k)) = some k) :
    ∃ u : State, exec (.turnGivenUp cl t) s = .next u
      ∧ (u.clu cl).held = true ∧ (u.clu k).held = false ∧ u.tg.yielded = s.tg.yielded ++ [cl] ∧ ∀ j, j ≠ cl → j ≠ k → u.clu j = s.clu j := by
  have passes : ¬ ((s.tick t).tg.st ≠ 0 ∨ ((s.tick t).clu cl).held = true ∨ (!(s.tick t).haltedLong cl t) = true) := by
    have hh' : (s.tick t).haltedLong cl t = true := hh
    simp [h0, hr, hh']
  have waits : ((s.tick t).workAfter cl).find? (fun k => ((s.tick t).clu k).held && !((s.tick t).tg.yielded.contains k)) = some k := hk
  have other : cl ≠ k := by
    rintro rfl
    simpa [hr] using List.find?_some hk
  simp only [exec, execTurnGivenUp, whenPowered_tick hp, now_of_ne (show s.tg.st ≠ 5 by omega), if_neg passes, waits]
  refine ⟨_, rfl, ?_, ?_, rfl, fun j hcl hk => ?_⟩
  · rw [State.releaseCluster, State.clu_modClu_of_ne _ other, State.holdCluster, State.clu_modClu_self]
  · rw [State.releaseCluster, State.clu_modClu_self]
  · rw [State.releaseCluster, State.clu_modClu_of_ne _ hk, State.holdCluster, State.clu_modClu_of_ne _ hcl]
    rfl

/-! ### Clock steps (01 R23) -/

/-- A clock one step of 25 MHz nearer its target. -/
def Cluster.stepped (x : Cluster) : Cluster :=
  { x with clock := if x.clock < x.target then x.clock + 1 else if x.target < x.clock then x.clock - 1 else x.clock }

theorem now_retrimming (s : State) (t k : Nat) : (now s t).retrimming k = s.retrimming k := by simp only [State.retrimming, State.col, now_cel]

theorem exec_clockStep_of_retrimming (hp : s.powered = true) (h : s.retrimming cl = true) : exec (.clockStep cl t) s = .next (now s t) := by
  simp only [exec, execClockStep, whenPowered_tick hp, now_retrimming, h, if_true]

theorem exec_clockStep_of_not_retrimming (hp : s.powered = true) (h : s.retrimming cl = false) :
    exec (.clockStep cl t) s = .next (((now s t).modClu cl Cluster.stepped).startDue cl) := by
  simp only [exec, execClockStep, whenPowered_tick hp, now_retrimming, h, Bool.false_eq_true, if_false]
  rfl

theorem clockSteps (s : State) (cl t : Nat) (hp : s.powered = true) :
    (s.retrimming cl = true → exec (.clockStep cl t) s = .next (now s t))
      ∧ (s.retrimming cl = false → ∃ u : State, exec (.clockStep cl t) s = .next (u.startDue cl) ∧ (∀ j, j ≠ cl → u.clu j = s.clu j)
        ∧ (u.clu cl).target = (s.clu cl).target ∧ u.cel = s.cel
        ∧ ((s.clu cl).clock = (s.clu cl).target → (u.clu cl).clock = (s.clu cl).clock)
        ∧ ((s.clu cl).clock < (s.clu cl).target → (u.clu cl).clock = (s.clu cl).clock + 1)
        ∧ ((s.clu cl).target < (s.clu cl).clock → (u.clu cl).clock + 1 = (s.clu cl).clock)) := by
  refine ⟨exec_clockStep_of_retrimming hp, fun h => ⟨_, exec_clockStep_of_not_retrimming hp h, fun j hj => ?_, ?_⟩⟩
  · rw [State.clu_modClu_of_ne _ hj, now_clu]
  rw [State.clu_modClu_self, now_clu]
  refine ⟨rfl, now_cel s t, fun reached => ?_, fun below => ?_, fun above => ?_⟩
  · simp [Cluster.stepped, reached]
  · simp [Cluster.stepped, below]
  · simp only [Cluster.stepped, above, if_neg (Nat.lt_asymm above), if_true]
    omega

theorem turnsAndClocks : TurnsAndClocks := ⟨clusterRotations, fun _ _ _ => exec_turnGivenUp_of_stays, turnsGivenUp, clockSteps⟩

end

/-- Settles O43: the floors entered and left, the idle point, the turns of the clusters and the steps of their clocks. -/
theorem floorsAndTurns : Obligations.FloorsAndTurns := ⟨floorTransitions, turnsAndClocks⟩

end Sys2Proof.Machine

namespace Sys2Proof.Machine

open Sys2Proof Sys2Proof.Claims

/-! ### Waybills that start (11 R388, R393) -/

section

variable {s u : State} {w : Waybill} {op : Nat} {bs : List Byte}

/-- A waybill that begins takes effect on the state in which it is marked as started. -/
theorem State.startWb_of_begins (h : begins s w op u bs) (f : State → List Byte → State) : s.startWb w (isOp op) f = (f u bs).sweepWbs := by
  obtain ⟨hop, e, v, waits, may, go, rfl⟩ := h
  have listed : isOp op w = true := beq_iff_eq.2 hop
  simp only [State.startWb, waits, listed, may, go]
  rfl

/-! Configuration waybills (11 R396) -/

theorem State.atBoundary_iff (s : State) (c : Nat) : s.atBoundary c = true ↔ (s.cx c).run.isNone = true ∧ ∀ g ∈ s.legs, g.ctx ≠ c := by
  simp [State.atBoundary]

theorem State.configWb_at_boundary (h : begins s w op u bs) (hb : u.atBoundary w.context = true) :
    s.configWb w op = (((u.configure w).1.finish w (u.configure w).2.1 (u.configure w).2.2 0).sweepWbs) := by
  rw [State.configWb, State.startWb_of_begins h, if_pos hb]
  rfl

theorem State.configWb_inside_step (h : begins s w op u bs) (hb : u.atBoundary w.context = false) :
    s.configWb w op = (u.modCx w.context fun x => { x with boundary := x.boundary ++ [w] }).sweepWbs := by
  rw [State.configWb, State.startWb_of_begins h, hb]
  rfl

theorem configurationWaybills : ConfigurationWaybills := by
  intro q hq s u w bs h
  have exec_eq : exec (q.1 w) s = .next (s.configWb w q.2) := by
    simp only [List.mem_cons, List.not_mem_nil, or_false] at hq
    obtain rfl | rfl | rfl | rfl | rfl | rfl := hq <;> rfl
  rw [exec_eq]
  refine ⟨fun noStep noLeg => ?_, fun inside => ?_⟩
  · rw [State.configWb_at_boundary h ((u.atBoundary_iff _).2 ⟨noStep, noLeg⟩)]
  · rw [State.configWb_inside_step h]
    rw [← Bool.not_eq_true, State.atBoundary_iff]
    rintro ⟨noStep, noLeg⟩
    obtain runs | ⟨g, hg, hc⟩ := inside
    · simp [Option.isNone_iff_eq_none.1 noStep] at runs
    · exact noLeg g hg hc

/-! What they set -/

/-- Without a buffer in module memory the bytes come with the waybill (11 R383). -/
theorem State.buffer_of_host (s : State) (h : w.bufModule = false) : s.buffer w = (s, slice w.buf 0 w.length) := by simp [State.buffer, h]

theorem mem_maskClusters {v k : Nat} : k ∈ maskClusters v ↔ k < 48 ∧ v / 2 ^ k % 2 = 1 := by
  simp only [maskClusters, setBits, cmask, List.mem_filter, List.mem_range]
  refine and_congr_right fun hk => ?_
  rw [BitVec.getLsbD_ofNat, Nat.testBit_eq_decide_div_mod_eq]
  simp [hk]

theorem maskClusters_nodup (v : Nat) : (maskClusters v).Nodup := List.nodup_range.filter _

theorem State.foreign_of_own {c v : Nat} (s : State) (h : ∀ k < 48, v / 2 ^ k % 2 = 1 → (s.clu k).owner = none ∨ (s.clu k).owner = some c) :
    s.foreign c (maskClusters v) = none := by
  refine List.find?_eq_none.2 fun k hk => ?_
  obtain ⟨lt, named⟩ := mem_maskClusters.1 hk
  obtain e | e := h k lt named <;> simp [e]

theorem tget_foldl_tmod_of_nodup {α : Type} [DecidableEq α] (d : α) (f : α → α) {l : List Nat} (hl : l.Nodup) (t : Tbl α) (k : Nat) :
    tget d (l.foldl (fun t j => tmod d t j f) t) k = if k ∈ l then f (tget d t k) else tget d t k := by
  induction l generalizing t with
  | nil => simp
  | cons j l ih =>
    obtain ⟨hj, hl⟩ := List.nodup_cons.1 hl
    rw [List.foldl_cons, ih hl, tget_tmod]
    by_cases e : k = j
    · subst e
      simp [hj]
    · simp [e]

theorem State.clu_foldl_modClu_of_nodup (s : State) (f : Cluster → Cluster) {l : List Nat} (hl : l.Nodup) (k : Nat) :
    (l.foldl (fun s k => s.modClu k f) s).clu k = if k ∈ l then f (s.clu k) else s.clu k := by
  rw [State.foldl_modClu]
  exact tget_foldl_tmod_of_nodup _ f hl s.cl k

/-- A change of every named cluster, once each. -/
theorem State.clu_foldl_named (s : State) (f : Cluster → Cluster) (v : Nat) {k : Nat} (hk : k < 48) :
    ((maskClusters v).foldl (fun s k => s.modClu k f) s).clu k = if v / 2 ^ k % 2 = 1 then f (s.clu k) else s.clu k := by
  rw [State.clu_foldl_modClu_of_nodup s f (maskClusters_nodup v)]
  simp only [mem_maskClusters, hk, true_and]

theorem State.configure_hparamSet (hb : w.bufModule = false) (h : w.op = 0x1005) :
    s.configure w = (s.loadHset w.context (w.p 0 4) (BitVec.ofNat 256 (w.p 32 256)), 0, 0) := by
  simp only [State.configure, s.buffer_of_host hb, h]

theorem State.configure_lscaleSet (hb : w.bufModule = false) (h : w.op = 0x1004) :
    s.configure w = (s.modCx w.context fun x => { x with ls := lscaleOf (w.p 0 5) (w.p 5 1 == 1) (w.p 6 1 == 1) x.ls.skips }, 0, 0) := by
  simp only [State.configure, s.buffer_of_host hb, h]

/-- The function slot that an FN_LOAD carries (03 R71). -/
def fnSlotOf (w : Waybill) : FnSlot := ⟨w.p 4 3, fnTableOf (slice w.buf 0 w.length) 0, fnTableOf (slice w.buf 0 w.length) 3096⟩

theorem State.configure_fnLoad (hb : w.bufModule = false) (h : w.op = 0x1006) (own : s.foreign w.context (maskClusters (w.p 8 48)) = none) :
    s.configure w
      = ((maskClusters (w.p 8 48)).foldl (fun s k => s.modClu k fun x => { x with slots := tset none x.slots (w.p 0 4) (some (fnSlotOf w)) }) s, 0, 0) := by
  simp only [State.configure, s.buffer_of_host hb, h, own]
  rfl

theorem State.configure_recipeLoad (hb : w.bufModule = false) (h : w.op = 0x1007) (own : s.foreign w.context (maskClusters (w.p 0 48)) = none) :
    s.configure w = ((maskClusters (w.p 0 48)).foldl (fun s k => s.modClu k fun x =>
      { x with recipe := twrite 0 x.recipe (w.p 48 13) (recipeWords (slice w.buf 0 w.length)) }) s, 0, 0) := by
  simp only [State.configure, s.buffer_of_host hb, h, own]

/-- The settings of LSCALE_SET; that one with the scale known clears the clean count and ends a probe is the model's choice (log 100). -/
theorem lscaleOf_fields (exp : Nat) (fixed unknown : Bool) (skips : Nat) :
    let l := lscaleOf exp fixed unknown skips
    l.clean = 0 ∧ l.fixed = fixed ∧ l.skips = skips ∧ (unknown = true → l.exp = 16 ∧ l.probe = true ∧ l.probeLeft = 200)
      ∧ (unknown = false → l.exp = exp ∧ l.probe = false) := by
  cases unknown <;> simp [lscaleOf]

theorem length_slice (bs : List Byte) (off n : Nat) : (slice bs off n).length = n := by
  simp only [slice, List.length_append, List.length_replicate, List.length_take, List.length_drop]
  omega

theorem getD_recipeWords (bs : List Byte) (i : Nat) (hi : i < bs.length / 4) : (recipeWords bs).getD i 0 = BitVec.ofNat 32 (natAt bs (4 * i) 4) := by
  simp [recipeWords, hi]

/-- A recipe read after its words are written (03 R96). -/
theorem tget_recipe (t : Tbl Word) (bs : List Byte) (a i : Nat) :
    tget 0 (twrite 0 t a (recipeWords bs)) (a + i) = if i < bs.length / 4 then BitVec.ofNat 32 (natAt bs (4 * i) 4) else tget 0 t (a + i) := by
  have length : (recipeWords bs).length = bs.length / 4 := by simp [recipeWords]
  rw [tget_twrite, length]
  by_cases h : i < bs.length / 4
  · rw [if_pos (by omega), if_pos h, Nat.add_sub_cancel_left, getD_recipeWords bs i h]
  · rw [if_neg (by omega), if_neg h]

theorem configurationResults : ConfigurationResults := by
  intro s w hb
  refine ⟨fun h => ?_, fun h => ?_, fun h own k hk => ?_, fun h own k hk i => ?_⟩
  · rw [State.configure_hparamSet hb h]
    refine ⟨rfl, fun i => ?_⟩
    simp only [State.loadHset, State.cx_modCx_self, tget_tset]
    exact ⟨trivial, trivial, trivial⟩
  · rw [State.configure_lscaleSet hb h]
    obtain ⟨clean, fixed, skips, unknown, known⟩ := lscaleOf_fields (w.p 0 5) (w.p 5 1 == 1) (w.p 6 1 == 1) (s.cx w.context).ls.skips
    refine ⟨_, rfl, ?_⟩
    rw [State.cx_modCx_self]
    exact ⟨clean, fixed, skips, fun h1 => unknown (by rw [h1]; rfl), fun h0 => known (by rw [h0]; rfl)⟩
  · rw [State.configure_fnLoad hb h (s.foreign_of_own own)]
    refine ⟨rfl, fnSlotOf w, rfl, ?_⟩
    rw [State.clu_foldl_named _ _ _ hk]
    split <;> rfl
  · rw [State.configure_recipeLoad hb h (s.foreign_of_own own), State.clu_foldl_named _ _ _ hk]
    by_cases named : w.p 0 48 / 2 ^ k % 2 = 1
    · simp only [named, if_true, true_and]
      rw [tget_recipe, length_slice]
    · simp only [named, if_false, false_and]

/-! ### The life of a context (08 R253) -/

theorem State.releaseShelf_eq (s : State) (i : Nat) : ∃ C, s.releaseShelf i = { s with cel := C } := by
  refine List.foldlRecOn (motive := fun u : State => ∃ C, u = { s with cel := C }) _ _ ⟨_, rfl⟩ ?_
  rintro _ ⟨C, rfl⟩ id -
  split <;> exact ⟨_, rfl⟩

/-- A release of shelf windows changes nothing outside the cellar (06 R177). -/
theorem State.releaseShelves_eq (s : State) (p : Shelf → Bool) : ∃ C, s.releaseShelves p = { s with cel := C } := by
  refine List.foldlRecOn (motive := fun u : State => ∃ C, u = { s with cel := C }) _ _ ⟨_, rfl⟩ ?_
  rintro _ ⟨C, rfl⟩ i -
  split
  · split
    · exact State.releaseShelf_eq ..
    · exact ⟨_, rfl⟩
  · exact ⟨_, rfl⟩

theorem exec_ctxCreate_of_live (h : begins s w 0x1001 u bs) (live : (u.cx w.context).live = true) :
    exec (.ctxCreate w) s = .next ((u.finish w 0x0201 0 0).sweepWbs) := by
  simp only [exec, execCtxCreate, State.startWb_of_begins h, live, if_true]

/-- The context that CTX_CREATE makes of slot x (08 R253; 11 Table 11-7). -/
def Ctx.created (x : Ctx) (w : Waybill) : Ctx :=
  { x.fresh with
    live := true, seed := BitVec.ofNat 64 (w.p 0 64), cursor := BitVec.ofNat 64 (w.p 64 64)
    ls := lscaleOf (w.p 128 5) (w.p 133 1 == 1) (w.p 134 1 == 1) x.ls.skips }

theorem exec_ctxCreate_of_not_live (h : begins s w 0x1001 u bs) (live : (u.cx w.context).live = false) :
    exec (.ctxCreate w) s = .next (((u.modCx w.context fun _ => (u.cx w.context).created w).finish w 0 0 0).sweepWbs) := by
  simp only [exec, execCtxCreate, State.startWb_of_begins h, live, Bool.false_eq_true, if_false]
  rfl

theorem State.foldl_modCor_cl (s : State) (g : Nat → Nat) (f : Core → Core) (l : List Nat) : (l.foldl (fun s i => s.modCor (g i) f) s).cl = s.cl :=
  List.foldlRecOn l _ (motive := fun u : State => u.cl = s.cl) rfl fun _ h _ _ => h

theorem State.clearCluster_clu (s : State) (k j : Nat) : (s.clearCluster k).clu j = if j = k then { s.clu k with slots := [] } else s.clu j := by
  have kept (i : Nat) := congrArg (tget Cluster.init · i) (State.foldl_modCor_cl (s.clear .tier0 (tier0Key (k * 32) 0) (32 * 2 ^ 18)) (k * 32 + ·)
    (fun x => { x with strands := [], badWords := [] }) (List.range 32))
  rw [State.clearCluster, State.clu_modClu]
  simp only [State.clu, kept]
  rfl

theorem State.freeCluster_owner (s : State) (k j : Nat) : ((s.freeCluster k).clu j).owner = if j = k then none else (s.clu j).owner := by
  rw [State.freeCluster, State.clu_modClu, s.clearCluster_clu k j]
  split <;> rfl

theorem State.foldl_freeCluster_owner (s : State) (l : List Nat) (k : Nat) :
    ((l.foldl State.freeCluster s).clu k).owner = if k ∈ l then none else (s.clu k).owner := by
  induction l generalizing s with
  | nil => simp
  | cons j l ih =>
    rw [List.foldl_cons, ih, State.freeCluster_owner]
    by_cases hl : k ∈ l <;> by_cases hj : k = j <;> simp [hl, hj]

/-- Once its clusters are given up a context owns none. -/
theorem State.not_owned_of_freed (s : State) (c : Nat) {k : Nat} (hk : k < 48) : (((s.owned c).foldl State.freeCluster s).clu k).owner ≠ some c := by
  rw [State.foldl_freeCluster_owner]
  split
  · simp
  next other => exact fun owner => other (List.mem_filter.2 ⟨List.mem_range.2 hk, beq_iff_eq.2 owner⟩)

/-- However a context stood, its end gives up its clusters and leaves its slot empty (11 Table 11-7). -/
theorem exec_ctxEnd (h : begins s w 0x1002 u bs) : ∃ (v : State) (p : Shelf → Bool), exec (.ctxEnd w) s
    = .next ((((((v.owned w.context).foldl State.freeCluster v).releaseShelves p).modCx w.context Ctx.fresh).finish w 0 0 0).sweepWbs) := by
  simp only [exec, execCtxEnd, State.startWb_of_begins h]
  exact ⟨_, _, rfl⟩

theorem contextLifetime : ContextLifetime := by
  intro s u w bs
  refine ⟨exec_ctxCreate_of_live, fun h live => ⟨(u.cx w.context).created w, rfl, rfl, rfl, rfl, rfl, rfl, rfl, rfl, rfl, exec_ctxCreate_of_not_live h live⟩,
    fun h => ?_⟩
  obtain ⟨v, p, ends⟩ := exec_ctxEnd h
  obtain ⟨C, released⟩ := ((v.owned w.context).foldl State.freeCluster v).releaseShelves_eq p
  refine ⟨_, ends, ?_⟩
  rw [State.cx_modCx_self]
  refine ⟨rfl, rfl, rfl, rfl, fun k hk => ?_⟩
  rw [State.clu, State.modCx_cl, released]
  exact v.not_owned_of_freed w.context hk

end

/-- Settles O27: configuration waybills at a step boundary and inside a step, what four of them set, and contexts created and ended. -/
theorem configurationAndContexts : Obligations.ConfigurationAndContexts := ⟨configurationWaybills, configurationResults, contextLifetime⟩

end Sys2Proof.Machine

namespace Sys2Proof.Machine

open Sys2Proof Sys2Proof.Claims

/-! ### What work in the cellar leaves as it was (06 R174 to R194) -/

/-- State t is s after work in the cellar: it may differ in outputs, memories, the cellar, the host interface, the MC's records, clusters, cores and stacks. -/
def CellarWork (s t : State) : Prop :=
  ∃ (o : List Output) (m : Mems) (e : Cellar) (h : HostIf) (c : Mc) (y : Tbl Cluster) (z : Tbl Core) (b : Hbm),
    t = { s with out := o, mem := m, cel := e, host := h, mc := c, cl := y, cores := z, hbm := b }

section

variable {s t u : State}

theorem CellarWork.of_parts {o : List Output} {m : Mems} {e : Cellar} {h : HostIf} {c : Mc} {y : Tbl Cluster} {z : Tbl Core} {b : Hbm} :
    CellarWork s { s with out := o, mem := m, cel := e, host := h, mc := c, cl := y, cores := z, hbm := b } := ⟨o, m, e, h, c, y, z, b, rfl⟩

theorem CellarWork.refl (s : State) : CellarWork s s := .of_parts

theorem CellarWork.trans (h : CellarWork s t) (h' : CellarWork t u) : CellarWork s u := by
  obtain ⟨_, _, _, _, _, _, _, _, rfl⟩ := h
  obtain ⟨_, _, _, _, _, _, _, _, rfl⟩ := h'
  exact .of_parts

theorem CellarWork.of_reported (h : Reported s t) : CellarWork s t := by
  obtain ⟨_, _, _, _, rfl⟩ := h
  exact .of_parts

theorem CellarWork.ctx (h : CellarWork s t) : t.ctx = s.ctx := by obtain ⟨_, _, _, _, _, _, _, _, rfl⟩ := h; rfl
theorem CellarWork.legs (h : CellarWork s t) : t.legs = s.legs := by obtain ⟨_, _, _, _, _, _, _, _, rfl⟩ := h; rfl

theorem CellarWork.ite {p : Prop} [Decidable p] (h : CellarWork s t) (h' : CellarWork s u) : CellarWork s (if p then t else u) := by
  split
  · exact h
  · exact h'

theorem CellarWork.foldl {α : Type} {f : State → α → State} (hf : ∀ s a, CellarWork s (f s a)) (l : List α) (s : State) : CellarWork s (l.foldl f s) :=
  List.foldlRecOn l f (motive := CellarWork s) (.refl s) fun _ h a _ => h.trans (hf _ a)

/-- The state of a pair that an equation names. -/
theorem CellarWork.of_eq {α : Type} {p : State × α} {x : α} (h : CellarWork s p.1) (e : p = (t, x)) : CellarWork s t := by
  rw [e] at h
  exact h

/-! Memories and the poison tables -/

theorem State.write_eq (s : State) (sp : Space) (a : Nat) (bs : List Byte) : ∃ m, s.write sp a bs = { s with mem := m } := by
  unfold State.write
  split <;> exact ⟨_, rfl⟩

theorem State.write_cellar (s : State) (sp : Space) (a : Nat) (bs : List Byte) : CellarWork s (s.write sp a bs) := by
  obtain ⟨m, e⟩ := s.write_eq sp a bs
  rw [e]
  exact .of_parts

theorem State.enterPoison_cellar (s : State) (a : Nat) : CellarWork s (s.enterPoison a) := by
  unfold State.enterPoison
  extract_lets h k
  refine .ite (.refl s) (.ite .of_parts (.trans ?_ (.of_reported (State.fault_reported ..))))
  exact .of_parts

theorem State.leavePoison_cellar (s : State) (a : Nat) : CellarWork s (s.leavePoison a) := .ite .of_parts (.refl s)

theorem State.putTier_cellar (s : State) (a : Nat) (l : Line) : CellarWork s (s.putTier a l) := by
  unfold State.putTier
  split
  · exact .refl s
  · exact (s.leavePoison_cellar a).trans (State.write_cellar ..)

/-! Lines at their home -/

theorem State.putHome_cellar (s : State) (id : LineId) (h : HomeLine) : CellarWork s (s.putHome id h) := .of_parts

theorem State.putData_cellar (s : State) (id : LineId) (direct : Bool) (l : Line) : CellarWork s (s.putData id direct l) := by
  cases id with
  | scratch k off => exact .trans .of_parts (.ite (State.putHome_cellar ..) (State.write_cellar ..))
  | window k a => exact .ite (State.putTier_cellar ..) (State.putHome_cellar ..)

/-- Modified copies written back one after another. -/
theorem State.writeBack_cellar (s : State) (id : LineId) (direct : Bool) (l : List L1Line) :
    CellarWork s (l.foldl (fun s x => if x.modified then s.putData id direct x.data else s) s) :=
  .foldl (fun _ _ => .ite (State.putData_cellar ..) (.refl _)) l s

theorem State.recallAll_cellar (s : State) (id : LineId) (direct : Bool) : CellarWork s (s.recallAll id direct) :=
  (s.writeBack_cellar id direct _).trans .of_parts

theorem State.demote_cellar (s : State) (id : LineId) (direct : Bool) : CellarWork s (s.demote id direct) :=
  (s.writeBack_cellar id direct _).trans .of_parts

/-! Replacement -/

theorem State.evict_cellar (s : State) (id : LineId) : CellarWork s (s.evict id) := by
  cases id with
  | scratch k off =>
    exact .ite (.refl s) ((s.recallAll_cellar _ false).trans (.ite (.trans (State.putHome_cellar ..) (State.write_cellar ..)) (State.putHome_cellar ..)))
  | window k a =>
    refine .trans (.ite ?_ ?_) (State.putHome_cellar ..)
    · exact .trans .of_parts (State.enterPoison_cellar ..)
    · exact (State.recallAll_cellar ..).trans (.ite (State.putTier_cellar ..) (.refl _))

theorem State.trimKeeps_cellar (s : State) (k set : Nat) : CellarWork s (s.trimKeeps k set) := .foldl (fun _ _ => State.putHome_cellar ..) _ s

theorem State.makeRoom_cellar {k set : Nat} (h : s.makeRoom k set = some t) : CellarWork s t := by
  unfold State.makeRoom at h
  extract_lets ls order passed at h
  split at h
  · obtain rfl := Option.some.inj h
    exact .refl s
  split at h
  · exact absurd h (by simp)
  next =>
    extract_lets counted at h
    obtain rfl := Option.some.inj h
    exact .trans .of_parts (.trans (.ite .of_parts (.refl _)) (State.evict_cellar ..))

theorem State.allocate_cellar {c k a set hint fills : Nat} {st : LineSt} {dirty : Bool} {data : Line}
    (h : s.allocate c k a set hint st fills dirty data = some t) : CellarWork s t := by
  unfold State.allocate at h
  extract_lets trimmed at h
  split at h
  · exact absurd h (by simp)
  next roomy hroom =>
    obtain rfl := Option.some.inj h
    exact (s.trimKeeps_cellar k set).trans ((State.makeRoom_cellar hroom).trans .of_parts)

theorem State.fill_cellar {c k a set hint : Nat} (h : s.fill c k a set hint = some t) : CellarWork s t := State.allocate_cellar h

theorem State.bringEvac_cellar {id : LineId} {hint : Nat} {full : Option Line} (h : s.bringEvac id hint full = some t) : CellarWork s t := by
  obtain ⟨roomy, hroom, rfl⟩ := Option.map_eq_some_iff.1 h
  exact (State.trimKeeps_cellar ..).trans ((State.makeRoom_cellar hroom).trans .of_parts)

/-! Copies -/

theorem State.touch_cellar (s : State) (id : LineId) (hint : Nat) : CellarWork s (s.touch id hint) := by
  unfold State.touch
  split
  · exact .refl s
  · exact .of_parts

theorem State.settleCopies_cellar (s : State) (id : LineId) (direct : Bool) (hint : Nat) : CellarWork s (s.settleCopies id direct hint) :=
  (State.putHome_cellar ..).trans (.ite (.refl _) (State.touch_cellar ..))

theorem State.settle_cellar (s : State) (id : LineId) (direct : Bool) (hint : Nat) : CellarWork s (s.settle id direct hint) := by
  unfold State.settle
  extract_lets k settled line stamped cel next l
  have h : CellarWork s next := (s.settleCopies_cellar id direct hint).trans (.ite (.refl _) .of_parts)
  clear_value next
  split
  · exact h
  split
  · exact h.trans ((State.recallAll_cellar ..).trans (State.settleCopies_cellar ..))
  · exact h

/-! The home protocol (06 Table 6-7) -/

theorem State.serve_cellar (s : State) (id : LineId) (direct : Bool) (hint : Nat) (ev : HomeEvent) : CellarWork s (s.serve id direct hint ev).1 := by
  cases ev <;> dsimp -zeta only [State.serve]
  case l1Read core =>
    extract_lets shared own
    have h : CellarWork s shared := .ite (s.demote_cellar id direct) (.refl s)
    cases own
    case some => exact h.trans (State.settle_cellar ..)
    case none => exact h.trans (.trans .of_parts (State.settle_cellar ..))
  case l1Write core =>
    split
    · exact State.settle_cellar ..
    · exact (s.recallAll_cellar id direct).trans (.trans .of_parts (State.settle_cellar ..))
  case dropCopy core => exact .trans .of_parts (State.settle_cellar ..)
  case ownerEvict core m d =>
    split
    · exact .trans .of_parts (.trans (.ite (State.putData_cellar ..) (.refl _)) (State.settle_cellar ..))
    · exact .refl s
  case tileRead => exact .trans (.ite (s.demote_cellar id direct) (.refl s)) (State.settle_cellar ..)
  case writeAtHome mask d => exact (s.recallAll_cellar id direct).trans ((State.putData_cellar ..).trans (State.settle_cellar ..))
  case fullLineWrite d => exact (s.recallAll_cellar id direct).trans ((State.putData_cellar ..).trans (State.settle_cellar ..))
  case victim =>
    split
    · exact .refl s
    split
    · exact (s.recallAll_cellar id true).trans .of_parts
    cases id with
    | scratch k off => exact s.evict_cellar (.scratch k off)
    | window k a => exact .trans (.ite .of_parts (.refl s)) (State.evict_cellar _ (.window k a))

theorem State.waitOver_cellar (s : State) (id : LineId) : CellarWork s (s.waitOver id) := .ite .of_parts (.refl s)

theorem State.homeServe_cellar (s : State) (c : Nat) (id : LineId) (direct : Bool) (set hint : Nat) (ev : HomeEvent) :
    CellarWork s (s.homeServe c id direct set hint ev).1 := by
  unfold State.homeServe
  extract_lets h
  split
  case h_1 =>
    cases ev
    case victim => exact .of_parts
    all_goals exact .refl s
  case h_2 =>
    cases ev
    case fullLineWrite d =>
      refine CellarWork.trans ?_ ((State.putData_cellar ..).trans (State.settle_cellar ..))
      cases id
      case scratch k off => exact .of_parts
      case window k a => exact (State.putHome_cellar ..).trans (.ite (.refl _) (State.leavePoison_cellar ..))
    case victim => exact s.evict_cellar id
    all_goals exact .refl s
  case h_3 =>
    cases id
    case scratch k off =>
      cases ev
      case victim | dropCopy | ownerEvict => exact .refl s
      case fullLineWrite d =>
        dsimp only
        split
        next hb => exact State.bringEvac_cellar hb
        next => exact .of_parts
      all_goals
        dsimp only
        split
        next hb => exact (State.bringEvac_cellar hb).trans (State.serve_cellar ..)
        next => exact .of_parts
    case window k a =>
      dsimp only
      split
      · cases ev
        case victim => exact .refl s
        case fullLineWrite d => exact s.serve_cellar ..
        all_goals
          dsimp only
          split
          · exact .refl s
          · exact s.serve_cellar ..
      · cases ev
        case victim | dropCopy | ownerEvict => exact .refl s
        case fullLineWrite d =>
          dsimp only
          split
          next hb => exact State.allocate_cellar hb
          next => exact .of_parts
        all_goals
          dsimp only
          split
          next => exact .of_parts
          next hb =>
            split
            · exact State.fill_cellar hb
            · exact (State.fill_cellar hb).trans (State.serve_cellar ..)
  all_goals exact s.serve_cellar ..

theorem State.homeStep_cellar (s : State) (c : Nat) (id : LineId) (direct : Bool) (set hint : Nat) (ev : HomeEvent) :
    CellarWork s (s.homeStep c id direct set hint ev).1 := by
  have h := s.homeServe_cellar c id direct set hint ev
  unfold State.homeStep
  dsimp only
  split
  · split
    · exact h
    · exact h.trans (State.waitOver_cellar ..)
  · exact h

/-! Locks and what they hold back (06 R190, R192 to R194) -/

theorem State.holdReq_cellar (s : State) (id : LineId) (h : HeldReq) : CellarWork s (s.holdReq id h) := .of_parts

theorem State.immApply_cellar (s : State) (o : ImmReq) : CellarWork s (s.immApply o) :=
  (s.recallAll_cellar ..).trans ((State.putData_cellar ..).trans ((State.settle_cellar ..).trans .of_parts))

theorem State.tryHeld_cellar (s : State) (h : HeldReq) : CellarWork s (s.tryHeld h) := by
  cases h with
  | req r =>
    refine .ite (s.holdReq_cellar ..) ?_
    have h := s.homeStep_cellar r.ctx r.line (s.isDirect r.line) (s.setFor r.ctx r.line) r.hint r.ev
    split
    next e => exact (h.of_eq e).trans (State.holdReq_cellar ..)
    next => exact s.holdReq_cellar ..
    next e => exact h.of_eq e
  | imm o =>
    refine .ite (s.holdReq_cellar ..) ?_
    split
    · exact s.holdReq_cellar ..
    · exact .of_parts
    · exact .of_parts
    · exact s.immApply_cellar o

theorem State.serveHeld_cellar (s : State) (id : LineId) : CellarWork s (s.serveHeld id) := by
  refine CellarWork.trans (t := s.modCol (s.pressCol id) fun x => { x with waiters := x.waiters.filter (fun w => w.2.2.1 != id) }) .of_parts ?_
  exact .trans .of_parts (.foldl State.tryHeld_cellar _ _)

theorem State.closeLock_cellar (s : State) (id : LineId) : CellarWork s (s.closeLock id) :=
  .ite (.refl s) (.trans .of_parts ((State.putHome_cellar ..).trans (State.serveHeld_cellar ..)))

end

/-! ### The close of a step (08 R292) -/

section

variable {s u v : State} {c t energy peak : Nat} {r : StepRun}

theorem Reported.ctx (h : Reported s u) : u.ctx = s.ctx := by obtain ⟨_, _, _, _, rfl⟩ := h; rfl
theorem Reported.cl (h : Reported s u) : u.cl = s.cl := by obtain ⟨_, _, _, _, rfl⟩ := h; rfl
theorem Reported.legs (h : Reported s u) : u.legs = s.legs := by obtain ⟨_, _, _, _, rfl⟩ := h; rfl

theorem State.receiptDue_reported (s : State) (n : Nat) (r : BitVec 256) (irqNow : Bool) : Reported s (s.receiptDue n r irqNow) := by
  unfold State.receiptDue
  split
  · obtain ⟨o, m, h, e⟩ := s.postReceipt_eq n r irqNow
    exact ⟨o, m, h, s.mc, e⟩
  · exact ⟨_, _, _, _, rfl⟩

theorem State.finish_reported (s : State) (w : Waybill) (status detail detail2 : Nat) : Reported s (s.finish w status detail detail2) := by
  unfold State.finish
  split
  · exact Reported.refl s
  extract_lets erased host fewer
  split
  · exact ⟨_, _, _, _, rfl⟩
  split
  · exact ⟨_, _, _, _, rfl⟩
  · exact Reported.trans (t := fewer) ⟨_, _, _, _, rfl⟩ (State.receiptDue_reported ..)

theorem State.closeStepLocks_cellar (s : State) (c : Nat) : CellarWork s (s.closeStepLocks c) := by
  unfold State.closeStepLocks
  extract_lets keep cel sent settled
  exact .trans (t := settled) (.trans (t := sent) .of_parts (.foldl (fun _ _ => .of_parts) _ _)) (.foldl State.closeLock_cellar _ _)

theorem State.freeBlocks_clu (s : State) (c : Nat) {k : Nat} (hk : k < 48) : ∀ b ∈ ((s.freeBlocks c).clu k).blocks, b.ctx ≠ c := by
  have h := s.allClu_clu (fun x => { x with blocks := x.blocks.filter fun b => b.ctx != c }) (by simp) hk
  intro b hb
  rw [show s.freeBlocks c = s.allClu (fun x => { x with blocks := x.blocks.filter fun b => b.ctx != c }) from rfl, h] at hb
  simpa using (List.mem_filter.1 hb).2

theorem State.freeBlocks_cellar (s : State) (c : Nat) : CellarWork s (s.freeBlocks c) := .foldl (fun _ _ => .of_parts) _ _

theorem length_bytesOfNat (n v : Nat) : (bytesOfNat n v).length = n := by
  induction n generalizing v with
  | zero => rfl
  | succ n ih => rw [bytesOfNat, List.length_cons, ih]

/-- A record holds 256 bytes and 16 for each micro-batch (08 R293). -/
theorem stepRecord_length (c : Nat) (old new : Ctx) (r : StepRun) (close energyJ peakW : Nat) :
    (stepRecord c old new r close energyJ peakW).length = 256 + 16 * r.mcount := by
  have entry : ∀ mu, (r.muEntry mu).length = 16 := fun mu => length_bytesOfNat ..
  simp [stepRecord, length_bytesOfNat, List.length_flatMap, entry, Nat.mul_comm]

/-- The loss scale after a step: a void step leaves it as it was. -/
def LScale.after (l : LScale) (r : StepRun) : LScale × Bool := if r.decision = some .void_ then (l, false) else l.update r

/-- Context x past its step r, with its new loss scale. -/
def Ctx.moveOn (x : Ctx) (r : StepRun) (ls : LScale) : Ctx :=
  { x.releaseCaravan.releaseStash r with
    cursor := x.cursor + r.advance, step := x.step + 1, ls := ls
    swept := if r.decision = some .sweep then x.swept + 1 else x.swept
    lastSwept := if r.decision = some .sweep then x.step else x.lastSwept
    mirrorValid := x.mirrorValid && r.decision != some .sweep
    mask := { x.mask with restarting := false } }

/-- Context x with the record of its step among its last 16. -/
def Ctx.file (x : Ctx) (record : List Byte) : Ctx := { x with records := (x.records ++ [record]).drop ((x.records.length + 1) - 16), run := none }

/-- The counters that the close computes stay abstract in the check: their 2^20 is not to be evaluated. -/
theorem Ctx.moveOn_records (x : Ctx) (r : StepRun) (ls : LScale) : (x.moveOn r ls).records = x.records := by
  unfold Ctx.moveOn Ctx.releaseStash
  generalize ceilDiv = f
  rfl

theorem Ctx.closed_fields (x : Ctx) (r : StepRun) (record : List Byte) :
    let y := (x.moveOn r (x.ls.after r).1).file record
    y.run = none ∧ y.step = x.step + 1 ∧ y.cursor = x.cursor + r.advance ∧ y.swept = x.swept + (if r.decision = some .sweep then 1 else 0)
      ∧ y.lastSwept = (if r.decision = some .sweep then x.step else x.lastSwept)
      ∧ y.ls = (if r.decision = some .void_ then x.ls else (x.ls.update r).1)
      ∧ y.records = (x.records ++ [record]).drop (x.records.length + 1 - 16) ∧ y.stash = [] ∧ y.car.slots = [] := by
  refine ⟨rfl, rfl, rfl, ?_, rfl, ?_, ?_, rfl, rfl⟩
  · simp only [Ctx.file, Ctx.moveOn]
    split <;> rfl
  · simp only [Ctx.file, Ctx.moveOn, LScale.after]
    split <;> rfl
  · rw [Ctx.file, Ctx.moveOn_records]

/-- A step's record written, its context changed before and after that, and its waybill answered: the other contexts, the clusters and the legs stay. -/
theorem State.recorded_parts (s : State) (c a status detail : Nat) (move file : Ctx → Ctx) (record : List Byte) (w : Waybill) (k : Rat) (p : Shelf → Bool) :
    let u := (((((s.modCx c move).write .host a record).modCx c file).finish w status detail 0).setFactor k).releaseShelves p
    (∀ d, u.cx d = if d = c then file (move (s.cx c)) else s.cx d) ∧ u.cl = s.cl ∧ u.legs = s.legs := by
  intro u
  obtain ⟨m, hm⟩ := (s.modCx c move).write_eq .host a record
  obtain ⟨C, hC⟩ := State.releaseShelves_eq _ p
  have report : Reported _ _ := State.finish_reported (((s.modCx c move).write .host a record).modCx c file) w status detail 0
  have ctx : u.ctx = ((s.modCx c move).modCx c file).ctx := (congrArg State.ctx hC).trans (report.ctx.trans (by rw [hm]; rfl))
  have cl : u.cl = s.cl := (congrArg State.cl hC).trans (report.cl.trans (by rw [hm]; rfl))
  have legs : u.legs = s.legs := (congrArg State.legs hC).trans (report.legs.trans (by rw [hm]; rfl))
  refine ⟨fun d => ?_, cl, legs⟩
  rw [State.cx, ctx, ← State.cx, State.cx_modCx, State.cx_modCx_self]
  split
  · rfl
  next h => exact State.cx_modCx_of_ne _ h _

/-- What the close of a step leaves before the buddy's mirror and the step boundary: its own context closed, its statistics blocks freed, and
the other contexts and the legs as they were. -/
theorem State.closeStep_eq (s : State) (c : Nat) (r : StepRun) (energy peak t : Nat) : ∃ u : State,
    s.closeStep c r energy peak t = (if r.decision = some .sweep then u.sendMirror c (s.cx c).step (u.ctxBlock c) else u).applyBoundary c
      ∧ (∃ x, x.length = 256 + 16 * r.mcount ∧ u.cx c = ((s.cx c).moveOn r ((s.cx c).ls.after r).1).file x) ∧ (∀ d, d ≠ c → u.cx d = s.cx d)
      ∧ (∀ k < 48, ∀ b ∈ (u.clu k).blocks, b.ctx ≠ c) ∧ u.legs = s.legs := by
  unfold State.closeStep
  extract_lets old status
  generalize hp : (if r.decision = some .void_ then (old.ls, false) else old.ls.update r) = p
  have after : (s.cx c).ls.after r = p := hp
  rw [after]
  obtain ⟨ls, ev⟩ := p
  dsimp -zeta only
  extract_lets told unlocked freed moved record written closed answered factored released mirrored
  have work : CellarWork s freed := by
    refine .trans (t := told) (.ite (.of_reported (State.event_reported ..)) (.refl s)) ?_
    exact (told.closeStepLocks_cellar c).trans (.trans .of_parts (State.freeBlocks_cellar ..))
  have blocks : ∀ k < 48, ∀ b ∈ (freed.clu k).blocks, b.ctx ≠ c := fun k hk => State.freeBlocks_clu _ _ hk
  have before : ∀ d, freed.cx d = s.cx d := fun d => congrArg (tget Ctx.init · d) work.ctx
  have length : record.length = 256 + 16 * r.mcount := stepRecord_length ..
  obtain ⟨cx, cl, legs⟩ : (∀ d, released.cx d = if d = c then ((freed.cx c).moveOn r ls).file record else freed.cx d)
      ∧ released.cl = freed.cl ∧ released.legs = freed.legs := freed.recorded_parts c r.record status.1 status.2 (·.moveOn r ls) (·.file record)
    record r.wb (answered.newFactor r energy t) fun w => w.ctx == c && w.cls == 1
  refine ⟨released, rfl, ⟨record, length, ?_⟩, fun d hd => ?_, fun k hk => ?_, legs.trans work.legs⟩
  · rw [cx, if_pos rfl, before]
  · rw [cx, if_neg hd, before]
  · rw [State.clu, cl]
    exact blocks k hk

/-! STEP_CLOSE. That it waits while host DMA is paused is the model's choice (log 104). -/

theorem State.settleStep_of_run_none (h : (s.cx c).run = none) : s.settleStep c = s := by simp only [State.settleStep, h]

theorem exec_stepClose_of_waits (h : (s.cx c).stuck = true ∨ s.host.linkUp = false ∨ s.tg.dmaPaused = true ∨ (s.cx c).run = none) :
    exec (.stepClose c energy peak t) s = .next (s.tick t) := by
  simp only [exec, execStepClose]
  obtain stuck | linkDown | paused | noRun := h
  · rw [if_pos (by simp [show ((s.tick t).cx c).stuck = true from stuck])]
  · rw [if_pos (by simp [linkDown])]
  · rw [if_pos (by simp [paused])]
  · have noRun : ((s.tick t).cx c).run = none := noRun
    rw [State.settleStep_of_run_none noRun, noRun, ite_self]

/-- A step that may close, once its decision and its legs are settled. -/
theorem exec_stepClose_of_run (hs : (s.cx c).stuck = false) (hl : s.host.linkUp = true) (hd : s.tg.dmaPaused = false) (hv : v = (s.tick t).settleStep c)
    (hr : (v.cx c).run = some r) : exec (.stepClose c energy peak t) s
      = .next (if r.decision.isNone || !r.todo.isEmpty || v.legs.any fun g => g.ctx == c && g.inStep then v
          else if r.lostRank then (v.voidStep c t).loseRank c else v.closeStep c r energy peak t) := by
  have goes : (((s.tick t).cx c).stuck || !(s.tick t).host.linkUp || (s.tick t).tg.dmaPaused) = false := by
    rw [show ((s.tick t).cx c).stuck = false from hs, show (s.tick t).host.linkUp = true from hl, show (s.tick t).tg.dmaPaused = false from hd]
    rfl
  subst hv
  simp only [exec, execStepClose, goes, hr, Bool.false_eq_true, if_false]

theorem stepClose : StepClose := by
  intro s c energy peak t
  refine ⟨exec_stepClose_of_waits, fun hs hl hd v r hv hr => ?_⟩
  have run := exec_stepClose_of_run (energy := energy) (peak := peak) hs hl hd hv hr
  refine ⟨fun waits => ?_, fun decided noTodo noLeg => ?_⟩
  · rw [run, if_pos]
    simpa [or_assoc] using waits
  have settled : (r.decision.isNone || !r.todo.isEmpty || v.legs.any fun g => g.ctx == c && g.inStep) = false := by
    simpa [noTodo, Option.isSome_iff_ne_none] using ⟨decided, noLeg⟩
  rw [settled, if_neg Bool.false_ne_true] at run
  refine ⟨fun lost => by rw [run, if_pos lost], fun kept => ?_⟩
  obtain ⟨u, closes, ⟨x, length, closed⟩, others, blocks, legs⟩ := v.closeStep_eq c r energy peak t
  refine ⟨u, by rw [run, kept, if_neg Bool.false_ne_true, closes], ?_⟩
  obtain ⟨noRun, step, cursor, swept, lastSwept, ls, records, stash, slots⟩ := (v.cx c).closed_fields r x
  rw [closed]
  exact ⟨noRun, step, cursor, swept, lastSwept, ls, ⟨x, length, records⟩, stash, slots, blocks, others, legs⟩

end

/-! ### The loss scale after a step (02 R59) -/

section

variable {l : LScale} {r : StepRun}

/-- One step of a probe counted; the last of them ends the probe (02 R63). -/
def LScale.countProbe (l : LScale) : LScale :=
  if l.probe then
    if l.probeLeft = 1 then { l with probe := false, probeLeft := 0, clean := 0 } else { l with probeLeft := l.probeLeft - 1 }
  else l

/-- The exponent that a step is counted with: the lowest of the group after a mismatch (02 R60). -/
def LScale.used (l : LScale) (r : StepRun) : Nat := if r.mismatch then r.minExp else l.exp

/-- A skip counted; the scale is halved unless it is fixed and does not probe. -/
def LScale.skipped (l : LScale) (r : StepRun) : LScale :=
  { l with exp := if l.probe || !l.fixed then l.used r - 1 else l.used r, clean := 0, skips := min (l.skips + 1) 0xFFFF }

/-- A clean step counted; the last of an interval raises the scale. -/
def LScale.counted (l : LScale) : LScale :=
  if l.clean + 1 = (if l.probe then 50 else 2000) then { l with exp := if l.exp < 24 then l.exp + 1 else l.exp, clean := 0 } else { l with clean := l.clean + 1 }

theorem LScale.update_of_skip (h : r.decision = some .skip) : l.update r = ((l.skipped r).countProbe, decide (l.used r = 0)) := by
  have halved : (if l.used r = 0 then 0 else if l.probe || !l.fixed then l.used r - 1 else l.used r)
      = if l.probe || !l.fixed then l.used r - 1 else l.used r := by
    split_ifs with zero <;> omega
  rw [LScale.skipped, ← halved]
  simp only [LScale.update, if_pos h]
  rfl

theorem LScale.update_of_moves (h : r.decision ≠ some .skip) (hd : (l.probe || !l.fixed) = true) : l.update r = (l.counted.countProbe, false) := by
  simp only [LScale.update, if_neg h, if_pos hd, LScale.counted]
  generalize (if l.probe = true then 50 else 2000) = interval
  split <;> rfl

theorem LScale.update_of_stays (h : r.decision ≠ some .skip) (hf : l.fixed = true) (hp : l.probe = false) : l.update r = (l, false) := by
  simp [LScale.update, h, hf, hp]

theorem LScale.countProbe_of_not_probe (h : l.probe = false) : l.countProbe = l := by simp [LScale.countProbe, h]

theorem LScale.countProbe_of_probe (h : l.probe = true) : (l.countProbe.probe = false ↔ l.probeLeft = 1) ∧ l.countProbe.probeLeft = l.probeLeft - 1 := by
  by_cases last : l.probeLeft = 1 <;> simp [LScale.countProbe, h, last]

@[simp] theorem LScale.countProbe_exp (l : LScale) : l.countProbe.exp = l.exp := by
  unfold LScale.countProbe
  split_ifs <;> rfl

@[simp] theorem LScale.countProbe_skips (l : LScale) : l.countProbe.skips = l.skips := by
  unfold LScale.countProbe
  split_ifs <;> rfl

theorem LScale.countProbe_clean (h : l.clean = 0) : l.countProbe.clean = 0 := by
  unfold LScale.countProbe
  split_ifs
  exacts [rfl, h, h]

/-- A clean step changes neither whether the scale probes nor how many steps the probe has left, nor the skips. -/
theorem LScale.counted_rest (l : LScale) : l.counted.probe = l.probe ∧ l.counted.probeLeft = l.probeLeft ∧ l.counted.skips = l.skips := by
  unfold LScale.counted
  split_ifs <;> exact ⟨rfl, rfl, rfl⟩

theorem lossScale : LossScale := by
  intro l r
  refine ⟨fun skip => ?_, fun goes => ?_, fun probe => ?_⟩
  · rw [LScale.update_of_skip skip]
    refine ⟨LScale.countProbe_skips _, LScale.countProbe_clean rfl, decide_eq_true_iff, fun moves => ?_, fun fixed noProbe => ?_⟩
    · have moves' : (l.probe || !l.fixed) = true := by simpa [or_comm] using moves
      rw [LScale.countProbe_exp, LScale.skipped, if_pos moves', LScale.used]
    · rw [LScale.countProbe_exp, LScale.skipped, fixed, noProbe, LScale.used]
      rfl
  · by_cases moves : (l.probe || !l.fixed) = true
    · rw [LScale.update_of_moves goes moves]
      obtain ⟨probe, -, skips⟩ := l.counted_rest
      refine ⟨rfl, by rw [LScale.countProbe_skips, skips], fun fixed noProbe => ?_, fun _ noProbe => ?_, fun probes => ?_⟩
      · simp [fixed, noProbe] at moves
      · rw [LScale.countProbe_of_not_probe (probe.trans noProbe)]
        simp only [LScale.counted, noProbe]
        exact ⟨fun full => by simp [full], fun short => by simp [short]⟩
      · simp only [LScale.countProbe_exp, LScale.counted, probes]
        exact ⟨fun full => by simp [full], fun short => by simp [short]⟩
    · simp only [Bool.or_eq_true, Bool.not_eq_true', not_or, Bool.not_eq_true, Bool.not_eq_false] at moves
      obtain ⟨noProbe, fixed⟩ := moves
      rw [LScale.update_of_stays goes fixed noProbe]
      simp [fixed, noProbe]
  · by_cases skip : r.decision = some .skip
    · rw [LScale.update_of_skip skip]
      exact LScale.countProbe_of_probe (l := l.skipped r) probe
    · obtain ⟨probes, left, -⟩ := l.counted_rest
      rw [LScale.update_of_moves skip (by rw [probe]; rfl), ← left]
      exact LScale.countProbe_of_probe (probes.trans probe)

end

/-- Settles O49: when and how STEP_CLOSE ends a step, and the loss scale after it. -/
theorem stepEnds : Obligations.StepEnds := ⟨stepClose, lossScale⟩

end Sys2Proof.Machine

namespace Sys2Proof.Machine

open Sys2Proof Sys2Proof.Claims

/-! ### The running sum (04 R109, R111) -/

section

variable (mode : Nat → RMode) (k : Nat) (z : Word)

@[simp] theorem sumFloat_nil : sumFloat mode k z [] = z := rfl

@[simp] theorem sumFloat_cons (x : FVal) (xs : List FVal) :
    sumFloat mode k z (x :: xs) = sumFloat mode (k + 1) (to32m (mode k) ((val32 z).add x)) xs := rfl

/-- The sum may be cut anywhere: the second part takes up the sum and the index that the first one reached (04 R110). -/
theorem sumFloat_append (xs ys : List FVal) : sumFloat mode k z (xs ++ ys) = sumFloat mode (k + xs.length) (sumFloat mode k z xs) ys := by
  induction xs generalizing k z with
  | nil => rfl
  | cons x xs ih =>
    have index : k + (x :: xs).length = k + 1 + xs.length := by rw [List.length_cons]; omega
    rw [List.cons_append, sumFloat_cons, ih, index, sumFloat_cons]

end

theorem State.sumMode_eq (s : State) (c : Nat) (key : StreamKey) (e k : Nat) :
    s.sumMode c key e k = if k < (s.cx c).settings.srThresh ∨ (s.cx c).settings.srOff = true then .near else .stoch (draw16 key 0 e k) := by
  simp only [State.sumMode, Bool.or_eq_true, decide_eq_true_eq]

/-- Settles O17: a running sum of one more term is the sum of the terms before it and then that term alone, in the mode of its index. -/
theorem runningSum : Obligations.RunningSum := by
  refine ⟨fun mode k z xs x => ?_, State.sumMode_eq⟩
  rw [sumFloat_append, sumFloat_cons, sumFloat_nil]

end Sys2Proof.Machine

namespace Sys2Proof.Machine

open Sys2Proof Sys2Proof.Claims

/-! ### The thrash monitor (06 R179, R180) -/

/-- A thrash interval: many fills, and few of them for each eviction (06 R179). -/
def Column.hot (x : Column) : Bool := decide (256 ≤ x.fills ∧ x.fills < 4 * x.evictions)

/-- A column after a thrash interval's end, with thrash_en as given (06 R179, R180). -/
def Column.intervalEnd (x : Column) (en : Bool) : Column := { x with
  fills := 0, evictions := 0, thrashing := x.hot
  quiet := if x.hot || x.quiet + 1 == 16 then 0 else x.quiet + 1
  reduction := if x.hot then (if en then min 12 (x.reduction + 2) else x.reduction) else if x.quiet + 1 = 16 then x.reduction - 2 else x.reduction }

theorem Column.hot_iff (x : Column) : x.hot = true ↔ 256 ≤ x.fills ∧ x.fills < 4 * x.evictions := decide_eq_true_iff

theorem exec_thrashIntervalEnd (s : State) (k : Nat) (u : State) (hu : u = s.modCol k fun x => x.intervalEnd s.cel.thrashEn) :
    exec (.thrashIntervalEnd k) s = .next (if (s.col k).hot && !(s.col k).thrashing && s.cel.thrashWarn then u.event 0x8002 0xF k else u) := by
  subst hu
  simp only [exec, execThrashIntervalEnd, Column.hot]
  rw [State.modCol_congr (g := fun x => x.intervalEnd s.cel.thrashEn) rfl]
  rfl

theorem Column.intervalEnd_of_hot {x : Column} (h : x.hot = true) (en : Bool) :
    (x.intervalEnd en).quiet = 0 ∧ (x.intervalEnd en).reduction = if en = true then min 12 (x.reduction + 2) else x.reduction := by
  simp [Column.intervalEnd, h]

theorem Column.intervalEnd_of_sixteenth {x : Column} (h : x.hot = false) (hq : x.quiet = 15) (en : Bool) :
    (x.intervalEnd en).quiet = 0 ∧ (x.intervalEnd en).reduction = x.reduction - 2 := by
  simp [Column.intervalEnd, h, hq]

theorem Column.intervalEnd_of_quiet {x : Column} (h : x.hot = false) (hq : x.quiet ≠ 15) (en : Bool) :
    (x.intervalEnd en).quiet = x.quiet + 1 ∧ (x.intervalEnd en).reduction = x.reduction := by
  simp [Column.intervalEnd, h, hq]

/-- Settles O38: the end of an interval raises or lowers the column's reduction. That the reduction falls with thrash_en clear too is log 67. -/
theorem thrashReduction : Obligations.ThrashReduction := by
  intro s k
  refine ⟨s.modCol k fun x => x.intervalEnd s.cel.thrashEn, ?_⟩
  rw [exec_thrashIntervalEnd s k _ rfl, State.col_modCol_self]
  refine ⟨?_, rfl, rfl, rfl, fun fills evictions => ?_, fun calm => ?_, rfl, fun j other => State.col_modCol_of_ne s other _, rfl⟩
  · simp only [Bool.and_eq_true, Column.hot_iff, Bool.not_eq_true', and_assoc]
  · exact Column.intervalEnd_of_hot (Column.hot_iff _ |>.2 ⟨fills, evictions⟩) _
  · have cold : (s.col k).hot = false := by
      rw [Column.hot, decide_eq_false_iff_not]
      omega
    exact ⟨fun last => Column.intervalEnd_of_sixteenth cold last _, fun before => Column.intervalEnd_of_quiet cold before _⟩

end Sys2Proof.Machine

namespace Sys2Proof.Machine

open Sys2Proof Sys2Proof.Claims

/-! ### Waits of cores and packets (06 R193, 07 R240 to R243, 09 R317) -/

section

variable {s : State}

theorem HaltWhy.isWell_iff (w : HaltWhy) : w.isWell = true ↔ w = .missing ∨ w = .regen := by
  rw [HaltWhy.isWell, Bool.or_eq_true, beq_iff_eq, beq_iff_eq]

@[simp] theorem State.cx_tick (s : State) (t c : Nat) : (s.tick t).cx c = s.cx c := rfl

/-! Halts on caravan and stash tiles -/

/-- A core that no longer stands where it stood has gone on, and the end of a well-halt is counted (07 R241). -/
theorem State.tryHalt_of_gone {cl : Nat} {r : DescRun} {h : Halt}
    (gone : ∀ q ∈ ((s.retry cl r.desc h.core).clu cl).runs, q.desc = r.desc → ∀ g ∈ q.halts, h.goesOn g = false) :
    (s.tryHalt cl r h).1 = if h.why = .missing ∨ h.why = .regen then (s.retry cl r.desc h.core).countHalt r.ctx h.tile else s.retry cl r.desc h.core := by
  have none : ((((s.retry cl r.desc h.core).clu cl).runs.find? fun q => q.desc == r.desc).bind fun q => q.halts.find? h.goesOn) = none := by
    rw [Option.bind_eq_none_iff]
    intro q found
    rw [List.find?_eq_none]
    intro g stands
    rw [gone q (List.mem_of_find?_eq_some found) (by simpa using List.find?_some found) g stands]
    exact Bool.false_ne_true
  simp only [State.tryHalt, none, HaltWhy.isWell_iff]

theorem exec_wellHaltTimeout {core t : Nat} {pipe : Pipe} {r : DescRun} {h : Halt} (stands : (s.tick t).haltedRun core pipe = some (r, h))
    (well : h.why = .missing ∨ h.why = .regen) (live : (s.clu (clusterOf core)).frozen = false) (here : (s.cx r.ctx).parked = false) :
    exec (.wellHaltTimeout core pipe t) s = .next (if t ≤ h.since + 1000000 * (s.cx r.ctx).car.haltLimit then s.tick t
      else if ((s.tick t).tryHalt (clusterOf core) r h).2.map Halt.why = some .missing then
        (((s.tick t).tryHalt (clusterOf core) r h).1.faultTraining 4 r.ctx h.tile).failLeg r.ctx r.leg 0x0407 h.tile 5
      else ((s.tick t).tryHalt (clusterOf core) r h).1) := by
  have waits : ((s.tick t).clu (clusterOf core)).frozen = true ∨ ((s.tick t).cx r.ctx).parked = true
      ∨ t ≤ h.since + ((s.tick t).cx r.ctx).car.haltLimit * 1000000 ∨ (!h.why.isWell) = true ↔ t ≤ h.since + 1000000 * (s.cx r.ctx).car.haltLimit := by
    rw [(HaltWhy.isWell_iff _).2 well, Nat.mul_comm 1000000]
    simp [live, here]
  simp only [exec, execWellHaltTimeout, stands, waits]
  congr 2
  rcases (s.tick t).tryHalt (clusterOf core) r h with ⟨u, _ | g⟩ <;> simp

/-! Press waits -/

/-- The wait of leg l of context c at a line (06 R193). -/
def isWait (c l : Nat) (line : LineId) (w : Nat × Nat × LineId × Nat) : Bool := w.1 == c && w.2.1 == l && w.2.2.1 == line

theorem isWait_iff {c l : Nat} {line : LineId} {w : Nat × Nat × LineId × Nat} : isWait c l line w = true ↔ w.1 = c ∧ w.2.1 = l ∧ w.2.2.1 = line := by
  simp [isWait, and_assoc]

/-- The waits of a leg at a line are over, and its end at the limit is counted (06 R193). -/
def State.endWait (s : State) (c l : Nat) (line : LineId) : State :=
  (s.modCol (s.pressCol line) fun x => { x with waiters := x.waiters.filter fun w => !isWait c l line w }).modCnt (clusterOf (s.pressCol line)) fun x =>
    { x with waitTimeouts := min 0xFF (x.waitTimeouts + 1) }

theorem exec_pressWaitTimeout {c l since t : Nat} {line : LineId} (here : (s.cx c).parked = false)
    (waits : (c, l, line, since) ∈ (s.col (s.pressCol line)).waiters)
    (one : ∀ w ∈ (s.col (s.pressCol line)).waiters, w.1 = c → w.2.1 = l → w.2.2.1 = line → w.2.2.2 = since) :
    exec (.pressWaitTimeout c l line t) s = .next (if since + 1000000 * s.cel.pressWaitMs < t then
      (((s.tick t).endWait c l line).faultTraining 4 c (s.pressCol line)).failLeg c l 0x0404 (s.pressCol line) 1 else s.tick t) := by
  have past : (!(s.cx c).parked && (s.col (s.pressCol line)).waiters.any fun w => isWait c l line w && decide (w.2.2.2 + 1000000 * s.cel.pressWaitMs < t)) = true
      ↔ since + 1000000 * s.cel.pressWaitMs < t := by
    simp only [here, Bool.not_false, Bool.true_and, List.any_eq_true, Bool.and_eq_true, isWait_iff, decide_eq_true_eq]
    constructor
    · rintro ⟨w, stands, ⟨ctx, leg, place⟩, late⟩
      rwa [one w stands ctx leg place] at late
    · exact fun late => ⟨_, waits, ⟨rfl, rfl, rfl⟩, late⟩
  simp only [← past]
  rfl

theorem State.endWait_waiters (s : State) (c l : Nat) (line : LineId) :
    ∀ w ∈ ((s.endWait c l line).col (s.pressCol line)).waiters, ¬(w.1 = c ∧ w.2.1 = l ∧ w.2.2.1 = line) := by
  intro w stands
  have kept : w ∈ ((s.col (s.pressCol line)).waiters.filter fun w => !isWait c l line w) := by
    rw [State.endWait, State.col, State.modCnt_cel] at stands
    rwa [← State.col, State.col_modCol_self] at stands
  rw [← isWait_iff]
  simpa using (List.mem_filter.1 kept).2

/-! Packets in flight -/

theorem exec_linkTimeout_of_stopped {tag t : Nat} {f : Flight} (found : s.fab.flights.find? (fun f => f.p.tag == tag && decide (f.sent + 100000 ≤ t)) = some f)
    (stopped : s.flightStopped f = true) : exec (.linkTimeout tag t) s = .next (s.tick t) := by
  have stopped' : (s.tick t).flightStopped f = true := stopped
  simp only [exec, execLinkTimeout, State.tick_fab, found, stopped', if_true]

/-- The packets of a flight's leg are given up, those that wait to be sent again too. -/
def State.dropFlights (s : State) (f : Flight) : State :=
  { s with fab := { s.fab with
    flights := s.fab.flights.filter fun x => !(x.ctx == f.ctx && x.leg == f.leg)
    later := s.fab.later.filter fun x => !(x.ctx == f.ctx && x.leg == f.leg) } }

theorem exec_linkTimeout_of_running {tag t : Nat} {f : Flight} {g : LegRun}
    (found : s.fab.flights.find? (fun f => f.p.tag == tag && decide (f.sent + 100000 ≤ t)) = some f)
    (runs : s.flightStopped f = false) (leg : s.legOf f.ctx f.leg = some g) :
    exec (.linkTimeout tag t) s = .next (((s.tick t).dropFlights f).failLeg f.ctx f.leg 0x0501 f.p.dst 1) := by
  have runs' : (s.tick t).flightStopped f = false := runs
  have leg' : (((s.tick t).dropFlights f).legOf f.ctx f.leg).isSome = true := by
    rw [show ((s.tick t).dropFlights f).legOf f.ctx f.leg = some g from leg]
    rfl
  simp only [exec, execLinkTimeout, State.tick_fab, found, runs', Bool.false_eq_true, if_false]
  exact congrArg Host.Outcome.next (if_pos leg')

theorem waitLimits : WaitLimits := by
  refine ⟨fun s core t pipe r h stands well live here => exec_wellHaltTimeout stands well live here, fun s c l line t since here waits one => ?_,
    fun s tag t f g found => ⟨exec_linkTimeout_of_stopped found, fun runs leg => ⟨_, exec_linkTimeout_of_running found runs leg, rfl⟩⟩⟩
  refine ⟨_, exec_pressWaitTimeout here waits one, _, rfl, ?_, (s.tick t).endWait_waiters c l line⟩
  exact congrArg (fun x : Cluster => x.cnt.waitTimeouts) (State.clu_modClu_self ..)

theorem waitsEnd : WaitsEnd := by
  refine ⟨?_, ?_⟩
  · rintro s core t pipe r h v u stands rfl rfl
    have runs : exec (.wellHaltEnd core pipe t) s = .next (((s.tick t).bringTile r.ctx h.tile).tryHalt (clusterOf core) r h).1 := by
      simp only [exec, execWellHaltEnd, stands]
    exact ⟨runs, fun gone => by rw [runs, State.tryHalt_of_gone gone]⟩
  · intro s tag f found
    have refusal : ([tag] : List Nat).contains tag = true := by simp
    refine ⟨_, rfl, fun runs => ?_, fun stopped => ?_, ?_⟩
    · simp only [exec, execPacketAcknowledgement, List.foldl_cons, List.foldl_nil, found, refusal]
      exact congrArg Host.Outcome.next (if_neg (ne_true_of_eq_false runs))
    · simp only [exec, execPacketAcknowledgement, List.foldl_cons, List.foldl_nil, found, refusal]
      exact congrArg Host.Outcome.next (if_pos stopped)
    · simp only [exec, execPacketAcknowledgement, List.foldl_cons, List.foldl_nil, found]
      rfl

end

/-- Settles O19: how waits end, at their limits and before them. That a refused packet is sent again at once is log 47. -/
theorem waitsAndLimits : Obligations.WaitsAndLimits := ⟨waitLimits, waitsEnd⟩

end Sys2Proof.Machine

namespace Sys2Proof.Machine

open Sys2Proof Sys2Proof.Claims

/-! ### Words of a line (01 R14) -/

section

variable (l t c : Line) (w : Word)

theorem lineWord_eq (i : Nat) : lineWord l i = l.extractLsb' (32 * i) 32 := rfl

theorem getLsbD_lineWord (i j : Nat) : (lineWord l i).getLsbD j = (decide (j < 32) && l.getLsbD (32 * i + j)) := by
  rw [lineWord_eq, BitVec.getLsbD_extractLsb']

/-- The word mask of `setLineWord` covers the bits of word i. -/
theorem getLsbD_wordMask {i : Nat} (hi : i < 64) (j : Nat) :
    (BitVec.ofNat 2048 ((2 ^ 32 - 1) <<< (32 * i))).getLsbD j = decide (32 * i ≤ j ∧ j < 32 * i + 32) := by
  rw [BitVec.getLsbD_ofNat, Nat.testBit_shiftLeft, Nat.testBit_two_pow_sub_one, Bool.eq_iff_iff]
  simp only [ge_iff_le, Bool.and_eq_true, decide_eq_true_eq]
  omega

theorem getLsbD_setLineWord {i : Nat} (hi : i < 64) (j : Nat) :
    (setLineWord l i w).getLsbD j = if 32 * i ≤ j ∧ j < 32 * i + 32 then w.getLsbD (j - 32 * i) else l.getLsbD j := by
  rw [setLineWord, BitVec.getLsbD_or, BitVec.getLsbD_and, BitVec.getLsbD_not, getLsbD_wordMask hi, BitVec.getLsbD_ofNat, Nat.testBit_shiftLeft]
  by_cases inWord : 32 * i ≤ j ∧ j < 32 * i + 32
  · have low : j < 2048 := by omega
    simp [inWord, low, BitVec.getLsbD]
  · have clear : (decide (32 * i ≤ j) && w.toNat.testBit (j - 32 * i)) = false := by
      by_cases above : 32 * i ≤ j
      · have high : w.toNat.testBit (j - 32 * i) = false := BitVec.getLsbD_of_ge w _ (by omega)
        rw [high, Bool.and_false]
      · simp [above]
    have line : l.getLsbD j = true → j < 2048 := BitVec.lt_of_getLsbD
    simp only [inWord, clear, decide_false, Bool.not_false, Bool.and_true, Bool.and_false, Bool.or_false, if_false]
    exact Bool.and_eq_left_iff_imp.2 (by simpa using line)

theorem lineWord_setLineWord {i j : Nat} (hi : i < 64) : lineWord (setLineWord l i w) j = if j = i then w else lineWord l j := by
  refine BitVec.eq_of_getLsbD_eq fun b hb => ?_
  rw [getLsbD_lineWord, getLsbD_setLineWord l w hi]
  split_ifs with inWord same same
  · subst same; simp [hb]
  · omega
  · omega
  · rw [getLsbD_lineWord]

/-! Ordered operations -/

/-- An operation on words i, i+1 and so on of a line, one word after another, takes each word of the mask once. -/
theorem lineWord_foldl (f : Word → Word → Word) (mask : BitVec 64) {is : List Nat} (distinct : is.Nodup) (low : ∀ i ∈ is, i < 64) (j : Nat) :
    lineWord (is.foldl (fun l i => if mask.getLsbD i then setLineWord l i (f (lineWord l i) (lineWord c i)) else l) t) j
      = if j ∈ is ∧ mask.getLsbD j = true then f (lineWord t j) (lineWord c j) else lineWord t j := by
  induction is generalizing t with
  | nil => simp
  | cons i is ih =>
    obtain ⟨fresh, distinct⟩ := List.nodup_cons.1 distinct
    rw [List.foldl_cons, ih _ distinct fun k hk => low k (List.mem_cons_of_mem _ hk)]
    have word : lineWord (if mask.getLsbD i then setLineWord t i (f (lineWord t i) (lineWord c i)) else t) j
        = if j = i ∧ mask.getLsbD j = true then f (lineWord t j) (lineWord c j) else lineWord t j := by
      split_ifs with masked same same
      · rw [lineWord_setLineWord t _ (low i (List.mem_cons_self ..)), if_pos same.1, same.1]
      · rw [lineWord_setLineWord t _ (low i (List.mem_cons_self ..)), if_neg fun e => same ⟨e, e ▸ masked⟩]
      · exact absurd (same.1 ▸ same.2) masked
      · rfl
    rw [word]
    by_cases same : j = i
    · simp [same, fresh]
    · simp [same]

theorem lineWord_pressLine (op : PressOp) (mask : BitVec 64) {i : Nat} (hi : i < 64) :
    lineWord (pressLine op mask t c) i = if mask.getLsbD i = true then pressWord op (lineWord t i) (lineWord c i) else lineWord t i := by
  rw [pressLine, lineWord_foldl t c (pressWord op) mask List.nodup_range fun _ => List.mem_range.1]
  simp only [List.mem_range, hi, true_and]

theorem pressWords : PressWords := by
  intro op mask t c i hi
  rw [lineWord_pressLine t c op mask hi]
  cases op <;> rfl

end

/-! ### The order of sub-keys (06 R186) -/

theorem keyLe_iff (a b : Contribution) : keyLe a b = true ↔ a.key.s1 < b.key.s1 ∨ (a.key.s1 = b.key.s1 ∧ a.key.s2 ≤ b.key.s2) := decide_eq_true_iff

theorem keyInsert_eq_orderedInsert (x : Contribution) (l : List Contribution) : keyInsert x l = l.orderedInsert (fun a b => keyLe a b = true) x := by
  induction l with
  | nil => rfl
  | cons y l ih => rw [keyInsert, List.orderedInsert_cons, ih]

/-- Contributions are sorted by insertion. -/
theorem keySort_eq_insertionSort (l : List Contribution) : keySort l = l.insertionSort (fun a b => keyLe a b = true) := by
  induction l with
  | nil => rfl
  | cons x l ih => rw [keySort, List.foldr_cons, ← keySort, ih, keyInsert_eq_orderedInsert, List.insertionSort_cons]

theorem subKeyOrder : SubKeyOrder := by
  intro l
  rw [keySort_eq_insertionSort]
  have total : Std.Total fun a b : Contribution => keyLe a b = true := ⟨fun a b => by simp only [keyLe_iff]; omega⟩
  have trans : IsTrans Contribution fun a b => keyLe a b = true := ⟨fun a b c => by simp only [keyLe_iff]; omega⟩
  exact ⟨List.perm_insertionSort _ l, (List.pairwise_insertionSort _ l).imp fun {a b} => (keyLe_iff a b).1⟩

/-- Settles O20: an ordered operation takes each word of its mask once, and contributions apply in the order of their sub-keys. -/
theorem pressOperations : Obligations.PressOperations := ⟨pressWords, subKeyOrder⟩

end Sys2Proof.Machine

namespace Sys2Proof.Machine

open Sys2Proof Sys2Proof.Claims

/-! ### Bytes of memories and lines (00 R3) -/

section

variable {s t : State} {sp : Space}

theorem Mems.sp_put (m : Mems) (sp sp' : Space) (t : Tbl Byte) : (m.put sp t).sp sp' = if sp' = sp then t else m.sp sp' := by
  cases sp <;> cases sp' <;> rfl

/-- A byte is its memory's. -/
theorem State.readByte_congr (h : t.mem = s.mem) (sp : Space) (a : Nat) : t.readByte sp a = s.readByte sp a := by
  rw [State.readByte, State.readByte, h]

/-- A read after a write to a memory other than the host's: the bytes written, and every other byte as before. -/
theorem State.readByte_write (s : State) (noHost : sp ≠ .host) (a : Nat) (bs : List Byte) (sp' : Space) (x : Nat) :
    (s.write sp a bs).readByte sp' x = if sp' = sp ∧ a ≤ x ∧ x < a + bs.length then bs.getD (x - a) 0 else s.readByte sp' x := by
  rw [State.write, if_neg noHost]
  by_cases host : sp' = .host
  · rw [if_neg fun h : sp' = sp ∧ _ => noHost (h.1 ▸ host), State.readByte, State.readByte, if_pos host, if_pos host]
    exact congrArg (hostGet · x) ((Mems.sp_put s.mem sp .host _).trans (if_neg (Ne.symm noHost)))
  · rw [State.readByte, State.readByte, if_neg host, if_neg host, Mems.sp_put]
    by_cases same : sp' = sp
    · subst same
      simp only [if_true, tget_twrite, true_and]
    · simp only [same, if_false, false_and]

theorem State.read_eq (h : s.mem.wf = true) (noHost : sp ≠ .host) (a n : Nat) : s.read sp a n = (List.range n).map fun i => s.readByte sp (a + i) := by
  rw [State.read, if_neg noHost, tread_eq 0 _ (Mems.wf_sp h noHost)]
  exact List.map_congr_left fun i _ => (if_neg noHost).symm

theorem natOfBytes_bytesOfNat (n v : Nat) : natOfBytes (bytesOfNat n v) = v % 256 ^ n := by
  induction n generalizing v with
  | zero => rw [pow_zero, Nat.mod_one, bytesOfNat, natOfBytes]
  | succ n ih =>
    have low : (BitVec.ofNat 8 (v % 256)).toNat = v % 256 := Nat.mod_mod v 256
    rw [bytesOfNat, natOfBytes, ih, low, Nat.pow_succ', Nat.mod_mul]

theorem bytesOfNat_natOfBytes (bs : List Byte) : bytesOfNat bs.length (natOfBytes bs) = bs := by
  induction bs with
  | nil => rfl
  | cons b bs ih =>
    have low : (b.toNat + 256 * natOfBytes bs) % 256 = b.toNat := by have := b.isLt; omega
    have high : (b.toNat + 256 * natOfBytes bs) / 256 = natOfBytes bs := by have := b.isLt; omega
    rw [List.length_cons, natOfBytes, bytesOfNat, low, high, ih, BitVec.ofNat_toNat, BitVec.setWidth_eq]

theorem natOfBytes_lt (bs : List Byte) : natOfBytes bs < 256 ^ bs.length := by
  induction bs with
  | nil => exact Nat.one_pos
  | cons b bs ih =>
    rw [natOfBytes, List.length_cons, Nat.pow_succ']
    have := b.isLt
    omega

/-- A line has the values of 256 bytes. -/
theorem line_values : (256 : Nat) ^ 256 = 2 ^ 2048 := (Nat.pow_mul 2 8 256).symm

@[simp] theorem length_lineBytes (l : Line) : (lineBytes l).length = 256 := length_bytesOfNat ..

@[simp] theorem lineOf_lineBytes (l : Line) : lineOf (lineBytes l) = l := by
  rw [lineOf, List.take_of_length_le (length_lineBytes l).le, lineBytes, natOfBytes_bytesOfNat, line_values, Nat.mod_eq_of_lt l.isLt, BitVec.ofNat_toNat,
    BitVec.setWidth_eq]

theorem lineBytes_lineOf {bs : List Byte} (h : bs.length = 256) : lineBytes (lineOf bs) = bs := by
  have fits : natOfBytes bs < 2 ^ 2048 := by
    rw [← line_values]
    exact h ▸ natOfBytes_lt bs
  rw [lineOf, List.take_of_length_le h.le, lineBytes, BitVec.toNat_ofNat, Nat.mod_eq_of_lt fits]
  exact h ▸ bytesOfNat_natOfBytes bs

theorem State.length_read (s : State) (sp : Space) (h : s.mem.wf = true) (noHost : sp ≠ .host) (a n : Nat) : (s.read sp a n).length = n := by
  rw [State.read_eq h noHost, List.length_map, List.length_range]

/-- The bytes of a line that was read. -/
theorem getD_lineBytes_read (h : s.mem.wf = true) (noHost : sp ≠ .host) (a : Nat) {i : Nat} (hi : i < 256) :
    (lineBytes (lineOf (s.read sp a 256))).getD i 0 = s.readByte sp (a + i) := by
  rw [lineBytes_lineOf (s.length_read sp h noHost a 256), State.read_eq h noHost, List.getD_eq_getElem?_getD, List.getElem?_map, List.getElem?_range hi]
  rfl

theorem State.write_wf (h : s.mem.wf = true) (noHost : sp ≠ .host) (a : Nat) (bs : List Byte) : (s.write sp a bs).mem.wf = true := by
  rw [State.write, if_neg noHost]
  exact Mems.wf_put h sp (by rw [if_neg noHost]; exact twf_twrite 0 a bs (Mems.wf_sp h noHost))

end

end Sys2Proof.Machine

namespace Sys2Proof.Machine

open Sys2Proof Sys2Proof.Claims

/-! ### What arrives at the press (06 R187 to R189) -/

section

variable {s : State} {c : Contribution}

/-! Requests at a ring stop (01 R28) -/

theorem State.atStop_of_refused {id : LineId} {x : RingStop} (h : s.refusingStop id = some x) (wait f : State → State) :
    s.atStop id wait f = s.emit (.ringRefusal x) := by
  simp only [State.atStop, h]

theorem State.atStop_of_paused {id : LineId} (h : s.refusingStop id = none) (hp : s.linePaused id = true) (wait f : State → State) :
    s.atStop id wait f = wait s := by
  simp only [State.atStop, h, hp, if_true]

theorem State.atStop_of_serves {id : LineId} (h : s.refusingStop id = none) (hp : s.linePaused id = false) (wait f : State → State) :
    s.atStop id wait f = f s := by
  simp only [State.atStop, h, hp, Bool.false_eq_true, if_false]

theorem State.isFirst_iff {line : LineId} {src no : Nat} : s.isFirst line src no = true ↔
    (∀ x ∈ s.cel.sent, x.line = line → x.src = src → no ≤ x.no) ∧ ∀ o ∈ s.cel.sentImm, o.line = line → clusterOf o.at_.core = src → no ≤ o.no := by
  simp [State.isFirst]

/-! Contributions of this module -/

/-- A contribution that is no part of a collective is never stale. -/
theorem State.arrive_of_own (h : c.key.coll = false) : s.arrive c = s.pressArrive c (s.setFor c.ctx c.line) := by
  simp [State.arrive, State.isStale, h]

/-- A contribution is no longer on its way. -/
def State.received (s : State) (c : Contribution) : State := { s with cel := { s.cel with sent := s.cel.sent.erase c } }

theorem exec_orderedContributionArrival (sent : c ∈ s.cel.sent) (first : s.isFirst c.line c.src c.no = true) :
    exec (.orderedContributionArrival c) s = .next (s.atStop c.line id fun s => (s.received c).arrive c) := by
  simp only [exec, execOrderedContributionArrival, List.contains_iff_mem.2 sent, first, Bool.and_self, if_true]
  rfl

theorem exec_orderedContributionArrival_of_behind (behind : s.isFirst c.line c.src c.no = false) : exec (.orderedContributionArrival c) s = .next s := by
  simp only [exec, execOrderedContributionArrival, behind, Bool.and_false, Bool.false_eq_true, if_false]

theorem exec_orderedContributionArrival_of_paused (h : s.refusingStop c.line = none) (hp : s.linePaused c.line = true) :
    exec (.orderedContributionArrival c) s = .next s := by
  simp only [exec, execOrderedContributionArrival, State.atStop_of_paused h hp, id, ite_self]

theorem orderedArrivals (s : State) (c : Contribution) (sent : c ∈ s.cel.sent) (serves : s.refusingStop c.line = none) (open_ : s.linePaused c.line = false)
    (own : c.key.coll = false) :
    ((∀ x ∈ s.cel.sent, x.line = c.line → x.src = c.src → c.no ≤ x.no) →
      (∀ o ∈ s.cel.sentImm, o.line = c.line → clusterOf o.at_.core = c.src → c.no ≤ o.no) →
      exec (.orderedContributionArrival c) s = .next ((s.received c).pressArrive c ((s.received c).setFor c.ctx c.line)))
    ∧ ((∃ x ∈ s.cel.sent, x.line = c.line ∧ x.src = c.src ∧ x.no < c.no) → exec (.orderedContributionArrival c) s = .next s) := by
  refine ⟨fun sentLater immLater => ?_, fun ⟨x, earlier, line, src, no⟩ => ?_⟩
  · rw [exec_orderedContributionArrival sent (State.isFirst_iff.2 ⟨sentLater, immLater⟩), State.atStop_of_serves serves open_, State.arrive_of_own own]
  · refine exec_orderedContributionArrival_of_behind (Bool.eq_false_iff.2 fun first => ?_)
    have := (State.isFirst_iff.1 first).1 x earlier line src
    omega

/-! Contributions sent again (06 R188) -/

/-- A refused contribution leaves its home column, and its source counts the refusal; once, where source and home share a cluster (log 105). -/
def State.resent (s : State) (c : Contribution) : State :=
  let u := s.modCol (s.pressCol c.line) fun x => { x with refused := x.refused.erase c }
  if c.src = clusterOf (s.pressCol c.line) then u else u.countRefusal c.src

theorem exec_contributionResend (refused : c ∈ (s.col (s.pressCol c.line)).refused) :
    exec (.contributionResend c) s = .next (s.atStop c.line id fun s => (s.resent c).arrive c) := by
  simp only [exec, execContributionResend, List.contains_iff_mem.2 refused, if_true]
  simp only [State.atStop, State.resent]

theorem exec_contributionResend_of_paused (h : s.refusingStop c.line = none) (hp : s.linePaused c.line = true) : exec (.contributionResend c) s = .next s := by
  simp only [exec, execContributionResend, State.atStop_of_paused h hp, id, ite_self]

theorem State.resent_refusals (s : State) (c : Contribution) : ((s.resent c).clu c.src).cnt.refusals
    = if c.src = clusterOf (s.pressCol c.line) then (s.clu c.src).cnt.refusals else min 0xFFFF ((s.clu c.src).cnt.refusals + 1) := by
  unfold State.resent
  split
  · rfl
  · exact congrArg (fun x : Cluster => x.cnt.refusals) (State.clu_modClu_self ..)

theorem State.resent_cel (s : State) (c : Contribution) :
    (s.resent c).cel = (s.modCol (s.pressCol c.line) fun x => { x with refused := x.refused.erase c }).cel := by
  unfold State.resent
  split <;> rfl

theorem State.resent_refused (s : State) (c : Contribution) :
    ((s.resent c).col (s.pressCol c.line)).refused = (s.col (s.pressCol c.line)).refused.erase c := by
  rw [State.col, State.resent_cel, ← State.col, State.col_modCol_self]

theorem State.resent_mem (s : State) (c : Contribution) : (s.resent c).mem = s.mem := by
  unfold State.resent
  split <;> rfl

/-! Completion notices (06 R187) -/

theorem exec_completionNoticeArrival {nt : Notice} {r : StepRun} (run : (s.cx nt.ctx).run = some r) (new : nt ∉ r.noticesIn) (due : s.noticeDue nt r = true) :
    exec (.completionNoticeArrival nt) s = .next ((s.modRun nt.ctx fun r => { r with noticesIn := r.noticesIn ++ [nt] }).advanceAll nt.ctx) := by
  have new' : r.noticesIn.contains nt = false := by simpa using new
  simp only [exec, execCompletionNoticeArrival, run, new', due, Bool.not_true, Bool.or_false, Bool.false_eq_true, if_false]

theorem pressArrivals : PressArrivals := by
  refine ⟨orderedArrivals, fun s c refused serves open_ own => ?_, fun s c x stop => ⟨fun refused => ?_, fun sent first => ?_⟩,
    fun s c serves paused => ⟨exec_contributionResend_of_paused serves paused, exec_orderedContributionArrival_of_paused serves paused⟩,
    fun s nt r run new due => exec_completionNoticeArrival run new due⟩
  · refine ⟨s.resent c, s.resent_refusals c, s.resent_refused c, s.resent_mem c, ?_⟩
    rw [exec_contributionResend refused, State.atStop_of_serves serves open_, State.arrive_of_own own]
  · rw [exec_contributionResend refused, State.atStop_of_refused stop]
  · rw [exec_orderedContributionArrival sent first, State.atStop_of_refused stop]

/-! Contributions outside any step (06 R189) -/

/-- An ordered contribution outside any step applies at once at a line that is under its lock, and marks its leg. -/
theorem State.pressArrive_of_locked (outside : c.inStep = false) (locked : (s.homeLine c.line).st = .rl) (set : Nat) :
    s.pressArrive c set = (s.modLeg c.ctx c.leg fun g => { g with orderDep := true }).pressApply c := by
  have taken : s.takeLock c set = some s := by simp only [State.takeLock, locked, if_true]
  have sound : ((s.modLeg c.ctx c.leg fun g => { g with orderDep := true }).homeLine c.line).st ≠ .pz := fun h => by
    rw [show (s.modLeg c.ctx c.leg fun g => { g with orderDep := true }).homeLine c.line = s.homeLine c.line from rfl, locked] at h
    cases h
  simp only [State.pressArrive, outside, Bool.false_eq_true, if_false, taken]
  exact if_neg sound

/-- Data stored at a scratch line of a column in the map are written to its scratch part; beside them moved tiles may turn dirty. -/
theorem State.putData_scratch {k : Nat} (h : (s.col k).leftMap = false) (off : Nat) (direct : Bool) (l : Line) :
    ∃ m, s.putData (.scratch k off) direct l = ({ s with cel := { s.cel with moved := m } } : State).write .scratch (colKey k off) (lineBytes l) := by
  refine ⟨s.cel.moved.map fun m => if m.1.contains (.scratch k off) then (m.1, true) else m, ?_⟩
  simp only [State.putData, State.evacHeld, State.evacLine, State.scratchSpace, State.col]
  rw [State.col] at h
  simp only [h]
  rfl

theorem State.homeData_scratch {k : Nat} (h : (s.col k).leftMap = false) (off : Nat) (direct : Bool) :
    s.homeData (.scratch k off) direct = lineOf (s.read .scratch (colKey k off) 256) := by
  simp [State.homeData, State.evacHeld, State.evacLine, State.scratchSpace, h]

/-- The home data of a scratch line are the data written there last. -/
theorem State.homeData_of_written {t : State} {k off : Nat} {l : Line} (hm : s.mem.wf = true) (here : (t.col k).leftMap = false)
    (written : t.mem = (s.write .scratch (colKey k off) (lineBytes l)).mem) (direct : Bool) : t.homeData (.scratch k off) direct = l := by
  have wf : t.mem.wf = true := written ▸ State.write_wf hm (by decide) _ _
  have bytes : t.read .scratch (colKey k off) 256 = lineBytes l := by
    rw [State.read_eq wf (by decide)]
    refine List.ext_getElem (by simp) fun i hi hi' => ?_
    have low : i < 256 := by simpa using hi
    rw [List.getElem_map, List.getElem_range, State.readByte_congr written, State.readByte_write _ (by decide), if_pos (by simp; omega),
      Nat.add_sub_cancel_left, List.getD_eq_getElem _ _ hi']
  rw [State.homeData_scratch here, bytes, lineOf_lineBytes]

/-- An ordered operation outside any step changes words at its line, no column and no leg (06 R185). -/
theorem State.pressApply_scratch {k off : Nat} (line : c.line = .scratch k off) (outside : c.inStep = false) (h : (s.col k).leftMap = false) :
    (s.pressApply c).mem = (s.write .scratch (colKey k off) (lineBytes (pressLine c.op c.mask (s.homeData c.line false) c.data))).mem
    ∧ (s.pressApply c).cel.columns = s.cel.columns ∧ (s.pressApply c).legs = s.legs := by
  obtain ⟨m, put⟩ := State.putData_scratch h off false (pressLine c.op c.mask (s.homeData c.line false) c.data)
  rw [← line] at put
  simp only [State.pressApply, put, outside, Bool.false_eq_true, if_false]
  exact ⟨rfl, rfl, rfl⟩

theorem State.legOf_modLeg_self (s : State) (c l : Nat) (f : LegRun → LegRun) (hf : ∀ g, (f g).ctx = g.ctx ∧ (f g).id = g.id) :
    (s.modLeg c l f).legOf c l = (s.legOf c l).map f := by
  have same : (fun x : LegRun => x.ctx == c && x.id == l) ∘ (fun x => if x.ctx == c && x.id == l then f x else x) = fun x => x.ctx == c && x.id == l := by
    funext x
    dsimp only [Function.comp]
    split
    · rw [(hf x).1, (hf x).2]
    · rfl
  rw [State.legOf, State.modLeg, List.find?_map, same, ← State.legOf]
  cases found : s.legOf c l with
  | none => rfl
  | some g => exact congrArg some (if_pos (List.find?_some found))

theorem unorderedPress : UnorderedPress := by
  intro s c k off line outside own sent first serves open_ wf locked here
  obtain ⟨v, hv⟩ : ∃ v, v = (s.received c).modLeg c.ctx c.leg fun g => { g with orderDep := true } := ⟨_, rfl⟩
  have data : v.homeData c.line false = s.homeData c.line false := by rw [hv]; rfl
  have there : (v.col k).leftMap = false := by rw [hv]; exact here
  obtain ⟨stored, columns, legs⟩ := State.pressApply_scratch (s := v) line outside there
  have locked' : ((s.received c).homeLine c.line).st = .rl := locked
  have runs : exec (.orderedContributionArrival c) s = .next (v.pressApply c) := by
    rw [exec_orderedContributionArrival sent first, State.atStop_of_serves serves open_, State.arrive_of_own own, State.pressArrive_of_locked outside locked', hv]
  have written : (v.pressApply c).mem = (s.write .scratch (colKey k off) (lineBytes (pressLine c.op c.mask (s.homeData c.line false) c.data))).mem := by
    rw [stored, data, hv]
    rfl
  have outsideLine (sp : Space) (a : Nat) (other : ¬(sp = .scratch ∧ colKey k off ≤ a ∧ a < colKey k off + 256)) :
      (v.pressApply c).readByte sp a = s.readByte sp a := by
    rw [State.readByte_congr written, State.readByte_write s (by decide), length_lineBytes, if_neg other]
  refine ⟨_, runs, ?_, fun a far => outsideLine _ a (by omega), fun sp a other => outsideLine sp a fun h => other h.1, fun g found => ?_⟩
  · rw [line]
    rw [line] at written
    refine State.homeData_of_written wf ?_ written false
    rw [State.col, columns]
    exact there
  · have marked : (v.pressApply c).legOf c.ctx c.leg = (s.legOf c.ctx c.leg).map fun g => { g with orderDep := true } := by
      rw [State.legOf, legs, hv]
      exact (s.received c).legOf_modLeg_self c.ctx c.leg _ fun _ => ⟨rfl, rfl⟩
    rw [marked] at found
    obtain ⟨g', -, rfl⟩ := Option.map_eq_some_iff.1 found
    rfl

end

/-- Settles O21: arrivals at the press. That a refusal whose source and home share a cluster counts once is log 105. -/
theorem pressTraffic : Obligations.PressTraffic := ⟨pressArrivals, unorderedPress⟩

end Sys2Proof.Machine

namespace Sys2Proof.Machine

open Sys2Proof Sys2Proof.Claims

/-! ### The directory's limit behind an immediate operation (06 R182, R192)

A request at a line brings the directory of its column within 8,192 entries, and so may recall another line's copies. -/

section

variable {s t : State}

theorem State.settleCopies_mem (s : State) (id : LineId) (direct : Bool) (hint : Nat) : (s.settleCopies id direct hint).mem = s.mem := by
  have touched (v : State) : (v.touch id hint).mem = v.mem := by
    unfold State.touch
    split <;> rfl
  simp only [State.settleCopies]
  split
  · rfl
  · exact touched _

/-- A line without copies whose column's directory stands above its limit: the copies of the oldest other entry are recalled. -/
theorem State.settle_of_crowded {id : LineId} {direct : Bool} {hint : Nat} {e : LineId × HomeLine} (ht : t = s.settleCopies id direct hint)
    (alone : (t.homeLine id).shared = false) (crowded : 8192 < (t.directory (colNo id)).length)
    (chosen : oldest ((t.directory (colNo id)).filter fun e => e.1 != id) = some e) :
    s.settle id direct hint = (t.recallAll e.1 e.2.direct).settleCopies e.1 e.2.direct 0 := by
  subst ht
  simp only [State.settle, alone, Bool.not_false, if_true, if_neg (Nat.not_le.2 crowded), chosen]

/-- The one modified copy of a scratch line is written back when it is recalled (06 R184). -/
theorem State.recallAll_mem_of_modified {k off : Nat} {x : L1Line} (here : (s.col k).leftMap = false)
    (copies : (s.cel.l1.filter fun y => y.line == .scratch k off) = [x]) (modified : x.modified = true) (direct : Bool) :
    (s.recallAll (.scratch k off) direct).mem = (s.write .scratch (colKey k off) (lineBytes x.data)).mem := by
  obtain ⟨m, put⟩ := State.putData_scratch here off direct x.data
  simp only [State.recallAll, copies, List.foldl_cons, List.foldl_nil, modified, if_true, put]
  rfl

theorem lget_of_unlisted {α : Type} (d : α) {l : List (LineId × α)} {id : LineId} (h : ∀ e ∈ l, e.1 ≠ id) : lget d l id = d := by
  induction l with
  | nil => rfl
  | cons e l ih => rw [lget, if_neg (h e (List.mem_cons_self ..)), ih fun x hx => h x (List.mem_cons_of_mem _ hx)]

/-- Of entries used at the same time the first counts as the oldest. -/
theorem oldest_of_same_stamp {l : List (LineId × HomeLine)} {n : Nat} (x : LineId × HomeLine) (h : ∀ e ∈ x :: l, e.2.dirStamp = n) :
    oldest (x :: l) = some x := by
  induction l generalizing x with
  | nil => rfl
  | cons y l ih =>
    have same : x.2.dirStamp = y.2.dirStamp := (h x (by simp)).trans (h y (by simp)).symm
    rw [oldest, ih y fun e he => h e (List.mem_cons_of_mem _ he)]
    exact congrArg some (if_pos same.le)

end

/-! Immediate operations at their home (06 R192) -/

section

variable {s : State} {o : ImmReq}

theorem State.recallAll_of_no_copies {id : LineId} (h : ∀ x ∈ s.cel.l1, x.line ≠ id) (direct : Bool) : s.recallAll id direct = s := by
  have none : (s.cel.l1.filter fun x => x.line == id) = [] := List.filter_eq_nil_iff.2 fun x hx => by simpa using h x hx
  have all : (s.cel.l1.filter fun x => x.line != id) = s.cel.l1 := List.filter_eq_self.2 fun x hx => by simpa using h x hx
  simp only [State.recallAll, none, List.foldl_nil, all]

theorem State.immApply_mem (alone : ∀ x ∈ s.cel.l1, x.line ≠ o.line) : ∃ l, (s.immApply o).mem = ((s.putData o.line false l).settle o.line false 0).mem := by
  simp only [State.immApply, State.recallAll_of_no_copies alone]
  exact ⟨_, rfl⟩

theorem getD_lineBytes_zero (l : Line) : (lineBytes l).getD 0 0 = BitVec.ofNat 8 (l.toNat % 256) := rfl

/-- An immediate operation that no ring stop refuses, no pause holds back, and that finds its line in V takes effect. -/
theorem exec_immediateOperationArrival_of_v {u : State} (sent : o ∈ s.cel.sentImm) (first : s.isFirst o.line (clusterOf o.at_.core) o.no = true)
    (serves : s.refusingStop o.line = none) (open_ : s.linePaused o.line = false) (valid : (s.homeLine o.line).st = .v)
    (hu : u = { s with cel := { s.cel with sentImm := s.cel.sentImm.erase o } }) : exec (.immediateOperationArrival o) s = .next (u.immApply o) := by
  have valid' : (u.homeLine o.line).st = .v := by rw [hu]; exact valid
  have arrives : u.immArrive o = some (u.immApply o) := by
    simp only [State.immArrive, valid', reduceCtorEq, if_false, Option.map_some]
  simp only [exec, execImmediateOperationArrival, List.contains_iff_mem.2 sent, first, Bool.and_self, if_true, State.atStop_of_serves serves open_, ← hu,
    arrives, Option.getD_some]

end

/-! A column whose directory is above its limit -/

/-- The record of a line that core 0 shares. -/
def sharedByCore0 : HomeLine := { HomeLine.init with st := .s, sharers := [0] }

/-- Core 0's modified copy of the second line of column 0. -/
def secondCopy : L1Line := ⟨0, .scratch 0 256, 1, true, true⟩

/-- Directory entries of n lines of column 0, from the second line on. -/
def crowd (n : Nat) : List (LineId × HomeLine) := (List.range n).map fun i => (.scratch 0 (256 * (i + 1)), sharedByCore0)

theorem mem_crowd {n : Nat} {e : LineId × HomeLine} (h : e ∈ crowd n) : e.1 ≠ .scratch 0 0 ∧ colNo e.1 = 0 ∧ e.2 = sharedByCore0 := by
  obtain ⟨i, -, rfl⟩ := List.mem_map.1 h
  exact ⟨fun first => by injection first; omega, rfl, rfl⟩

theorem oldest_crowd (n : Nat) : oldest (crowd (n + 1)) = some (.scratch 0 256, sharedByCore0) := by
  have listed : ∀ e ∈ crowd (n + 1), e.2.dirStamp = 0 := fun e he => by rw [(mem_crowd he).2.2]; rfl
  rw [crowd, List.range_succ_eq_map, List.map_cons] at listed ⊢
  exact oldest_of_same_stamp _ listed

/-- The directory of column 0 lists n lines, its first line not among them, and core 0 holds a modified copy of the second. -/
structure Crowded (n : Nat) (s : State) : Prop where
  lines : s.cel.lines = crowd n
  copies : s.cel.l1 = [secondCopy]
  columns : s.cel.columns = []

section

variable {n : Nat} {s : State}

theorem Crowded.col (h : Crowded n s) (k : Nat) : s.col k = Column.init := by rw [State.col, h.columns, tget]

theorem Crowded.homeLine (h : Crowded n s) : s.homeLine (.scratch 0 0) = { HomeLine.init with st := .v } := by
  have absent : lget HomeLine.init s.cel.lines (.scratch 0 0) = HomeLine.init := h.lines ▸ lget_of_unlisted _ fun e he => (mem_crowd he).1
  simp only [State.homeLine, absent, State.evacLine, h.col]
  rfl

theorem Crowded.putHome (h : Crowded n s) : Crowded n (s.putHome (.scratch 0 0) { HomeLine.init with st := .v }) := by
  refine ⟨?_, h.copies, h.columns⟩
  have unlisted : (s.putHome (.scratch 0 0) { HomeLine.init with st := .v }).cel.lines = lset HomeLine.init s.cel.lines (.scratch 0 0) HomeLine.init := by
    simp only [State.putHome, State.evacLine, h.col]
    rfl
  rw [unlisted, lset, if_pos rfl, h.lines]
  exact List.filter_eq_self.2 fun e he => decide_eq_true (mem_crowd he).1

theorem Crowded.settleCopies (h : Crowded n s) : Crowded n (s.settleCopies (.scratch 0 0) false 0) := by
  have alone : s.copies (.scratch 0 0) = [] := by rw [State.copies, h.copies]; rfl
  have unowned : (s.cel.l1.find? fun x => x.line == .scratch 0 0 && x.writable) = none := by rw [h.copies]; rfl
  have untouched (v : State) (hv : Crowded n v) : v.touch (.scratch 0 0) 0 = v := by
    simp only [State.touch, State.evacHeld, State.evacLine, hv.col]
    rfl
  simp only [State.settleCopies, alone, unowned, h.homeLine]
  exact (untouched _ h.putHome).symm ▸ h.putHome

theorem Crowded.sentImm (h : Crowded n s) (l : List ImmReq) : Crowded n { s with cel := { s.cel with sentImm := l } } := ⟨h.lines, h.copies, h.columns⟩

theorem Crowded.directory (h : Crowded n s) : s.directory 0 = crowd n := by
  rw [State.directory, h.lines]
  refine List.filter_eq_self.2 fun e he => ?_
  obtain ⟨-, column, record⟩ := mem_crowd he
  rw [column, record]
  rfl

/-- A request at the first line settles the directory: the copy of the second line is written back. -/
theorem Crowded.settle (h : Crowded n s) (full : 8192 < n) :
    (s.settle (.scratch 0 0) false 0).mem = (s.write .scratch 256 (lineBytes secondCopy.data)).mem := by
  obtain ⟨t, ht⟩ : ∃ t, t = s.settleCopies (.scratch 0 0) false 0 := ⟨_, rfl⟩
  have crowds : Crowded n t := ht ▸ h.settleCopies
  have others : (crowd n).filter (fun e => e.1 != .scratch 0 0) = crowd n := List.filter_eq_self.2 fun e he => bne_iff_ne.2 (mem_crowd he).1
  have chosen : oldest ((t.directory 0).filter fun e => e.1 != .scratch 0 0) = some (.scratch 0 256, sharedByCore0) := by
    obtain ⟨m, rfl⟩ : ∃ m, n = m + 1 := ⟨n - 1, by omega⟩
    rw [crowds.directory, others, oldest_crowd]
  have alone : (t.homeLine (.scratch 0 0)).shared = false := by rw [crowds.homeLine]; rfl
  have above : 8192 < (t.directory 0).length := by rwa [crowds.directory, crowd, List.length_map, List.length_range]
  have copy : (t.cel.l1.filter fun y => y.line == .scratch 0 256) = [secondCopy] := by rw [crowds.copies]; rfl
  have here : (t.col 0).leftMap = false := by rw [crowds.col]; rfl
  have same : t.mem = s.mem := by rw [ht, State.settleCopies_mem]
  rw [State.settle_of_crowded ht alone above chosen, State.settleCopies_mem]
  refine (State.recallAll_mem_of_modified here copy rfl _).trans ?_
  simp only [State.write, same]
  rfl

end

/-- An addition of 0 to word 0 of the first line of column 0. -/
def addZero : ImmReq := ⟨0, .scratch 0 0, 0, .add, 0, 0, ⟨0, 0⟩, 0, 1, 0⟩

/-- The block with power, the addition on its way, and n lines in the directory of column 0. -/
def crowded (n : Nat) : State :=
  { State.reset with
    cel := { State.reset.cel with sentImm := [addZero], lines := crowd n, l1 := [secondCopy] }
    pwr := { State.reset.pwr with stages := List.replicate 8 .up } }

theorem crowded_crowds (n : Nat) : Crowded n (crowded n) := ⟨rfl, rfl, rfl⟩

/-- The operation writes its word, and then the directory recalls the second line. -/
theorem Crowded.immApply {n : Nat} {s : State} (h : Crowded n s) (full : 8192 < n) : (s.immApply addZero).readByte .scratch 256 = 1 := by
  have alone : ∀ x ∈ s.cel.l1, x.line ≠ .scratch 0 0 := by rw [h.copies]; decide
  have here : (s.col 0).leftMap = false := by rw [h.col]; rfl
  obtain ⟨l, applied⟩ := State.immApply_mem (o := addZero) alone
  obtain ⟨m, put⟩ := State.putData_scratch here 0 false l
  have crowds : Crowded n (s.putData (.scratch 0 0) false l) := by rw [put]; exact ⟨h.lines, h.copies, h.columns⟩
  have settled : (s.immApply addZero).mem = ((s.putData (.scratch 0 0) false l).write .scratch 256 (lineBytes secondCopy.data)).mem :=
    applied.trans (crowds.settle full)
  have one : secondCopy.data.toNat = 1 := Nat.mod_eq_of_lt (Nat.one_lt_two_pow (by decide))
  rw [State.readByte_congr settled, State.readByte_write _ (by decide), if_pos (by simp), Nat.sub_self, getD_lineBytes_zero, one]
  rfl

/-- Refutes O22: the statement asks nothing of the directory, and where that of the line's column lists more than 8,192 entries, the immediate operation also
recalls the copies of another line, a modified one of which reaches the scratch part (06 R182). -/
theorem not_homeProtocol : ¬ Obligations.HomeProtocol := by
  rintro ⟨immediate, -, -⟩
  have valid : ((crowded 8193).homeLine addZero.line).st = .v := congrArg HomeLine.st (crowded_crowds 8193).homeLine
  have sent : addZero ∈ (crowded 8193).cel.sentImm := by decide
  have first : (crowded 8193).isFirst addZero.line (clusterOf addZero.at_.core) addZero.no = true := by decide
  have serves : (crowded 8193).refusingStop addZero.line = none := by decide
  have open_ : (crowded 8193).linePaused addZero.line = false := by decide
  have alone : ∀ x ∈ (crowded 8193).cel.l1, x.line ≠ addZero.line := by decide
  obtain ⟨-, applies, -⟩ := immediate (crowded 8193) addZero 0 0 sent rfl first serves open_ rfl
  rw [valid] at applies
  obtain ⟨t, runs, -, kept, -⟩ := applies (by decide) (by decide) (by decide) alone rfl (by decide)
  rw [exec_immediateOperationArrival_of_v sent first serves open_ valid rfl] at runs
  have unchanged : t.readByte .scratch 256 = 0 := kept 256 (.inr (by decide))
  have written : t.readByte .scratch 256 = 1 := by
    rw [← Host.Outcome.next.inj runs]
    exact ((crowded_crowds 8193).sentImm _).immApply (by decide)
  rw [unchanged] at written
  exact absurd written (by decide)

end Sys2Proof.Machine

namespace Sys2Proof.Machine

open Sys2Proof Sys2Proof.Claims

/-! ### Waybills that can have to wait after their start (11 R388, R393) -/

section

variable {s u : State} {w : Waybill} {op : Nat} {bs : List Byte}

theorem any_eq_false_of_forall {α : Type} {p : α → Bool} {l : List α} (h : ∀ a ∈ l, p a = false) : l.any p = false :=
  List.any_eq_false.2 fun a ha => by rw [h a ha]; exact Bool.false_ne_true

/-- As `startWb_of_begins`, for a further condition on the waybill. -/
theorem State.startWb_of_begins_of_ops (h : begins s w op u bs) {ops : Waybill → Bool} (listed : ops w = true) (f : State → List Byte → State) :
    s.startWb w ops f = (f u bs).sweepWbs := by
  obtain ⟨-, e, v, waits, may, go, rfl⟩ := h
  simp only [State.startWb, waits, listed, may, go]
  rfl

/-- A waybill that begins, no copy of it having started, and that need not wait. -/
theorem State.tryWb_of_begins (h : begins s w op u bs) (fresh : freshWb s w) {ops : Waybill → Bool} (listed : ops w = true)
    {f : State → List Byte → Option State} {t : State} (done : f u bs = some t) : s.tryWb w ops f = t.sweepWbs.sweepWbs := by
  have unstarted : (s.host.wbs.any fun e => e.wb == w && e.started) = false := by
    refine any_eq_false_of_forall fun e listed => ?_
    by_cases same : e.wb = w
    · rw [fresh e listed same, Bool.and_false]
    · rw [beq_eq_false_iff_ne.2 same, Bool.false_and]
  simp only [State.tryWb, unstarted, Bool.and_false, Bool.false_eq_true, if_false]
  rw [State.startWb_of_begins_of_ops h listed]
  simp only [done]

/-! Host traffic and addresses (10 R337, 11 R374) -/

theorem State.outsideMap_eq_true {c : Nat} {l : List Nat} (h : ∃ a ∈ l, s.resolve c none a = .outside) : s.outsideMap c l = true := by
  simpa [State.outsideMap] using h

theorem State.outsideMap_eq_false {c : Nat} {l : List Nat} (h : ∀ a ∈ l, s.resolve c none a ≠ .outside) : s.outsideMap c l = false := by
  simpa [State.outsideMap] using h

theorem trafficRuns.not_waits {l : List Nat} (h : trafficRuns s l) : (!s.hostDma && l.any isTier3) = false := by
  rcases h with runs | inside
  · rw [runs]; rfl
  · rw [any_eq_false_of_forall inside, Bool.and_false]

end

/-! ### Range operations (06 R195, Table 6-9) -/

section

variable {s u : State} {w : Waybill} {op : Nat} {bs : List Byte}

theorem State.rangeWb_of_outside (h : begins s w 0x2005 u bs) (fresh : freshWb s w) (code : w.p 128 3 = op)
    (outside : ∃ a ∈ rangeLines (w.p 0 48) (w.p 64 48), u.resolve w.context none a = .outside) :
    s.rangeWb w op = ((u.finish w 0x0102 160 0).sweepWbs).sweepWbs := by
  have listed : (isOp 0x2005 w && w.p 128 3 == op) = true := by simp [isOp, h.1, code]
  refine State.tryWb_of_begins h fresh listed ?_
  exact if_pos (State.outsideMap_eq_true outside)

/-- The lines of a range one after another, and how many were skipped. -/
def State.rangeRun (s : State) (c op hint : Nat) (l : List Nat) : State × Nat :=
  l.foldl (fun r a => ((r.1.rangeLine c op hint a).1, r.2 + (r.1.rangeLine c op hint a).2)) (s, 0)

theorem State.rangeWb_of_ready (h : begins s w 0x2005 u bs) (fresh : freshWb s w) (code : w.p 128 3 = op)
    (ready : ∀ a ∈ rangeLines (w.p 0 48) (w.p 64 48), u.resolve w.context none a ≠ .outside ∧ (op = 0 → u.noWay w.context a = false)
      ∧ u.placePaused (u.resolve w.context none a) = false) (traffic : trafficRuns u (rangeLines (w.p 0 48) (w.p 64 48))) :
    s.rangeWb w op = (((u.rangeRun w.context op (w.p 132 2) (rangeLines (w.p 0 48) (w.p 64 48))).1.finish w 0
      (u.rangeRun w.context op (w.p 132 2) (rangeLines (w.p 0 48) (w.p 64 48))).2 0).sweepWbs).sweepWbs := by
  have listed : (isOp 0x2005 w && w.p 128 3 == op) = true := by simp [isOp, h.1, code]
  have inside : u.outsideMap w.context (lineAddrs (w.p 0 48) (w.p 64 48)) = false := State.outsideMap_eq_false fun a ha => (ready a ha).1
  have flows : (!u.hostDma && (lineAddrs (w.p 0 48) (w.p 64 48)).any isTier3) = false := traffic.not_waits
  have ways : (op == 0 && (lineAddrs (w.p 0 48) (w.p 64 48)).any (u.noWay w.context)) = false := by
    by_cases prefetch : op = 0
    · have found : (lineAddrs (w.p 0 48) (w.p 64 48)).any (u.noWay w.context) = false := any_eq_false_of_forall fun a ha => (ready a ha).2.1 prefetch
      rw [found, Bool.and_false]
    · rw [beq_eq_false_iff_ne.2 prefetch, Bool.false_and]
  have served : ((lineAddrs (w.p 0 48) (w.p 64 48)).any fun a => u.placePaused (u.resolve w.context none a)) = false :=
    any_eq_false_of_forall fun a ha => (ready a ha).2.2
  refine State.tryWb_of_begins h fresh listed ?_
  simp only [inside, flows, ways, served, Bool.or_self, Bool.false_eq_true, if_false]
  rfl

theorem rangeOperations : RangeOperations := by
  intro q operation s u w bs h fresh code
  have runs : exec (q.1 w) s = .next (s.rangeWb w q.2) := by
    simp only [List.mem_cons, List.not_mem_nil, or_false] at operation
    rcases operation with rfl | rfl | rfl | rfl | rfl <;> rfl
  refine ⟨fun outside => ?_, fun ready traffic => ⟨_, _, rfl, ?_⟩⟩
  · rw [runs, State.rangeWb_of_outside h fresh code outside]
  · rw [runs, State.rangeWb_of_ready h fresh code ready traffic]
    rfl

/-! One line -/

variable {c a k off o set h : Nat} {d : Bool}

theorem State.rangeLine_of_locked (home : s.resolve c none a = .homed (.scratch k off) o d set h) (locked : (s.homeLine (.scratch k off)).st = .rl)
    (op hint : Nat) : s.rangeLine c op hint a = if op = 4 then (s.closeLock (.scratch k off), 0) else (s, 1) := by
  simp only [State.rangeLine, home, locked, if_true]

/-- A scratch line discarded: its copies are dropped, its record is that of a line without copies, and its bytes are 0. -/
def State.discardLine (s : State) (k off : Nat) : State :=
  ((s.dropAll (.scratch k off)).putHome (.scratch k off)
    (if s.evacLine (.scratch k off) then HomeLine.init else { (s.homeLine (.scratch k off)).alone with st := .v })).write
    (s.scratchSpace k) (colKey k off) (List.replicate 256 0)

theorem State.rangeLine_of_scratch (home : s.resolve c none a = .homed (.scratch k off) o d set h) (free : (s.homeLine (.scratch k off)).st ≠ .rl)
    (op hint : Nat) : s.rangeLine c op hint a = if op = 3 then (s.discardLine k off, 0) else (s, 0) := by
  simp only [State.rangeLine, home, free, if_false, if_true, Bool.true_or]
  split
  next => rfl
  next => rfl
  next => rfl
  next => rfl
  next other => exact (if_neg other).symm

theorem State.scratchSpace_ne_host (s : State) (k : Nat) : s.scratchSpace k ≠ .host := by
  unfold State.scratchSpace
  split <;> decide

theorem State.discardLine_readByte (s : State) (k off : Nat) (sp : Space) (b : Nat) : (s.discardLine k off).readByte sp b
    = if sp = s.scratchSpace k ∧ colKey k off ≤ b ∧ b < colKey k off + 256 then 0 else s.readByte sp b := by
  rw [State.discardLine, State.readByte_write _ (s.scratchSpace_ne_host k), List.length_replicate]
  split
  next inLine => exact List.getD_replicate _ (by omega)
  next => rfl

theorem State.discardLine_l1 (s : State) (k off : Nat) : (s.discardLine k off).cel.l1 = s.cel.l1.filter fun x => x.line != .scratch k off := by
  rw [State.discardLine, State.write, if_neg (s.scratchSpace_ne_host k)]
  rfl

theorem rangeLineResults : RangeLineResults := by
  intro s c hint a k off o d set h home
  refine ⟨fun locked => ⟨fun op below => ?_, State.rangeLine_of_locked home locked 4 hint⟩, fun free => ?_⟩
  · rw [State.rangeLine_of_locked home locked, if_neg (by omega)]
  · have line := State.rangeLine_of_scratch home free
    have discarded : s.rangeLine c 3 hint a = (s.discardLine k off, 0) := line 3 hint
    refine ⟨line 0 hint, line 1 hint, line 2 hint, line 4 hint, by rw [discarded], fun i low => ?_, fun sp b other => ?_, fun x held => ?_⟩
    · rw [discarded, State.discardLine_readByte, if_pos ⟨rfl, by omega, by omega⟩]
    · rw [discarded, State.discardLine_readByte, if_neg fun ⟨same, lo, hi⟩ => other.elim (· same) (by omega)]
    · rw [discarded, State.discardLine_l1] at held
      simpa using (List.mem_filter.1 held).2

end

/-- Settles O29: range operations and what each does to one line. -/
theorem rangeWaybills : Obligations.RangeWaybills := ⟨rangeOperations, rangeLineResults⟩

end Sys2Proof.Machine

namespace Sys2Proof.Machine

open Sys2Proof Sys2Proof.Claims

/-! ### Shelf windows and leg images (06 R177, R178; 11 R390) -/

section

variable {s u : State} {w : Waybill} {bs : List Byte}

/-- The shelf window that a SHELF_CREATE asks for (11 Table 11-8). -/
def shelfAsked (w : Waybill) : Shelf := ⟨w.context, w.p 0 48, w.p 64 32, w.p 96 2, w.p 100 4⟩

/-- The cache window of a map that holds the range of a shelf window (06 R177). -/
def cacheWindow (m : List MapEntry) (h : Shelf) : Option MapEntry :=
  m.find? fun e => e.mode == 1 && decide (e.base ≤ h.base ∧ h.base + 4096 * h.pages ≤ e.base + 4096 * e.pages)

/-- The lowest shelf number that is free. -/
def State.freeShelf (s : State) : Option Nat := (List.range 64).find? fun i => (tget none s.cel.shelves i).isNone

theorem State.freeShelf_eq_some {i : Nat} (low : i < 64) (free : tget none s.cel.shelves i = none) (taken : ∀ j < i, tget none s.cel.shelves j ≠ none) :
    s.freeShelf = some i := by
  rw [State.freeShelf, List.find?_range_eq_some]
  exact ⟨by rw [free]; rfl, List.mem_range.2 low, fun j below => by simpa [Option.isSome_iff_ne_none] using taken j below⟩

theorem State.freeShelf_eq_none (taken : ∀ j < 64, tget none s.cel.shelves j ≠ none) : s.freeShelf = none := by
  rw [State.freeShelf, List.find?_range_eq_none]
  exact fun j below => by simpa [Option.isSome_iff_ne_none] using taken j below

theorem exec_shelfCreate (b : begins s w 0x2003 u bs) : exec (.shelfCreate w) s = .next ((match cacheWindow (u.cx w.context).map (shelfAsked w) with
    | none => u.finish w 0x0302 2 0
    | some e =>
      if 12 < u.quotaAt e (shelfAsked w) + (shelfAsked w).quota then u.finish w 0x0302 0 0
      else match u.freeShelf with
        | none => u.finish w 0x0302 1 0
        | some i => { u with cel := { u.cel with shelves := tset none u.cel.shelves i (some (shelfAsked w)) } }.finish w 0 i 0).sweepWbs) :=
  congrArg Host.Outcome.next (State.startWb_of_begins b _)

theorem shelfCreate (b : begins s w 0x2003 u bs) {e : MapEntry} (window : cacheWindow (u.cx w.context).map (shelfAsked w) = some e) (i : Nat) :
    (u.quotaAt e (shelfAsked w) + (shelfAsked w).quota ≤ 12 → i < 64 → tget none u.cel.shelves i = none → (∀ j < i, tget none u.cel.shelves j ≠ none) →
      exec (.shelfCreate w) s
        = .next (({ u with cel := { u.cel with shelves := tset none u.cel.shelves i (some (shelfAsked w)) } }.finish w 0 i 0).sweepWbs))
    ∧ (u.quotaAt e (shelfAsked w) + (shelfAsked w).quota ≤ 12 → (∀ j < 64, tget none u.cel.shelves j ≠ none) →
      exec (.shelfCreate w) s = .next ((u.finish w 0x0302 1 0).sweepWbs))
    ∧ (12 < u.quotaAt e (shelfAsked w) + (shelfAsked w).quota → exec (.shelfCreate w) s = .next ((u.finish w 0x0302 0 0).sweepWbs)) := by
  rw [exec_shelfCreate b, window]
  refine ⟨fun fits low free taken => ?_, fun fits taken => ?_, fun above => ?_⟩
  · simp only [if_neg (Nat.not_lt.2 fits), State.freeShelf_eq_some low free taken]
  · simp only [if_neg (Nat.not_lt.2 fits), State.freeShelf_eq_none taken]
  · simp only [if_pos above]

theorem cacheWindow_eq_none {m : List MapEntry} {h : Shelf}
    (outside : ∀ e ∈ m, e.mode = 1 → e.base ≤ h.base → e.base + 4096 * e.pages < h.base + 4096 * h.pages) : cacheWindow m h = none := by
  rw [cacheWindow, List.find?_eq_none]
  intro e listed holds
  simp only [Bool.and_eq_true, beq_iff_eq, decide_eq_true_eq] at holds
  have := outside e listed holds.1 holds.2.1
  omega

/-- A released shelf window leaves the table; the others stay. -/
theorem State.releaseShelf_shelves (s : State) (i : Nat) : (s.releaseShelf i).cel.shelves = tset none s.cel.shelves i none := by
  unfold State.releaseShelf
  refine List.foldlRecOn (motive := fun t : State => t.cel.shelves = tset none s.cel.shelves i none) _ _ rfl fun t same id _ => ?_
  split
  · exact same
  · exact same

theorem State.releaseShelf_mem (s : State) (i : Nat) : (s.releaseShelf i).mem = s.mem := by
  obtain ⟨C, e⟩ := s.releaseShelf_eq i
  rw [e]

theorem exec_shelfRelease (b : begins s w 0x2004 u bs) : exec (.shelfRelease w) s = .next ((if (tget none u.cel.shelves (w.p 0 6)).isSome then
    (u.releaseShelf (w.p 0 6)).finish w 0 0 0 else u.finish w 0x0102 160 0).sweepWbs) := by
  simp only [exec, execShelfRelease, State.startWb_of_begins b]

theorem exec_legLoad (b : begins s w 0x2001 u bs)
    (free : ∀ i < w.length / 256 + 2, s.lineLocked w.context (w.p 0 48 / 256 * 256 + 256 * i) = false) :
    exec (.legLoad w) s = .next (((u.dmaWrite w.context (w.p 0 48) bs).finish w 0 0 0).sweepWbs) := by
  have unlocked : ((List.range (w.length / 256 + 2)).any fun i => s.lineLocked w.context (w.p 0 48 / 256 * 256 + 256 * i)) = false :=
    any_eq_false_of_forall fun i listed => free i (List.mem_range.1 listed)
  have listed : (isOp 0x2001 w && !((List.range (w.length / 256 + 2)).any fun i => s.lineLocked w.context (w.p 0 48 / 256 * 256 + 256 * i))) = true := by
    simp [isOp, b.1, unlocked]
  exact congrArg Host.Outcome.next (State.startWb_of_begins_of_ops b (ops := fun w' => isOp 0x2001 w'
    && !((List.range (w.length / 256 + 2)).any fun i => s.lineLocked w.context (w.p 0 48 / 256 * 256 + 256 * i))) listed _)

theorem shelfAndLegLoad : ShelfAndLegLoad := by
  intro s u w bs
  refine ⟨fun b e i h hh window => ?_, fun b outside => ?_, fun b held => ?_, fun b free => ?_, fun b free => exec_legLoad b free⟩
  · subst hh
    exact shelfCreate b window i
  · rw [exec_shelfCreate b, cacheWindow_eq_none outside]
  · refine ⟨u.releaseShelf (w.p 0 6), ?_, ?_, fun j other => ?_, u.releaseShelf_mem _⟩
    · obtain ⟨h, held⟩ := held
      rw [exec_shelfRelease b, held]
      rfl
    · rw [State.releaseShelf_shelves, tget_tset, if_pos rfl]
    · rw [State.releaseShelf_shelves, tget_tset, if_neg other]
  · rw [exec_shelfRelease b, free]
    rfl

end

/-! ### Lines of usable tier 2 (07 Table 7-2) -/

section

variable {s u t : State} {c a : Nat}

/-- The usable tier 2 lies below the tier-3 window and the apertures. -/
theorem State.tier2Size_le (s : State) : s.tier2Size ≤ 760 * 2 ^ 30 := by
  unfold State.tier2Size
  split <;> decide

theorem State.resolve_tier2 (low : a < s.tier2Size) (unmapped : s.mapEntry c a = none) : s.resolve c none a = .flat .tier2 a := by
  have := s.tier2Size_le
  simp only [State.resolve, if_neg (show ¬ 0xFC0000000000 ≤ a by omega), if_neg (show ¬(0xF00000000000 ≤ a ∧ a < 0xF40000000000) by omega), unmapped,
    State.backing, if_pos low]

theorem State.isTier3_of_tier2 (low : a < s.tier2Size) : isTier3 a = false := by
  have := s.tier2Size_le
  rw [isTier3, decide_eq_false_iff_not, tier3Base]
  omega

theorem State.cannotWrite_tier2 (low : a < s.tier2Size) (unmapped : s.mapEntry c a = none) : s.cannotWrite c a = false := by
  have := s.tier2Size_le
  have aperture : caravanAddr 0 a = none := if_neg (by omega)
  rw [State.cannotWrite, aperture, State.resolve_tier2 low unmapped]
  rfl

theorem State.takeLine_tier2 (low : a < s.tier2Size) (unmapped : s.mapEntry c a = none) (sound : s.poisoned a = false) :
    s.takeLine c a = (s, some (lineOf (s.read .tier2 a 256))) := by
  simp [State.takeLine, State.resolve_tier2 low unmapped, State.readPlace, sound]

/-- State t is s but for memories and the poison tables. -/
def Stored (s t : State) : Prop := ∃ (m : Mems) (k : Tbl Stack), t = { s with mem := m, hbm := { s.hbm with stk := k } }

theorem Stored.refl (s : State) : Stored s s := ⟨_, _, rfl⟩

theorem Stored.trans (h : Stored s t) (h' : Stored t u) : Stored s u := by
  obtain ⟨_, _, rfl⟩ := h
  obtain ⟨_, _, rfl⟩ := h'
  exact ⟨_, _, rfl⟩

theorem Stored.tier2Size (h : Stored s t) : t.tier2Size = s.tier2Size := by obtain ⟨_, _, rfl⟩ := h; rfl
theorem Stored.mapEntry (h : Stored s t) (c a : Nat) : t.mapEntry c a = s.mapEntry c a := by obtain ⟨_, _, rfl⟩ := h; rfl

theorem State.leavePoison_mem (s : State) (a : Nat) : (s.leavePoison a).mem = s.mem := by
  unfold State.leavePoison
  extract_lets h
  split <;> rfl

theorem State.leavePoison_stored (s : State) (a : Nat) : Stored s (s.leavePoison a) := by
  unfold State.leavePoison
  extract_lets h
  split
  · exact ⟨_, _, rfl⟩
  · exact Stored.refl s

theorem State.storeLine_tier2 (low : a < s.tier2Size) (unmapped : s.mapEntry c a = none) (l : Line) :
    s.storeLine c a l = (s.leavePoison a).write .tier2 a (lineBytes l) := by
  rw [State.storeLine, State.resolve_tier2 low unmapped]
  simp only [State.writePlace, if_true, reduceCtorEq, if_false]

theorem Stored.write (h : Stored s t) (sp : Space) (a : Nat) (bs : List Byte) : Stored s (t.write sp a bs) := by
  obtain ⟨m, written⟩ := t.write_eq sp a bs
  rw [written]
  exact h.trans ⟨m, _, rfl⟩

theorem State.storeLine_stored (low : a < s.tier2Size) (unmapped : s.mapEntry c a = none) (l : Line) : Stored s (s.storeLine c a l) :=
  State.storeLine_tier2 low unmapped l ▸ (s.leavePoison_stored a).write ..

theorem State.storeLine_readByte (low : a < s.tier2Size) (unmapped : s.mapEntry c a = none) (l : Line) (sp : Space) (x : Nat) :
    (s.storeLine c a l).readByte sp x = if sp = .tier2 ∧ a ≤ x ∧ x < a + 256 then (lineBytes l).getD (x - a) 0 else s.readByte sp x := by
  rw [State.storeLine_tier2 low unmapped, State.readByte_write _ (by decide), length_lineBytes, State.readByte_congr (s.leavePoison_mem a)]

theorem lineAddrs_succ (a n : Nat) : lineAddrs a (256 * (n + 1)) = a :: lineAddrs (a + 256) (256 * n) := by
  rw [lineAddrs, lineAddrs, Nat.mul_div_cancel_left _ (by decide), Nat.mul_div_cancel_left _ (by decide), List.range_succ_eq_map, List.map_cons, List.map_map]
  congr 1
  refine List.map_congr_left fun i _ => ?_
  simp only [Function.comp_apply]
  omega

theorem mem_lineAddrs {a n x : Nat} : x ∈ lineAddrs a (256 * n) ↔ ∃ i < n, x = a + 256 * i := by
  simp [lineAddrs, eq_comm]

/-- Lines stored one after another in usable tier 2. -/
def State.storeLines (s : State) (c a : Nat) (ls : List Line) : State :=
  (ls.zip (lineAddrs a (256 * ls.length))).foldl (fun s e => s.storeLine c e.2 e.1) s

theorem State.storeLines_cons (s : State) (c a : Nat) (l : Line) (ls : List Line) :
    s.storeLines c a (l :: ls) = (s.storeLine c a l).storeLines c (a + 256) ls := by
  rw [State.storeLines, List.length_cons, lineAddrs_succ, List.zip_cons_cons, List.foldl_cons, State.storeLines]

/-- The lines stored are read back, and every other byte is as it was. -/
theorem State.storeLines_tier2 (ls : List Line) (low : a + 256 * ls.length ≤ s.tier2Size) (unmapped : ∀ i < ls.length, s.mapEntry c (a + 256 * i) = none) :
    Stored s (s.storeLines c a ls) ∧ ∀ sp x, (s.storeLines c a ls).readByte sp x
      = if sp = .tier2 ∧ a ≤ x ∧ x < a + 256 * ls.length then (ls.flatMap lineBytes).getD (x - a) 0 else s.readByte sp x := by
  induction ls generalizing s a with
  | nil => exact ⟨Stored.refl s, fun sp x => (if_neg fun ⟨_, lo, hi⟩ => by simp at hi; omega).symm⟩
  | cons l ls ih =>
    rw [List.length_cons] at low unmapped
    have low₀ : a < s.tier2Size := by omega
    have unmapped₀ : s.mapEntry c a = none := unmapped 0 (by omega)
    have stored := State.storeLine_stored low₀ unmapped₀ l
    obtain ⟨stored', bytes⟩ := ih (s := s.storeLine c a l) (a := a + 256) (by rw [stored.tier2Size]; omega) fun i below => by
      rw [stored.mapEntry, Nat.add_assoc, ← Nat.mul_succ 256 i |>.trans (Nat.add_comm _ _)]
      exact unmapped (i + 1) (by omega)
    rw [State.storeLines_cons]
    refine ⟨stored.trans stored', fun sp x => ?_⟩
    rw [bytes, State.storeLine_readByte low₀ unmapped₀, List.flatMap_cons, List.length_cons]
    have later : x - a - (lineBytes l).length = x - (a + 256) := by rw [length_lineBytes, Nat.sub_sub]
    by_cases space : sp = .tier2
    · simp only [space, true_and]
      by_cases first : a ≤ x ∧ x < a + 256
      · have inLine : x - a < (lineBytes l).length := by rw [length_lineBytes]; omega
        have notAfter : ¬(a + 256 ≤ x ∧ x < a + 256 + 256 * ls.length) := by omega
        have there : a ≤ x ∧ x < a + 256 * (ls.length + 1) := ⟨by omega, by omega⟩
        rw [if_neg notAfter, if_pos first, if_pos there, List.getD_append _ _ _ _ inLine]
      by_cases after : a + 256 ≤ x ∧ x < a + 256 + 256 * ls.length
      · have pastLine : (lineBytes l).length ≤ x - a := by rw [length_lineBytes]; exact Nat.le_sub_of_add_le' after.1
        have there : a ≤ x ∧ x < a + 256 * (ls.length + 1) := ⟨by omega, by omega⟩
        rw [if_pos after, if_pos there, List.getD_append_right _ _ _ _ pastLine, later]
      · have notThere : ¬(a ≤ x ∧ x < a + 256 * (ls.length + 1)) := fun ⟨lo, hi⟩ => by omega
        rw [if_neg after, if_neg first, if_neg notThere]
    · simp only [space, false_and, if_false]

/-- The lines of a range of usable tier 2. -/
def State.tier2Lines (s : State) (a n : Nat) : List Line := (lineAddrs a (256 * n)).map fun x => lineOf (s.read .tier2 x 256)

theorem State.tier2Lines_succ (s : State) (a n : Nat) :
    s.tier2Lines a (n + 1) = lineOf (s.read .tier2 a 256) :: s.tier2Lines (a + 256) n := by
  rw [State.tier2Lines, lineAddrs_succ, List.map_cons, State.tier2Lines]

theorem State.length_tier2Lines (s : State) (a n : Nat) : (s.tier2Lines a n).length = n := by
  simp [State.tier2Lines, lineAddrs]

theorem State.tier2Lines_bytes (wf : s.mem.wf = true) {n i : Nat} (hi : i < 256 * n) :
    ((s.tier2Lines a n).flatMap lineBytes).getD i 0 = s.readByte .tier2 (a + i) := by
  induction n generalizing a i with
  | zero => omega
  | succ n ih =>
    rw [State.tier2Lines_succ, List.flatMap_cons]
    by_cases first : i < 256
    · rw [List.getD_append _ _ _ _ (by rw [length_lineBytes]; exact first), getD_lineBytes_read wf (by decide) a first]
    · rw [List.getD_append_right _ _ _ _ (by rw [length_lineBytes]; omega), length_lineBytes, ih (by omega),
        show a + 256 + (i - 256) = a + i by omega]

end

end Sys2Proof.Machine

namespace Sys2Proof.Machine

open Sys2Proof Sys2Proof.Claims

/-! ### Copies (11 Table 11-8) -/

section

variable {s u v : State} {w : Waybill} {bs : List Byte} {c : Nat}

/-- Every line of a copy or a move is there, can be written at its target, and need not be waited for. -/
def State.movesNow (s : State) (c : Nat) (src dst : List Nat) : Prop :=
  (∀ a ∈ src, s.resolve c none a ≠ .outside ∧ s.mustWait c a = false) ∧ (∀ a ∈ dst, s.cannotWrite c a = false ∧ s.mustWait c a = false)
    ∧ trafficRuns s (src ++ dst)

theorem State.movesNow.checks {src dst : List Nat} (h : s.movesNow c src dst) : s.outsideMap c src = false ∧ dst.any (s.cannotWrite c) = false
    ∧ ((src ++ dst).any (s.mustWait c) || (!s.hostDma && (src ++ dst).any isTier3)) = false := by
  obtain ⟨there, open_, traffic⟩ := h
  refine ⟨State.outsideMap_eq_false fun a ha => (there a ha).1, any_eq_false_of_forall fun a ha => (open_ a ha).1, ?_⟩
  have free : (src ++ dst).any (s.mustWait c) = false := any_eq_false_of_forall fun a ha =>
    (List.mem_append.1 ha).elim (fun h => (there a h).2) fun h => (open_ a h).2
  rw [free, traffic.not_waits]
  rfl

/-- What a copy or a move of lines comes to (11 Table 11-8): an address outside the map ends the waybill at the field that names it, and while a line must be
waited for nothing is done; else `move` is, and the waybill ends with 0. -/
def State.movedOnce (s : State) (w : Waybill) (src dst : List Nat) (move : State → State) : Option State :=
  if s.outsideMap w.context src then some (s.finish w 0x0102 160 0)
  else if dst.any (s.cannotWrite w.context) then some (s.finish w 0x0102 224 0)
  else if (src ++ dst).any (s.mustWait w.context) || (!s.hostDma && (src ++ dst).any isTier3) then none
  else some ((move s).finish w 0 0 0)

section

variable {src dst : List Nat} (move : State → State)

theorem State.movedOnce_of_outside (outside : ∃ a ∈ src, s.resolve w.context none a = .outside) :
    s.movedOnce w src dst move = some (s.finish w 0x0102 160 0) := if_pos (State.outsideMap_eq_true outside)

theorem State.movedOnce_of_closed (inside : ∀ a ∈ src, s.resolve w.context none a ≠ .outside) (closed : ∃ a ∈ dst, s.cannotWrite w.context a = true) :
    s.movedOnce w src dst move = some (s.finish w 0x0102 224 0) := by
  rw [State.movedOnce, State.outsideMap_eq_false inside, List.any_eq_true.2 closed]
  rfl

theorem State.movedOnce_of_movesNow (now : s.movesNow w.context src dst) : s.movedOnce w src dst move = some ((move s).finish w 0 0 0) := by
  obtain ⟨there, open_, free⟩ := now.checks
  rw [State.movedOnce, there, open_, free]
  rfl

end

theorem exec_copyLines {t : State} (b : begins s w 0x2006 u bs) (fresh : freshWb s w)
    (ends : u.movedOnce w (rangeLines (w.p 0 48) (w.p 128 48)) (rangeLines (w.p 64 48) (w.p 128 48))
      (((rangeLines (w.p 0 48) (w.p 128 48)).zip (rangeLines (w.p 64 48) (w.p 128 48))).foldl (copyLine w.context)) = some t) :
    exec (.copyLines w) s = .next t.sweepWbs.sweepWbs :=
  congrArg Host.Outcome.next (State.tryWb_of_begins b fresh (show isOp 0x2006 w = true from beq_iff_eq.2 b.1) ends)

/-- A line of usable tier 2 copied within it. -/
theorem copyLine_tier2 {ka : Nat} (la : ka < u.tier2Size) (ma : u.mapEntry c ka = none) (kb : Nat) (sound : u.poisoned ka = false) :
    copyLine c u (ka, kb) = u.storeLine c kb (lineOf (u.read .tier2 ka 256)) := by
  simp only [copyLine, State.takeLine_tier2 la ma sound]

theorem copyLine_readByte {ka kb : Nat} (la : ka < u.tier2Size) (lb : kb < u.tier2Size) (ma : u.mapEntry c ka = none) (mb : u.mapEntry c kb = none)
    (sound : u.poisoned ka = false) (wf : u.mem.wf = true) :
    (∀ i < 256, (copyLine c u (ka, kb)).readByte .tier2 (kb + i) = u.readByte .tier2 (ka + i))
    ∧ ∀ sp x, (sp ≠ .tier2 ∨ x < kb ∨ kb + 256 ≤ x) → (copyLine c u (ka, kb)).readByte sp x = u.readByte sp x := by
  rw [copyLine_tier2 la ma kb sound]
  refine ⟨fun i low => ?_, fun sp x other => ?_⟩
  · rw [State.storeLine_readByte lb mb, if_pos ⟨rfl, by omega, by omega⟩, Nat.add_sub_cancel_left, getD_lineBytes_read wf (by decide) ka low]
  · rw [State.storeLine_readByte lb mb, if_neg fun ⟨same, lo, hi⟩ => other.elim (· same) (by omega)]

/-! ### Tile moves (07 R228) -/

theorem exec_tileMove_of_tiles {ts : List (Nat × Nat)} {t : State} (b : begins s w 0x2007 u bs) (fresh : freshWb s w)
    (tiles : u.moveTiles w.context (w.p 0 48) (w.p 128 32) 0 [] = (v, .tiles ts))
    (ends : v.movedOnce w (rangeLines (w.p 0 48) (ts.map Prod.snd).sum) (rangeLines (w.p 64 48) (ts.map Prod.snd).sum)
      (ts.foldl fun r t => r.moveTile w.context (w.p 0 48 + t.1) (w.p 64 48 + t.1) t.2 (w.p 160 1 == 1)) = some t) :
    exec (.tileMove w) s = .next t.sweepWbs.sweepWbs := by
  refine congrArg Host.Outcome.next (State.tryWb_of_begins b fresh (show isOp 0x2007 w = true from beq_iff_eq.2 b.1) ?_)
  simp only [tiles]
  exact ends

theorem exec_tileMove_of_bad (b : begins s w 0x2007 u bs) (fresh : freshWb s w)
    (tiles : u.moveTiles w.context (w.p 0 48) (w.p 128 32) 0 [] = (v, .bad)) :
    exec (.tileMove w) s = .next ((v.finish w 0x0102 160 0).sweepWbs).sweepWbs := by
  refine congrArg Host.Outcome.next (State.tryWb_of_begins b fresh (show isOp 0x2007 w = true from beq_iff_eq.2 b.1) ?_)
  simp only [tiles]

/-! A tile within usable tier 2 -/

theorem tileBytes_eq (f : Nat) : tileBytes f = 256 * tileLines f := by
  unfold tileLines tileBytes
  omega

theorem tileLines_pos (f : Nat) : 0 < tileLines f := by
  unfold tileLines tileBytes leadLines
  split <;> omega

variable {f ka kb : Nat}

/-- The lines of a range of usable tier 2, as the DMA engine takes them one after another. -/
theorem State.takeLines_tier2 {l : List Nat} (low : ∀ a ∈ l, a < u.tier2Size ∧ u.mapEntry c a = none ∧ u.poisoned a = false) (acc : List (Option Line)) :
    l.foldl (fun (r : State × List (Option Line)) a => ((r.1.takeLine c a).1, r.2 ++ [(r.1.takeLine c a).2])) (u, acc)
      = (u, acc ++ l.map fun a => some (lineOf (u.read .tier2 a 256))) := by
  induction l generalizing acc with
  | nil => simp
  | cons a l ih =>
    obtain ⟨below, unmapped, sound⟩ := low a (List.mem_cons_self ..)
    rw [List.foldl_cons, State.takeLine_tier2 below unmapped sound, ih (fun x hx => low x (List.mem_cons_of_mem _ hx)), List.map_cons, List.append_assoc]
    rfl

theorem State.scratchIds_tier2 {a : Nat} (low : a < u.tier2Size) (unmapped : u.mapEntry c a = none) (l : List Nat) : u.scratchIds c (a :: l) = none := by
  simp [State.scratchIds, State.resolve_tier2 low unmapped]

/-- The lines that arrive at the target of a move: a poisoned source arrives with state 2 in its header (07 R228). -/
def movedLines (hdr : Line) (ls : List (Option Line)) : List (Option Line) :=
  some (if ls.any Option.isNone || decide (2 ≤ hdrState hdr.toNat) then (hdr &&& ~~~(0xC0#2048)) ||| 0x80#2048 else hdr) :: ls.drop 1

/-- A line that arrives is stored; one whose source is poisoned has free bytes (log 2). -/
def State.storeTaken (c : Nat) (s : State) (e : Option Line × Nat) : State :=
  match e.1 with
  | some l => s.storeLine c e.2 l
  | none => s.freeLine.1.storeLine c e.2 s.freeLine.2

/-- A move takes every line of its source before it stores the first; where the target is no scratch part, that is all. -/
theorem State.moveTile_of_taken {size : Nat} {ls : List (Option Line)}
    (taken : (lineAddrs ka size).foldl (fun (r : State × List (Option Line)) a => ((r.1.takeLine c a).1, r.2 ++ [(r.1.takeLine c a).2])) (u, []) = (v, ls))
    {t : State} (ht : t = ((movedLines ((ls.head?.bind id).getD (v.placeLine (v.resolve c none ka))) ls).zip (lineAddrs kb size)).foldl (State.storeTaken c) v)
    (plain : t.scratchIds c (lineAddrs kb size) = none) : u.moveTile c ka kb size false = t := by
  subst ht
  simp only [State.moveTile, Bool.false_and, Bool.false_eq_true, if_false, taken]
  generalize hs : State.scratchIds _ c (lineAddrs kb size) = ids
  rw [show ids = none from hs.symm.trans plain]
  rfl

/-- A sound tile arrives as it was. -/
theorem movedLines_of_sound {l : Line} (valid : hdrState l.toNat < 2) (ls : List Line) : movedLines l ((l :: ls).map some) = (l :: ls).map some := by
  have sound : (((l :: ls).map some).any Option.isNone || decide (2 ≤ hdrState l.toNat)) = false := by
    rw [decide_eq_false (Nat.not_le.2 valid), Bool.or_false, List.any_map, List.any_eq_false]
    exact fun x _ => Bool.false_ne_true
  rw [movedLines, sound]
  rfl

theorem State.storeTaken_all (s : State) (c a : Nat) (ls : List Line) :
    ((ls.map some).zip (lineAddrs a (256 * ls.length))).foldl (State.storeTaken c) s = s.storeLines c a ls := by
  rw [List.zip_map_left, List.foldl_map]
  rfl

/-! Two ranges of lines of usable tier 2 outside every window -/

section

variable {n : Nat} (la : ka + 256 * n ≤ u.tier2Size) (lb : kb + 256 * n ≤ u.tier2Size) (ma : ∀ i < n, u.mapEntry c (ka + 256 * i) = none)
  (mb : ∀ i < n, u.mapEntry c (kb + 256 * i) = none)

include la lb ma mb

theorem State.movesNow_tier2 (freeA : ∀ i < n, u.mustWait c (ka + 256 * i) = false) (freeB : ∀ i < n, u.mustWait c (kb + 256 * i) = false) :
    u.movesNow c (rangeLines ka (256 * n)) (rangeLines kb (256 * n)) := by
  refine ⟨fun a listed => ?_, fun a listed => ?_, .inr fun a listed => ?_⟩
  · obtain ⟨i, below, rfl⟩ := mem_lineAddrs.1 listed
    rw [State.resolve_tier2 (by omega) (ma i below)]
    exact ⟨Place.noConfusion, freeA i below⟩
  · obtain ⟨i, below, rfl⟩ := mem_lineAddrs.1 listed
    exact ⟨State.cannotWrite_tier2 (by omega) (mb i below), freeB i below⟩
  · have low : a < u.tier2Size := by
      rcases List.mem_append.1 listed with listed | listed <;> obtain ⟨i, below, rfl⟩ := mem_lineAddrs.1 listed <;> omega
    exact State.isTier3_of_tier2 low

/-- A sound tile is moved line by line. -/
theorem State.moveTile_tier2 (nonempty : 0 < n) (sound : ∀ i < n, u.poisoned (ka + 256 * i) = false)
    (valid : hdrState (lineOf (u.read .tier2 ka 256)).toNat < 2) :
    u.moveTile c ka kb (256 * n) false = u.storeLines c kb (u.tier2Lines ka n) := by
  obtain ⟨m, rfl⟩ : ∃ m, n = m + 1 := ⟨n - 1, by omega⟩
  have taken := State.takeLines_tier2 (u := u) (c := c) (l := lineAddrs ka (256 * (m + 1))) (fun a listed => by
    obtain ⟨i, below, rfl⟩ := mem_lineAddrs.1 listed
    exact ⟨by omega, ma i below, sound i below⟩) []
  have all : [] ++ (lineAddrs ka (256 * (m + 1))).map (fun a => some (lineOf (u.read .tier2 a 256))) = (u.tier2Lines ka (m + 1)).map some := by
    rw [List.nil_append, State.tier2Lines, List.map_map]
    rfl
  rw [all] at taken
  have length := u.length_tier2Lines ka (m + 1)
  have stored := (State.storeLines_tier2 (u.tier2Lines ka (m + 1)) (length.symm ▸ lb) (length.symm ▸ mb)).1
  refine State.moveTile_of_taken taken ?_ ?_
  · rw [State.tier2Lines_succ, List.map_cons, List.head?_cons, Option.bind_some, id, Option.getD_some, ← List.map_cons, movedLines_of_sound valid,
      ← State.tier2Lines_succ, ← State.storeTaken_all, length]
  · rw [lineAddrs_succ]
    exact State.scratchIds_tier2 (by rw [stored.tier2Size]; omega) (by rw [stored.mapEntry]; exact mb 0 nonempty) _

end

theorem State.moveTiles_one (there : u.resolve c none ka ≠ .outside) (free : u.mustWait c ka = false) {l : Line}
    (taken : u.takeLine c ka = (u, some l)) (header : hdrFmt l.toNat = f) (format : tileFmt f = true) :
    u.moveTiles c ka 1 0 [] = (u, .tiles [(0, tileBytes f)]) := by
  have inside : u.outsideMap c [ka] = false := State.outsideMap_eq_false fun a listed => List.mem_singleton.1 listed ▸ there
  simp only [State.moveTiles, Nat.add_zero, inside, free, taken, Option.getD_some, header, format, if_true, Bool.false_eq_true, if_false]
  rfl

/-- A move of one sound tile within usable tier 2 (07 R228). -/
theorem tileMove_tier2 (b : begins s w 0x2007 u bs) (fresh : freshWb s w) (hka : ka = w.p 0 48) (hkb : kb = w.p 64 48) (one : w.p 128 32 = 1)
    (always : w.p 160 1 = 0) (format : tileFmt f = true) (header : hdrFmt (lineOf (u.read .tier2 ka 256)).toNat = f)
    (valid : hdrState (lineOf (u.read .tier2 ka 256)).toNat < 2) (la : ka + tileBytes f ≤ u.tier2Size) (lb : kb + tileBytes f ≤ u.tier2Size)
    (lines : ∀ i < tileLines f, u.mapEntry w.context (ka + 256 * i) = none ∧ u.mapEntry w.context (kb + 256 * i) = none
      ∧ u.poisoned (ka + 256 * i) = false ∧ u.mustWait w.context (ka + 256 * i) = false ∧ u.mustWait w.context (kb + 256 * i) = false)
    (wf : u.mem.wf = true) :
    ∃ v : State, exec (.tileMove w) s = .next ((v.finish w 0 0 0).sweepWbs).sweepWbs
      ∧ (∀ i < tileBytes f, v.readByte .tier2 (kb + i) = u.readByte .tier2 (ka + i))
      ∧ ∀ sp x, (sp ≠ .tier2 ∨ x < kb ∨ kb + tileBytes f ≤ x) → v.readByte sp x = u.readByte sp x := by
  have nonempty := tileLines_pos f
  have size : (([(0, tileBytes f)] : List (Nat × Nat)).map Prod.snd).sum = 256 * tileLines f := by
    rw [← tileBytes_eq, List.map_cons, List.map_nil, List.sum_cons, List.sum_nil, Nat.add_zero]
  have length := u.length_tier2Lines ka (tileLines f)
  rw [tileBytes_eq] at la lb
  simp only [forall_and] at lines
  obtain ⟨ma, mb, sound, freeA, freeB⟩ := lines
  have tiles : u.moveTiles w.context (w.p 0 48) (w.p 128 32) 0 [] = (u, .tiles [(0, tileBytes f)]) := by
    rw [← hka, one]
    have low : ka < u.tier2Size := by omega
    have unmapped : u.mapEntry w.context ka = none := ma 0 nonempty
    have there : u.resolve w.context none ka ≠ .outside := by
      rw [State.resolve_tier2 low unmapped]
      exact Place.noConfusion
    exact State.moveTiles_one there (freeA 0 nonempty) (State.takeLine_tier2 low unmapped (sound 0 nonempty)) header format
  have now := State.movesNow_tier2 la lb ma mb freeA freeB
  have moved := State.moveTile_tier2 la lb ma mb nonempty sound valid
  have bytes := (State.storeLines_tier2 (u.tier2Lines ka (tileLines f)) (length.symm ▸ lb) (length.symm ▸ mb)).2
  rw [length] at bytes
  rw [tileBytes_eq]
  refine ⟨u.storeLines w.context kb (u.tier2Lines ka (tileLines f)), ?_, fun i below => ?_, fun sp x other => ?_⟩
  · refine exec_tileMove_of_tiles b fresh tiles ?_
    rw [size, ← hka, ← hkb, State.movedOnce_of_movesNow _ now, always, List.foldl_cons, List.foldl_nil, tileBytes_eq]
    exact congrArg (fun v => some (v.finish w 0 0 0)) moved
  · rw [bytes, if_pos ⟨rfl, by omega, by omega⟩, Nat.add_sub_cancel_left, State.tier2Lines_bytes wf below]
  · rw [bytes, if_neg fun ⟨same, lo, hi⟩ => other.elim (· same) (by omega)]

theorem copyAndMove : CopyAndMove := by
  intro s u w bs fresh
  refine ⟨fun b src dst hsrc hdst => ?_, fun b f ka kb hka hkb one always format header valid la lb lines wf =>
      tileMove_tier2 b fresh hka hkb one always format header valid la lb lines wf, fun b v ts tiles src dst hsrc hdst => ?_,
    fun b v tiles => exec_tileMove_of_bad b fresh tiles⟩
  · subst hsrc hdst
    refine ⟨fun outside => exec_copyLines b fresh (State.movedOnce_of_outside _ outside),
      fun inside closed => exec_copyLines b fresh (State.movedOnce_of_closed _ inside closed),
      fun there open_ traffic => ⟨_, rfl, exec_copyLines b fresh (State.movedOnce_of_movesNow _ ⟨there, open_, traffic⟩), ?_⟩⟩
    rintro ka kb rfl rfl one la lb ma mb sound wf
    have line (a : Nat) : rangeLines a 256 = [a] := rfl
    rw [one, line, line]
    exact copyLine_readByte la lb ma mb sound wf
  · subst hsrc hdst
    exact ⟨fun outside => exec_tileMove_of_tiles b fresh tiles (State.movedOnce_of_outside _ outside),
      fun inside closed => exec_tileMove_of_tiles b fresh tiles (State.movedOnce_of_closed _ inside closed),
      fun there open_ traffic => exec_tileMove_of_tiles b fresh tiles (State.movedOnce_of_movesNow _ ⟨there, open_, traffic⟩)⟩

end

/-- Settles O28: shelf windows, leg images, copies and tile moves. That the first of several defects is reported is log 34. -/
theorem memoryWaybills : Obligations.MemoryWaybills := ⟨shelfAndLegLoad, copyAndMove⟩

end Sys2Proof.Machine

namespace Sys2Proof.Machine

open Sys2Proof Sys2Proof.Claims

/-! ### Waybills of the tollgate, the HBM's rate and self-tests (10 R340 to R342, R368; 07 R210; 12 R416) -/

section

variable {s u : State} {w : Waybill} {bs : List Byte}

theorem isOp_of_begins {op : Nat} (b : begins s w op u bs) : isOp op w = true := beq_iff_eq.2 b.1

/-- A coolant setting within its ranges is taken as it is (10 R368). -/
theorem State.writeCoolant_of_ranges (s : State) {flow limit : Nat} (hf : 20 ≤ flow ∧ flow ≤ 40) (hl : 40 ≤ limit ∧ limit ≤ 85) :
    s.writeCoolant flow limit = { s with heat := { s.heat with flow := flow, limit := limit } } := by
  rw [State.writeCoolant, keepUnless_decide, keepUnless_decide, if_pos hf, if_pos hl]

/-- SELF_TEST of a unit without a test starts one (12 R416). -/
theorem exec_selfTest_of_idle (b : begins s w 0x7001 u bs) (fresh : freshWb s w) {x : TestUnit} (unit : testUnitOf (w.p 0 3) (w.p 16 16) (w.p 32 16) = some x)
    (idle : u.mc.tests.find? (fun r => r.unit == x) = none) : exec (.selfTest w) s = .next (u.startTest x 0 0 (some w)).sweepWbs.sweepWbs := by
  refine congrArg Host.Outcome.next (State.tryWb_of_begins b fresh (isOp_of_begins b) ?_)
  simp only [unit, idle]

/-- The tests with waybill w as the one that unit x's test answers. -/
def State.joinTest (s : State) (x : TestUnit) (w : Waybill) : State :=
  { s with mc := { s.mc with tests := s.mc.tests.map fun r => if r.unit = x then { r with waybill := some w } else r } }

/-- SELF_TEST of a unit under test joins that test, which no waybill asked for (log 48). -/
theorem exec_selfTest_of_running (b : begins s w 0x7001 u bs) (fresh : freshWb s w) {x : TestUnit}
    (unit : testUnitOf (w.p 0 3) (w.p 16 16) (w.p 32 16) = some x) {r : TestRun} (runs : u.mc.tests.find? (fun r => r.unit == x) = some r)
    (alone : r.waybill = none) : exec (.selfTest w) s = .next (u.joinTest x w).sweepWbs.sweepWbs := by
  refine congrArg Host.Outcome.next (State.tryWb_of_begins b fresh (isOp_of_begins b) ?_)
  simp only [unit, runs, alone, Option.isSome_none, Bool.false_eq_true, if_false, beq_iff_eq]
  rfl

end

/-- Settles O31: the waybills of the tollgate, the HBM's rate and self-tests. That SELF_TEST joins a test that runs is log 48. -/
theorem tollgateWaybills : Obligations.TollgateWaybills := by
  refine ⟨fun s u w bs t b => congrArg Host.Outcome.next (State.startWb_of_begins b _), fun s u w bs => ⟨fun b => ?_, fun b f₀ f₁ l₀ l₁ => ?_, fun b => ?_,
    fun b fresh x unit => ⟨exec_selfTest_of_idle b fresh unit,
      fun r runs alone => ⟨u.joinTest x w, exec_selfTest_of_running b fresh unit runs alone, rfl, rfl⟩⟩⟩⟩
  · exact congrArg Host.Outcome.next (State.startWb_of_begins b _)
  · rw [← u.writeCoolant_of_ranges ⟨f₀, f₁⟩ ⟨l₀, l₁⟩]
    exact congrArg Host.Outcome.next (State.startWb_of_begins b _)
  · exact congrArg Host.Outcome.next (State.startWb_of_begins b _)

end Sys2Proof.Machine

namespace Sys2Proof.Machine

open Sys2Proof Sys2Proof.Claims

/-! ### A part of the state written twice -/

section

variable {α : Type} [DecidableEq α] (d : α) (t : Tbl α) (k : Nat) (v w : α)

/-- The entry that a write makes, if it makes one, has its key. -/
theorem eq_of_mem_written {e : Nat × α} (h : e ∈ if v = d then [] else [(k, v)]) : e.1 = k := by
  split at h
  · exact absurd h List.not_mem_nil
  · rw [List.mem_singleton.1 h]

theorem tbelow_tset : tbelow (tset d t k v) k = tbelow t k := by
  have kept : tbelow (tbelow t k) k = tbelow t k := List.filter_eq_self.2 fun e h => decide_eq_true (mem_tbelow h).2
  have gone : tbelow ((if v = d then [] else [(k, v)]) ++ tfrom t (k + 1)) k = [] := List.filter_eq_nil_iff.2 fun e h => by
    rw [decide_eq_true_eq]
    rcases List.mem_append.1 h with h | h
    · have := eq_of_mem_written d k v h
      omega
    · have := (mem_tfrom h).2
      omega
  rw [tset, tbelow, List.filter_append, ← tbelow, ← tbelow, kept, gone, List.append_nil]

theorem tfrom_tset : tfrom (tset d t k v) (k + 1) = tfrom t (k + 1) := by
  have kept : tfrom (tfrom t (k + 1)) (k + 1) = tfrom t (k + 1) := List.filter_eq_self.2 fun e h => decide_eq_true (mem_tfrom h).2
  have below : tfrom (tbelow t k) (k + 1) = [] := List.filter_eq_nil_iff.2 fun e h => by
    have := (mem_tbelow h).2
    rw [decide_eq_true_eq]
    omega
  have here : tfrom (if v = d then [] else [(k, v)]) (k + 1) = [] := List.filter_eq_nil_iff.2 fun e h => by
    have := eq_of_mem_written d k v h
    rw [decide_eq_true_eq]
    omega
  rw [tset, tfrom, List.filter_append, List.filter_append, ← tfrom, ← tfrom, ← tfrom, below, here, kept, List.nil_append, List.nil_append]

/-- Of two writes of a key the second alone counts. -/
theorem tset_tset : tset d (tset d t k v) k w = tset d t k w := by
  rw [tset, tbelow_tset, tfrom_tset, tset]

theorem tmod_tmod (f g : α → α) : tmod d (tmod d t k f) k g = tmod d t k fun x => g (f x) := by
  rw [tmod, tget_tmod, if_pos rfl, tmod, tset_tset, tmod]

end

theorem State.modRing_modRing (s : State) (n : Nat) (f g : Ring → Ring) : (s.modRing n f).modRing n g = s.modRing n fun r => g (f r) :=
  congrArg (fun x => { s with host := { s.host with rings := x } }) (tmod_tmod Ring.init s.host.rings n f g)

theorem State.modRing_congr {s : State} {n : Nat} {f g : Ring → Ring} (h : f (s.ring n) = g (s.ring n)) : s.modRing n f = s.modRing n g := by
  rw [State.ring] at h
  rw [State.modRing, State.modRing, tmod, tmod, h]

/-! ### Rings (11 R375 to R379) -/

section

variable {s : State} {n : Nat} {v : DWord}

/-! Doorbells (11 R376, R378) -/

theorem exec_sqDoorbell_of_tail (serves : s.hostServes = true) (tail : v.getLsbD 12 = true) (noHead : v.getLsbD 28 = false) :
    exec (.sqDoorbell n v) s = .next (s.modRing n fun r => { r with sqTail := fld v 0 12 }) := by
  simp only [exec, execSqDoorbell, serves, State.writeDoorbell, bitAt, tail, noHead, if_true, Bool.false_eq_true, if_false]

/-- With nothing that waits for room, a new cq_head ends the wait of a full ring and writes nothing. -/
theorem exec_cqDoorbell_of_head (serves : s.hostServes = true) (noTail : v.getLsbD 12 = false) (head : v.getLsbD 28 = true)
    (runs : (s.ring n).halted = false) (free : (s.ring n).waiting = []) :
    exec (.cqDoorbell n v) s = .next (s.modRing n fun r => { r with cqHead := fld v 16 12, fullWait := false }) := by
  simp only [exec, execCqDoorbell, serves, State.writeDoorbell, bitAt, noTail, head, if_true, Bool.false_eq_true, if_false, State.ring_modRing_self, runs,
    State.postWaiting, free, List.foldl_nil, State.modRing_modRing]
  exact congrArg Host.Outcome.next (State.modRing_congr (by rw [← free]))

/-! Enable (11 R379) -/

/-- A ring that was not enabled starts at the base written. -/
theorem exec_ringEnable_of_off (serves : s.hostServes = true) (enable : v.getLsbD 0 = true) (off : (s.ring n).enabled = false) :
    exec (.ringEnable n v) s = .next (s.modRing n fun _ => Ring.start { s.ring n with base := fld v 12 52 }) := by
  simp only [exec, execRingEnable, serves, State.writeSqBase, bitAt, enable, off, Bool.false_eq_true, Bool.not_false, if_true, if_false, State.modRing_modRing]
  exact congrArg Host.Outcome.next (State.modRing_congr rfl)

/-- The enable of a ring that drains is held until the drain ends. -/
theorem exec_ringEnable_of_drains (serves : s.hostServes = true) (enable : v.getLsbD 0 = true) (on : (s.ring n).enabled = true)
    (drains : (s.ring n).enable = false) : exec (.ringEnable n v) s = .next (s.modRing n fun r => { r with enable := true, heldEnable := true }) := by
  simp only [exec, execRingEnable, serves, State.writeSqBase, bitAt, enable, on, drains, if_true, Bool.not_true, Bool.false_eq_true, if_false]

/-! Disable and drain (11 R379) -/

theorem State.drained_of_outstanding (h : (s.ring n).outstanding ≠ 0) : s.drained n = false := by
  simp [State.drained, h]

theorem State.drained_of_empty (out : (s.ring n).outstanding = 0) (free : (s.ring n).waiting = []) (none : ∀ h ∈ s.host.held, h.1 ≠ some n) :
    s.drained n = true := by
  simpa [State.drained, out, free] using none

/-- Ring n takes no more waybills. -/
def State.ringOff (s : State) (n : Nat) : State := s.modRing n fun x => { x with enable := false, heldEnable := false }

theorem State.writeSqBase_of_disable (disable : v.getLsbD 0 = false) (on : (s.ring n).enabled = true) :
    s.writeSqBase n v = if (s.ringOff n).drained n then (s.ringOff n).drainEnd n else s.ringOff n := by
  simp only [State.writeSqBase, bitAt, disable, on, if_true, Bool.false_eq_true, if_false]
  rfl

theorem State.ringOff_ring (s : State) (n : Nat) : (s.ringOff n).ring n = { s.ring n with enable := false, heldEnable := false } := State.ring_modRing_self ..

theorem State.drainEnd_of_disabled (disabled : (s.ring n).enable = false) (free : (s.ring n).heldEnable = false) :
    s.drainEnd n = s.modRing n fun r => { r with enabled := false } :=
  State.modRing_congr (by simp only [disabled, free, Bool.false_eq_true, if_false])

/-- A ring with waybills outstanding drains first. -/
theorem exec_ringDisable_of_outstanding (serves : s.hostServes = true) (disable : v.getLsbD 0 = false) (on : (s.ring n).enabled = true)
    (out : (s.ring n).outstanding ≠ 0) : exec (.ringDisable n v) s = .next (s.ringOff n) := by
  have drains : (s.ringOff n).drained n = false := State.drained_of_outstanding (by rw [State.ringOff_ring]; exact out)
  simp only [exec, execRingDisable, serves, if_true, State.writeSqBase_of_disable disable on, drains, Bool.false_eq_true, if_false]

/-- A ring without any stops at once. -/
theorem exec_ringDisable_of_empty (serves : s.hostServes = true) (disable : v.getLsbD 0 = false) (on : (s.ring n).enabled = true)
    (out : (s.ring n).outstanding = 0) (free : (s.ring n).waiting = []) (none : ∀ h ∈ s.host.held, h.1 ≠ some n) :
    exec (.ringDisable n v) s = .next ((s.ringOff n).modRing n fun r => { r with enabled := false }) := by
  have done : (s.ringOff n).drained n = true := State.drained_of_empty (by rw [State.ringOff_ring]; exact out) (by rw [State.ringOff_ring]; exact free) none
  simp only [exec, execRingDisable, serves, if_true, State.writeSqBase_of_disable disable on, done]
  exact congrArg Host.Outcome.next (State.drainEnd_of_disabled (by rw [State.ringOff_ring]) (by rw [State.ringOff_ring]))

theorem exec_ringDrainComplete_of_disabled (on : (s.ring n).enabled = true) (disabled : (s.ring n).enable = false) (noEnable : (s.ring n).heldEnable = false)
    (out : (s.ring n).outstanding = 0) (free : (s.ring n).waiting = []) (none : ∀ h ∈ s.host.held, h.1 ≠ some n) :
    exec (.ringDrainComplete n) s = .next (s.modRing n fun r => { r with enabled := false }) := by
  simp only [exec, execRingDrainComplete, on, disabled, noEnable, State.drained_of_empty out free none, Bool.not_false, Bool.or_false, Bool.and_self, if_true]
  rw [State.drainEnd_of_disabled disabled noEnable]

/-- No write reaches the module while the link is down (11 R374). -/
theorem exec_ringWrite_of_linkDown (down : s.host.linkUp = false) {i : Instr}
    (write : i ∈ ([.sqDoorbell n v, .cqDoorbell n v, .ringEnable n v, .ringDisable n v] : List Instr)) : exec i s = .next s := by
  have unserved : s.hostServes = false := by rw [State.hostServes, down, Bool.and_false]
  simp only [List.mem_cons, List.not_mem_nil, or_false] at write
  rcases write with rfl | rfl | rfl | rfl
  all_goals exact congrArg Host.Outcome.next (if_neg (by rw [unserved]; exact Bool.false_ne_true))

theorem ringCommands : RingCommands := by
  intro s n v step
  refine ⟨fun down i write => exec_ringWrite_of_linkDown down write, fun up => ?_,
    fun on disabled noEnable out free none => exec_ringDrainComplete_of_disabled on disabled noEnable out free none⟩
  have serves := s.hostServes_of_le step up
  refine ⟨exec_sqDoorbell_of_tail serves, fun noTail head runs free => ⟨_, exec_cqDoorbell_of_head serves noTail head runs free, rfl⟩,
    fun enable off => ⟨_, exec_ringEnable_of_off serves enable off, rfl, rfl, rfl, rfl, rfl, rfl, rfl, rfl, rfl, rfl, rfl⟩,
    fun enable on drains => ⟨_, exec_ringEnable_of_drains serves enable on drains, ?_⟩,
    fun disable on out => ⟨_, exec_ringDisable_of_outstanding serves disable on out, ?_⟩,
    fun disable on out free none => ⟨_, exec_ringDisable_of_empty serves disable on out free none, ?_⟩⟩
  · rw [State.ring_modRing_self]
    exact ⟨rfl, on, rfl⟩
  · rw [State.ringOff_ring]
    exact ⟨on, rfl, rfl, rfl⟩
  · rw [State.ring_modRing_self]

end

/-! ### The host link (11 R370 to R374, R380, R408) -/

section

variable {s : State} {n : Nat}

/-! A receipt that cannot be written (11 R380) -/

/-- Clearing one memory leaves every byte of the others. -/
theorem State.clear_readByte_of_ne (s : State) {sp sp' : Space} (other : sp' ≠ sp) (a k x : Nat) : (s.clear sp a k).readByte sp' x = s.readByte sp' x := by
  have kept : (s.clear sp a k).mem.sp sp' = s.mem.sp sp' := (Mems.sp_put ..).trans (if_neg other)
  by_cases host : sp' = .host
  · subst host
    exact congrArg (hostGet · x) kept
  · rw [State.readByte, State.readByte, if_neg host, if_neg host, kept]

/-- Ring n with the receipt that could not be written lost, and halted. -/
def State.receiptFailed (s : State) (n : Nat) : State :=
  (s.clear .host (4096 * (s.ring n).cqBase + ((s.ring n).cqTail + 4095) % 4096 * 32) 32).modRing n fun x => { x with halted := true }

theorem exec_receiptWriteFailure (on : (s.ring n).enabled = true) (runs : (s.ring n).halted = false) :
    exec (.receiptWriteFailure n) s = .next ((s.receiptFailed n).event 0x800D 0xF n) := by
  simp only [exec, execReceiptWriteFailure, on, runs, Bool.not_true, Bool.or_self, Bool.false_eq_true, if_false]
  rfl

theorem receiptWriteFailures (s : State) (n : Nat) (on : (s.ring n).enabled = true) (runs : (s.ring n).halted = false) :
    ∃ u : State, exec (.receiptWriteFailure n) s = .next (u.event 0x800D 0xF n) ∧ (u.ring n).halted = true ∧ (∀ k, k ≠ n → u.ring k = s.ring k)
      ∧ ∀ sp a, sp ≠ .host → u.readByte sp a = s.readByte sp a := by
  refine ⟨s.receiptFailed n, exec_receiptWriteFailure on runs, ?_, fun k other => State.ring_modRing_of_ne _ other _,
    fun sp a other => s.clear_readByte_of_ne other _ _ a⟩
  rw [State.receiptFailed, State.ring_modRing_self]

/-! The link comes up and goes down (11 R370, R373, R374) -/

theorem exec_heldReceiptsWrite_of_none (down : s.host.linkUp = false) (can : s.linkCan = true) (step : 8 ≤ s.mc.bringup) (none : s.host.held = []) :
    exec .heldReceiptsWrite s = .next ((List.range 4).foldl (fun s c => s.retryAll c (· == .waits))
      { s with freeCtr := s.freeCtr + 1, host := { s.host with linkUp := true, t3Cxl := bitAt (Config.free s.freeCtr) 0 } }) := by
  have returns : (!s.host.linkUp && s.linkCan && decide (8 ≤ s.mc.bringup)) = true := by simp [down, can, step]
  simp only [exec, execHeldReceiptsWrite, returns, if_true, State.linkReturns, State.free, none, List.foldl_nil]

theorem exec_hostLinkDown_of_lost (up : s.host.linkUp = true) : exec (.hostLinkDown 0) s = .next { s with host := { s.host with linkUp := false } } := by
  simp only [exec, execHostLinkDown, up, Bool.not_true, Bool.false_eq_true, if_false, if_true]

theorem exec_hostLinkDown_of_narrower (up : s.host.linkUp = true) {w : Nat} (width : w ∈ [1, 2, 4, 8]) (narrower : w < s.host.linkWidth) :
    exec (.hostLinkDown w) s = .next { s with host := { s.host with linkWidth := w } } := by
  have some : w ≠ 0 := by
    rintro rfl
    simp at width
  have falls : (([1, 2, 4, 8] : List Nat).contains w && decide (w < s.host.linkWidth)) = true := by
    rw [List.contains_iff_mem.2 width, decide_eq_true narrower, Bool.and_self]
  simp only [exec, execHostLinkDown, up, Bool.not_true, Bool.false_eq_true, if_false, some, falls, if_true]

/-- What the assertion of PERST_N leaves: the host interface alone changes (11 R373). -/
theorem perstAsserts (s : State) : ∃ t, exec .perstNAssert s = .next t ∧ t.host.linkUp = false ∧ t.host.perst = true ∧ (∀ k, t.ring k = Ring.init)
    ∧ (∀ e ∈ t.host.wbs, e.dropped = true) ∧ t.host.wbs.map WbEntry.wb = s.host.wbs.map WbEntry.wb ∧ { t with host := s.host } = s := by
  refine ⟨_, rfl, rfl, rfl, fun k => rfl, fun e listed => ?_, ?_, rfl⟩
  · obtain ⟨e', -, rfl⟩ := List.mem_map.1 listed
    rfl
  · rw [List.map_map]
    rfl

theorem exec_perstNRelease_of_up (up : s.host.linkUp = true) : exec .perstNRelease s = .next { s with host := { s.host with perst := false } } := by
  simp only [exec, execPerstNRelease, up, Bool.not_true, Bool.false_and, Bool.false_eq_true, if_false]

theorem exec_irqDelayExpiry_of_gathered (some : (s.ring n).gathered ≠ 0) (delay : (s.ring n).irqDelay ≠ 0) (irq : (s.ring n).irqEn = true) :
    exec (.irqDelayExpiry n) s = .next ((s.modRing n fun x => { x with gathered := 0 }).emit (.msix n)) := by
  simp only [exec, execIrqDelayExpiry, some, delay, or_self, irq, if_true, if_false]

/-! Snoops (07 R231) -/

theorem exec_snoop_of_not_cxl (off : s.host.t3Cxl = false) (h : Nat) (inv : Bool) : exec (.snoop h inv) s = .next s := by
  simp only [exec, execSnoop, off, Bool.not_false, if_true]

theorem exec_snoop_of_absent (on : s.host.t3Cxl = true) {h : Nat} (absent : s.snooped h = []) (inv : Bool) :
    exec (.snoop h inv) s = .next (s.emit (.snoopAnswer h none)) := by
  simp only [exec, execSnoop, on, absent, List.foldl_nil, List.findSome?_nil, Bool.not_true, Bool.false_eq_true, if_false, ite_self]

/-- A snoop that invalidates takes out the line it finds. -/
theorem exec_snoop_out (on : s.host.t3Cxl = true) {h : Nat} {id : LineId} (found : s.snooped h = [id]) :
    exec (.snoop h true) s = .next ((s.snoopOut id).emit (.snoopAnswer h (s.dirtyData id))) := by
  simp only [exec, execSnoop, on, found, List.foldl_cons, List.foldl_nil, List.findSome?_singleton, Bool.not_true, Bool.false_eq_true, if_false, if_true]

/-- Any other snoop leaves the line it finds, clean. -/
theorem exec_snoop_keep (on : s.host.t3Cxl = true) {h : Nat} {id : LineId} (found : s.snooped h = [id]) (open_ : (s.homeLine id).st ≠ .rl)
    (sound : (s.homeLine id).st ≠ .pz) : exec (.snoop h false) s = .next ((s.cleanLine id (s.isDirect id)).emit (.snoopAnswer h (s.dirtyData id))) := by
  simp only [exec, execSnoop, on, found, List.foldl_cons, List.foldl_nil, List.findSome?_singleton, Bool.not_true, Bool.false_eq_true, if_false, open_, sound, or_self]

theorem State.dirtyData_of_locked {id : LineId} (locked : (s.homeLine id).st = .rl) : s.dirtyData id = none := by
  simp [State.dirtyData, locked]

/-- Of a line without copies in an L1 the answer carries the home's data, if they are dirty. -/
theorem State.dirtyData_of_no_copies {k a : Nat} (open_ : (s.homeLine (.window k a)).st ≠ .rl) (cached : s.isDirect (.window k a) = false)
    (alone : ∀ x ∈ s.cel.l1, x.line ≠ .window k a) :
    s.dirtyData (.window k a) = if (s.homeLine (.window k a)).dirty then some (s.homeLine (.window k a)).data else none := by
  have none : (s.cel.l1.any fun x => x.line == .window k a && x.modified) = false :=
    any_eq_false_of_forall fun x listed => by rw [beq_eq_false_iff_ne.2 (alone x listed), Bool.false_and]
  have free : ((s.homeLine (.window k a)).st != .rl) = true := bne_iff_ne.2 open_
  simp only [State.dirtyData, cached, State.recallAll_of_no_copies alone, none, free, Bool.true_and, Bool.or_false]
  rfl

theorem snoops (s : State) (h k a : Nat) (id : LineId) (window : id = .window k a) (on : s.host.t3Cxl = true) (found : s.snooped h = [id]) :
    ((s.homeLine id).st = .rl → ∃ c, exec (.snoop h true) s = .next ((s.holdReq id (.req ⟨c, id, 0, .victim⟩)).emit (.snoopAnswer h none)))
    ∧ ((s.homeLine id).st ≠ .rl → s.isDirect id = false → exec (.snoop h true) s = .next ((s.evict id).emit (.snoopAnswer h (s.dirtyData id))))
    ∧ ((s.homeLine id).st ≠ .rl → (s.homeLine id).st ≠ .pz →
      exec (.snoop h false) s = .next ((s.cleanLine id (s.isDirect id)).emit (.snoopAnswer h (s.dirtyData id))))
    ∧ ((s.homeLine id).st ≠ .rl → s.isDirect id = false → (∀ x ∈ s.cel.l1, x.line ≠ id) →
      s.dirtyData id = if (s.homeLine id).dirty then some (s.homeLine id).data else none) := by
  refine ⟨fun locked => ⟨((s.homeLine id).lock.map fun l => l.ctx).getD 0, ?_⟩, fun open_ cached => ?_, exec_snoop_keep on found, ?_⟩
  · rw [exec_snoop_out on found, State.dirtyData_of_locked locked, State.snoopOut, if_pos locked]
  · rw [exec_snoop_out on found, State.snoopOut, if_neg open_, cached]
    rfl
  · subst window
    exact State.dirtyData_of_no_copies

theorem hostLink : HostLink := fun s n =>
  ⟨receiptWriteFailures s n, fun down can step none => ⟨_, _, rfl, exec_heldReceiptsWrite_of_none down can step none⟩,
    fun up => ⟨exec_hostLinkDown_of_lost up, fun _ => exec_hostLinkDown_of_narrower up⟩, perstAsserts s, exec_perstNRelease_of_up,
    exec_irqDelayExpiry_of_gathered, fun h inv off => exec_snoop_of_not_cxl off h inv, fun _ inv on absent => exec_snoop_of_absent on absent inv,
    fun h k a id => snoops s h k a id⟩

end

/-- Settles O35: ring commands and the host link. That a snooped line stays clean or leaves at its lock's close is log 103; what PERST_N and a halted ring leave
are logs 62 and 63. -/
theorem ringsAndHostLink : Obligations.RingsAndHostLink := ⟨ringCommands, hostLink⟩

end Sys2Proof.Machine

namespace Sys2Proof.Machine

open Sys2Proof Sys2Proof.Claims

/-! ### Errors of the HBM (07 Table 7-5, R218 to R220) -/

section

variable {s : State} {x : HbmAccess} {a t kind most : Nat} {kinds : List Nat}

/-! The tries of an access (log 65) -/

/-- The tries of kind `kind` that stand counted at a line. -/
def State.tryCount (s : State) (a kind : Nat) : Nat := (((s.stack (stackOf a)).tries.find? fun e => e.1 == triesKey a kind).map Prod.snd).getD 0

/-- One more try changes the tries of the line's stack alone: the count moves on until no try is left, and its entry then goes. -/
theorem State.countTry_fst (s : State) (a kind most : Nat) : ∃ l, (∀ e ∈ l, e.1 ≠ triesKey a kind) ∧
    (s.countTry a kind most).1 = s.modStack (stackOf a) fun y =>
      { y with tries := if s.tryCount a kind < most then l ++ [(triesKey a kind, s.tryCount a kind + 1)] else l } :=
  ⟨(s.stack (stackOf a)).tries.filter fun e => e.1 != triesKey a kind, fun _ h => bne_iff_ne.1 (List.mem_filter.1 h).2, rfl⟩

theorem State.countTry_snd (s : State) (a kind most : Nat) : (s.countTry a kind most).2 = s.tryCount a kind + 1 := rfl

/-- The tries that an access has made: none yet, if it is new. -/
def State.tried (s : State) (x : HbmAccess) (kind : Nat) : Nat := if x.first then 0 else s.tryCount x.addr kind

/-- An access to a line starts or goes on. -/
def State.access (s : State) (x : HbmAccess) (kinds : List Nat) : State := if x.first then s.newAccess x.addr kinds else s

@[simp] theorem State.access_mem (s : State) (x : HbmAccess) (kinds : List Nat) : (s.access x kinds).mem = s.mem := by
  unfold State.access
  split <;> rfl

@[simp] theorem State.access_mc (s : State) (x : HbmAccess) (kinds : List Nat) : (s.access x kinds).mc = s.mc := by
  unfold State.access
  split <;> rfl

theorem State.access_stack_of_ne (s : State) (x : HbmAccess) (kinds : List Nat) {j : Nat} (other : j ≠ stackOf x.addr) :
    (s.access x kinds).stack j = s.stack j := by
  unfold State.access
  split
  · exact s.stack_modStack_of_ne other _
  · rfl

theorem State.access_stack (s : State) (x : HbmAccess) (kinds : List Nat) :
    ∃ l, (s.access x kinds).stack (stackOf x.addr) = { s.stack (stackOf x.addr) with tries := l } := by
  unfold State.access
  split
  · exact ⟨_, s.stack_modStack_self ..⟩
  · exact ⟨_, rfl⟩

theorem State.access_tryCount (s : State) (x : HbmAccess) (counted : kind ∈ kinds) : (s.access x kinds).tryCount x.addr kind = s.tried x kind := by
  unfold State.access State.tried
  split
  · have none : ((s.stack (stackOf x.addr)).tries.filter fun e => !(kinds.map (triesKey x.addr)).contains e.1).find? (fun e => e.1 == triesKey x.addr kind) = none := by
      rw [List.find?_eq_none]
      intro e kept same
      have gone := (List.mem_filter.1 kept).2
      rw [beq_iff_eq.1 same, List.contains_iff_mem.2 (List.mem_map_of_mem counted)] at gone
      exact Bool.false_ne_true gone
    rw [State.tryCount, State.newAccess, State.stack_modStack_self, none]
    rfl
  · rfl

theorem State.countTry_access_le (s : State) (x : HbmAccess) (counted : kind ∈ kinds) (most : Nat) :
    ((s.access x kinds).countTry x.addr kind most).2 ≤ most ↔ s.tried x kind < most := by
  rw [State.countTry_snd, s.access_tryCount x counted, Nat.succ_le_iff]

/-- The state once one more try of an access has failed. -/
def State.tryAgain (s : State) (x : HbmAccess) (kinds : List Nat) (kind most : Nat) : State := ((s.access x kinds).countTry x.addr kind most).1

/-- Of a failed try the stack keeps the count; nothing else of it changes. -/
theorem State.tryAgain_stack (s : State) (x : HbmAccess) (counted : kind ∈ kinds) (most : Nat) : ∃ l, (∀ e ∈ l, e.1 ≠ triesKey x.addr kind) ∧
    (s.tryAgain x kinds kind most).stack (stackOf x.addr) = { s.stack (stackOf x.addr) with
      tries := if s.tried x kind < most then l ++ [(triesKey x.addr kind, s.tried x kind + 1)] else l } := by
  obtain ⟨l, other, e⟩ := (s.access x kinds).countTry_fst x.addr kind most
  obtain ⟨_, e'⟩ := s.access_stack x kinds
  refine ⟨l, other, ?_⟩
  rw [State.tryAgain, e, State.stack_modStack_self, e', s.access_tryCount x counted]

theorem State.tryAgain_stack_of_ne (s : State) (x : HbmAccess) (kinds : List Nat) (kind most : Nat) {j : Nat} (other : j ≠ stackOf x.addr) :
    (s.tryAgain x kinds kind most).stack j = s.stack j := by
  obtain ⟨l, -, e⟩ := (s.access x kinds).countTry_fst x.addr kind most
  rw [State.tryAgain, e, State.stack_modStack_of_ne _ other, s.access_stack_of_ne x kinds other]

@[simp] theorem State.tryAgain_mem (s : State) (x : HbmAccess) (kinds : List Nat) (kind most : Nat) : (s.tryAgain x kinds kind most).mem = s.mem :=
  s.access_mem x kinds

@[simp] theorem State.tryAgain_mc (s : State) (x : HbmAccess) (kinds : List Nat) (kind most : Nat) : (s.tryAgain x kinds kind most).mc = s.mc :=
  s.access_mc x kinds

/-! Parity failures -/

theorem State.hbmError_of_inside (inside : a < s.hbmSize) (t : Nat) (f : State → State) : s.hbmError a t f = f (s.tick t) := if_pos inside

/-- A retry of a line's access is counted in its stack. -/
def State.countRetry (s : State) (a : Nat) : State := s.modStack (stackOf a) fun y => { y with retries := min 0xFF (y.retries + 1) }

theorem exec_hbmReadParityFailure_of_left (inside : x.addr < s.hbmSize) (left : s.tried x 0 < 3) :
    exec (.hbmReadParityFailure x t) s = .next (((s.tick t).tryAgain x [0, 2] 0 3).countRetry x.addr) :=
  congrArg Host.Outcome.next ((State.hbmError_of_inside inside t _).trans (if_pos (((s.tick t).countTry_access_le x (by decide) 3).2 left)))

theorem exec_hbmReadParityFailure_of_last (inside : x.addr < s.hbmSize) (last : 3 ≤ s.tried x 0) :
    exec (.hbmReadParityFailure x t) s = .next (((s.tick t).tryAgain x [0, 2] 0 3).uncorrectable x.addr) :=
  congrArg Host.Outcome.next ((State.hbmError_of_inside inside t _).trans
    (if_neg fun more => Nat.not_lt.2 last (((s.tick t).countTry_access_le x (by decide) 3).1 more)))

theorem exec_hbmWriteParityFailure_of_left (inside : x.addr < s.hbmSize) (left : s.tried x 1 < 3) :
    exec (.hbmWriteParityFailure x t) s = .next (((s.tick t).tryAgain x [1] 1 3).countRetry x.addr) :=
  congrArg Host.Outcome.next ((State.hbmError_of_inside inside t _).trans (if_pos (((s.tick t).countTry_access_le x (by decide) 3).2 left)))

theorem exec_hbmWriteParityFailure_of_last (inside : x.addr < s.hbmSize) (last : 3 ≤ s.tried x 1) :
    exec (.hbmWriteParityFailure x t) s
      = .next ((((s.tick t).tryAgain x [1] 1 3).enterPoison x.addr).startTest (.pc (stackOf x.addr) (pcOf x.addr)) 0x09 x.addr none) :=
  congrArg Host.Outcome.next ((State.hbmError_of_inside inside t _).trans
    (if_neg fun more => Nat.not_lt.2 last (((s.tick t).countTry_access_le x (by decide) 3).1 more)))

/-- A retry while tries are left: the two counts of the stack move on, and nothing else changes. -/
theorem State.tryAgain_countRetry (s : State) (t : Nat) (counted : kind ∈ kinds) (left : s.tried x kind < most) {u : State}
    (hu : u = ((s.tick t).tryAgain x kinds kind most).countRetry x.addr) :
    (u.stack (stackOf x.addr)).retries = min 0xFF ((s.stack (stackOf x.addr)).retries + 1)
      ∧ (triesKey x.addr kind, s.tried x kind + 1) ∈ (u.stack (stackOf x.addr)).tries
      ∧ (u.stack (stackOf x.addr)).poison = (s.stack (stackOf x.addr)).poison ∧ (∀ j, j ≠ stackOf x.addr → u.stack j = s.stack j) ∧ u.mem = s.mem ∧ u.mc = s.mc := by
  subst hu
  obtain ⟨l, -, e⟩ := (s.tick t).tryAgain_stack x counted most
  rw [State.countRetry, State.stack_modStack_self, e, if_pos (show (s.tick t).tried x kind < most from left)]
  refine ⟨rfl, List.mem_append_right _ (List.mem_singleton_self _), rfl, fun j other => ?_, (s.tick t).tryAgain_mem x kinds kind most,
    (s.tick t).tryAgain_mc x kinds kind most⟩
  rw [State.stack_modStack_of_ne _ other, State.tryAgain_stack_of_ne _ _ _ _ _ other]
  rfl

/-- With no try left the count goes. -/
theorem State.tryAgain_of_last (s : State) (t : Nat) (counted : kind ∈ kinds) (last : most ≤ s.tried x kind) {u : State}
    (hu : u = (s.tick t).tryAgain x kinds kind most) : (u.stack (stackOf x.addr)).retries = (s.stack (stackOf x.addr)).retries
      ∧ ∀ e ∈ (u.stack (stackOf x.addr)).tries, e.1 ≠ triesKey x.addr kind := by
  subst hu
  obtain ⟨l, other, e⟩ := (s.tick t).tryAgain_stack x counted most
  rw [e, if_neg (show ¬(s.tick t).tried x kind < most from Nat.not_lt.2 last)]
  exact ⟨rfl, other⟩

/-! Uncorrectable errors -/

/-- An uncorrectable error of a line is counted in its stack. -/
def State.countUncorrectable (s : State) (a : Nat) : State :=
  s.modStack (stackOf a) fun y => { y with uncorrectable := min 0xFF (y.uncorrectable + 1) }

@[simp] theorem State.countUncorrectable_tryCount (s : State) (a : Nat) : (s.countUncorrectable a).tryCount a kind = s.tryCount a kind := by
  rw [State.tryCount, State.countUncorrectable, State.stack_modStack_self]
  rfl

/-- An uncorrectable error is counted, and one more try of its access is made. -/
def State.failRead (s : State) (a : Nat) : State := ((s.countUncorrectable a).countTry a 2 1).1

theorem State.uncorrectable_of_left (left : s.tryCount a 2 < 1) : s.uncorrectable a = s.failRead a := by
  have tries : ((s.countUncorrectable a).countTry a 2 1).2 ≤ 1 := by
    rw [State.countTry_snd, State.countUncorrectable_tryCount]
    exact left
  exact if_pos tries

theorem State.uncorrectable_of_last (last : 1 ≤ s.tryCount a 2) :
    s.uncorrectable a = (((s.failRead a).enterPoison a).retireRow (stackOf a) (pcOf a) (rowOf a)).startTest (.pc (stackOf a) (pcOf a)) 0x09 a none := by
  have tries : ¬((s.countUncorrectable a).countTry a 2 1).2 ≤ 1 := by
    rw [State.countTry_snd, State.countUncorrectable_tryCount]
    omega
  exact if_neg tries

theorem exec_hbmUncorrectableError_of_inside (inside : x.addr < s.hbmSize) :
    exec (.hbmUncorrectableError x t) s = .next (((s.tick t).access x [0, 2]).uncorrectable x.addr) :=
  congrArg Host.Outcome.next (State.hbmError_of_inside inside t _)

/-- What a failed read leaves of the stacks: its count of errors moves on, and its tries change as `countTry` says. -/
theorem State.failRead_stack (s : State) (x : HbmAccess) (t : Nat) {u : State} (hu : u = ((s.tick t).access x [0, 2]).failRead x.addr) :
    (u.stack (stackOf x.addr)).uncorrectable = min 0xFF ((s.stack (stackOf x.addr)).uncorrectable + 1)
      ∧ (u.stack (stackOf x.addr)).poison = (s.stack (stackOf x.addr)).poison ∧ (∀ j, j ≠ stackOf x.addr → u.stack j = s.stack j) ∧ u.mem = s.mem
      ∧ (s.tried x 2 < 1 → (triesKey x.addr 2, 1) ∈ (u.stack (stackOf x.addr)).tries) := by
  subst hu
  obtain ⟨l, -, e⟩ := (((s.tick t).access x [0, 2]).countUncorrectable x.addr).countTry_fst x.addr 2 1
  obtain ⟨_, e'⟩ := (s.tick t).access_stack x [0, 2]
  have count : ((s.tick t).access x [0, 2]).tryCount x.addr 2 = s.tried x 2 := (s.tick t).access_tryCount x (by decide)
  rw [State.countUncorrectable_tryCount, count] at e
  rw [State.failRead, e, State.stack_modStack_self, State.countUncorrectable, State.stack_modStack_self, e']
  refine ⟨rfl, rfl, fun j other => ?_, (s.tick t).access_mem .., fun left => ?_⟩
  · rw [State.stack_modStack_of_ne _ other, State.stack_modStack_of_ne _ other, State.access_stack_of_ne _ _ _ other]
    rfl
  · rw [if_pos left, Nat.lt_one_iff.1 left]
    exact List.mem_append_right _ (List.mem_singleton_self _)

/-! Corrected errors -/

/-- The corrected errors of the hour before t in the stack of a line (07 R219). -/
def State.hour (s : State) (a t : Nat) : List (Nat × Nat) := (s.stack (stackOf a)).history.filter fun e => decide (t < e.2 + 3600000000000)

/-- A corrected error of a line is counted in its stack. -/
def State.countCorrected (s : State) (a : Nat) : State := s.modStack (stackOf a) fun y => { y with corrected := min 0xFFFF (y.corrected + 1) }

theorem exec_hbmCorrectedError_of_inside (inside : a < s.hbmSize) : exec (.hbmCorrectedError a t) s
    = .next (if ((s.hour a t).filter fun e => e.1 == rowOf a * 64 + pcOf a).length < 3
      then ((s.tick t).countCorrected a).modStack (stackOf a) fun y => { y with history := s.hour a t ++ [(rowOf a * 64 + pcOf a, t)] }
      else (((s.tick t).countCorrected a).modStack (stackOf a) fun y =>
        { y with history := (s.hour a t ++ [(rowOf a * 64 + pcOf a, t)]).filter fun e => e.1 != rowOf a * 64 + pcOf a }).retireRow (stackOf a) (pcOf a) (rowOf a)) := by
  have length : ((s.hour a t ++ [(rowOf a * 64 + pcOf a, t)]).filter fun e => e.1 == rowOf a * 64 + pcOf a).length < 4
      ↔ ((s.hour a t).filter fun e => e.1 == rowOf a * 64 + pcOf a).length < 3 := by
    rw [List.filter_append, List.length_append, List.filter_singleton, beq_self_eq_true, cond_true, List.length_singleton]
    omega
  refine congrArg Host.Outcome.next ((State.hbmError_of_inside inside t _).trans ?_)
  simp only [← length]
  rfl

theorem hbmErrors : HbmErrors := by
  intro s x t inside
  refine ⟨fun left => ⟨_, exec_hbmReadParityFailure_of_left inside left, s.tryAgain_countRetry t (by decide) left rfl⟩, fun last => ?_,
    fun left => ⟨_, exec_hbmWriteParityFailure_of_left inside left, s.tryAgain_countRetry t (by decide) left rfl⟩, fun last => ?_, fun left => ?_, fun last => ?_,
    fun few => ?_, fun many => ?_⟩
  · obtain ⟨retries, tries⟩ := s.tryAgain_of_last (kinds := [0, 2]) t (by decide) last rfl
    exact ⟨_, exec_hbmReadParityFailure_of_last inside last, (s.tick t).tryAgain_mem .., retries, tries, (s.tick t).tryAgain_mc ..⟩
  · obtain ⟨retries, -⟩ := s.tryAgain_of_last (kinds := [1]) t (by decide) last rfl
    exact ⟨_, exec_hbmWriteParityFailure_of_last inside last, retries, (s.tick t).tryAgain_mem ..⟩
  · obtain ⟨errors, poison, others, mem, tries⟩ := s.failRead_stack x t rfl
    refine ⟨_, ?_, errors, tries left, poison, others, mem⟩
    rw [exec_hbmUncorrectableError_of_inside inside, State.uncorrectable_of_left]
    rw [State.access_tryCount _ _ (by decide)]
    exact left
  · obtain ⟨errors, -, -, mem, -⟩ := s.failRead_stack x t rfl
    refine ⟨_, ?_, errors, mem⟩
    rw [exec_hbmUncorrectableError_of_inside inside, State.uncorrectable_of_last]
    rw [State.access_tryCount _ _ (by decide)]
    exact last
  · refine ⟨_, (exec_hbmCorrectedError_of_inside inside).trans (congrArg _ (if_pos few)), ?_, ?_, fun j other => ?_, rfl⟩
    · rw [State.stack_modStack_self, State.countCorrected, State.stack_modStack_self]
      rfl
    · rw [State.stack_modStack_self]
      rfl
    · rw [State.stack_modStack_of_ne _ other, State.countCorrected, State.stack_modStack_of_ne _ other]
      rfl
  · refine ⟨_, (exec_hbmCorrectedError_of_inside inside).trans (congrArg _ (if_neg (Nat.not_lt.2 many))), ?_⟩
    rw [State.stack_modStack_self, State.countCorrected, State.stack_modStack_self]
    rfl

end

end Sys2Proof.Machine

namespace Sys2Proof.Machine

open Sys2Proof Sys2Proof.Claims

/-! ### Rows and refresh rates (07 R216, R219) -/

section

variable {s : State} {h temp t : Nat}

/-! A row moved to its spare -/

/-- A row that was being moved stands in the remap list. -/
def Stack.remapped (x : Stack) (pc row : Nat) : Stack := { x with moving := x.moving.erase (pc, row), remap := x.remap ++ [(pc, row)] }

theorem exec_rowRetirementComplete {pc row : Nat} (moves : (pc, row) ∈ (s.stack h).moving) (open_ : s.atFloor = false ∨ s.bringupDone = false) :
    exec (.rowRetirementComplete h pc row []) s = .next ((s.modStack h fun x => x.remapped pc row).retire [.row h pc row] 0x09 1 0xF (h * 64 + pc) row
      (((s.stack h).remap.filter fun e => e.1 == pc).length) 0 0) := by
  have ends : ¬((!(s.stack h).moving.contains (pc, row)) = true ∨ (s.atFloor && s.bringupDone) = true) := by
    rw [List.contains_iff_mem.2 moves]
    rcases open_ with off | off <;> simp [off]
  exact congrArg Host.Outcome.next (if_neg ends)

theorem rowRetirements (s : State) (h pc row : Nat) (moves : (pc, row) ∈ (s.stack h).moving) (open_ : s.atFloor = false ∨ s.bringupDone = false) :
    ∃ u v : State, exec (.rowRetirementComplete h pc row []) s = .next v
      ∧ v = u.retire [.row h pc row] 0x09 1 0xF (h * 64 + pc) row (((s.stack h).remap.filter fun e => e.1 == pc).length) 0 0
      ∧ (s.mc.repairMap.length < 16384 → v.mc.repairMap = s.mc.repairMap ++ [.row h pc row])
      ∧ (u.stack h).remap = (s.stack h).remap ++ [(pc, row)] ∧ (u.stack h).moving = (s.stack h).moving.erase (pc, row) ∧ u.mem = s.mem := by
  refine ⟨s.modStack h fun x => x.remapped pc row, _, exec_rowRetirementComplete moves open_, rfl,
    fun room => State.retire_repairMap _ [.row h pc row] (by simpa using room) .., ?_, ?_, rfl⟩
  all_goals
    rw [State.stack_modStack_self]
    rfl

/-! Temperatures read out one die after another -/

/-- A table whose entries from k on are changed by a list of values, one after another. -/
theorem tget_foldl_zipIdx {α β : Type} [DecidableEq β] (d : β) (f : α × Nat → β → β) (l : List α) (k : Nat) (t : Tbl β) (j : Nat) :
    tget d ((l.zipIdx k).foldl (fun t e => tmod d t e.2 (f e)) t) j
      = if j < k then tget d t j else (l[j - k]?).elim (tget d t j) fun x => f (x, j) (tget d t j) := by
  induction l generalizing k t with
  | nil => simp
  | cons x l ih =>
    rw [List.zipIdx_cons, List.foldl_cons, ih, tget_tmod]
    rcases lt_trichotomy j k with below | same | above
    · rw [if_pos (by omega), if_neg (by omega), if_pos below]
    · subst same
      simp
    · have next : j - k = j - (k + 1) + 1 := by omega
      rw [if_neg (by omega), if_neg (by omega), if_neg (by omega), next, List.getElem?_cons_succ]

/-- A stack whose die was read out: its rate rises at once (07 R216). -/
def Stack.readOut (x : Stack) (temp t : Nat) : Stack :=
  { x with temp := temp, mult := max x.mult (refreshOf temp), above := warmAt x.above temp t }

/-- A cluster whose two cellar sensors were read out, with the temperature that its columns use. -/
def Cluster.readOut (x : Cluster) (e : Nat × Nat) (temp t : Nat) : Cluster :=
  { x with tempC1 := e.1, tempC4 := e.2, refreshC := max x.refreshC (refreshOf temp), refreshOver := warmAt x.refreshOver temp t }

/-- The stacks with the dies of a list, each with its temperature, read out. -/
def State.readStacks (s : State) (l : List (Nat × Nat)) (t : Nat) : State :=
  { s with hbm := { s.hbm with stk := l.foldl (fun k e => tmod Stack.init k e.2 fun x => x.readOut e.1 t) s.hbm.stk } }

/-- The clusters with the cellar sensors of a list, each with its two temperatures, read out. -/
def State.readClusters (s : State) (l : List ((Nat × Nat) × Nat)) (t : Nat) : State :=
  { s with cl := l.foldl (fun k e => tmod Cluster.init k e.2 fun x => x.readOut e.1 (s.cellarTemp e.2 e.1) t) s.cl }

theorem State.foldl_stackReadOut (s : State) (l : List (Nat × Nat)) (t : Nat) :
    l.foldl (fun s e => s.modStack e.2 fun x => x.readOut e.1 t) s = s.readStacks l t := by
  induction l generalizing s with
  | nil => rfl
  | cons e l ih => rw [List.foldl_cons, ih]; rfl

theorem State.foldl_clusterReadOut (s : State) (l : List ((Nat × Nat) × Nat)) (t : Nat) :
    l.foldl (fun s e => s.modClu e.2 fun x => x.readOut e.1 (s.cellarTemp e.2 e.1) t) s = s.readClusters l t := by
  induction l generalizing s with
  | nil => rfl
  | cons e l ih => rw [List.foldl_cons, ih]; rfl

theorem State.cellarTemp_of_good (good : s.pwr.sensorsBad = []) (c : Nat) (e : Nat × Nat) : s.cellarTemp c e = max e.1 e.2 := by
  simp [State.cellarTemp, good]

/-- The state once the given dies' temperatures are read out at time t. -/
def State.readOut (s : State) (l : List Nat) (cs : List (Nat × Nat)) (t : Nat) : State := ((s.tick t).readStacks l.zipIdx t).readClusters cs.zipIdx t

theorem exec_temperatureReadout (s : State) (l : List Nat) (cs : List (Nat × Nat)) (t : Nat) :
    exec (.temperatureReadout l cs t) s = .next (s.readOut l cs t) := by
  rw [State.readOut, ← State.foldl_stackReadOut, ← State.foldl_clusterReadOut]
  rfl

theorem State.readOut_stack (s : State) (l : List Nat) (cs : List (Nat × Nat)) (t h : Nat) :
    (s.readOut l cs t).stack h = (l[h]?).elim (s.stack h) fun x => (s.stack h).readOut x t :=
  (tget_foldl_zipIdx Stack.init (fun e x => x.readOut e.1 t) l 0 s.hbm.stk h).trans (if_neg (Nat.not_lt_zero h))

theorem State.readOut_clu (s : State) (l : List Nat) (cs : List (Nat × Nat)) (t c : Nat) :
    (s.readOut l cs t).clu c = (cs[c]?).elim (s.clu c) fun x => (s.clu c).readOut x (s.cellarTemp c x) t :=
  (tget_foldl_zipIdx Cluster.init (fun e x => x.readOut e.1 (s.cellarTemp e.2 e.1) t) cs 0 s.cl c).trans (if_neg (Nat.not_lt_zero c))

theorem temperatureReadouts (s : State) (l : List Nat) (cs : List (Nat × Nat)) (t : Nat) : ∃ u : State, exec (.temperatureReadout l cs t) s = .next u
    ∧ (∀ h x, l[h]? = some x → (u.stack h).temp = x ∧ (u.stack h).mult = max (s.stack h).mult (if x ≤ 85 then 0 else if x ≤ 95 then 1 else 2))
    ∧ (∀ h, l[h]? = none → u.stack h = s.stack h)
    ∧ (∀ c x, cs[c]? = some x → (u.clu c).tempC1 = x.1 ∧ (u.clu c).tempC4 = x.2
      ∧ (s.pwr.sensorsBad = [] → (u.clu c).refreshC = max (s.clu c).refreshC (if max x.1 x.2 ≤ 85 then 0 else if max x.1 x.2 ≤ 95 then 1 else 2)))
    ∧ (∀ c, cs[c]? = none → u.clu c = s.clu c) ∧ u.mem = s.mem ∧ u.tg = s.tg := by
  refine ⟨_, exec_temperatureReadout s l cs t, fun h x read => ?_, fun h unread => ?_, fun c x read => ?_, fun c unread => ?_, rfl, rfl⟩
  · rw [State.readOut_stack, read]
    exact ⟨rfl, rfl⟩
  · rw [State.readOut_stack, unread]
    rfl
  · rw [State.readOut_clu, read]
    refine ⟨rfl, rfl, fun good => ?_⟩
    rw [Option.elim_some, State.cellarTemp_of_good good]
    rfl
  · rw [State.readOut_clu, unread]
    rfl

/-! The fall of a rate -/

/-- The rate of a die of temperature `temp` at time t, from its rate and the times at which it was last too warm to fall. -/
def fallen (mult : Nat) (warm : Nat × Nat) (temp t : Nat) : Nat := max (refreshOf temp) (fallTo mult (warmAt warm temp t) t)

theorem fallen_of_cool {mult : Nat} {warm : Nat × Nat} (cool : temp ≤ 82) (long : warm.1 + 100000000 ≤ t) : fallen mult warm temp t = 0 := by
  have low : temp ≤ 85 := by omega
  simp [fallen, fallTo, warmAt, refreshOf, low, Nat.not_lt.2 cool, long]

/-- Within 3 °C of the lower threshold the rate of a die does not fall below 1. -/
theorem fallen_of_near {warm : Nat × Nat} (near : 82 < temp) (low : temp ≤ 85) : fallen 1 warm temp t = 1 := by
  simp only [fallen, fallTo, warmAt, refreshOf, near, low, if_true, show ¬t + 100000000 ≤ t by omega, if_false, show ¬92 < temp by omega]
  split <;> rfl

theorem fallen_of_warm {mult : Nat} {warm : Nat × Nat} (hot : 85 < temp) (low : temp ≤ 92) (long : warm.2 + 100000000 ≤ t) (high : 1 ≤ mult) :
    fallen mult warm temp t = 1 := by
  have rate : refreshOf temp = 1 := by rw [refreshOf, if_neg (by omega), if_pos (by omega)]
  have least : fallTo mult (warmAt warm temp t) t = 1 := by
    simp only [fallTo, warmAt, show 82 < temp by omega, if_true, show ¬t + 100000000 ≤ t by omega, if_false, show ¬92 < temp by omega, long]
    omega
  rw [fallen, rate, least, max_self]

theorem stackRatesFall (s : State) (h temp t : Nat) : ∃ u : State, exec (.refreshRateFall (.hbm h) temp t) s = .next u ∧ (u.stack h).temp = temp
    ∧ (∀ j, j ≠ h → u.stack j = s.stack j)
    ∧ (temp ≤ 82 → (s.stack h).above.1 + 100000000 ≤ t → (u.stack h).mult = 0)
    ∧ (82 < temp → temp ≤ 85 → (s.stack h).mult = 1 → (u.stack h).mult = 1)
    ∧ (temp ≤ 92 → 85 < temp → (s.stack h).above.2 + 100000000 ≤ t → 1 ≤ (s.stack h).mult → 0 < t → (u.stack h).mult = 1) := by
  refine ⟨_, rfl, ?_, fun j other => ?_, ?_⟩
  · rw [State.stack_modStack_self]
  · rw [State.stack_modStack_of_ne _ other]
    rfl
  · rw [State.stack_modStack_self]
    exact ⟨fallen_of_cool, fun near low one => (congrArg (fallen · _ temp t) one).trans (fallen_of_near near low),
      fun low hot long high _ => fallen_of_warm hot low long high⟩

theorem clusterRatesFall (s : State) (c temp t : Nat) : ∃ u : State, exec (.refreshRateFall (.cellar c) temp t) s = .next u
    ∧ (temp ≤ 82 → (s.clu c).refreshOver.1 + 100000000 ≤ t → (u.clu c).refreshC = 0) ∧ (∀ j, j ≠ c → u.clu j = s.clu j) := by
  refine ⟨_, rfl, fun cool long => ?_, fun j other => ?_⟩
  · rw [State.clu_modClu_self]
    exact fallen_of_cool cool long
  · rw [State.clu_modClu_of_ne _ other]
    rfl

theorem rowsAndRefresh : RowsAndRefresh := ⟨rowRetirements, temperatureReadouts, stackRatesFall, clusterRatesFall⟩

end

/-- Settles O39: errors of the HBM, rows moved to their spares and refresh rates. That tries are counted for each access is log 65; that the record of a row
names no context is log 112. -/
theorem hbmEvents : Obligations.HbmEvents := ⟨hbmErrors, rowsAndRefresh⟩

end Sys2Proof.Machine

namespace Sys2Proof.Machine

open Sys2Proof Sys2Proof.Claims

/-! ### What accesses to lines leave as they were (06 R184, 07 R211) -/

section

variable {s t : State}

theorem CellarWork.cx (h : CellarWork s t) (c : Nat) : t.cx c = s.cx c := by rw [State.cx, h.ctx, State.cx]

theorem State.makePz_cellar (s : State) (id : LineId) : CellarWork s (s.makePz id) := by
  have h : CellarWork s (s.dropAll id) := .of_parts
  cases id with
  | scratch k off => exact h.trans (State.putHome_cellar ..)
  | window k a =>
    exact h.trans (.ite (State.enterPoison_cellar ..) (.ite ((State.putHome_cellar ..).trans (State.enterPoison_cellar ..)) (State.putHome_cellar ..)))

theorem State.readPlace_cellar (s : State) (c : Nat) (p : Place) (hint : Option Nat) : CellarWork s (s.readPlace c p hint).1 := by
  cases p with
  | homed id off direct set dflt => exact s.homeStep_cellar ..
  | flat sp k =>
    dsimp only [State.readPlace]
    split
    · exact .refl s
    · split <;> exact .refl s
  | absent => exact .refl s
  | outside => exact .refl s

theorem State.writePlace_cellar (s : State) (c : Nat) (p : Place) (hint : Option Nat) (l : Line) : CellarWork s (s.writePlace c p hint l).1 := by
  cases p with
  | homed id off direct set dflt => exact s.homeStep_cellar ..
  | flat sp k => exact .trans (.ite (s.leavePoison_cellar k) (.refl s)) (.trans (.ite .of_parts (.refl _)) (State.write_cellar ..))
  | absent => exact .refl s
  | outside => exact .refl s

theorem State.takeLine_cellar (s : State) (c a : Nat) : CellarWork s (s.takeLine c a).1 := by
  have h := s.readPlace_cellar c (s.resolve c none a) none
  unfold State.takeLine
  split
  next e => exact h.of_eq e
  next e => exact h.of_eq e

theorem State.storeLine_cellar (s : State) (c a : Nat) (l : Line) : CellarWork s (s.storeLine c a l) := s.writePlace_cellar ..

theorem State.dmaLine_cellar (s : State) (c a la : Nat) (bs : List Byte) : CellarWork s (s.dmaLine c a la bs) := by
  unfold State.dmaLine
  extract_lets lo hi mask data
  split
  next =>
    refine .ite (s.holdReq_cellar ..) ?_
    split
    next e => exact ((s.homeStep_cellar ..).of_eq e).trans (State.holdReq_cellar ..)
    next e => exact ((s.homeStep_cellar ..).of_eq e).trans (State.holdReq_cellar ..)
    next e => exact (s.homeStep_cellar ..).of_eq e
  next sp k _ => exact .trans (.ite (s.leavePoison_cellar k) (.refl s)) (State.write_cellar ..)
  next => exact .refl s
  next => exact .refl s

theorem State.dmaWrite_cellar (s : State) (c a : Nat) (bs : List Byte) : CellarWork s (s.dmaWrite c a bs) :=
  .ite (.refl s) (.foldl (fun s _ => s.dmaLine_cellar ..) _ s)

end

end Sys2Proof.Machine

namespace Sys2Proof.Machine

open Sys2Proof Sys2Proof.Claims

/-! ### The size of usable tier 2 (07 Table 7-2)

It follows from the height of the stacks, which no write of a whole line changes. -/

section

variable {s t u : State}

theorem Reported.tier2Size (h : Reported s t) : t.tier2Size = s.tier2Size := by obtain ⟨_, _, _, _, rfl⟩ := h; rfl

theorem State.ite_tier2Size {p : Prop} [Decidable p] (h : t.tier2Size = s.tier2Size) (h' : u.tier2Size = s.tier2Size) :
    (if p then t else u).tier2Size = s.tier2Size := by
  split
  · exact h
  · exact h'

theorem State.foldl_tier2Size {α : Type} {f : State → α → State} (hf : ∀ s a, (f s a).tier2Size = s.tier2Size) (l : List α) (s : State) :
    (l.foldl f s).tier2Size = s.tier2Size :=
  List.foldlRecOn l f (motive := fun t => t.tier2Size = s.tier2Size) rfl fun _ h a _ => (hf _ a).trans h

@[simp] theorem State.putHome_tier2Size (s : State) (id : LineId) (h : HomeLine) : (s.putHome id h).tier2Size = s.tier2Size := rfl

@[simp] theorem State.write_tier2Size (s : State) (sp : Space) (a : Nat) (bs : List Byte) : (s.write sp a bs).tier2Size = s.tier2Size := by
  obtain ⟨m, e⟩ := s.write_eq sp a bs
  rw [e]
  rfl

@[simp] theorem State.leavePoison_tier2Size (s : State) (a : Nat) : (s.leavePoison a).tier2Size = s.tier2Size := (s.leavePoison_stored a).tier2Size

@[simp] theorem State.enterPoison_tier2Size (s : State) (a : Nat) : (s.enterPoison a).tier2Size = s.tier2Size := by
  unfold State.enterPoison
  extract_lets h k
  split
  · rfl
  split
  · rfl
  · exact (State.fault_reported ..).tier2Size

@[simp] theorem State.putTier_tier2Size (s : State) (a : Nat) (l : Line) : (s.putTier a l).tier2Size = s.tier2Size := by
  unfold State.putTier
  split <;> simp

@[simp] theorem State.putData_tier2Size (s : State) (id : LineId) (direct : Bool) (l : Line) : (s.putData id direct l).tier2Size = s.tier2Size := by
  cases id <;> dsimp only [State.putData]
  case scratch k off =>
    split
    · rfl
    · exact State.write_tier2Size ..
  case window k a => split <;> simp

@[simp] theorem State.recallAll_tier2Size (s : State) (id : LineId) (direct : Bool) : (s.recallAll id direct).tier2Size = s.tier2Size :=
  State.foldl_tier2Size (f := fun (s : State) (x : L1Line) => if x.modified then s.putData id direct x.data else s) (fun s x => by split <;> simp)
    (s.cel.l1.filter fun x => x.line == id) s

/-! Room in a set of the cache part -/

@[simp] theorem State.evict_tier2Size (s : State) (id : LineId) : (s.evict id).tier2Size = s.tier2Size := by
  cases id <;> dsimp only [State.evict]
  case scratch k off =>
    split
    · rfl
    split <;> simp
  case window k a =>
    rw [State.putHome_tier2Size]
    split
    · exact State.enterPoison_tier2Size ..
    split <;> simp

@[simp] theorem State.trimKeeps_tier2Size (s : State) (k set : Nat) : (s.trimKeeps k set).tier2Size = s.tier2Size :=
  State.foldl_tier2Size (f := fun (s : State) (e : LineId × HomeLine) => s.putHome e.1 { s.homeLine e.1 with hint := .normal }) (fun _ _ => rfl) _ s

theorem State.makeRoom_tier2Size {k set : Nat} (h : s.makeRoom k set = some t) : t.tier2Size = s.tier2Size := by
  unfold State.makeRoom at h
  extract_lets ls order passed at h
  split at h
  · obtain rfl := Option.some.inj h
    rfl
  split at h
  · exact absurd h (by simp)
  next =>
    extract_lets counted at h
    obtain rfl := Option.some.inj h
    rw [State.evict_tier2Size]
    simp only [counted]
    split <;> rfl

theorem State.allocate_tier2Size {c k a set hint fills : Nat} {st : LineSt} {dirty : Bool} {data : Line}
    (h : s.allocate c k a set hint st fills dirty data = some t) : t.tier2Size = s.tier2Size := by
  unfold State.allocate at h
  extract_lets trimmed at h
  split at h
  · exact absurd h (by simp)
  next roomy hroom =>
    obtain rfl := Option.some.inj h
    exact (State.makeRoom_tier2Size hroom).trans (s.trimKeeps_tier2Size k set)

theorem State.bringEvac_tier2Size {id : LineId} {hint : Nat} {full : Option Line} (h : s.bringEvac id hint full = some t) : t.tier2Size = s.tier2Size := by
  obtain ⟨roomy, hroom, rfl⟩ := Option.map_eq_some_iff.1 h
  exact (State.makeRoom_tier2Size hroom).trans (State.trimKeeps_tier2Size ..)

/-! A whole line written at its home -/

@[simp] theorem State.settleCopies_tier2Size (s : State) (id : LineId) (direct : Bool) (hint : Nat) :
    (s.settleCopies id direct hint).tier2Size = s.tier2Size := by
  have touched (v : State) : (v.touch id hint).tier2Size = v.tier2Size := by
    unfold State.touch
    split <;> rfl
  simp only [State.settleCopies]
  split
  · rfl
  · rw [touched, State.putHome_tier2Size]

@[simp] theorem State.settle_tier2Size (s : State) (id : LineId) (direct : Bool) (hint : Nat) : (s.settle id direct hint).tier2Size = s.tier2Size := by
  unfold State.settle
  extract_lets k settled line stamped cel next l
  have h : next.tier2Size = s.tier2Size := by
    rw [← s.settleCopies_tier2Size id direct hint]
    simp only [next]
    split <;> rfl
  clear_value next
  split
  · exact h
  split
  · simp [h]
  · exact h

theorem State.serve_tier2Size (s : State) (id : LineId) (direct : Bool) (hint : Nat) (d : Line) :
    (s.serve id direct hint (.fullLineWrite d)).1.tier2Size = s.tier2Size := by
  simp [State.serve]

theorem State.homeServe_tier2Size (s : State) (c : Nat) (id : LineId) (direct : Bool) (set hint : Nat) (d : Line) :
    (s.homeServe c id direct set hint (.fullLineWrite d)).1.tier2Size = s.tier2Size := by
  unfold State.homeServe
  extract_lets h
  split
  case h_1 => rfl
  case h_2 =>
    dsimp only
    rw [State.settle_tier2Size, State.putData_tier2Size]
    cases id with
    | scratch k off => rfl
    | window k a => exact State.ite_tier2Size rfl (State.leavePoison_tier2Size ..)
  case h_3 =>
    cases id
    case scratch k off =>
      dsimp only
      split
      next hb => exact State.bringEvac_tier2Size hb
      next => rfl
    case window k a =>
      dsimp only
      split
      · exact s.serve_tier2Size ..
      split
      next hb => exact State.allocate_tier2Size hb
      next => rfl
  all_goals exact s.serve_tier2Size ..

theorem State.homeStep_tier2Size (s : State) (c : Nat) (id : LineId) (direct : Bool) (set hint : Nat) (d : Line) :
    (s.homeStep c id direct set hint (.fullLineWrite d)).1.tier2Size = s.tier2Size := by
  have waited (v : State) : (v.waitOver id).tier2Size = v.tier2Size := by
    unfold State.waitOver
    extract_lets k
    split <;> rfl
  rw [← s.homeServe_tier2Size c id direct set hint d]
  unfold State.homeStep
  dsimp only
  split
  · split
    · rfl
    · exact waited _
  · rfl

@[simp] theorem State.storeLine_tier2Size (s : State) (c a : Nat) (l : Line) : (s.storeLine c a l).tier2Size = s.tier2Size := by
  unfold State.storeLine
  cases s.resolve c none a with
  | homed id off direct set dflt => exact s.homeStep_tier2Size ..
  | flat sp k =>
    have sound : (if sp = .tier2 then s.leavePoison k else s).tier2Size = s.tier2Size := by split <;> simp
    dsimp only [State.writePlace]
    rw [State.write_tier2Size]
    split
    · exact sound
    · exact sound
  | absent => rfl
  | outside => rfl

@[simp] theorem State.makePz_tier2Size (s : State) (id : LineId) : (s.makePz id).tier2Size = s.tier2Size := by
  have dropped : (s.dropAll id).tier2Size = s.tier2Size := rfl
  cases id <;> dsimp only [State.makePz]
  case scratch k off => rw [State.putHome_tier2Size, dropped]
  case window k a =>
    split
    · rw [State.enterPoison_tier2Size, dropped]
    split
    · rw [State.enterPoison_tier2Size, State.putHome_tier2Size, dropped]
    · rw [State.putHome_tier2Size, dropped]

end

end Sys2Proof.Machine

namespace Sys2Proof.Machine

open Sys2Proof Sys2Proof.Claims

/-! ### The outrider (07 R238) -/

section

variable {s t : State} {c x layer i : Nat}

/-- A caravan that fetches a layer into slot i for the visit at distance x. -/
def Caravan.fetching (k : Caravan) (i layer x : Nat) : Caravan := { k with
  slots := tset none k.slots i (some ⟨layer, false, [], k.running + x⟩), fetch := some (i, layer, x)
  poisoned := k.poisoned.filter fun e => e.1 != layer }

theorem exec_outriderFetchStart_of_free (next : s.nextVisit c = some (x, layer)) (none : (s.cx c).car.fetch = none) (runs : (s.cx c).run.isSome = true)
    (open_ : s.atFloor = false) (on : s.tg.st ≠ 6) (near : x ≤ (s.cx c).car.inForce) (within : x ≤ (s.cx c).car.latchedW) (free : s.freeSlot c x = some i) :
    exec (.outriderFetchStart c) s = .next (s.modCx c fun y => { y with car := y.car.fetching i layer x }) := by
  have run : ¬(s.cx c).run.isNone = true := by simpa using Option.isSome_iff_ne_none.1 runs
  have reach : ¬min (s.cx c).car.inForce (s.cx c).car.latchedW < x := Nat.not_lt.2 (Nat.le_min.2 ⟨near, within⟩)
  simp only [exec, execOutriderFetchStart, none, Option.isSome_none, run, open_, on, next, reach, free, Bool.false_eq_true, or_self, if_false]
  rfl

/-- A layer beyond the distance in force or the window waits. -/
theorem exec_outriderFetchStart_of_far (next : s.nextVisit c = some (x, layer)) (far : min (s.cx c).car.inForce (s.cx c).car.latchedW < x) :
    exec (.outriderFetchStart c) s = .next s := by
  simp only [exec, execOutriderFetchStart, next, far, if_true, ite_self]

theorem outriderFetch : OutriderFetch := by
  intro s c x layer i next
  refine ⟨fun none runs open_ on near within free =>
    ⟨_, exec_outriderFetchStart_of_free next none runs open_ on near within free, ?_, ?_, fun j other => ?_, rfl⟩, exec_outriderFetchStart_of_far next⟩
  · rw [State.cx_modCx_self]
    rfl
  · rw [State.cx_modCx_self]
    exact (tget_tset ..).trans (if_pos rfl)
  · rw [State.cx_modCx_self]
    exact (tget_tset ..).trans (if_neg other)

/-! ### Fills (07 R238, R244) -/

/-- Every slot of context c's caravan that holds a layer in s holds it in t, for the same last visit. -/
def SlotsKept (c : Nat) (s t : State) : Prop :=
  ∀ i v, tget none (s.cx c).car.slots i = some v → ∃ q, tget none (t.cx c).car.slots i = some q ∧ q.layer = v.layer ∧ q.last = v.last

theorem SlotsKept.of_cx (h : t.cx c = s.cx c) : SlotsKept c s t := fun i v stands => ⟨v, by rw [h]; exact stands, rfl, rfl⟩

theorem SlotsKept.trans {u : State} (h : SlotsKept c s t) (h' : SlotsKept c t u) : SlotsKept c s u := fun i v stands => by
  obtain ⟨q, stands', layer, last⟩ := h i v stands
  obtain ⟨p, stands'', layer', last'⟩ := h' i q stands'
  exact ⟨p, stands'', layer'.trans layer, last'.trans last⟩

theorem SlotsKept.of_cellar (h : CellarWork s t) : SlotsKept c s t := .of_cx (h.cx c)

theorem SlotsKept.foldl {α : Type} {f : State → α → State} (hf : ∀ s a, SlotsKept c s (f s a)) (l : List α) (s : State) : SlotsKept c s (l.foldl f s) :=
  List.foldlRecOn l f (motive := SlotsKept c s) (.of_cx rfl) fun _ h a _ => h.trans (hf _ a)

/-- A read of a table whose entries all went through f. -/
theorem tget_map {α : Type} (f : α → α) (t : Tbl (Option α)) (k : Nat) : tget none (t.map fun e => (e.1, e.2.map f)) k = (tget none t k).map f := by
  induction t with
  | nil => rfl
  | cons e t ih =>
    rw [List.map_cons, tget, tget]
    split
    · rfl
    · exact ih

theorem State.tileFilled_slots (s : State) (c layer t : Nat) : SlotsKept c s (s.tileFilled c layer t) := fun i v stands => by
  rw [State.tileFilled, State.cx_modCx_self]
  refine ⟨_, (tget_map _ _ i).trans (congrArg (Option.map _) stands), ?_, ?_⟩ <;> dsimp only <;> split <;> rfl

/-- A tile's slot copy poisoned in memory: its header written and its lines marked (07 R244). -/
def State.poisonLines (s : State) (c at_ n : Nat) (hdr : Line) : State :=
  (lineAddrs at_ n).foldl (fun s a => match s.resolve c none a with
    | .homed id _ _ _ _ => s.makePz id
    | _ => s) (s.storeLine c at_ (poisonedHeader hdr))

theorem State.poisonLines_cellar (s : State) (c at_ n : Nat) (hdr : Line) : CellarWork s (s.poisonLines c at_ n hdr) := by
  refine (s.storeLine_cellar ..).trans (.foldl (fun s a => ?_) _ _)
  split
  · exact s.makePz_cellar _
  · exact .refl s

theorem State.poisonLines_tier2Size (s : State) (c at_ n : Nat) (hdr : Line) : (s.poisonLines c at_ n hdr).tier2Size = s.tier2Size := by
  refine (State.foldl_tier2Size (fun s a => ?_) _ _).trans (s.storeLine_tier2Size ..)
  split
  · exact s.makePz_tier2Size _
  · rfl

/-- The tile stands once in the list of poisoned ones. -/
def Caravan.poison (k : Caravan) (layer tile : Nat) : Caravan :=
  { k with poisoned := if k.poisoned.contains (layer, tile) then k.poisoned else k.poisoned ++ [(layer, tile)] }

theorem Caravan.mem_poison (k : Caravan) (layer tile : Nat) : (layer, tile) ∈ (k.poison layer tile).poisoned := by
  unfold Caravan.poison
  dsimp only
  split
  next h => exact List.contains_iff_mem.1 h
  next => exact List.mem_append_right _ (List.mem_singleton_self _)

/-- A tile of context c handed to the MC as poisoned. -/
def State.handPoisoned (s : State) (c layer tile : Nat) : State := s.modCx c fun x => { x with car := x.car.poison layer tile }

theorem State.handPoisoned_slots (s : State) (c layer tile : Nat) : SlotsKept c s (s.handPoisoned c layer tile) := fun i v stands => by
  refine ⟨v, ?_, rfl, rfl⟩
  rw [State.handPoisoned, State.cx_modCx_self]
  exact stands

theorem State.poisonTile_eq (s : State) (c layer : Nat) (e : CaravanEntry) (tile : Nat) (hdr : Line) : s.poisonTile c layer e tile hdr
    = ((s.poisonLines c (apertureAt c layer (tile * tileBytes e.fmt)) (tileBytes e.fmt) hdr).handPoisoned c layer tile).tileFilled c layer tile := rfl

theorem State.poisonTile_slots (s : State) (c layer : Nat) (e : CaravanEntry) (tile : Nat) (hdr : Line) : SlotsKept c s (s.poisonTile c layer e tile hdr) := by
  rw [State.poisonTile_eq]
  exact .trans (.of_cellar (s.poisonLines_cellar c _ _ hdr)) (.trans (State.handPoisoned_slots _ c layer tile) (State.tileFilled_slots _ c layer tile))

theorem State.poisonTile_poisoned (s : State) (c layer : Nat) (e : CaravanEntry) (tile : Nat) (hdr : Line) :
    (layer, tile) ∈ ((s.poisonTile c layer e tile hdr).cx c).car.poisoned := by
  rw [State.poisonTile_eq, State.tileFilled, State.cx_modCx_self, State.handPoisoned, State.cx_modCx_self]
  exact Caravan.mem_poison ..

theorem State.poisonTile_tier2Size (s : State) (c layer : Nat) (e : CaravanEntry) (tile : Nat) (hdr : Line) :
    (s.poisonTile c layer e tile hdr).tier2Size = s.tier2Size := s.poisonLines_tier2Size ..

theorem State.takeLines_cellar (c : Nat) (l : List Nat) (r : State × List (Option Line)) :
    CellarWork r.1 (l.foldl (fun (r : State × List (Option Line)) a => let q := r.1.takeLine c a; (q.1, r.2 ++ [q.2])) r).1 :=
  List.foldlRecOn l _ (motive := fun q : State × List (Option Line) => CellarWork r.1 q.1) (.refl _) fun q h a _ => h.trans (q.1.takeLine_cellar c a)

theorem State.fillTile_slots (s : State) (c layer : Nat) (e : CaravanEntry) (tile : Nat) : SlotsKept c s (s.fillTile c layer e tile) := by
  unfold State.fillTile
  extract_lets size src
  have taken := State.takeLines_cellar c (lineAddrs src size) (s, [])
  generalize (lineAddrs src size).foldl _ (s, []) = r at taken
  obtain ⟨v, ls⟩ := r
  dsimp only
  refine .trans (.of_cellar taken) ?_
  split
  · exact v.poisonTile_slots c layer e tile _
  · exact .trans (.of_cellar (.foldl (fun s r => s.storeLine_cellar ..) _ v)) (State.tileFilled_slots _ c layer tile)

/-! The end of a fill -/

/-- A caravan whose fetch has ended with the layer whole in slot i. -/
def Caravan.filled (k : Caravan) (i : Nat) : Caravan :=
  { k with fetch := none, slots := tmod none k.slots i fun v => v.map fun q => { q with full := true } }

theorem exec_caravanFillComplete_of_none (fetch : (s.cx c).car.fetch = some (i, layer, x))
    (all : ∀ e, s.carEntry c layer = some e → s.tilesToFill c layer e = []) :
    exec (.caravanFillComplete c) s = .next (s.modCx c fun y => { y with car := y.car.filled i }) := by
  cases entry : s.carEntry c layer with
  | none =>
    simp only [exec, execCaravanFillComplete, fetch, entry]
    rfl
  | some e =>
    simp only [exec, execCaravanFillComplete, fetch, entry, all e entry, List.any_nil, Bool.false_eq_true, if_false, List.foldl_nil]
    rfl

theorem exec_caravanFillComplete_of_ready {e : CaravanEntry} (fetch : (s.cx c).car.fetch = some (i, layer, x)) (entry : s.carEntry c layer = some e)
    (ready : ∀ n ∈ s.tilesToFill c layer e, s.fillWaits c layer e n = false) : exec (.caravanFillComplete c) s
    = .next (((s.tilesToFill c layer e).foldl (fun s t => s.fillTile c layer e t) s).modCx c fun y => { y with car := y.car.filled i }) := by
  simp only [exec, execCaravanFillComplete, fetch, entry, any_eq_false_of_forall ready, Bool.false_eq_true, if_false]
  rfl

theorem exec_caravanFillComplete_of_waits {e : CaravanEntry} {n : Nat} (fetch : (s.cx c).car.fetch = some (i, layer, x)) (entry : s.carEntry c layer = some e)
    (due : n ∈ s.tilesToFill c layer e) (waits : s.fillWaits c layer e n = true) : exec (.caravanFillComplete c) s = .next s := by
  have waiting : (s.tilesToFill c layer e).any (s.fillWaits c layer e) = true := List.any_eq_true.2 ⟨n, due, waits⟩
  simp only [exec, execCaravanFillComplete, fetch, entry, waiting, if_true]

theorem caravanFillCompletes (fetch : (s.cx c).car.fetch = some (i, layer, x)) {e : CaravanEntry} {v : CarSlot} (entry : s.carEntry c layer = some e)
    (slot : tget none (s.cx c).car.slots i = some v) (ready : ∀ n ∈ s.tilesToFill c layer e, s.fillWaits c layer e n = false) :
    ∃ (t : State) (q : CarSlot), exec (.caravanFillComplete c) s = .next t ∧ (t.cx c).car.fetch = none ∧ tget none (t.cx c).car.slots i = some q
      ∧ q.full = true ∧ q.layer = v.layer ∧ q.last = v.last := by
  obtain ⟨p, stands, layer', last⟩ := SlotsKept.foldl (fun s n => s.fillTile_slots c layer e n) (s.tilesToFill c layer e) s i v slot
  refine ⟨_, { p with full := true }, exec_caravanFillComplete_of_ready fetch entry ready, ?_, ?_, rfl, layer', last⟩
  · rw [State.cx_modCx_self]
    rfl
  · rw [State.cx_modCx_self]
    exact (tget_tmod ..).trans ((if_pos rfl).trans (congrArg (Option.map _) stands))

/-! A tile that cannot be read -/

/-- A tile's slot copy poisoned, and the line that failed chosen: the event does not say which of the tile's it was (log 2). -/
def State.fillFailed (s : State) (c layer : Nat) (e : CaravanEntry) (tile : Nat) : State × Nat :=
  let u := s.poisonTile c layer e tile (s.storedLine c (e.src + tile * tileBytes e.fmt))
  (u.free.2, e.src + tile * tileBytes e.fmt + u.free.1.toNat % tileLines e.fmt * 256)

theorem State.fillFailed_poisoned (s : State) (c layer : Nat) (e : CaravanEntry) (tile : Nat) :
    (layer, tile) ∈ ((s.fillFailed c layer e tile).1.cx c).car.poisoned :=
  s.poisonTile_poisoned c layer e tile (s.storedLine c (e.src + tile * tileBytes e.fmt))

theorem State.fillFailed_tier2Size (s : State) (c layer : Nat) (e : CaravanEntry) (tile : Nat) : (s.fillFailed c layer e tile).1.tier2Size = s.tier2Size :=
  s.poisonTile_tier2Size c layer e tile (s.storedLine c (e.src + tile * tileBytes e.fmt))

/-- The line that failed is one of the tile's. -/
theorem State.fillFailed_line (s : State) (c layer : Nat) (e : CaravanEntry) (tile : Nat) :
    e.src + tile * tileBytes e.fmt ≤ (s.fillFailed c layer e tile).2 ∧ (s.fillFailed c layer e tile).2 < e.src + (tile + 1) * tileBytes e.fmt := by
  refine ⟨Nat.le_add_right _ _, ?_⟩
  have line (n : Nat) : n % tileLines e.fmt < tileLines e.fmt := Nat.mod_lt n (tileLines_pos e.fmt)
  rw [State.fillFailed, Nat.succ_mul, ← Nat.add_assoc, Nat.add_lt_add_iff_left, tileBytes_eq, Nat.mul_comm 256]
  exact Nat.mul_lt_mul_of_pos_right (line _) (by decide)

/-- Both errors of a line of usable tier 2 are counted (log 109), its row is retired and its pseudo-channel tested. -/
theorem exec_caravanFillError_of_due {e : CaravanEntry} {tile t : Nat} (fetch : (s.cx c).car.fetch = some (i, layer, x)) (entry : s.carEntry c layer = some e)
    (due : tile ∈ s.tilesToFill c layer e) {u : State} {a : Nat} (failed : (s.tick t).fillFailed c layer e tile = (u, a)) :
    exec (.caravanFillError c tile t) s = .next (if a < u.tier2Size then
      (((u.modStack (stackOf a) fun y => { y with uncorrectable := min 0xFF (y.uncorrectable + 2) }).enterPoison a).retireRow (stackOf a) (pcOf a)
        (rowOf a)).startTest (.pc (stackOf a) (pcOf a)) 0x09 a none else u) := by
  obtain ⟨rfl, rfl⟩ := Prod.mk.inj failed
  have entry' : (s.tick t).carEntry c layer = some e := entry
  have due' : ((s.tick t).tilesToFill c layer e).contains tile = true := List.contains_iff_mem.2 due
  simp only [exec, execCaravanFillError, State.cx_tick, fetch, entry', due', Bool.not_true, Bool.false_eq_true, if_false]
  rfl

theorem caravanFillErrors (fetch : (s.cx c).car.fetch = some (i, layer, x)) {e : CaravanEntry} {tile : Nat} (t : Nat) (entry : s.carEntry c layer = some e)
    (due : tile ∈ s.tilesToFill c layer e) : ∃ (u : State) (a : Nat), (layer, tile) ∈ (u.cx c).car.poisoned
      ∧ e.src + tile * tileBytes e.fmt ≤ a ∧ a < e.src + (tile + 1) * tileBytes e.fmt
      ∧ exec (.caravanFillError c tile t) s = .next (if a < s.tier2Size then
        (((u.modStack (stackOf a) fun y => { y with uncorrectable := min 0xFF (y.uncorrectable + 2) }).enterPoison a).retireRow (stackOf a) (pcOf a)
          (rowOf a)).startTest (.pc (stackOf a) (pcOf a)) 0x09 a none else u) := by
  rcases failed : (s.tick t).fillFailed c layer e tile with ⟨u, a⟩
  have poisoned := (s.tick t).fillFailed_poisoned c layer e tile
  have size := (s.tick t).fillFailed_tier2Size c layer e tile
  have line := (s.tick t).fillFailed_line c layer e tile
  rw [failed] at poisoned size line
  have runs := exec_caravanFillError_of_due fetch entry due failed
  rw [show u.tier2Size = s.tier2Size from size] at runs
  exact ⟨u, a, poisoned, line.1, line.2, runs⟩

theorem caravanFills : CaravanFills := fun _ _ _ _ _ fetch =>
  ⟨exec_caravanFillComplete_of_none fetch, fun _ _ entry slot ready => caravanFillCompletes fetch entry slot ready,
    fun _ _ entry due waits => exec_caravanFillComplete_of_waits fetch entry due waits, fun _ _ t entry due => caravanFillErrors fetch t entry due⟩

end

end Sys2Proof.Machine

namespace Sys2Proof.Machine

open Sys2Proof Sys2Proof.Claims

/-! ### Events write host memory alone (11 R378, R387) -/

section

variable {s : State}

theorem State.irq_mem (s : State) (n : Nat) (ev now : Bool) : (s.irq n ev now).mem = s.mem := by
  obtain ⟨_, _, e⟩ := s.irq_eq n ev now
  rw [e]

theorem State.postReceipt_tier2 (s : State) (n : Nat) (r : BitVec 256) (irqNow : Bool) : (s.postReceipt n r irqNow).mem.tier2 = s.mem.tier2 := by
  unfold State.postReceipt
  extract_lets g a w v
  split
  · rfl
  split
  · rfl
  · rw [State.irq_mem]
    rfl

theorem State.event_tier2 (s : State) (code ctx detail : Nat) : (s.event code ctx detail).mem.tier2 = s.mem.tier2 := by
  unfold State.event State.postEvent
  extract_lets r n isOpen
  clear_value isOpen
  split
  · split
    · exact s.postReceipt_tier2 ..
    · cases isOpen <;> rfl
  · rfl

/-- A fault record that names no cause raises one event. -/
theorem State.fault_tier2_of_no_cause (s : State) (kind outcome ctx unit sub spare detail : Nat) :
    (s.fault kind outcome ctx unit sub spare detail 0).mem.tier2 = s.mem.tier2 := by
  simp only [State.fault, if_true, State.event_tier2]

end

/-! ### Tiles under regeneration (07 R245 to R247) -/

section

variable {s : State} {c layer tile src a : Nat} {e : CaravanEntry}

/-- A context frozen at time `now`. -/
def Ctx.freeze (x : Ctx) (now : Nat) : Ctx :=
  { x with evac := x.evac.map fun _ => true, frozen := true, frozenAt := if x.frozen then x.frozenAt else now }

theorem State.freeze_eq (s : State) (c : Nat) : ∃ k, s.freeze c = { s.modCx c (fun x => x.freeze s.now) with cl := k } := ⟨_, State.foldl_modClu ..⟩

theorem State.freeze_cx (s : State) (c : Nat) : (s.freeze c).cx c = (s.cx c).freeze s.now := by
  obtain ⟨k, e⟩ := s.freeze_eq c
  rw [e]
  exact s.cx_modCx_self c fun x => x.freeze s.now

theorem State.freeze_mem (s : State) (c : Nat) : (s.freeze c).mem = s.mem := by
  obtain ⟨k, e⟩ := s.freeze_eq c
  rw [e]
  rfl

/-- A context frozen for good, with a fault record, before the event that says so (07 R247). -/
def State.lost (s : State) (c a : Nat) : State := ((s.faultTraining 5 c a).modCx c fun x => { x with stuck := true }).freeze c

theorem State.tileLost_eq (s : State) (c a : Nat) : s.tileLost c a = (s.lost c a).event 0x8007 c a := rfl

theorem State.lost_cx (s : State) (c a : Nat) : ((s.lost c a).cx c).frozen = true ∧ ((s.lost c a).cx c).stuck = true := by
  rw [State.lost, State.freeze_cx, State.cx_modCx_self]
  exact ⟨rfl, rfl⟩

theorem State.lost_tier2 (s : State) (c a : Nat) : (s.lost c a).mem.tier2 = s.mem.tier2 := by
  rw [State.lost, State.freeze_mem]
  exact s.fault_tier2_of_no_cause ..

/-! The sources in their order -/

section

variable (entry : s.carEntry c layer = some e) (bad : (layer, tile) ∈ (s.cx c).car.poisoned) (at_ : a = e.src + tile * tileBytes e.fmt)
include entry bad at_

/-- A tile of no trained tensor has no source. -/
theorem exec_tileRegenerated_of_no_tensor (none : s.workingOf c a = none) (last : 4 ≤ src) :
    exec (.tileRegenerated c layer tile src) s = .next ((s.lost c a).event 0x8007 c a) := by
  subst at_
  simp only [exec, execTileRegenerated, entry, List.contains_iff_mem.2 bad, Bool.not_true, Bool.false_eq_true, if_false, none, last, if_true, State.tileLost_eq]

variable {k : Tensor} {g : Nat} (working : s.workingOf c a = some (k, g))
include working

/-- The local master comes first, whatever source the event names. -/
theorem exec_tileRegenerated_of_master {v : State} {w : List Byte} (master : s.tryRegen c k g a 0 = some (v, w)) :
    exec (.tileRegenerated c layer tile src) s = .next (v.regenerated c layer tile 0 a e.fmt w) := by
  subst at_
  simp only [exec, execTileRegenerated, entry, List.contains_iff_mem.2 bad, Bool.not_true, Bool.false_eq_true, if_false, working, master]

theorem exec_tileRegenerated_of_source {v : State} {w : List Byte} (fails : s.tryRegen c k g a 0 = none) (first : 1 ≤ src) (last : src < 4)
    (given : s.tryRegen c k g a src = some (v, w)) :
    exec (.tileRegenerated c layer tile src) s = .next (v.regenerated c layer tile src a e.fmt w) := by
  subst at_
  simp only [exec, execTileRegenerated, entry, List.contains_iff_mem.2 bad, Bool.not_true, Bool.false_eq_true, if_false, working, fails, given,
    Nat.not_le.2 last, Nat.ne_of_gt first]

theorem exec_tileRegenerated_of_no_source (fails : s.tryRegen c k g a 0 = none) (last : 4 ≤ src) :
    exec (.tileRegenerated c layer tile src) s = .next ((s.lost c a).event 0x8007 c a) := by
  have other : src ≠ 0 := by omega
  subst at_
  simp only [exec, execTileRegenerated, entry, List.contains_iff_mem.2 bad, Bool.not_true, Bool.false_eq_true, if_false, working, fails, other, last, if_true,
    State.tileLost_eq]

end

/-- A regenerated tile's bytes written in its place, and in its slot where the layer stands in one (07 R246). -/
def State.putTile (s : State) (c layer tile a fmt : Nat) (w : List Byte) : State :=
  let t := s.dmaWrite c a w
  if (t.caravanSlot c layer).isSome then t.dmaWrite c (apertureAt c layer (tile * tileBytes fmt)) w else t

theorem State.putTile_cellar (s : State) (c layer tile a fmt : Nat) (w : List Byte) : CellarWork s (s.putTile c layer tile a fmt w) :=
  (s.dmaWrite_cellar c a w).trans (.ite (State.dmaWrite_cellar ..) (.refl _))

/-- A tile poisoned no more. -/
def Caravan.heal (k : Caravan) (layer tile : Nat) : Caravan := { k with poisoned := k.poisoned.erase (layer, tile) }

theorem State.regenerated_eq (s : State) (c layer tile src a fmt : Nat) (w : List Byte) : s.regenerated c layer tile src a fmt w
    = ((s.putTile c layer tile a fmt w).modCx c fun x => { x with car := x.car.heal layer tile }).fault 0x10 4 c 0 src 0xFFFF a 0 := rfl

theorem State.putTile_poisoned (s : State) (c layer tile a fmt : Nat) (w : List Byte) :
    (((s.putTile c layer tile a fmt w).modCx c fun x => { x with car := x.car.heal layer tile }).cx c).car.poisoned
      = (s.cx c).car.poisoned.erase (layer, tile) := by
  rw [State.cx_modCx_self, (s.putTile_cellar c layer tile a fmt w).cx]
  rfl

theorem tileRegeneration : TileRegeneration := by
  intro s c layer tile src e entry bad a at_
  obtain ⟨frozen, stuck⟩ := s.lost_cx c a
  exact ⟨fun none last => ⟨_, exec_tileRegenerated_of_no_tensor entry bad at_ none last, frozen, stuck, s.lost_tier2 c a⟩,
    fun k g working => ⟨fun v w => exec_tileRegenerated_of_master entry bad at_ working, fun v w => exec_tileRegenerated_of_source entry bad at_ working,
      fun fails last => ⟨_, exec_tileRegenerated_of_no_source entry bad at_ working fails last, frozen, stuck⟩⟩,
    fun v w => ⟨_, v.regenerated_eq c layer tile src a e.fmt w, v.putTile_poisoned c layer tile a e.fmt w⟩⟩

end

/-! ### Spilled stash tiles (07 R243) -/

section

variable {s : State} {c : Nat} {x : StashTile}

theorem exec_stashSpillFetch_of_none (on : s.inDeep = false) (none : (s.cx c).stash.filter (s.spillWanted c) = []) : exec (.stashSpillFetch c) s = .next s := by
  simp only [exec, execStashSpillFetch, on, none, Bool.false_eq_true, if_false, List.foldl_nil]

theorem exec_stashSpillFetch_of_one (on : s.inDeep = false) (one : (s.cx c).stash.filter (s.spillWanted c) = [x]) :
    exec (.stashSpillFetch c) s = .next (s.fetchSpill c x) := by
  simp only [exec, execStashSpillFetch, on, one, Bool.false_eq_true, if_false, List.foldl_cons, List.foldl_nil]

theorem State.fetchSpill_of_no_room (full : (s.cx c).areaRoom x.bytes = none) : s.fetchSpill c x = s := by
  simp only [State.fetchSpill, full]

/-- A spilled tile with a place in the saddlebag area. -/
def State.placeSpill (s : State) (c : Nat) (x : StashTile) (p : Nat) : State :=
  s.modCx c fun y => { y with stash := y.stash.map fun z => if z = x then { x with fetched := true, area := some p } else z }

/-- The lines of a tile that came back are copied, and its record stays as it was placed. -/
theorem State.fetchSpill_of_room {p : Nat} (room : (s.cx c).areaRoom x.bytes = some p)
    (ready : ∀ i < x.bytes / 256, (s.placeSpill c x p).writeWaits ((s.placeSpill c x p).stashPlace c x.slot x.mu (x.off + 256 * i)) = none) :
    CellarWork (s.placeSpill c x p) (s.fetchSpill c x) := by
  have open_ : (((List.range (x.bytes / 256)).map fun i => x.off + 256 * i).any fun o =>
      ((s.placeSpill c x p).writeWaits ((s.placeSpill c x p).stashPlace c x.slot x.mu o)).isSome) = false := by
    refine any_eq_false_of_forall fun o listed => ?_
    obtain ⟨i, low, rfl⟩ := List.mem_map.1 listed
    rw [ready i (List.mem_range.1 low)]
    rfl
  have copied : s.fetchSpill c x = ((List.range (x.bytes / 256)).map fun i => x.off + 256 * i).foldl (fun v o =>
      (v.writePlace c (v.stashPlace c x.slot x.mu o) none (s.placeLine (s.stashPlace c x.slot x.mu o))).1) (s.placeSpill c x p) := by
    simp only [State.fetchSpill, room]
    exact if_neg (by rw [Bool.not_eq_true]; exact open_)
  rw [copied]
  exact .foldl (fun v o => v.writePlace_cellar ..) _ _

theorem spillFetch : SpillFetch := by
  refine fun s c on => ⟨exec_stashSpillFetch_of_none on, fun x one => ?_⟩
  rw [exec_stashSpillFetch_of_one on one]
  refine ⟨fun full => by rw [State.fetchSpill_of_no_room full], fun p u room placed ready => ⟨_, rfl, ?_⟩⟩
  subst placed
  rw [(State.fetchSpill_of_room room ready).cx]
  rfl

end

/-- Settles O40: the outrider, fills, regenerated tiles and fetched spills. That the outrider fetches for visits from the running one on is log 64; that a fill
error counts two errors is log 109. -/
theorem caravanEvents : Obligations.CaravanEvents := ⟨outriderFetch, caravanFills, tileRegeneration, spillFetch⟩

end Sys2Proof.Machine

namespace Sys2Proof.Machine

open Sys2Proof Sys2Proof.Claims

/-! ### Waybills of class Info (11 Table 11-6) -/

section

variable {s u : State} {w : Waybill} {bs : List Byte}

/-- Eight bytes for each register read (11 Table 11-6). -/
theorem State.length_readRegs (s : State) (n off : Nat) (acc : List Byte) : (s.readRegs n off acc).2.length = acc.length + 8 * n := by
  induction n generalizing s off acc with
  | zero => rfl
  | succ n ih =>
    rw [State.readRegs, ih, List.length_append, length_bytesOfNat]
    omega

theorem exec_regRead {v : State} {l : List Byte} (b : begins s w 0x0002 u bs) (read : u.readRegs (w.p 32 8) (w.p 0 22) [] = (v, l)) :
    exec (.regRead w) s = .next (((v.fillBuffer w l).finish w 0 0 0).sweepWbs) := by
  simp only [exec, execRegRead, State.startWb_of_begins b, read]

theorem exec_regRead_of_one (b : begins s w 0x0002 u bs) (one : w.p 32 8 = 1) : exec (.regRead w) s
    = .next ((((u.readReg (w.p 0 22)).1.fillBuffer w (bytesOfNat 8 (u.readReg (w.p 0 22)).2.toNat)).finish w 0 0 0).sweepWbs) :=
  exec_regRead b (by rw [one]; rfl)

/-- The records that FAULT_LOG answers with (12 R413). -/
def State.faultsAsked (s : State) (w : Waybill) : List FaultRec := (s.mc.faultLog.filter fun f => decide (w.p 0 64 ≤ f.seq)).take (w.length / 64)

/-- The number that FAULT_LOG's answer goes on from (12 R413). -/
def State.nextFault (s : State) (w : Waybill) : Nat :=
  match (s.faultsAsked w).getLast?, (s.mc.faultLog.filter fun f => decide (w.p 0 64 ≤ f.seq)).head? with
  | some f, _ => f.seq + 1
  | none, some f => f.seq
  | none, none => w.p 0 64

theorem State.nextFault_of_last {f : FaultRec} (last : (u.faultsAsked w).getLast? = some f) : u.nextFault w = f.seq + 1 := by
  rw [State.nextFault, last]

theorem State.nextFault_of_earlier (earlier : u.mc.faultLog.all (fun f => decide (f.seq < w.p 0 64)) = true) : u.nextFault w = w.p 0 64 := by
  have unlisted : (u.mc.faultLog.filter fun f => decide (w.p 0 64 ≤ f.seq)) = [] := by
    simpa [List.filter_eq_nil_iff] using earlier
  simp only [State.nextFault, State.faultsAsked, unlisted, List.take_nil, List.getLast?_nil, List.head?_nil]

theorem exec_faultLog (b : begins s w 0x0004 u bs) : exec (.faultLog w) s = .next (((u.fillBuffer w ((u.faultsAsked w).flatMap FaultRec.bytes)).finish w 0
    (u.faultsAsked w).length (u.nextFault w)).sweepWbs) := congrArg Host.Outcome.next (State.startWb_of_begins b _)

end

/-- Settles O26: the receipts and buffers of the waybills of class Info. -/
theorem infoWaybills : Obligations.InfoWaybills := by
  intro s u w bs
  refine ⟨fun b => congrArg Host.Outcome.next (State.startWb_of_begins b _), exec_regRead_of_one, fun b v l read => ⟨?_, exec_regRead b read⟩,
    fun b => ⟨_, rfl, ?_, congrArg Host.Outcome.next (State.startWb_of_begins b _)⟩,
    fun b => ⟨u.faultsAsked w, u.nextFault w, rfl, fun f => State.nextFault_of_last, State.nextFault_of_earlier, exec_faultLog b⟩⟩
  · have length := u.length_readRegs (w.p 32 8) (w.p 0 22) []
    rw [read] at length
    simpa using length
  · rw [List.length_drop]
    omega

end Sys2Proof.Machine

namespace Sys2Proof.Machine

open Sys2Proof Sys2Proof.Claims

/-! ### A change of many parts of the state, each once -/

section

variable {σ α β : Type} {get : σ → Nat → α} {step : σ → β → σ} {key : β → Nat} {f : β → α → α}
  (same : ∀ s b, get (step s b) (key b) = f b (get s (key b))) (others : ∀ s b k, k ≠ key b → get (step s b) k = get s k)

include others

/-- A part that no entry names stays as it was. -/
theorem get_foldl_of_not_mem {l : List β} {k : Nat} (unnamed : k ∉ l.map key) (s : σ) : get (l.foldl step s) k = get s k := by
  induction l generalizing s with
  | nil => rfl
  | cons b l ih =>
    simp only [List.map_cons, List.mem_cons, not_or] at unnamed
    rw [List.foldl_cons, ih unnamed.2, others _ _ _ unnamed.1]

include same

/-- Where no part is named twice, each entry changes the part it names. -/
theorem get_foldl_of_mem {l : List β} (once : (l.map key).Nodup) {b : β} (named : b ∈ l) (s : σ) :
    get (l.foldl step s) (key b) = f b (get s (key b)) := by
  induction l generalizing s with
  | nil => simp at named
  | cons a l ih =>
    obtain ⟨fresh, once⟩ := List.nodup_cons.1 once
    rw [List.foldl_cons]
    obtain rfl | later := List.mem_cons.1 named
    · rw [get_foldl_of_not_mem others fresh, same]
    · have ne : key b ≠ key a := fun e => fresh (e ▸ List.mem_map_of_mem later)
      rw [ih once later, others _ _ _ ne]

end

/-! ### Waybills that only start, and routes (11 Table 11-9; 09 R312, R314) -/

section

variable {s u : State} {w : Waybill} {bs : List Byte}

/-- What STEP, LEG, EXPORT and PORT_RETRAIN start stays without a receipt until its work ends; the row of the table that only starts it is log 37. -/
theorem startedWaybills : StartedWaybills := fun _ _ _ _ =>
  ⟨fun b => congrArg Host.Outcome.next (State.startWb_of_begins b _), fun b => congrArg Host.Outcome.next (State.startWb_of_begins b _),
    fun b => congrArg Host.Outcome.next (State.startWb_of_begins b _), fun b => congrArg Host.Outcome.next (State.startWb_of_begins b _)⟩

/-- The dateline bit of every port set (09 R313). -/
def State.setDatelines (s : State) (d : Nat → Bool) : State := (List.range 12).foldl (fun s p => s.modPort p fun x => { x with dateline := d p }) s

theorem State.setDatelines_eq (s : State) (d : Nat → Bool) : ∃ ports, s.setDatelines d = { s with fab := { s.fab with ports := ports } } :=
  List.foldlRecOn (List.range 12) _ (motive := fun u : State => ∃ ports, u = { s with fab := { s.fab with ports := ports } }) ⟨_, rfl⟩
    fun u h p _ => by
      obtain ⟨ports, rfl⟩ := h
      exact ⟨_, rfl⟩

theorem State.setDatelines_port (s : State) (d : Nat → Bool) {p : Nat} (hp : p < 12) : (s.setDatelines d).port p = { s.port p with dateline := d p } := by
  refine get_foldl_of_mem (get := State.port) (key := id) (f := fun p x => { x with dateline := d p }) (fun v p => State.port_modPort_self ..)
    (fun v p k other => State.port_modPort_of_ne _ other _) ?_ (List.mem_range.2 hp) s
  rw [List.map_id]
  exact List.nodup_range

/-- A routing table and the dateline bits set (09 R312). -/
def State.setRoutes (s : State) (loaded : Bool) (table : Tbl (BitVec 16)) (d : Nat → Bool) : State :=
  ({ s with fab := { s.fab with loaded := loaded, table := table } } : State).setDatelines d

theorem State.setRoutes_parts (s : State) (loaded : Bool) (table : Tbl (BitVec 16)) (d : Nat → Bool) : (s.setRoutes loaded table d).fab.loaded = loaded
    ∧ (s.setRoutes loaded table d).fab.table = table ∧ (s.setRoutes loaded table d).mem = s.mem := by
  obtain ⟨ports, e⟩ := State.setDatelines_eq { s with fab := { s.fab with loaded := loaded, table := table } } d
  rw [State.setRoutes, e]
  exact ⟨rfl, rfl, rfl⟩

theorem State.setRoutes_port (s : State) (loaded : Bool) (table : Tbl (BitVec 16)) (d : Nat → Bool) {p : Nat} (hp : p < 12) :
    (s.setRoutes loaded table d).port p = { s.port p with dateline := d p } := State.setDatelines_port _ d hp

/-- The table that a buffer of ROUTE_LOAD holds (09 R312). -/
def routeTable (bs : List Byte) : Tbl (BitVec 16) := twrite 0 [] 0 ((List.range 8192).map fun i => BitVec.ofNat 16 (natAt bs (2 * i) 2))

theorem tget_routeTable (bs : List Byte) {m : Nat} (hm : m < 8192) : tget 0 (routeTable bs) m = BitVec.ofNat 16 (natAt bs (2 * m) 2) := by
  rw [routeTable, tget_twrite, if_pos (by rw [List.length_map, List.length_range]; omega), Nat.sub_zero,
    List.getD_eq_getElem _ _ (by rwa [List.length_map, List.length_range]), List.getElem_map, List.getElem_range]

theorem exec_routeLoad (b : begins s w 0x4001 u bs) : exec (.routeLoad w) s
    = .next (((u.setRoutes true (routeTable bs) fun p => w.p p 1 == 1).requeueAll.finish w 0 0 0).sweepWbs) :=
  congrArg Host.Outcome.next (State.startWb_of_begins b _)

theorem exec_routeDefault (b : begins s w 0x4002 u bs) : exec (.routeDefault w) s
    = .next (((u.setRoutes false [] fun _ => false).requeueAll.finish w 0 0 0).sweepWbs) := congrArg Host.Outcome.next (State.startWb_of_begins b _)

theorem routeTables : RouteTables := by
  refine fun s u w bs => ⟨fun b => ⟨_, exec_routeLoad b, ?_⟩, fun b => ⟨_, exec_routeDefault b, ?_⟩⟩
  · obtain ⟨loaded, table, mem⟩ := u.setRoutes_parts true (routeTable bs) fun p => w.p p 1 == 1
    refine ⟨loaded, fun m hm => by rw [table, tget_routeTable bs hm], fun p hp => ?_, fun p hp => ?_, mem⟩ <;> rw [State.setRoutes_port _ _ _ _ hp]
  · obtain ⟨loaded, table, mem⟩ := u.setRoutes_parts false [] fun _ => false
    refine ⟨loaded, table, fun p hp => ?_, fun p hp => ?_, mem⟩ <;> rw [State.setRoutes_port _ _ _ _ hp]

end

/-- Settles O30: the waybills that only start their work (log 37), and the routing tables. -/
theorem controlWaybills : Obligations.ControlWaybills := ⟨startedWaybills, routeTables⟩

end Sys2Proof.Machine

namespace Sys2Proof.Machine

open Sys2Proof Sys2Proof.Claims

/-! ### Messages of the replica group (08 R269; 09 R320 to R322) -/

section

variable {s : State} {c : Nat}

/-- The step that a member admits next: messages of it are kept (08 R269, 09 R320). -/
def Ctx.awaited (x : Ctx) : Nat := if x.run.isSome then x.step + 1 else x.step

theorem Ctx.awaited_of {x : Ctx} {n : Nat} (h : (x.run = none ∧ n = x.step) ∨ (x.run.isSome = true ∧ n = x.step + 1)) : x.awaited = n := by
  obtain ⟨noRun, rfl⟩ | ⟨runs, rfl⟩ := h
  · rw [Ctx.awaited, noRun]
    rfl
  · rw [Ctx.awaited, if_pos runs]

/-- The awaited step is not the one that runs, and the low 8 bits of their numbers differ too. -/
theorem Ctx.awaited_ne_running {x : Ctx} (runs : x.run.isSome = true) : x.awaited % 256 ≠ x.step % 256 := by
  rw [Ctx.awaited, if_pos runs]
  omega

theorem Ctx.not_running_and {x : Ctx} {p : Prop} (h : x.run = none ∨ ¬p) : ¬(x.run.isSome = true ∧ p) := by
  rintro ⟨runs, hp⟩
  obtain noRun | other := h
  · simp [noRun] at runs
  · exact other hp

/-! Trailers. That the low 8 bits of its step say which step a trailer is kept for is log 56. -/

theorem exec_trailerArrival_of_running {tr : Trailer} (runs : (s.cx c).run.isSome = true) (now_ : tr.step8 = (s.cx c).step % 256) :
    exec (.trailerArrival c tr) s = .next ((s.modRun c fun r => r.keepTrailer tr).advanceAll c) := by
  simp only [exec, execTrailerArrival]
  rw [if_pos ⟨runs, now_⟩]

theorem exec_trailerArrival_of_early {tr : Trailer} (early : tr.step8 = (s.cx c).awaited % 256) :
    exec (.trailerArrival c tr) s = .next (s.modCx c fun x => { x with early := (x.early.filter fun t => t.rank != tr.rank) ++ [tr] }) := by
  simp only [exec, execTrailerArrival]
  rw [if_neg fun h => Ctx.awaited_ne_running h.1 (early.symm.trans h.2), if_pos (by rwa [← Ctx.awaited])]

theorem exec_trailerArrival_of_other {tr : Trailer} (other : tr.step8 ≠ (s.cx c).awaited % 256)
    (past : (s.cx c).run = none ∨ tr.step8 ≠ (s.cx c).step % 256) : exec (.trailerArrival c tr) s = .next s := by
  simp only [exec, execTrailerArrival]
  rw [if_neg (Ctx.not_running_and past), if_neg (by rwa [← Ctx.awaited])]

/-! Void notices -/

theorem exec_voidNoticeArrival_of_running {step : Nat} (runs : (s.cx c).run.isSome = true) (now_ : step = (s.cx c).step) :
    exec (.voidNoticeArrival c step) s = .next (s.modRun c fun r => { r with voidNotice := true }) := by
  simp only [exec, execVoidNoticeArrival]
  rw [if_pos ⟨runs, now_.symm⟩]

theorem exec_voidNoticeArrival_of_early {step : Nat} (early : step = (s.cx c).awaited) :
    exec (.voidNoticeArrival c step) s = .next (s.modCx c fun x => { x with earlyVoid := x.earlyVoid.filter (· != step) ++ [step] }) := by
  simp only [exec, execVoidNoticeArrival]
  rw [if_neg fun h => Ctx.awaited_ne_running h.1 (congrArg (· % 256) (early.symm.trans h.2.symm)), if_pos (by rwa [← Ctx.awaited])]

theorem exec_voidNoticeArrival_of_other {step : Nat} (other : step ≠ (s.cx c).awaited) (past : (s.cx c).run = none ∨ step ≠ (s.cx c).step) :
    exec (.voidNoticeArrival c step) s = .next s := by
  simp only [exec, execVoidNoticeArrival]
  rw [if_neg (Ctx.not_running_and (past.imp_right Ne.symm)), if_neg (by rwa [← Ctx.awaited])]

/-! Notices of owners -/

theorem State.notice_of_lower {owner gen : Nat} (lower : gen < (s.cx c).mask.gen) (resend : Bool) : s.notice c owner gen resend = s := by
  rw [State.notice, if_neg (by omega), if_pos lower]

theorem State.notice_of_higher {owner gen : Nat} (higher : (s.cx c).mask.gen < gen) (resend : Bool) :
    s.notice c owner gen resend = s.modCx c fun x => { x with notices := x.notices ++ [(owner, gen, resend)] } := by
  rw [State.notice, if_pos higher]

theorem State.notice_of_held {owner gen : Nat} (held : (s.cx c).mask.gen = gen) (resend : Bool) :
    s.notice c owner gen resend = s.takeNotice c owner resend := by
  rw [State.notice, if_neg (by omega), if_neg (by omega)]

/-! Masks -/

theorem exec_maskArrival_of_absent {m : MaskMsg} (absent : (s.cx c).live = false ∨ (s.cx c).place = none) : exec (.maskArrival c m) s = .next s := by
  have away : ((s.cx c).live && (s.cx c).place.isSome) = false := by
    obtain dead | unplaced := absent
    · rw [dead, Bool.false_and]
    · rw [unplaced, Option.isSome_none, Bool.and_false]
  simp only [exec, execMaskArrival, away, Bool.false_eq_true, if_false]

theorem exec_maskArrival_of_placed {m : MaskMsg} (live : (s.cx c).live = true) (placed : (s.cx c).place ≠ none) :
    exec (.maskArrival c m) s = .next ((s.acceptMask c m).admitted c m) := by
  simp only [exec, execMaskArrival, live, Option.isSome_iff_ne_none.2 placed, Bool.and_self, if_true]

/-- A mask that is not newer than the one held is ignored (09 R320). -/
theorem State.acceptMask_of_not_newer {m : MaskMsg} (members : (s.cx c).mask.members ≠ [])
    (old : m.step < (s.cx c).mask.step ∨ m.step = (s.cx c).mask.step ∧ m.gen ≤ (s.cx c).mask.gen) : s.acceptMask c m = s := by
  unfold State.acceptMask
  refine if_pos ?_
  simp only [Bool.not_eq_true', Bool.or_eq_false_iff, Bool.and_eq_false_iff, beq_eq_false_iff_ne, decide_eq_false_iff_not, List.isEmpty_eq_false_iff]
  exact ⟨⟨by omega, by omega⟩, members⟩

theorem State.admitted_of_no_takeover (noTake : (s.cx c).take = none) (m : MaskMsg) : s.admitted c m = s := by rw [State.admitted, noTake]

theorem exec_maskArrival_of_not_newer {m : MaskMsg} (noTake : (s.cx c).take = none) (members : (s.cx c).mask.members ≠ [])
    (old : m.step < (s.cx c).mask.step ∨ m.step = (s.cx c).mask.step ∧ m.gen ≤ (s.cx c).mask.gen) : exec (.maskArrival c m) s = .next s := by
  by_cases absent : (s.cx c).live = false ∨ (s.cx c).place = none
  · exact exec_maskArrival_of_absent absent
  · obtain ⟨live, placed⟩ := not_or.1 absent
    rw [exec_maskArrival_of_placed (Bool.eq_true_of_not_eq_false live) placed, State.acceptMask_of_not_newer members old, State.admitted_of_no_takeover noTake]

/-- The mask of a later step, or a first one, taken: it starts no resume, and notices of earlier generations go. -/
def State.takeMask (s : State) (c : Nat) (m : MaskMsg) : State :=
  (s.modCx c fun x => { x with mask := ⟨m.step, m.gen, m.members, false, 0⟩ }).modCx c fun x => { x with notices := [] }

theorem State.takeMask_cx (s : State) (c : Nat) (m : MaskMsg) : ((s.takeMask c m).cx c).mask = ⟨m.step, m.gen, m.members, false, 0⟩
    ∧ ((s.takeMask c m).cx c).notices = [] ∧ ∀ d, d ≠ c → (s.takeMask c m).cx d = s.cx d := by
  refine ⟨?_, ?_, fun d other => ?_⟩
  · rw [State.takeMask, State.cx_modCx_self, State.cx_modCx_self]
  · rw [State.takeMask, State.cx_modCx_self]
  · rw [State.takeMask, State.cx_modCx_of_ne _ other, State.cx_modCx_of_ne _ other]

theorem State.acceptMask_of_later_step {m : MaskMsg} (noSpare : m.admits = none) (later : (s.cx c).mask.step < m.step ∨ (s.cx c).mask.members = []) :
    s.acceptMask c m = ((s.takeMask c m).retryAll c (· == .waits)).advanceAll c := by
  have newer : (!(decide ((s.cx c).mask.step < m.step) || ((s.cx c).mask.step == m.step && decide ((s.cx c).mask.gen < m.gen))
      || (s.cx c).mask.members.isEmpty)) = false := by
    obtain step | first := later
    · rw [decide_eq_true step]
      rfl
    · rw [first]
      simp
  have fresh : ((s.cx c).mask.step == m.step && !(s.cx c).mask.members.isEmpty) = false := by
    obtain step | first := later
    · rw [beq_eq_false_iff_ne.2 (by omega), Bool.false_and]
    · rw [first]
      simp
  simp only [State.acceptMask, newer, fresh, noSpare, Bool.false_and, Bool.false_eq_true, if_false]
  rfl

/-! Spares -/

theorem exec_spareAdmitRequest_of_refused {rank m : Nat} (refused : s.leads c = false ∨ rank ∈ (s.cx c).mask.members ∨ s.groupSize c ≤ rank
    ∨ (rank ∉ (s.cx c).lost ∧ rank ∉ (s.cx c).departed)) : exec (.spareAdmitRequest c rank m) s = .next s := by
  simp only [exec, execSpareAdmitRequest]
  refine congrArg _ (if_neg ?_)
  simp only [Bool.not_eq_true', List.contains_eq_mem, decide_eq_false_iff_not, decide_eq_true_eq]
  rintro ⟨leads, member, small, gone⟩
  obtain follows | still | big | ⟨notLost, notDeparted⟩ := refused
  · simp [follows] at leads
  · exact member still
  · omega
  · exact gone.elim notLost notDeparted

/-- The members with a spare among them, in order of rank (09 R322). -/
def State.withSpare (s : State) (c rank : Nat) : List Nat := (List.range (s.groupSize c)).filter fun r => (s.cx c).present.contains r || r == rank

theorem State.mem_withSpare {rank x : Nat} : x ∈ s.withSpare c rank ↔ x < s.groupSize c ∧ (x ∈ (s.cx c).present ∨ x = rank) := by
  simp [State.withSpare]

theorem exec_spareAdmitRequest_of_leader {rank m : Nat} (leads : s.leads c = true) (out : rank ∉ (s.cx c).mask.members) (small : rank < s.groupSize c)
    (gone : rank ∈ (s.cx c).lost ∨ rank ∈ (s.cx c).departed) :
    exec (.spareAdmitRequest c rank m) s = .next (s.publishMask c (s.withSpare c rank) (some (rank, m))) := by
  simp only [exec, execSpareAdmitRequest]
  refine congrArg _ (if_pos ⟨leads, ?_, small, ?_⟩)
  · simpa using out
  · simpa using gone

end

/-- Settles O50: trailers, notices, masks and spares. That a trailer of a step not admitted yet is kept by the low 8 bits of its step is log 56. -/
theorem groupMessages : Obligations.GroupMessages := by
  refine ⟨fun s c tr => ⟨fun r runs => ?_, fun n awaited => ?_⟩, fun s c step => ⟨fun r runs => ?_, fun n awaited => ?_⟩, fun s c owner gen q notice => ?_,
    fun s c m => ⟨exec_maskArrival_of_absent, exec_maskArrival_of_not_newer, fun live placed noTake noSpare later => ?_⟩,
    fun s c rank m => ⟨exec_spareAdmitRequest_of_refused, fun leads out small gone =>
      ⟨s.withSpare c rank, fun x => State.mem_withSpare, exec_spareAdmitRequest_of_leader leads out small gone⟩⟩⟩
  · exact exec_trailerArrival_of_running (by rw [runs]; rfl)
  · rw [← Ctx.awaited_of awaited]
    exact ⟨exec_trailerArrival_of_early, exec_trailerArrival_of_other⟩
  · exact exec_voidNoticeArrival_of_running (by rw [runs]; rfl)
  · rw [← Ctx.awaited_of awaited]
    exact ⟨exec_voidNoticeArrival_of_early, exec_voidNoticeArrival_of_other⟩
  · have exec_eq : exec q.1 s = .next (s.notice c owner gen q.2) := by
      simp only [List.mem_cons, List.not_mem_nil, or_false] at notice
      obtain rfl | rfl := notice <;> rfl
    rw [exec_eq]
    exact ⟨fun lower => by rw [State.notice_of_lower lower], fun higher => by rw [State.notice_of_higher higher],
      fun held => by rw [State.notice_of_held held]⟩
  · obtain ⟨mask, notices, others⟩ := s.takeMask_cx c m
    refine ⟨s.takeMask c m, ?_, mask, notices, others, rfl⟩
    rw [exec_maskArrival_of_placed live placed, State.acceptMask_of_later_step noSpare later]

end Sys2Proof.Machine

namespace Sys2Proof.Machine

open Sys2Proof Sys2Proof.Claims

/-! ### Seals and fetched units (08 R280 to R283) -/

section

variable {s u v : State} {c : Nat} {t : Tensor} {k : Nat}

theorem exec_sealPublish_of_sealed {i step : Nat} (sealed : s.sealStep c = some step) (listed : (s.tensorsOf c)[i]? = some (t, k)) :
    exec (.sealPublish c i) s = .next (if s.sweptShard c t = true then s.publish c t step else s) := by
  simp only [exec, execSealPublish, sealed, listed]

theorem exec_sealPublish_of_none {i : Nat} (missing : s.sealStep c = none ∨ (s.tensorsOf c)[i]? = none) : exec (.sealPublish c i) s = .next s := by
  simp only [exec, execSealPublish]
  obtain notSealed | unlisted := missing
  · simp only [notSealed]
  · simp only [unlisted]
    cases s.sealStep c <;> rfl

/-- A seal covers every byte outside the header lines (08 R280). -/
theorem sealOf_congr {tile start : Nat} {a b : List Byte} (length : a.length = b.length)
    (same : ∀ i < a.length, (start + i) % tile < 256 ∨ a[i]? = b[i]?) : sealOf tile start a = sealOf tile start b := by
  refine congrArg crc64 (List.ext_getElem (by simp [length]) fun i ha hb => ?_)
  have inA : i < a.length := by simpa using ha
  simp only [List.getElem_map, List.getElem_zipIdx, Nat.zero_add]
  obtain header | equal := same i inA
  · rw [if_pos header, if_pos header]
  · rw [List.getElem?_eq_getElem inA, List.getElem?_eq_getElem (length ▸ inA), Option.some.injEq] at equal
    rw [equal]

/-! FETCH_UNIT_ARRIVAL -/

variable {f : Fetching} {tn rank unit step : Nat} {bs : List Byte} {sv : DWord}

theorem exec_fetchUnitArrival_of_none (missing : (s.cx c).fetching = none ∨ (s.tensorsOf c)[tn]? = none) :
    exec (.fetchUnitArrival c tn rank unit bs sv step) s = .next s := by
  simp only [exec, execFetchUnitArrival]
  obtain idle | unlisted := missing
  · simp only [idle]
  · simp only [unlisted]
    cases (s.cx c).fetching <;> rfl

theorem exec_fetchUnitArrival_of_unasked (fetches : (s.cx c).fetching = some f) (listed : (s.tensorsOf c)[tn]? = some (t, k))
    (unasked : f.tensor ≠ tn ∨ f.rank ≠ rank ∨ f.unit ≠ unit ∨ f.verify = true) : exec (.fetchUnitArrival c tn rank unit bs sv step) s = .next s := by
  simp only [exec, execFetchUnitArrival, fetches, listed, if_pos unasked]

/-- The unit asked for is the one that arrives. -/
def Fetching.asks (f : Fetching) (tn rank unit : Nat) : Prop := f.tensor = tn ∧ f.rank = rank ∧ f.unit = unit ∧ f.verify = false

theorem Fetching.asks.not_unasked (asked : f.asks tn rank unit) : ¬(f.tensor ≠ tn ∨ f.rank ≠ rank ∨ f.unit ≠ unit ∨ f.verify = true) := by
  obtain ⟨tensor, owner, number, fetches⟩ := asked
  simp [tensor, owner, number, fetches]

theorem exec_fetchUnitArrival_of_asked (fetches : (s.cx c).fetching = some f) (listed : (s.tensorsOf c)[tn]? = some (t, k))
    (asked : f.asks tn rank unit) (current : ∀ n, s.fetchStep c t = some n → n = step) : exec (.fetchUnitArrival c tn rank unit bs sv step) s
      = .next ((s.takeUnit c f t (slice bs 0 (unitBytes (workingArea t (s.groupSize c) rank).2 unit)) sv).afterUnit c f) := by
  have fresh : ((s.fetchStep c t).any fun n => n != step) = false := by
    rw [Option.any_eq_false_iff_get]
    intro some
    rw [current _ (Option.some_get some).symm, bne_self_eq_false]
  simp only [exec, execFetchUnitArrival, fetches, listed, if_neg asked.not_unasked, fresh, Bool.false_eq_true, if_false]

/-- A unit of another step is not taken; a restore that fetches it fails (12 R438). -/
theorem exec_fetchUnitArrival_of_stale {n : Nat} (fetches : (s.cx c).fetching = some f) (listed : (s.tensorsOf c)[tn]? = some (t, k))
    (asked : f.asks tn rank unit) (due : s.fetchStep c t = some n) (stale : n ≠ step) : exec (.fetchUnitArrival c tn rank unit bs sv step) s
      = .next ((s.cx c).restore.elim s fun w => s.restoreFails c w 0xFFFFFFF3 0) := by
  have old : ((s.fetchStep c t).any fun n => n != step) = true := by
    rw [due, Option.any_some, bne_iff_ne]
    exact stale
  simp only [exec, execFetchUnitArrival, fetches, listed, if_neg asked.not_unasked, old, if_true]
  cases (s.cx c).restore <;> rfl

/-! A unit that fails its seal is asked for again (08 R283) -/

/-- A unit counted as failing its seal, its next try under way. -/
def State.retried (s : State) (c : Nat) (f : Fetching) : State :=
  ((s.modCx c fun x => { x with cnt := { x.cnt with sealMismatch := satAdd 0xFFFF x.cnt.sealMismatch 1 } }).modRun c fun r =>
    { r with sealBad := r.sealBad + 1 }).modCx c fun x => { x with
      fetching := some { f with tries := f.tries + 1 }, cnt := { x.cnt with refetches := satAdd 0xFFFF x.cnt.refetches 1 } }

theorem State.retried_cx (s : State) (c : Nat) (f : Fetching) : ((s.retried c f).cx c).fetching = some { f with tries := f.tries + 1 }
    ∧ ((s.retried c f).cx c).cnt.sealMismatch = min 0xFFFF ((s.cx c).cnt.sealMismatch + 1)
    ∧ ((s.retried c f).cx c).cnt.refetches = min 0xFFFF ((s.cx c).cnt.refetches + 1) := by
  rw [State.retried, State.modRun, State.cx_modCx_self, State.cx_modCx_self, State.cx_modCx_self]
  exact ⟨rfl, rfl, rfl⟩

theorem State.takeUnit_of_mismatch (bad : sealOf (tileBytes t.fmt) (f.unit * sealUnit) bs ≠ sv) (left : f.tries < 2) :
    s.takeUnit c f t bs sv = (s.retried c f).askUnit c { f with tries := f.tries + 1 } := by
  have again : f.tries + 1 < 3 := by omega
  rw [State.takeUnit, if_neg bad, State.sealMismatch, if_pos again]
  rfl

/-! VERIFY_REPLY -/

theorem exec_verifyReply_of_none (idle : (s.cx c).fetching = none) : exec (.verifyReply c) s = .next s := by
  simp only [exec, execVerifyReply, idle]

theorem exec_verifyReply_of_unasked (fetches : (s.cx c).fetching = some f) (unasked : f.verify = false) : exec (.verifyReply c) s = .next s := by
  simp only [exec, execVerifyReply, fetches, unasked, Bool.false_eq_true, if_false]

/-- The fetch goes on over the second path (08 R283). -/
def State.secondPath (s : State) (c : Nat) (f : Fetching) : State :=
  s.modCx c fun x => { x with
    fetching := some { f with verify := false, path := 1, tries := 0 }, cnt := { x.cnt with refetches := satAdd 0xFFFF x.cnt.refetches 1 } }

theorem exec_verifyReply_of_asked (fetches : (s.cx c).fetching = some f) (asked : f.verify = true) :
    exec (.verifyReply c) s = .next ((s.secondPath c f).askUnit c { f with verify := false, path := 1, tries := 0 }) := by
  simp only [exec, execVerifyReply, fetches, asked, if_true]
  rfl

theorem State.secondPath_cx (s : State) (c : Nat) (f : Fetching) :
    ((s.secondPath c f).cx c).fetching = some { f with verify := false, path := 1, tries := 0 }
      ∧ ((s.secondPath c f).cx c).cnt.refetches = min 0xFFFF ((s.cx c).cnt.refetches + 1) := by
  rw [State.secondPath, State.cx_modCx_self]
  exact ⟨rfl, rfl⟩

/-! VERIFY_REQUEST (08 R284) -/

section

variable {i src : Nat} {b : Option Buffer} {l : LastSweep} {seals : List DWord} {w : List Byte}

theorem exec_verifyRequest_of_none (missing : (s.tensorsOf c)[i]? = none ∨ (s.cx c).lastSweep = none) : exec (.verifyRequest c i unit src b) s = .next s := by
  have exec_eq : exec (.verifyRequest c i unit src b) s = execVerifyRequest c i unit src b s := rfl
  rw [exec_eq, execVerifyRequest]
  obtain unlisted | unswept := missing
  · rw [unlisted]
  · rw [unswept]
    cases (s.tensorsOf c)[i]? <;> rfl

variable (listed : (s.tensorsOf c)[i]? = some (t, k)) (swept : (s.cx c).lastSweep = some l) (table : s.published c t = (u, some seals))
  (unitRead : u.readAll c ((workingArea t (s.groupSize c) (s.ownRank c)).1 + unit * sealUnit)
    (unitBytes (workingArea t (s.groupSize c) (s.ownRank c)).2 unit) = (v, some w))

include listed swept table unitRead

/-- The unit stands as it was published. -/
theorem exec_verifyRequest_of_sound (sound : some (sealOf (tileBytes t.fmt) (unit * sealUnit) w) = seals[unit]?) :
    exec (.verifyRequest c i unit src b) s = .next (v.tell c src (.verifyReply t.id unit)) := by
  simp only [exec, execVerifyRequest, listed, swept, table, unitRead, Option.map_some, sound, Option.isSome_some, and_self, if_true]

variable {x : State} {m : List Byte} (bad : some (sealOf (tileBytes t.fmt) (unit * sealUnit) w) ≠ seals[unit]?)
  (masterRead : v.readAll c t.master (masterBytes t (s.groupSize c) (s.ownRank c)) = (x, some m))

include bad masterRead

/-- The master passes its seals: the working copy is made again from it. -/
theorem exec_verifyRequest_of_master
    (kept : ((x.cx c).masterSeals.find? fun e => e.1 == t.id).map Prod.snd = some (sealsOf (tileBytes 1) m)) :
    exec (.verifyRequest c i unit src b) s = .next ((x.regenShard c t l.step).repaired c src t l.step unit) := by
  simp only [exec, execVerifyRequest, listed, swept, table, unitRead, Option.map_some, bad, masterRead, false_and, if_false]
  exact congrArg _ (if_pos ⟨kept.symm, rfl⟩)

/-- Neither the master nor a buffer gives the shard: the context freezes. -/
theorem exec_verifyRequest_of_lost
    (lost : ((x.cx c).masterSeals.find? fun e => e.1 == t.id).map Prod.snd ≠ some (sealsOf (tileBytes 1) m))
    (unheld : ∀ d, b = some d → d.complete = false ∨ d.owner ≠ s.ownRank c ∨ some d.step ≠ l.before) :
    exec (.verifyRequest c i unit src b) s = .next (x.shardLost c) := by
  simp only [exec, execVerifyRequest, listed, swept, table, unitRead, Option.map_some, bad, masterRead, false_and, if_false]
  refine congrArg _ ((if_neg fun h => lost h.1.symm).trans ?_)
  cases b with
  | none => rfl
  | some d =>
    have useless : ¬(d.complete = true ∧ d.owner = s.ownRank c ∧ some d.step = l.before) := by
      rintro ⟨complete, owner, before⟩
      obtain no | no | no := unheld d rfl
      · simp [no] at complete
      · exact no owner
      · exact no before
    simp only [if_neg useless]

end

theorem sealsAndFetches : SealsAndFetches := by
  refine ⟨fun s c i => ⟨fun step k t => exec_sealPublish_of_sealed, exec_sealPublish_of_none⟩, fun tile start a b => sealOf_congr,
    fun s c tn rank unit step bs sv => ⟨exec_fetchUnitArrival_of_none, fun f t k fetches listed =>
      ⟨exec_fetchUnitArrival_of_unasked fetches listed, fun tensor owner number verify => ?_⟩⟩,
    fun s c f t bs sv bad left => ?_,
    fun s c => ⟨exec_verifyReply_of_none, fun f fetches => ⟨exec_verifyReply_of_unasked fetches, fun asked => ?_⟩⟩,
    fun s c i unit src b => exec_verifyRequest_of_none,
    fun s u v c i unit src k b t l seals w listed swept table unitRead => ⟨exec_verifyRequest_of_sound listed swept table unitRead,
      fun bad x m masterRead => ⟨exec_verifyRequest_of_master listed swept table unitRead bad masterRead,
        exec_verifyRequest_of_lost listed swept table unitRead bad masterRead⟩⟩⟩
  · have asked : f.asks tn rank unit := ⟨tensor, owner, number, verify⟩
    refine ⟨exec_fetchUnitArrival_of_asked fetches listed asked, fun n due stale => ?_⟩
    rw [exec_fetchUnitArrival_of_stale fetches listed asked due stale]
    exact ⟨fun w restores => by rw [restores, Option.elim_some], fun noRestore => by rw [noRestore, Option.elim_none]⟩
  · obtain ⟨fetching, mismatches, refetches⟩ := s.retried_cx c f
    exact ⟨s.retried c f, State.takeUnit_of_mismatch bad left, fetching, mismatches, refetches, rfl⟩
  · obtain ⟨fetching, refetches⟩ := s.secondPath_cx c f
    exact ⟨s.secondPath c f, exec_verifyReply_of_asked fetches asked, fetching, refetches, rfl⟩

end

/-! ### Mirrors at the buddy (08 R287, R288; 12 R432) -/

section

variable {s : State} {c owner step : Nat}

theorem exec_mirrorUnitArrival_of_start : exec (.mirrorUnitArrival c (.start owner step)) s = .next (s.modCx c fun x => { x with
    buffers := (x.buffers.filter fun b => !(b.owner == owner && b.step % 2 == step % 2)) ++ [⟨owner, step, false, [], none⟩], again := [] }) := rfl

/-- Moments carry no seal of their own. -/
theorem exec_mirrorUnitArrival_of_moment {array : Nat} (moment : array ≠ 0) (id : Word) (u : Nat) (bs : List Byte) (sv : DWord) :
    exec (.mirrorUnitArrival c (.unit owner step id array u bs sv)) s
      = .next ((s.modBuffer c owner step fun b => Buffer.put b id array u bs sv).settleBuffer c owner step) := by
  have passes : (array != 0 || sealOf (tileBytes 1) (u * sealUnit) bs == sv) = true := by rw [bne_iff_ne.2 moment, Bool.true_or]
  simp only [exec, execMirrorUnitArrival, passes, if_true, if_neg moment]

variable {u : Nat} {id : Word} {bs : List Byte} {sv : DWord}

theorem exec_mirrorUnitArrival_of_sound (sound : sealOf (tileBytes 1) (u * sealUnit) bs = sv) :
    exec (.mirrorUnitArrival c (.unit owner step id 0 u bs sv)) s
      = .next (((s.modBuffer c owner step fun b => Buffer.put b id 0 u bs sv).modCx c fun x =>
          { x with again := x.again.filter fun e => !(e.1 == id && e.2.1 == u) }).settleBuffer c owner step) := by
  have passes : ((0 : Nat) != 0 || sealOf (tileBytes 1) (u * sealUnit) bs == sv) = true := by rw [beq_iff_eq.2 sound, Bool.or_true]
  simp only [exec, execMirrorUnitArrival, passes, if_true]

/-- How often a unit has been asked for again. -/
def Ctx.asked (x : Ctx) (id : Word) (u : Nat) : Nat := ((x.again.find? fun e => e.1 == id && e.2.1 == u).map fun e => e.2.2).getD 0

/-- A unit counted as one that failed its seal. -/
def State.askAgain (s : State) (c : Nat) (id : Word) (u n : Nat) : State :=
  s.modCx c fun x => { x with again := (x.again.filter fun e => !(e.1 == id && e.2.1 == u)) ++ [(id, u, n + 1)] }

theorem State.askAgain_cx (s : State) (c : Nat) (id : Word) (u n : Nat) :
    (id, u, n + 1) ∈ ((s.askAgain c id u n).cx c).again ∧ ((s.askAgain c id u n).cx c).buffers = (s.cx c).buffers := by
  rw [State.askAgain, State.cx_modCx_self]
  exact ⟨List.mem_append_right _ (List.mem_singleton_self _), rfl⟩

theorem State.askAgain_groupModule (s : State) (c : Nat) (id : Word) (u n r : Nat) : (s.askAgain c id u n).groupModule c r = s.groupModule c r := by
  simp only [State.groupModule, State.askAgain, State.cx_modCx_self]

theorem exec_mirrorUnitArrival_of_mismatch {m : Nat} (bad : sealOf (tileBytes 1) (u * sealUnit) bs ≠ sv) (sender : s.groupModule c owner = some m) :
    exec (.mirrorUnitArrival c (.unit owner step id 0 u bs sv)) s
      = .next (if (s.cx c).asked id u < 2 then (s.askAgain c id u ((s.cx c).asked id u)).tell c m (.mirrorAgain id 0 u)
          else s.askAgain c id u ((s.cx c).asked id u)) := by
  have fails : ((0 : Nat) != 0 || sealOf (tileBytes 1) (u * sealUnit) bs == sv) = false := by rw [beq_eq_false_iff_ne.2 bad]; rfl
  have sender' := (s.askAgain_groupModule c id u ((s.cx c).asked id u) owner).trans sender
  simp only [State.askAgain, Ctx.asked] at sender'
  simp only [exec, execMirrorUnitArrival, fails, Bool.false_eq_true, if_false, sender']
  rfl

/-- The acknowledgement goes out with the complete bit (08 R287). -/
theorem State.settleBuffer_of_last {b : Buffer} {m : Nat} (one : (s.cx c).buffers = [b]) (open_ : b.complete = false) (block : b.block.isSome = true)
    (noneAsked : (s.cx c).again = []) (sender : s.groupModule c b.owner = some m) :
    s.settleBuffer c b.owner b.step = (s.modBuffer c b.owner b.step fun b => { b with complete := true }).tell c m (.mirrorAck b.step) := by
  have slot : (sameSlot b.owner b.step b && b.step == b.step) = true := by simp [sameSlot]
  have found : ((s.cx c).buffers.find? fun d => sameSlot b.owner b.step d && d.step == b.step) = some b := by
    rw [one, List.find?_singleton, if_pos slot]
  have sender' : (s.modBuffer c b.owner b.step fun b => { b with complete := true }).groupModule c b.owner = some m := by
    rw [← sender]
    simp only [State.groupModule, State.modBuffer, State.cx_modCx_self]
  simp only [State.settleBuffer, found, block, open_, noneAsked, List.isEmpty_nil, Bool.not_false, Bool.and_self, if_true, sender']

theorem State.modBuffer_of_one {b : Buffer} (one : (s.cx c).buffers = [b]) (f : Buffer → Buffer) :
    ((s.modBuffer c b.owner b.step f).cx c).buffers = [f b] := by
  simp [State.modBuffer, one, sameSlot]

theorem exec_mirrorAcknowledgement_of_other (other : (s.cx c).mirroring.map Prod.fst ≠ some step) :
    exec (.mirrorAcknowledgement c step) s = .next s := by
  simp only [exec, execMirrorAcknowledgement, if_neg other]

/-- The mirror stands at the buddy. -/
def State.mirrored (s : State) (c : Nat) : State := s.modCx c fun x => { x with mirroring := none, mirrorValid := true }

theorem exec_mirrorAcknowledgement_of_sent (sent : (s.cx c).mirroring.map Prod.fst = some step) :
    exec (.mirrorAcknowledgement c step) s = .next ((s.mirrored c).retryAll c (· == .undoHeld)) := by
  simp only [exec, execMirrorAcknowledgement, if_pos sent]
  rfl

theorem exec_mirrorUnitRerequest_of_none {array unit : Nat} (missing : (s.cx c).mirroring = none ∨ s.buddyModule c = none ∨ s.trained c id = none) :
    exec (.mirrorUnitRerequest c id array unit) s = .next s := by
  simp only [exec, execMirrorUnitRerequest]
  obtain idle | alone | untrained := missing
  · simp only [idle]
  · simp only [alone]
    cases (s.cx c).mirroring <;> rfl
  · simp only [untrained]
    cases (s.cx c).mirroring <;> cases s.buddyModule c <;> rfl

theorem exec_mirrorUnitRerequest_of_sent {array unit m : Nat} {b : CtxBlock} {t : Tensor} (sent : (s.cx c).mirroring = some (step, b))
    (buddy : s.buddyModule c = some m) (trained : s.trained c id = some t) :
    exec (.mirrorUnitRerequest c id array unit) s = .next (s.mirrorUnit c m step t array unit) := by
  simp only [exec, execMirrorUnitRerequest, sent, buddy, trained]

end

theorem buddyMirrors : BuddyMirrors := by
  refine ⟨fun s c owner step => exec_mirrorUnitArrival_of_start, fun s c owner step array u id bs sv => ⟨fun moment => ?_, fun master sound => ?_⟩,
    fun s c owner step u m n id bs sv bad asked sender => ?_, fun s c owner step b => rfl,
    fun s c owner step b one isOwner isStep block open_ noneAsked m sender => ?_,
    fun s c step => ⟨exec_mirrorAcknowledgement_of_other, fun sent => ⟨s.mirrored c, exec_mirrorAcknowledgement_of_sent sent, ?_⟩⟩,
    fun s c array unit id => ⟨exec_mirrorUnitRerequest_of_none, fun m step b t => exec_mirrorUnitRerequest_of_sent⟩⟩
  · exact exec_mirrorUnitArrival_of_moment moment id u bs sv
  · subst master
    exact exec_mirrorUnitArrival_of_sound sound
  · subst asked
    obtain ⟨counted, buffers⟩ := s.askAgain_cx c id u ((s.cx c).asked id u)
    exact ⟨_, exec_mirrorUnitArrival_of_mismatch bad sender, counted, buffers⟩
  · subst isOwner isStep
    exact ⟨_, State.settleBuffer_of_last one open_ block noneAsked sender, State.modBuffer_of_one one _, rfl⟩
  · rw [State.mirrored, State.cx_modCx_self]
    exact ⟨rfl, rfl, rfl⟩

/-- Settles O52: seals and fetched units, verification by the owner, and the buffers of a buddy. -/
theorem shardTraffic : Obligations.ShardTraffic := ⟨sealsAndFetches, buddyMirrors⟩

end Sys2Proof.Machine

namespace Sys2Proof.Machine

open Sys2Proof Sys2Proof.Claims

/-! ### Admission of legs (10 R361; 03 R84, R85) -/

section

variable {s : State} {c t : Nat}

/-- No leg is admitted in this state (10 R361, 00 R9). -/
def State.admitsNone (s : State) : Bool :=
  !s.bringupDone || !(s.mc.coreAlive.getD 0 false) || s.stackFailed || s.tg.admitStop || s.atFloor || s.tg.st == 5 || s.tg.st == 6

theorem State.admitsNone_iff : s.admitsNone = true ↔ s.bringupDone = false ∨ s.mc.coreAlive.getD 0 false = false ∨ s.stackFailed = true
    ∨ s.tg.admitStop = true ∨ s.atFloor = true ∨ s.tg.st = 5 ∨ s.tg.st = 6 := by
  simp only [State.admitsNone, Bool.or_eq_true, Bool.not_eq_true', beq_iff_eq, or_assoc]

/-- The contexts in the order of their turns, from the one after the last admitted on. -/
def turnsAfter (last : Nat) : List Nat := (List.range 4).map fun i => (last + 1 + i) % 4

theorem turnsAfter_perm {last : Nat} (small : last < 4) : (turnsAfter last).Perm [0, 1, 2, 3] := by
  interval_cases last <;> decide

theorem turnsAfter_getLast {last : Nat} (small : last < 4) : (turnsAfter last).getLast? = some last := by
  interval_cases last <;> rfl

theorem exec_admissionPass (s : State) (t : Nat) : exec (.admissionPass t) s
    = .next (if (now s t).admitsNone then now s t else (turnsAfter (now s t).tg.lastCtx).foldl State.admitContext (now s t)) := rfl

/-- Power and peak are compared as FP32 values (10 R361, 00 R9). -/
theorem State.legFits_iff (s : State) (p q : Rat) : s.legFits p q = true ↔
    r32 (r32 (r32 ((Config.basePower s.opPoint.1 s.opPoint.2 true 4 : Rat) / 1000) + s.tg.committed) + p) ≤ s.tg.allowance ∧ r32 (s.tg.peak + q) ≤ 3600 :=
  decide_eq_true_iff

/-! A leg that starts -/

/-- The context before its leg starts: the lean decision is taken (05 R153), and a recompute leg noted (05 R155). -/
def State.prepareLeg (s : State) (c : Nat) (inst : LegInst) : State :=
  if inst.recompute then (s.decideLean c inst).modRun c fun r => { r with recomputes := r.recomputes ++ [(inst.mu.getD 0, inst.entry.layer)] }
  else s.decideLean c inst

theorem State.decideLean_eq (s : State) (c : Nat) (inst : LegInst) : ∃ X, s.decideLean c inst = { s with ctx := X } := by
  unfold State.decideLean
  split
  · extract_lets lean
    split_ifs <;> exact ⟨_, rfl⟩
  · exact ⟨_, rfl⟩

theorem State.prepareLeg_eq (s : State) (c : Nat) (inst : LegInst) : ∃ X, s.prepareLeg c inst = { s with ctx := X } := by
  obtain ⟨X, decided⟩ := s.decideLean_eq c inst
  rw [State.prepareLeg, decided]
  split <;> exact ⟨_, rfl⟩

/-- A cluster with the descriptors of leg `id` of context c (03 R84, R85): what it ran before stands aside. -/
def Cluster.given (x : Cluster) (c id : Nat) (l : List (BitVec 512)) : Cluster :=
  { x with suspended := x.leg.map fun y => (y, x.queue, x.events), leg := some (c, id), queue := l, events := [], rejected := false }

/-- The cluster that an entry of a leg program names gets its descriptors. -/
def State.giveList (c id : Nat) (s : State) (e : Nat × List (BitVec 512)) : State := s.modClu e.1 fun x => x.given c id e.2

theorem State.foldl_giveList (s : State) (c id : Nat) (l : List (Nat × List (BitVec 512))) :
    l.foldl (State.giveList c id) s = { s with cl := l.foldl (fun y e => tmod Cluster.init y e.1 fun x => x.given c id e.2) s.cl } := by
  induction l generalizing s with
  | nil => rfl
  | cons e l ih => exact ih (State.giveList c id s e)

theorem State.foldl_giveList_clu {id : Nat} {l : List (Nat × List (BitVec 512))} (once : (l.map Prod.fst).Nodup) {e : Nat × List (BitVec 512)}
    (listed : e ∈ l) : (l.foldl (State.giveList c id) s).clu e.1 = (s.clu e.1).given c id e.2 :=
  get_foldl_of_mem (get := State.clu) (step := State.giveList c id) (f := fun e x => x.given c id e.2) (fun _ _ => State.clu_modClu_self ..)
    (fun _ _ _ other => State.clu_modClu_of_ne _ other _) once listed s

theorem State.foldl_giveList_clu_of_not_mem {id : Nat} {l : List (Nat × List (BitVec 512))} {k : Nat} (other : k ∉ l.map Prod.fst) :
    (l.foldl (State.giveList c id) s).clu k = s.clu k :=
  get_foldl_of_not_mem (get := State.clu) (step := State.giveList c id) (fun _ _ _ other => State.clu_modClu_of_ne _ other _) other s

/-- The leg that a LEG waybill starts (11 Table 11-9). -/
def newLeg (c id : Nat) (inst : LegInst) (w : Waybill) (g : LegProg) (p q : Rat) : LegRun :=
  { ctx := c, id := id, inst := inst, inStep := false, clusters := g.clusters, committed := p, peak := q, energy := g.energy, status := 0, detail := 0,
    orderDep := false, outRows := 0, wb := some w, resume := [], failed := [] }

/-- The leg of a LEG waybill leaves the queue of its context and stands among the legs in flight. -/
theorem State.putLeg_of_waybill (s : State) (c : Nat) (inst : LegInst) (w : Waybill) (g : LegProg) (p q : Rat) : ∃ X,
    (s.takeLeg c (some w)).putLeg c inst (some w) g.clusters p q g.energy 0 0
      = { s with ctx := X, legs := s.legs ++ [newLeg c s.nextLeg inst w g p q], nextLeg := s.nextLeg + 1 } := ⟨_, rfl⟩

/-- The draws of a leg counted (10 R361). -/
def State.countDraws (s : State) (c : Nat) (p q : Rat) : State :=
  { s with tg := { s.tg with committed := r32 (s.tg.committed + p), peak := r32 (s.tg.peak + q), lastCtx := c } }

theorem State.startLeg_eq_steps (s : State) (c : Nat) (inst : LegInst) (wb : Option Waybill) (g : LegProg) (p q : Rat) :
    s.startLeg c inst wb g p q = (g.lists.foldl (State.giveList c (s.prepareLeg c inst).nextLeg)
      (((s.prepareLeg c inst).takeLeg c wb).putLeg c inst wb g.clusters p q g.energy 0 0)).countDraws c p q := rfl

/-- A leg that starts changes its context, its clusters, the legs in flight and the draws counted, and nothing else. -/
theorem State.startLeg_of_waybill (s : State) (c : Nat) (inst : LegInst) (w : Waybill) (g : LegProg) (p q : Rat) : ∃ X,
    s.startLeg c inst (some w) g p q = { (g.lists.foldl (State.giveList c s.nextLeg) s).countDraws c p q with
      ctx := X, legs := s.legs ++ [newLeg c s.nextLeg inst w g p q], nextLeg := s.nextLeg + 1 } := by
  obtain ⟨X, prepared⟩ := s.prepareLeg_eq c inst
  obtain ⟨Y, placed⟩ := (s.prepareLeg c inst).putLeg_of_waybill c inst w g p q
  rw [State.startLeg_eq_steps, placed, prepared, State.foldl_giveList, State.foldl_giveList]
  exact ⟨Y, rfl⟩

theorem legAdmission : LegAdmission := by
  refine ⟨fun s t closed => ?_, fun s t up alive whole open_ floor st5 st6 small => ?_, State.legFits_iff, fun s c inst w g p q once => ?_⟩
  · rw [exec_admissionPass, if_pos (State.admitsNone_iff.2 closed)]
  · have admits : ¬(now s t).admitsNone = true := by
      simp only [State.admitsNone_iff, up, alive, whole, open_, floor, st5, st6, Bool.true_eq_false, Bool.false_eq_true, or_self, not_false_eq_true]
    exact ⟨turnsAfter (now s t).tg.lastCtx, turnsAfter_perm small, turnsAfter_getLast small, by rw [exec_admissionPass, if_neg admits]⟩
  · obtain ⟨X, started⟩ := s.startLeg_of_waybill c inst w g p q
    intro u
    have hu : u = _ := started
    have clusters : ∀ k, u.clu k = (g.lists.foldl (State.giveList c s.nextLeg) s).clu k := fun k => by rw [hu]; rfl
    refine ⟨fun e listed => ?_, fun k other => ?_, ?_⟩
    · rw [clusters, State.foldl_giveList_clu once listed]
      exact ⟨rfl, rfl, rfl, rfl, rfl, rfl, rfl⟩
    · rw [clusters, State.foldl_giveList_clu_of_not_mem other]
    · rw [hu, State.foldl_giveList]
      exact ⟨rfl, rfl, rfl, rfl, ⟨_, rfl, rfl, rfl, rfl, rfl, rfl, rfl, rfl, rfl⟩, rfl⟩

end

/-! ### Admission of steps (08 R254, R261, R263) -/

section

variable {s u : State} {c t : Nat} {w : Waybill} {bs : List Byte}

/-- The step of a waybill refused (11 Table 11-9): it leaves the queue with its receipt. -/
def State.refuseStep (s : State) (c : Nat) (w : Waybill) (e : Nat × Nat) : State :=
  (s.modCx c fun x => { x with queue := x.queue.erase w }).finish w e.1 e.2 0

/-- What becomes of a step with the bytes bs in its buffer: it is refused or admitted (11 Table 11-9). -/
def State.judgeStep (s : State) (c : Nat) (w : Waybill) (bs : List Byte) : State :=
  match parseStep bs with
  | .error e => s.refuseStep c w e
  | .ok (legs, rosters) =>
    match s.stepBad c (w.p 0 16) legs with
    | some e => s.refuseStep c w e
    | none => s.admitStep c w legs rosters

theorem State.judgeStep_of_error {e : Nat × Nat} (error : parseStep bs = .error e) : s.judgeStep c w bs = s.refuseStep c w e := by
  rw [State.judgeStep, error]

variable {legs : List LegEntry} {rosters : List Roster}

theorem State.judgeStep_of_bad {e : Nat × Nat} (image : parseStep bs = .ok (legs, rosters)) (bad : s.stepBad c (w.p 0 16) legs = some e) :
    s.judgeStep c w bs = s.refuseStep c w e := by
  simp only [State.judgeStep, image, bad]

theorem State.judgeStep_of_good (image : parseStep bs = .ok (legs, rosters)) (good : s.stepBad c (w.p 0 16) legs = none) :
    s.judgeStep c w bs = s.admitStep c w legs rosters := by
  simp only [State.judgeStep, image, good]

/-- What waits, in the words of `stepReady`. -/
theorem State.not_stepReady (s : State) (c : Nat) :
    (!(s.cx c).live || (s.cx c).frozen || s.inDeep || !s.atBoundary c || !s.bringupDone || s.exportDue c || (s.cx c).restore.isSome
      || ((s.cx c).take.any fun k => k.stage != 9)) = !s.stepReady c := by
  simp only [State.stepReady, Bool.not_and, Bool.not_not]

theorem exec_stepAdmission_of_waits (waits : s.nextStep c = none ∨ s.stepReady c = false) : exec (.stepAdmission c t) s = .next (s.tick t) := by
  have nextStep : (s.tick t).nextStep c = s.nextStep c := rfl
  simp only [exec, execStepAdmission, nextStep, (s.tick t).not_stepReady]
  obtain noStep | notReady := waits
  · simp only [noStep]
  · have notReady : (s.tick t).stepReady c = false := notReady
    simp only [notReady, Bool.not_false, if_true]
    cases s.nextStep c <;> rfl

section

variable (next : s.nextStep c = some w) (ready : s.stepReady c = true)

include next ready

/-- Without a placement the step is refused (11 Table 11-9). -/
theorem exec_stepAdmission_of_unplaced (unplaced : (s.cx c).place = none) :
    exec (.stepAdmission c t) s = .next ((s.tick t).refuseStep c w (0x0308, 1)) := by
  have next' : (s.tick t).nextStep c = some w := next
  have ready' : (s.tick t).stepReady c = true := ready
  simp only [exec, execStepAdmission, next', (s.tick t).not_stepReady, ready', Bool.not_true, Bool.false_eq_true, if_false]
  exact congrArg _ (if_pos (Option.isNone_iff_eq_none.2 unplaced))

variable (placed : (s.cx c).place ≠ none) (buffer : (s.tick t).buffer w = (u, bs))

include placed buffer

/-- With a placement the bytes of its buffer decide. -/
theorem exec_stepAdmission_of_placed : exec (.stepAdmission c t) s = .next (u.judgeStep c w bs) := by
  have next' : (s.tick t).nextStep c = some w := next
  have ready' : (s.tick t).stepReady c = true := ready
  have placed' : ((s.tick t).cx c).place.isNone = false := by
    rw [State.cx_tick, ← Bool.not_eq_true, Option.isNone_iff_eq_none]
    exact placed
  simp only [exec, execStepAdmission, next', (s.tick t).not_stepReady, ready', placed', buffer, Bool.not_true, Bool.false_eq_true, if_false]
  rfl

end

/-! The step that is admitted -/

/-- A spare takes part from the middle of the step (09 R322). -/
def Ctx.spare (x : Ctx) : Bool := x.take.any fun k => k.stage == 9

/-- The legs that a member runs in a step: a spare those that follow the backward pass (08 R261, 09 R322). -/
def Ctx.legsDue (x : Ctx) (legs : List LegEntry) (m : Nat) : List LegInst :=
  if x.spare then (legSequence legs m).filter fun l => decide (2 ≤ l.entry.phase) else legSequence legs m

/-- The step that a waybill admits, with the trailers and the void notice that came before it. That a spare in the middle of a step is withdrawn is
log 57. -/
def State.newStep (s : State) (c : Nat) (w : Waybill) (legs : List LegEntry) (rosters : List Roster) : StepRun :=
  let x := s.cx c
  { newRun w legs rosters (x.legsDue legs (w.p 0 16)) x.spare (x.early.filter fun t => t.step8 == x.step % 256) x.cursor x.ls.exp s.beat.slots s.now with
    voidNotice := x.earlyVoid.contains x.step, finite := !bad32 (s.free.1.setWidth 32) }

/-- Context x with the step y of waybill w admitted: its settings latched, and nothing left of the step before. -/
def Ctx.begun (x : Ctx) (w : Waybill) (y : StepRun) : Ctx :=
  { x.latch with
    queue := x.queue.erase w, run := some y, earlyVoid := x.earlyVoid.filter fun n => decide (x.step < n)
    early := x.early.filter fun t => t.step8 != x.step % 256, fetched := [], unitSeals := [], fetching := none, stash := [], stashPeak := 0, spillPeak := 0
    take := if x.spare then none else x.take }

/-- The state with a step admitted, before its tensors are cleared. -/
def State.beginStep (s : State) (c : Nat) (w : Waybill) (y : StepRun) : State := s.free.2.modCx c fun x => x.begun w y

theorem State.admitStep_eq (s : State) (c : Nat) (w : Waybill) (legs : List LegEntry) (rosters : List Roster) :
    s.admitStep c w legs rosters = (((s.beginStep c w (s.newStep c w legs rosters)).clearRosters c legs rosters).openMask c) := rfl

theorem State.beginStep_cx_self (s : State) (c : Nat) (w : Waybill) (y : StepRun) : (s.beginStep c w y).cx c = (s.cx c).begun w y := State.cx_modCx_self ..

theorem State.beginStep_cx_of_ne (s : State) {c d : Nat} (other : d ≠ c) (w : Waybill) (y : StepRun) : (s.beginStep c w y).cx d = s.cx d :=
  State.cx_modCx_of_ne _ other _

theorem stepAdmission : StepAdmission := by
  refine fun s c t => ⟨exec_stepAdmission_of_waits, fun w next ready => ⟨exec_stepAdmission_of_unplaced next ready, fun u bs buffer placed => ?_⟩⟩
  rw [exec_stepAdmission_of_placed next ready placed buffer]
  refine ⟨fun e error => by rw [State.judgeStep_of_error error, State.refuseStep],
    fun legs rosters e image bad => by rw [State.judgeStep_of_bad image bad, State.refuseStep], fun legs rosters image good => ?_⟩
  refine ⟨u.beginStep c w (u.newStep c w legs rosters), u.newStep c w legs rosters, ?_⟩
  rw [State.judgeStep_of_good image good, State.admitStep_eq, State.beginStep_cx_self]
  exact ⟨rfl, rfl, rfl, rfl, rfl, rfl, rfl, rfl, rfl, rfl, rfl, rfl, rfl, rfl, rfl, rfl, rfl,
    fun d other => State.beginStep_cx_of_ne u other w _, rfl, rfl⟩

end

/-- Settles O47: admission of legs and of steps. That a spare which takes part from the middle of a step runs only what follows the backward pass is log 57. -/
theorem admission : Obligations.Admission := ⟨legAdmission, stepAdmission⟩

end Sys2Proof.Machine

namespace Sys2Proof.Machine

open Sys2Proof Sys2Proof.Claims

/-! ### Replays, control flits and the tests of a suspect port (09 R302, R307, R308) -/

section

variable {s : State} {n : Nat}

@[simp] theorem State.port_tick (s : State) (t k : Nat) : (s.tick t).port k = s.port k := rfl
@[simp] theorem State.port_emit (s : State) (o : Output) (k : Nat) : (s.emit o).port k = s.port k := rfl

/-- The tests of the lanes of a suspect port take no lane out. -/
theorem State.foldl_suspectTest (s : State) (n : Nat) (l : List Nat) :
    ∃ m, l.foldl (fun s l => s.startTest (.lane n l) 0x0A 1 none) s = { s with mc := m } :=
  List.foldlRecOn l _ (motive := fun u : State => ∃ m, u = { s with mc := m }) ⟨_, rfl⟩ fun u h i _ => by
    obtain ⟨m, rfl⟩ := h
    rw [State.startTest]
    split <;> exact ⟨_, rfl⟩

/-- A port marked suspect keeps its traffic (09 R308). -/
theorem State.markSuspect_parts (s : State) (n : Nat) : (s.markSuspect n).out = s.out ∧ (∀ k, k ≠ n → (s.markSuspect n).port k = s.port k)
    ∧ ∃ a b, (s.markSuspect n).port n = { s.port n with suspect := a, laneFailed := b } := by
  rw [State.markSuspect]
  split
  · exact ⟨rfl, fun _ _ => rfl, _, _, rfl⟩
  · extract_lets u
    obtain ⟨m, tests⟩ := u.foldl_suspectTest n (setBits (u.port n).own)
    rw [tests]
    exact ⟨rfl, fun k other => State.port_modPort_of_ne s other _, true, false, State.port_modPort_self ..⟩

/-- A replay counted, and the port perhaps suspect from then on. -/
theorem State.noteReplay_parts (s : State) (n : Nat) : (s.noteReplay n).out = s.out ∧ (∀ k, k ≠ n → (s.noteReplay n).port k = s.port k)
    ∧ ∃ l a b, (s.noteReplay n).port n
      = { s.port n with replays := satAdd 0xFFFF (s.port n).replays 1, replayTimes := l, suspect := a, laneFailed := b } := by
  unfold State.noteReplay
  extract_lets u
  have counted : u.port n = _ := State.port_modPort_self ..
  have others : ∀ k, k ≠ n → u.port k = s.port k := fun k other => State.port_modPort_of_ne s other _
  split
  · obtain ⟨out, rest, a, b, marked⟩ := u.markSuspect_parts n
    exact ⟨out, fun k other => (rest k other).trans (others k other), _, a, b, marked.trans (by rw [counted])⟩
  · exact ⟨rfl, others, _, _, _, counted⟩

theorem State.resendFlits_of_sends (sends : (s.port n).sends = true) :
    s.resendFlits n = { s with out := s.out ++ (s.port n).replay.map fun e => .flit n e.2.1 } := by
  have emitted (l : List (Nat × BitVec 2048 × Nat)) (u : State) :
      l.foldl (fun s e => s.emit (.flit n e.2.1)) u = { u with out := u.out ++ l.map fun e => .flit n e.2.1 } := by
    induction l generalizing u with
    | nil => rw [List.map_nil, List.append_nil]; rfl
    | cons e l ih =>
      rw [List.foldl_cons, ih, List.map_cons, List.append_cons]
      rfl
  rw [State.resendFlits, if_pos sends, emitted]

theorem State.resendFlits_eq (s : State) (n : Nat) : ∃ o, s.resendFlits n = { s with out := o } := by
  by_cases sends : (s.port n).sends = true
  · exact ⟨_, State.resendFlits_of_sends sends⟩
  · exact ⟨_, if_neg sends⟩

/-- The control flit that port x sends (09 R302). -/
def Port.control (x : Port) : CtlFlit := ⟨x.ackSeq, if x.nakSent then some x.rxSeq else none, x.room⟩

theorem State.controlFlit_of_sends (sends : (s.port n).sends = true) :
    s.controlFlit n = (s.modPort n fun x => { x with owed := noFlits }).emit (.control n (s.port n).control) := by
  simp only [State.controlFlit, sends, Bool.not_true, Bool.false_eq_true, if_false]
  rfl

theorem State.controlFlit_of_silent (silent : (s.port n).sends = false) : s.controlFlit n = s := by
  simp only [State.controlFlit, silent, Bool.not_false, if_true]

theorem State.controlFlit_port (s : State) (n : Nat) : (∃ l, (s.controlFlit n).port n = { s.port n with owed := l })
    ∧ ∀ k, k ≠ n → (s.controlFlit n).port k = s.port k := by
  cases sends : (s.port n).sends
  · rw [State.controlFlit_of_silent sends]
    exact ⟨⟨_, rfl⟩, fun _ _ => rfl⟩
  · rw [State.controlFlit_of_sends sends]
    exact ⟨⟨_, State.port_modPort_self ..⟩, fun k other => State.port_modPort_of_ne s other _⟩

/-- A NAK names the flit that is expected; a port that does not send remembers that it is asked for (09 R307). -/
theorem State.sendNak_out (s : State) (n : Nat) : ((s.port n).sends = true → ∃ o, (s.sendNak n).out = s.out ++ [.control n o] ∧ o.nak = some (s.port n).rxSeq)
    ∧ ((s.port n).sends = false → (s.sendNak n).out = s.out) := by
  have asked : (s.modPort n fun x => { x with nakSent := true }).port n = { s.port n with nakSent := true } := State.port_modPort_self ..
  obtain ⟨out, _⟩ := ((s.modPort n fun x => { x with nakSent := true }).controlFlit n).noteReplay_parts n
  rw [State.sendNak, out]
  refine ⟨fun sends => ?_, fun silent => ?_⟩
  · rw [State.controlFlit_of_sends (by rw [asked]; exact sends), asked]
    exact ⟨_, rfl, rfl⟩
  · rw [State.controlFlit_of_silent (by rw [asked]; exact silent)]
    rfl

theorem State.sendNak_port (s : State) (n : Nat) : ((s.sendNak n).port n).rxSeq = (s.port n).rxSeq ∧ ((s.sendNak n).port n).nakSent = true
    ∧ ((s.sendNak n).port n).fecBad = (s.port n).fecBad ∧ ∀ k, k ≠ n → (s.sendNak n).port k = s.port k := by
  rw [State.sendNak]
  generalize asked : s.modPort n (fun x => { x with nakSent := true }) = u
  obtain ⟨⟨l, control⟩, controls⟩ := u.controlFlit_port n
  obtain ⟨_, others, _, _, _, noted⟩ := (u.controlFlit n).noteReplay_parts n
  rw [noted, control, ← asked, State.port_modPort_self]
  refine ⟨rfl, rfl, rfl, fun k other => ?_⟩
  rw [asked, others k other, controls k other, ← asked, State.port_modPort_of_ne s other]

end

/-! ### Flits that a port receives (09 R303, R305, R307) -/

section

variable {s : State} {n t : Nat} {f : BitVec 2048}

/-- The CRC of a flit holds (09 R303). -/
def crcHolds (f : BitVec 2048) : Prop := crc32 (slice (lineBytes f) 0 252) = BitVec.ofNat 32 (natAt (lineBytes f) 252 4)

theorem Port.acked_eq (x : Port) (a : Nat) : ∃ r, x.acked a = { x with replay := r } := by
  rw [Port.acked]
  split <;> exact ⟨_, rfl⟩

/-- An acknowledgement clears the replay buffer up to the first flit of its number (09 R307). -/
theorem Port.acked_of_first {x : Port} {a i : Nat} (first : ∀ j < i, ∀ e, x.replay[j]? = some e → e.1 ≠ a) (held : ∃ e, x.replay[i]? = some (a, e)) :
    x.acked a = { x with replay := x.replay.drop (i + 1) } := by
  obtain ⟨e, held⟩ := held
  obtain ⟨below, held⟩ := List.getElem?_eq_some_iff.1 held
  have found : (x.replay.findIdx? fun e => e.1 == a) = some i := List.findIdx?_eq_some_iff_getElem.2
    ⟨below, by simp [held], fun j lower => by simpa using first j lower _ (List.getElem?_eq_getElem (lower.trans below))⟩
  rw [Port.acked, found]

/-- Port x after it has accepted a flit whose credits are of position i (09 R305, R307). -/
def Port.accepted (x : Port) (f : BitVec 2048) (i : Nat) : Port :=
  let x := { x with rxSeq := (x.rxSeq + 1) % 2048, nakSent := false, rxAny := true, credits := x.credits.set i (x.credits.getD i 0 + 8 * fld f 30 2) }
  if bitAt f 27 then x.acked (fld f 16 11) else x

theorem Port.accepted_eq (x : Port) (f : BitVec 2048) (i : Nat) : ∃ r, (f.getLsbD 27 = false → r = x.replay)
    ∧ x.accepted f i = { x with
        rxSeq := (x.rxSeq + 1) % 2048, nakSent := false, rxAny := true, credits := x.credits.set i (x.credits.getD i 0 + 8 * fld f 30 2), replay := r } := by
  unfold Port.accepted
  extract_lets y
  obtain ⟨r, acked⟩ := y.acked_eq (fld f 16 11)
  cases ack : f.getLsbD 27
  · exact ⟨_, fun _ => rfl, by rw [bitAt, ack]; rfl⟩
  · exact ⟨r, nofun, by rw [bitAt, ack, if_pos rfl, acked]⟩

/-- The place of the credits that a flit returns; a free value chooses their hop class, which the link word does not name (log 2). -/
def State.creditPlace (s : State) (f : BitVec 2048) : Nat := fld f 28 2 * 2 + fld s.free.1 0 1

theorem State.creditPlace_or (s : State) (f : BitVec 2048) : s.creditPlace f = fld f 28 2 * 2 ∨ s.creditPlace f = fld f 28 2 * 2 + 1 := by
  have bit : fld s.free.1 0 1 < 2 := Nat.mod_lt _ (by decide)
  rw [State.creditPlace]
  omega

/-- A flit in sequence taken, before it enters its receive buffer. -/
def State.acceptFlit (s : State) (n : Nat) (f : BitVec 2048) : State := s.free.2.modPort n fun x => x.accepted f (s.creditPlace f)

theorem State.acceptFlit_port (s : State) (n : Nat) (f : BitVec 2048) : (s.acceptFlit n f).port n = (s.port n).accepted f (s.creditPlace f)
    ∧ ∀ k, k ≠ n → (s.acceptFlit n f).port k = s.port k :=
  ⟨State.port_modPort_self .., fun _ other => State.port_modPort_of_ne _ other _⟩

/-- A packet of one flit is whole when its flit has entered the receive buffer (09 R303). -/
theorem State.storeFlit_of_one {p : Packet} (whole : p = packetOf (fld f 11 2) (slice (lineBytes f) 4 248)) (head : f.getLsbD 13 = true)
    (tail : f.getLsbD 14 = true) (stays : fld f 11 2 ≠ 2 ∨ p.dst ≠ s.fab.moduleId) :
    ((s.storeFlit n f).port n).got = (s.port n).got ++ [p] ∧ (s.storeFlit n f).out = s.out := by
  have stays : ¬(fld f 11 2 = 2 ∧ p.dst = s.fab.moduleId) := by tauto
  subst whole
  simp only [State.storeFlit, bitAt, head, tail, if_true, List.nil_append, Bool.not_true, Bool.false_eq_true, if_false]
  refine (if_neg stays).symm ▸ ⟨?_, rfl⟩
  rw [State.port_modPort_self, State.port_modPort_self]

/-- A port that is up takes flits (09 R299). -/
theorem State.port_receives (low : n < 12) (up : (s.port n).width ≠ 0) : ¬((s.port n).width = 0 ∨ 12 ≤ n) := by omega

variable (low : n < 12) (up : (s.port n).width ≠ 0)

include low up

theorem exec_flitReceive_of_bad_crc (bad : ¬crcHolds f) : exec (.flitReceive n f t) s
    = .next (((s.tick t).modPort n fun x => { x with fecBad := satAdd 0xFFFF x.fecBad 1 }).sendNak n) :=
  congrArg Host.Outcome.next ((if_neg (State.port_receives low up)).trans (if_pos bad))

variable (good : crcHolds f)

include good

theorem exec_flitReceive_of_reserved (reserved : f.getLsbD 15 = true) : exec (.flitReceive n f t) s = .next (s.tick t) :=
  congrArg Host.Outcome.next ((if_neg (State.port_receives low up)).trans ((if_neg (not_not.2 good)).trans (if_pos reserved)))

variable (plain : f.getLsbD 15 = false)

include plain

theorem exec_flitReceive_of_plain : exec (.flitReceive n f t) s = .next (
    if fld f 0 11 = (s.port n).rxSeq then (((s.tick t).acceptFlit n f).storeFlit n f).pumpAll n
    else if (s.port n).nakSent || decide ((fld f 0 11 + 2048 - (s.port n).rxSeq) % 2048 ≥ 1024) then s.tick t
    else (s.tick t).sendNak n) := by
  have plain : ¬bitAt f 15 = true := by rw [bitAt, plain]; decide
  exact congrArg Host.Outcome.next ((if_neg (State.port_receives low up)).trans ((if_neg (not_not.2 good)).trans (if_neg plain)))

theorem exec_flitReceive_of_sequence (next : fld f 0 11 = (s.port n).rxSeq) :
    exec (.flitReceive n f t) s = .next ((((s.tick t).acceptFlit n f).storeFlit n f).pumpAll n) := by
  rw [exec_flitReceive_of_plain low up good plain, if_pos next]

theorem exec_flitReceive_of_old (other : fld f 0 11 ≠ (s.port n).rxSeq)
    (old : (s.port n).nakSent = true ∨ 1024 ≤ (fld f 0 11 + 2048 - (s.port n).rxSeq) % 2048) : exec (.flitReceive n f t) s = .next (s.tick t) := by
  rw [exec_flitReceive_of_plain low up good plain, if_neg other, if_pos (by simpa using old)]

theorem exec_flitReceive_of_gap (other : fld f 0 11 ≠ (s.port n).rxSeq) (first : (s.port n).nakSent = false)
    (gap : (fld f 0 11 + 2048 - (s.port n).rxSeq) % 2048 < 1024) : exec (.flitReceive n f t) s = .next ((s.tick t).sendNak n) := by
  rw [exec_flitReceive_of_plain low up good plain, if_neg other, if_neg (by simp [first, gap])]

end

theorem flitReceive : FlitReceive := by
  refine fun s n f t low up => ⟨fun bad => ?_, fun good => ⟨exec_flitReceive_of_reserved low up good, fun plain next => ?_,
    fun plain => exec_flitReceive_of_old low up good plain, fun plain other first gap => ?_⟩, fun p => State.storeFlit_of_one⟩
  · obtain ⟨rxSeq, nakSent, fecBad, others⟩ := ((s.tick t).modPort n fun x => { x with fecBad := satAdd 0xFFFF x.fecBad 1 }).sendNak_port n
    obtain ⟨nak, silent⟩ := ((s.tick t).modPort n fun x => { x with fecBad := satAdd 0xFFFF x.fecBad 1 }).sendNak_out n
    rw [State.port_modPort_self] at rxSeq fecBad nak silent
    exact ⟨_, exec_flitReceive_of_bad_crc low up bad, rxSeq, nakSent, fecBad, nak, silent,
      fun k other => (others k other).trans (State.port_modPort_of_ne _ other _)⟩
  · obtain ⟨port, others⟩ := (s.tick t).acceptFlit_port n f
    obtain ⟨r, kept, accepted⟩ := (s.port n).accepted_eq f ((s.tick t).creditPlace f)
    refine ⟨_, _, (s.tick t).creditPlace_or f, exec_flitReceive_of_sequence low up good plain next, ?_⟩
    rw [port, State.port_tick, accepted]
    exact ⟨rfl, rfl, rfl, rfl, rfl, kept, others⟩
  · obtain ⟨rxSeq, nakSent, _, others⟩ := (s.tick t).sendNak_port n
    exact ⟨_, exec_flitReceive_of_gap low up good plain other first gap, rxSeq, nakSent, others⟩

/-! ### Control flits and timeouts (09 R302, R305, R307) -/

section

variable {s : State} {n t : Nat} {c : CtlFlit}

/-- An acknowledgement taken by port n, if there is one. -/
def State.takeAck (s : State) (n : Nat) : Option Nat → State
  | some a => s.modPort n fun x => x.acked a
  | none => s

theorem State.takeAck_port (s : State) (n : Nat) (ack : Option Nat) : (∃ r, (s.takeAck n ack).port n = { s.port n with replay := r })
    ∧ (∀ k, k ≠ n → (s.takeAck n ack).port k = s.port k) ∧ (s.takeAck n ack).out = s.out := by
  cases ack with
  | none => exact ⟨⟨_, rfl⟩, fun _ _ => rfl, rfl⟩
  | some a => exact ⟨(State.port_modPort_self ..) ▸ (s.port n).acked_eq a, fun _ other => State.port_modPort_of_ne _ other _, rfl⟩

/-- The credit counts of a next hop taken over by port n (09 R302, R305). -/
def State.takeCredits (s : State) (n : Nat) (l : List Nat) : State := s.modPort n fun x => { x with credits := creditsLeft x l }

theorem exec_controlFlitReceive_of_no_nak (low : n < 12) (up : (s.port n).width ≠ 0) (noNak : c.nak = none) :
    exec (.controlFlitReceive n c t) s = .next ((((s.tick t).takeAck n c.ack).takeCredits n c.credits).pumpAll n) := by
  simp only [exec, execControlFlitReceive, State.port_tick, if_neg (State.port_receives low up), noNak]
  cases c.ack <;> rfl

theorem exec_controlFlitSend (s : State) (n : Nat) : exec (.controlFlitSend n) s = .next (if (s.port n).sends ∧ n < 12 then s.controlFlit n else s) := rfl

theorem exec_replayTimeout_of_nothing (nothing : (s.port n).replay = [] ∨ (s.port n).sends = false) :
    exec (.replayTimeout n t) s = .next (s.tick t) := by
  have idle : ((s.port n).replay.isEmpty || !(s.port n).sends) = true := by simpa using nothing
  exact congrArg Host.Outcome.next (if_pos idle)

theorem exec_replayTimeout_of_unacknowledged (held : (s.port n).replay ≠ []) (sends : (s.port n).sends = true) :
    exec (.replayTimeout n t) s = .next (((s.tick t).resendFlits n).noteReplay n) := by
  have due : ¬((s.port n).replay.isEmpty || !(s.port n).sends) = true := by simp [held, sends]
  exact congrArg Host.Outcome.next (if_neg due)

end

theorem controlFlits : ControlFlits := by
  refine ⟨fun s n c t low up noNak => ?_, fun s n low sends => ?_, fun s n idle => ?_, fun s n t => exec_replayTimeout_of_nothing, fun s n t held sends => ?_⟩
  · obtain ⟨⟨r, port⟩, others, out⟩ := (s.tick t).takeAck_port n c.ack
    refine ⟨_, exec_controlFlitReceive_of_no_nak low up noNak, ?_⟩
    rw [State.takeCredits, State.port_modPort_self, port]
    refine ⟨rfl, rfl, rfl, fun none => ?_, fun a i some first acked => ?_, fun k other => (State.port_modPort_of_ne _ other _).trans (others k other), out⟩
    · rw [← port, none]
      rfl
    · have cleared := Port.acked_of_first first acked
      rw [some, State.takeAck, State.port_modPort_self, State.port_tick, cleared] at port
      exact (congrArg Port.replay port).symm
  · refine ⟨_, (exec_controlFlitSend s n).trans (congrArg Host.Outcome.next (if_pos ⟨sends, low⟩)), ?_⟩
    rw [State.controlFlit_of_sends sends]
    refine ⟨rfl, ?_, fun k other => State.port_modPort_of_ne _ other _⟩
    rw [State.port_emit, State.port_modPort_self]
  · have idle : ¬((s.port n).sends = true ∧ n < 12) := by
      rintro ⟨sends, low⟩
      obtain high | silent := idle
      · omega
      · rw [sends] at silent
        exact nomatch silent
    exact (exec_controlFlitSend s n).trans (congrArg Host.Outcome.next (if_neg idle))
  · have resent := State.resendFlits_of_sends (s := s.tick t) (n := n) sends
    obtain ⟨out, _, _, _, _, noted⟩ := ((s.tick t).resendFlits n).noteReplay_parts n
    refine ⟨_, exec_replayTimeout_of_unacknowledged held sends, ?_⟩
    rw [out, noted, resent]
    exact ⟨rfl, rfl, rfl⟩

/-- Settles O44: data and control flits, replay and credits. That a failed CRC counts in fec_uncorrected, that one NAK stands for a gap, and that a timeout
counts as one replay is log 39; the hop class of returned credits is log 2. -/
theorem flitTraffic : Obligations.FlitTraffic := ⟨flitReceive, controlFlits⟩

end Sys2Proof.Machine

namespace Sys2Proof.Machine

open Sys2Proof Sys2Proof.Claims

/-! ### Lanes and widths (09 R309, R310) -/

section

variable {s : State} {n lane t : Nat}

theorem State.modPort_modPort (s : State) (n : Nat) (f g : Port → Port) : (s.modPort n f).modPort n g = s.modPort n fun x => g (f x) :=
  congrArg (fun p => { s with fab := { s.fab with ports := p } }) (tmod_tmod Port.init s.fab.ports n f g)

/-- A width set pauses the port at most, and is the width from then on. -/
theorem State.setWidth_port (s : State) (n w : Nat) : (∃ b, (s.setWidth n w).port n = { s.port n with width := w, paused := b })
    ∧ ∀ k, k ≠ n → (s.setWidth n w).port k = s.port k := by
  rw [State.setWidth]
  split
  next same => exact ⟨⟨_, by rw [← same]⟩, fun _ _ => rfl⟩
  next => exact ⟨⟨_, State.port_modPort_self ..⟩, fun k other => State.port_modPort_of_ne s other _⟩

theorem State.setWidth_of_same {w : Nat} (same : (s.port n).width = w) : s.setWidth n w = s := if_pos same

/-- A lane that leaves the width changes the ports alone. -/
theorem State.laneOut_eq (s : State) (n lane : Nat) : ∃ ports, s.laneOut n lane = { s with fab := { s.fab with ports := ports } } := by
  rw [State.laneOut]
  extract_lets u
  split
  · exact ⟨_, rfl⟩
  · rw [State.setWidth]
    split <;> exact ⟨_, rfl⟩

/-- The lanes of port x without one of its own. -/
def Port.withoutLane (x : Port) (lane : Nat) : Port := { x with own := x.own &&& ~~~(BitVec.ofNat 8 (2 ^ lane)) }

/-- A lane taken out of the mask of port n. -/
def State.dropLane (s : State) (n lane : Nat) : State := s.modPort n fun x => x.withoutLane lane

theorem State.dropLane_port (s : State) (n lane : Nat) : (s.dropLane n lane).port n = (s.port n).withoutLane lane
    ∧ ∀ k, k ≠ n → (s.dropLane n lane).port k = s.port k :=
  ⟨State.port_modPort_self .., fun _ other => State.port_modPort_of_ne s other _⟩

theorem State.laneOut_eq_setWidth (s : State) (n lane : Nat) : s.laneOut n lane
    = if (s.port n).width = 0 then s.dropLane n lane
      else (s.dropLane n lane).setWidth n (min (s.port n).width (s.widthNow ((s.port n).withoutLane lane).lanes)) := by
  have out : s.laneOut n lane = if ((s.dropLane n lane).port n).width = 0 then s.dropLane n lane
    else (s.dropLane n lane).setWidth n (min ((s.dropLane n lane).port n).width ((s.dropLane n lane).widthNow ((s.dropLane n lane).port n).lanes)) := rfl
  rw [out, (s.dropLane_port n lane).1]
  rfl

theorem State.laneOut_port (s : State) (n lane : Nat) : (∃ b, (s.laneOut n lane).port n = { (s.port n).withoutLane lane with
      width := min (s.port n).width (s.widthNow ((s.port n).withoutLane lane).lanes), paused := b })
    ∧ ∀ k, k ≠ n → (s.laneOut n lane).port k = s.port k := by
  obtain ⟨left, others⟩ := s.dropLane_port n lane
  rw [State.laneOut_eq_setWidth]
  split
  next down => exact ⟨⟨(s.port n).paused, by rw [left, down, Nat.zero_min, ← down]; rfl⟩, others⟩
  next =>
    obtain ⟨⟨b, port⟩, rest⟩ := (s.dropLane n lane).setWidth_port n (min (s.port n).width (s.widthNow ((s.port n).withoutLane lane).lanes))
    exact ⟨⟨b, port.trans (by rw [left])⟩, fun k other => (rest k other).trans (others k other)⟩

theorem getLsbD_withoutLane (x : Port) {i : Nat} (low : i < 8) : (x.withoutLane lane).own.getLsbD i = (x.own.getLsbD i && decide (i ≠ lane)) := by
  have bit : (BitVec.ofNat 8 (2 ^ lane)).getLsbD i = decide (lane = i) := by rw [BitVec.getLsbD_ofNat, Nat.testBit_two_pow]; simp [low]
  simp only [Port.withoutLane, BitVec.getLsbD_and, BitVec.getLsbD_not, bit, low, decide_true, Bool.true_and, eq_comm, decide_not]

theorem Port.withoutLane_of_out {x : Port} (out : x.own.getLsbD lane = false) : x.withoutLane lane = x := by
  have own : (x.withoutLane lane).own = x.own := BitVec.eq_of_getLsbD_eq fun i low => by
    rw [getLsbD_withoutLane x low]
    by_cases e : i = lane
    · rw [e, out, Bool.false_and]
    · rw [decide_eq_true e, Bool.and_true]
  exact congrArg (fun mask => { x with own := mask }) own

/-- A lane that is out already leaves every port as it was, where the width is what the mask gives. -/
theorem State.laneOut_port_of_out (out : (s.port n).own.getLsbD lane = false) (fits : (s.port n).width ≤ s.widthNow (s.port n).lanes) (k : Nat) :
    (s.laneOut n lane).port k = s.port k := by
  obtain ⟨left, others⟩ := s.dropLane_port n lane
  rw [Port.withoutLane_of_out out] at left
  rw [State.laneOut_eq_setWidth, Port.withoutLane_of_out out, Nat.min_eq_left fits, State.setWidth_of_same (by rw [left]), ite_self]
  by_cases same : k = n
  · rw [same, left]
  · exact others k same

/-- A lane under test is out of its port's width (12 R416). -/
theorem State.startTest_lane (s : State) (n lane kind : Nat) (w : Option Waybill) :
    ∃ m, s.startTest (.lane n lane) kind 0 w = ({ s with mc := m } : State).laneOut n lane := by
  rw [State.startTest]
  split <;> exact ⟨_, rfl⟩

theorem exec_laneDown_of_healthy (low : n < 12) (listed : lane < 8) (healthy : (s.port n).own.getLsbD lane = true) : exec (.laneDown n lane t) s
    = .next (if (s.port n).width ≠ 0 ∧ (((s.tick t).startTest (.lane n lane) 0x0A 0 none).port n).width = 0 then
        ((s.tick t).startTest (.lane n lane) 0x0A 0 none).portDown n
      else (s.tick t).startTest (.lane n lane) 0x0A 0 none) := by
  have acts : ¬(12 ≤ n ∨ 8 ≤ lane ∨ (!bitAt (s.port n).own lane) = true) := by simp [low, listed, bitAt, healthy]
  refine congrArg Host.Outcome.next ((if_neg acts).trans ?_)
  simp only [Bool.and_eq_true, bne_iff_ne, beq_iff_eq]
  rfl

theorem exec_laneDown_of_out (out : 12 ≤ n ∨ 8 ≤ lane ∨ (s.port n).own.getLsbD lane = false) : exec (.laneDown n lane t) s = .next (s.tick t) := by
  have idle : 12 ≤ n ∨ 8 ≤ lane ∨ (!bitAt (s.port n).own lane) = true := out.imp_right (Or.imp_right fun out => by rw [bitAt, out]; rfl)
  exact congrArg Host.Outcome.next (if_pos idle)

theorem widthOf_le (h : BitVec 8) : widthOf h ≤ 4 := by
  unfold widthOf
  split_ifs <;> decide

theorem widthOf_eq_zero_iff (h : BitVec 8) : widthOf h = 0 ↔ h = 0 := by
  refine ⟨fun none => ?_, fun none => none ▸ rfl⟩
  unfold widthOf at none
  split_ifs at none
  next zero => exact not_not.1 zero

theorem State.two_le_portCap (s : State) : 2 ≤ s.portCap := by
  unfold State.portCap
  split_ifs <;> decide

theorem State.widthNow_eq_zero_iff (s : State) (h : BitVec 8) : s.widthNow h = 0 ↔ h = 0 := by
  have := s.two_le_portCap
  rw [State.widthNow, ← widthOf_eq_zero_iff]
  omega

end

/-! ### Changes of a width, and training (09 R299, R310; 10 R347) -/

section

variable {s : State} {n : Nat} {own peer : BitVec 8} {id : Nat} {l : List Nat}

/-- Port n after the pause of a width change, with the credits of its next hop. -/
def State.resumePort (s : State) (n : Nat) (l : List Nat) : State := s.modPort n fun x => { x with paused := false, credits := creditsLeft x l }

/-- A NAK that fell into the pause is sent after it (09 R307). -/
def State.owedNak (s : State) (n : Nat) : State := if (s.port n).nakSent then s.controlFlit n else s

theorem exec_widthChangeComplete_of_not_paused (runs : (s.port n).paused = false) : exec (.widthChangeComplete n l) s = .next s := by
  have idle : (!(s.port n).paused) = true := by rw [runs]; rfl
  exact congrArg Host.Outcome.next (if_pos idle)

theorem exec_widthChangeComplete_of_paused (paused : (s.port n).paused = true) :
    exec (.widthChangeComplete n l) s = .next ((((s.resumePort n l).owedNak n).resendFlits n).pumpAll n) := by
  have due : ¬(!(s.port n).paused) = true := by rw [paused]; decide
  exact congrArg Host.Outcome.next (if_neg due)

theorem State.owedNak_port (s : State) (n : Nat) : ∃ o, (s.owedNak n).port n = { s.port n with owed := o } := by
  rw [State.owedNak]
  split
  · exact (s.controlFlit_port n).1
  · exact ⟨_, rfl⟩

/-- The handshake of a training: IDs, lane masks and the start of the sequence numbers, which a port that was up keeps (09 R299, R310). -/
def Port.trained (x : Port) (own peer : BitVec 8) (id : Nat) (kept : Bool) : Port := { x with
  own := own &&& ~~~x.retired, peer := peer, peerId := id % 8192, peerAlive := true, departed := false, training := false, paused := false
  txSeq := if kept then x.txSeq else 0, rxSeq := if kept then x.rxSeq else 0, nakSent := false, downSince := none }

/-- A port that is in training and was up before keeps its flits in flight. -/
def Port.keeps (x : Port) : Bool := x.training && x.width != 0

/-- Port n trained, with the width its mask gives; the lanes that failed are not tested yet. -/
def State.train (s : State) (n : Nat) (own peer : BitVec 8) (id : Nat) (l : List Nat) : State :=
  let u := s.modPort n fun x => x.trained own peer id (s.port n).keeps
  let u := if (s.port n).keeps then u else u.modPort n Port.linkLost
  let u := u.modPort n fun x => { x with credits := creditsLeft x l, owed := noFlits }
  u.modPort n fun x => { x with width := if (s.port n).keeps && !u.mayWiden then min x.width (u.widthNow x.lanes) else u.widthNow x.lanes }

/-- The lanes whose training failed, and that are not under test. -/
def State.failedLanes (s : State) (n : Nat) (own retired : BitVec 8) : List Nat :=
  (List.range 8).filter fun lane => !bitAt (own ||| retired) lane && !s.underTest (.lane n lane)

/-- The lanes of a list tested (09 R309). -/
def State.testLanes (s : State) (n : Nat) (lanes : List Nat) : State := lanes.foldl (fun s lane => s.startTest (.lane n lane) 0x0A 0 none) s

/-- The fabric once module m is back, as a neighbour (09 R326). -/
def Fabric.regained (f : Fabric) (m : Nat) : Fabric :=
  { f with departed := f.departed.filter fun d => d != m, lost := f.lost.filter fun d => d != m, isolated := false }

/-- A neighbour that had departed or been lost is back; the ranks of one that had departed have not departed any more (09 R326). -/
def State.neighbourBack (s : State) (m : Nat) : State :=
  let u : State := { s with fab := s.fab.regained m }
  if s.fab.departed.contains m then (List.range 4).foldl (fun s c => s.modCx c fun x => { x with
    departed := x.departed.filter fun r => (x.place.map fun p => p.group.getD r 8192) != some m }) u
  else u

theorem State.neighbourBack_fab (s : State) (m : Nat) : (s.neighbourBack m).fab = s.fab.regained m := by
  unfold State.neighbourBack
  extract_lets u
  split
  · exact List.foldlRecOn _ _ (motive := fun v : State => v.fab = u.fab) rfl fun v h c _ => h
  · rfl

theorem State.neighbourBack_parts (s : State) (m : Nat) : (s.neighbourBack m).fab.isolated = false ∧ m ∉ (s.neighbourBack m).fab.departed
    ∧ m ∉ (s.neighbourBack m).fab.lost ∧ ∀ k, (s.neighbourBack m).port k = s.port k := by
  rw [State.neighbourBack_fab]
  refine ⟨rfl, by simp [Fabric.regained], by simp [Fabric.regained], fun k => ?_⟩
  rw [State.port, State.neighbourBack_fab]
  rfl

/-- Port n tested after a training, in the state that the training leaves. -/
def State.trainAndTest (s : State) (n : Nat) (own peer : BitVec 8) (id : Nat) (l : List Nat) : State :=
  (s.train n own peer id l).testLanes n ((s.train n own peer id l).failedLanes n own (s.port n).retired)

theorem exec_portTrainingComplete_of_not_trained
    (stays : 12 ≤ n ∨ s.tg.st = 3 ∨ s.fab.selfDeparted = true ∨ (s.port n).training = false ∧ (s.port n).width ≠ 0) :
    exec (.portTrainingComplete n own peer id l) s = .next s := by
  have idle : 12 ≤ n ∨ (!((s.port n).training || (s.port n).width == 0)) = true ∨ s.tg.st = 3 ∨ s.fab.selfDeparted = true := by
    obtain high | floor | departed | ⟨trained, up⟩ := stays
    · exact .inl high
    · exact .inr (.inr (.inl floor))
    · exact .inr (.inr (.inr departed))
    · exact .inr (.inl (by simp [trained, up]))
  exact congrArg Host.Outcome.next (if_pos idle)

section

variable (low : n < 12) (floor : s.tg.st ≠ 3) (here : s.fab.selfDeparted = false) (trains : (s.port n).training = true ∨ (s.port n).width = 0)

include low floor here trains

theorem exec_portTrainingComplete : exec (.portTrainingComplete n own peer id l) s = .next (
    (if ((s.trainAndTest n own peer id l).port n).width = 0 then
      (s.trainAndTest n own peer id l).modPort n fun x => { x with downSince := some (s.trainAndTest n own peer id l).now }
    else ((((s.trainAndTest n own peer id l).neighbourBack (id % 8192)).resendFlits n).pumpAll n).routeHeld).endRetrain n) := by
  have trains : ((s.port n).training || (s.port n).width == 0) = true := by simpa using trains
  have acts : ¬(12 ≤ n ∨ (!((s.port n).training || (s.port n).width == 0)) = true ∨ s.tg.st = 3 ∨ s.fab.selfDeparted = true) := by
    simp [low, floor, here, trains]
  exact congrArg Host.Outcome.next (if_neg acts)

end

/-- What the training leaves at port n. -/
theorem State.train_port (s : State) (n : Nat) (own peer : BitVec 8) (id : Nat) (l : List Nat) : let x := (s.train n own peer id l).port n
    (x.own = own &&& ~~~(s.port n).retired ∧ x.peer = peer ∧ x.peerId = id % 8192 ∧ x.training = false ∧ x.peerAlive = true
      ∧ x.width = if (s.port n).keeps && !s.mayWiden then min (s.port n).width (s.widthNow x.lanes) else s.widthNow x.lanes)
    ∧ ∀ k, k ≠ n → (s.train n own peer id l).port k = s.port k := by
  cases kept : (s.port n).keeps
  all_goals
    simp only [State.train, kept, Bool.false_eq_true, if_false, if_true, State.modPort_modPort, State.port_modPort_self]
    exact ⟨⟨rfl, rfl, rfl, rfl, rfl, rfl⟩, fun k other => State.port_modPort_of_ne s other _⟩

theorem State.train_eq (s : State) (n : Nat) (own peer : BitVec 8) (id : Nat) (l : List Nat) :
    ∃ ports, s.train n own peer id l = { s with fab := { s.fab with ports := ports } } := by
  cases kept : (s.port n).keeps
  all_goals
    simp only [State.train, kept, Bool.false_eq_true, if_false, if_true, State.modPort_modPort]
    exact ⟨_, rfl⟩

/-- Tests of lanes that are out already leave every port as it was. -/
theorem State.testLanes_parts (s : State) (n : Nat) (lanes : List Nat) (out : ∀ lane ∈ lanes, (s.port n).own.getLsbD lane = false)
    (fits : (s.port n).width ≤ s.widthNow (s.port n).lanes) :
    (s.testLanes n lanes).now = s.now ∧ ∀ k, (s.testLanes n lanes).port k = s.port k := by
  induction lanes generalizing s with
  | nil => exact ⟨rfl, fun _ => rfl⟩
  | cons lane lanes ih =>
    obtain ⟨first, later⟩ := List.forall_mem_cons.1 out
    obtain ⟨m, test⟩ := s.startTest_lane n lane 0x0A none
    have same : ∀ k, (s.startTest (.lane n lane) 0x0A 0 none).port k = s.port k := fun k => by
      rw [test]
      exact State.laneOut_port_of_out (s := { s with mc := m }) first fits k
    obtain ⟨ports, rest⟩ := ({ s with mc := m } : State).laneOut_eq n lane
    have time : (s.startTest (.lane n lane) 0x0A 0 none).now = s.now := by rw [test, rest]
    have widths : ∀ h, (s.startTest (.lane n lane) 0x0A 0 none).widthNow h = s.widthNow h := fun h => by
      rw [test, rest]
      rfl
    obtain ⟨time', same'⟩ := ih (s.startTest (.lane n lane) 0x0A 0 none) (by rwa [same]) (by rwa [same, widths])
    exact ⟨time'.trans time, fun k => (same' k).trans (same k)⟩

theorem State.failedLane_out {retired : BitVec 8} {lane : Nat} (failed : lane ∈ s.failedLanes n own retired) :
    (own &&& ~~~retired).getLsbD lane = false := by
  obtain ⟨_, failed⟩ := List.mem_filter.1 failed
  have out : (own ||| retired).getLsbD lane = false := by
    rw [Bool.and_eq_true, bitAt, Bool.not_eq_true'] at failed
    exact failed.1
  rw [BitVec.getLsbD_or, Bool.or_eq_false_iff] at out
  rw [BitVec.getLsbD_and, out.1, Bool.false_and]

/-- The tests after a training leave every port as the training made it. -/
theorem State.trainAndTest_parts (s : State) (n : Nat) (own peer : BitVec 8) (id : Nat) (l : List Nat) : (s.trainAndTest n own peer id l).now = s.now
    ∧ ∀ k, (s.trainAndTest n own peer id l).port k = (s.train n own peer id l).port k := by
  obtain ⟨⟨ownMask, _, _, _, _, width⟩, _⟩ := s.train_port n own peer id l
  obtain ⟨ports, train⟩ := s.train_eq n own peer id l
  have time : (s.train n own peer id l).now = s.now := by rw [train]
  have widths : ∀ h, (s.train n own peer id l).widthNow h = s.widthNow h := fun h => by
    rw [train]
    rfl
  have fits : ((s.train n own peer id l).port n).width ≤ (s.train n own peer id l).widthNow ((s.train n own peer id l).port n).lanes := by
    rw [widths, width]
    split
    · exact Nat.min_le_right ..
    · exact le_rfl
  obtain ⟨time', same⟩ := State.testLanes_parts _ n ((s.train n own peer id l).failedLanes n own (s.port n).retired)
    (fun lane failed => by rw [ownMask]; exact State.failedLane_out failed) fits
  exact ⟨time'.trans time, same⟩

theorem Port.keeps_eq {x : Port} (trains : x.training = true ∨ x.width = 0) : x.keeps = decide (x.width ≠ 0) := by
  obtain training | down := trains
  · rw [Port.keeps, training, Bool.true_and, Bool.eq_iff_iff]
    simp
  · simp [Port.keeps, down]

/-- The width that a training gives: a port that was up widens in a step window only (09 R310, 10 R347). -/
theorem State.train_width (trains : (s.port n).training = true ∨ (s.port n).width = 0) : ((s.train n own peer id l).port n).width
    = (if (s.port n).width ≠ 0 ∧ s.mayWiden = false then min (s.port n).width (s.widthNow (((s.train n own peer id l).port n).own &&& peer))
      else s.widthNow (((s.train n own peer id l).port n).own &&& peer)) := by
  obtain ⟨⟨_, peerMask, _, _, _, width⟩, _⟩ := s.train_port n own peer id l
  rw [width, Port.lanes, peerMask, Port.keeps_eq trains]
  simp

/-- A training leaves a port down where no lane is healthy on both sides. -/
theorem State.train_down_iff (trains : (s.port n).training = true ∨ (s.port n).width = 0) : ((s.train n own peer id l).port n).width = 0
    ↔ (own &&& ~~~(s.port n).retired) &&& peer = 0 := by
  obtain ⟨⟨ownMask, _⟩, _⟩ := s.train_port n own peer id l
  have mask := s.widthNow_eq_zero_iff ((own &&& ~~~(s.port n).retired) &&& peer)
  rw [State.train_width trains, ownMask, ← mask]
  split
  next up =>
    obtain ⟨up, _⟩ := up
    omega
  next => rfl

end

/-- LANE_DOWN on a healthy lane (09 R309). -/
theorem laneDowns (s : State) (n lane t : Nat) (low : n < 12) (listed : lane < 8) (healthy : (s.port n).own.getLsbD lane = true) : ∃ u : State,
    u = (s.tick t).startTest (.lane n lane) 0x0A 0 none
    ∧ exec (.laneDown n lane t) s = .next (if (s.port n).width ≠ 0 ∧ (u.port n).width = 0 then u.portDown n else u)
    ∧ (∀ i < 8, (u.port n).own.getLsbD i = ((s.port n).own.getLsbD i && decide (i ≠ lane)))
    ∧ ((s.port n).width ≠ 0 → (u.port n).width = min (s.port n).width (s.widthNow (u.port n).lanes)) ∧ ∀ k, k ≠ n → u.port k = s.port k := by
  refine ⟨_, rfl, exec_laneDown_of_healthy low listed healthy, ?_⟩
  obtain ⟨m, test⟩ := (s.tick t).startTest_lane n lane 0x0A none
  obtain ⟨⟨b, port⟩, others⟩ := ({ s.tick t with mc := m } : State).laneOut_port n lane
  rw [test, port]
  exact ⟨fun i low => getLsbD_withoutLane _ low, fun _ => rfl, others⟩

/-- WIDTH_CHANGE_COMPLETE on a paused port (09 R310). -/
theorem widthChanges (s : State) (n : Nat) (l : List Nat) (paused : (s.port n).paused = true) : ∃ u : State,
    exec (.widthChangeComplete n l) s = .next (u.pumpAll n) ∧ (u.port n).paused = false ∧ (u.port n).credits = creditsLeft (s.port n) l
    ∧ (u.port n).replay = (s.port n).replay
    ∧ ((s.port n).nakSent = false → (s.port n).width ≠ 0 → (s.port n).training = false →
      u.out = s.out ++ (s.port n).replay.map fun e => .flit n e.2.1) := by
  have resumed : (s.resumePort n l).port n = { s.port n with paused := false, credits := creditsLeft (s.port n) l } := State.port_modPort_self ..
  obtain ⟨o, port⟩ := (s.resumePort n l).owedNak_port n
  obtain ⟨out, resent⟩ := ((s.resumePort n l).owedNak n).resendFlits_eq n
  have ports : (((s.resumePort n l).owedNak n).resendFlits n).port n = ((s.resumePort n l).owedNak n).port n := by
    rw [resent]
    rfl
  refine ⟨_, exec_widthChangeComplete_of_paused paused, ?_⟩
  rw [ports, port, resumed]
  refine ⟨rfl, rfl, rfl, fun noNak up trained => ?_⟩
  have quiet : (s.resumePort n l).owedNak n = s.resumePort n l := if_neg (by rw [resumed, noNak]; decide)
  have sends : ((s.resumePort n l).port n).sends = true := by simp [resumed, Port.sends, up, trained]
  rw [quiet, State.resendFlits_of_sends sends, resumed]
  rfl

theorem portWidths : PortWidths := by
  refine ⟨laneDowns, fun s n lane t => exec_laneDown_of_out, fun s n l => ⟨exec_widthChangeComplete_of_not_paused, widthChanges s n l⟩,
    fun s n own peer id l low floor here trains dead => ?_, fun s n own peer id l low floor here trains alive => ?_,
    fun s n own peer id l => exec_portTrainingComplete_of_not_trained, by decide, fun h => ⟨widthOf_le h, widthOf_eq_zero_iff h⟩, fun h notFull four => ?_⟩
  · obtain ⟨⟨_, _, peerId, training, alive, _⟩, _⟩ := s.train_port n own peer id l
    obtain ⟨time, same⟩ := s.trainAndTest_parts n own peer id l
    have down : ((s.trainAndTest n own peer id l).port n).width = 0 := by rw [same, State.train_down_iff trains, dead]
    refine ⟨_, (exec_portTrainingComplete low floor here trains).trans (by rw [if_pos down]), ?_⟩
    rw [State.port_modPort_self, same, time]
    exact ⟨by rw [← same]; exact down, peerId, training, alive, rfl⟩
  · obtain ⟨⟨ownMask, peerMask, _⟩, others⟩ := s.train_port n own peer id l
    obtain ⟨_, same⟩ := s.trainAndTest_parts n own peer id l
    obtain ⟨isolated, departed, lost, same'⟩ := (s.trainAndTest n own peer id l).neighbourBack_parts (id % 8192)
    have up : ((s.train n own peer id l).port n).width ≠ 0 := mt (State.train_down_iff trains).1 alive
    have up' : ((s.trainAndTest n own peer id l).port n).width ≠ 0 := by rwa [same]
    refine ⟨_, (exec_portTrainingComplete low floor here trains).trans (by rw [if_neg up']), ?_⟩
    rw [same', same]
    exact ⟨ownMask, peerMask, State.train_width trains, up, isolated, departed, lost, fun k other => by rw [same', same, others k other]⟩
  · rw [widthOf, if_neg notFull, if_pos (.inl four)]

end Sys2Proof.Machine

namespace Sys2Proof.Machine

open Sys2Proof Sys2Proof.Claims

/-! ### Routes of packets (09 R305, R312 to R314, R325) -/

section

variable {s u : State} {p : Packet} {t n : Nat} {c : List Nat} {b : Bool}

theorem State.takeBuffered_of_none (none : ∀ n < 12, p ∉ (s.port n).got) : s.takeBuffered p = s := by
  have found : ((List.range 12).find? fun n => (s.port n).got.contains p) = .none :=
    List.find?_eq_none.2 fun n low => by simpa using none n (List.mem_range.1 low)
  rw [State.takeBuffered, found]

theorem State.takeBuffered_eq (s : State) (p : Packet) : ∃ ports, s.takeBuffered p = { s with fab := { s.fab with ports := ports } } := by
  rw [State.takeBuffered]
  split <;> exact ⟨_, rfl⟩

/-- A packet that leaves its buffer leaves the width and the suspicion of every port (09 R305). -/
theorem State.takeBuffered_port (s : State) (p : Packet) (k : Nat) : ((s.takeBuffered p).port k).width = (s.port k).width
    ∧ ((s.takeBuffered p).port k).suspect = (s.port k).suspect := by
  rw [State.takeBuffered]
  split
  · exact ⟨rfl, rfl⟩
  next n _ =>
    rw [State.port_modPort]
    split
    next same => exact same ▸ ⟨rfl, rfl⟩
    next => exact ⟨rfl, rfl⟩

theorem State.outPort_congr {v : State} (same : ∀ k, (v.port k).width = (s.port k).width ∧ (v.port k).suspect = (s.port k).suspect) (p : Packet)
    (c : List Nat) (b : Bool) : v.outPort p c b = s.outPort p c b := by
  simp only [State.outPort, (same _).1, (same _).2]

/-! One hop -/

theorem State.discard_parts (s : State) (p : Packet) : (s.discard p).fab = { s.fab with unreachable := min 0xFFFF (s.fab.unreachable + 1) }
    ∧ (p.type ≠ 2 → (s.discard p).out = s.out) ∧ (p.type = 2 → (s.discard p).out = s.out ++ [.send p.ctx p.src (.unreachable p.tag)]) := by
  unfold State.discard
  split
  next request => exact ⟨rfl, fun other => absurd request other, fun _ => rfl⟩
  next other => exact ⟨rfl, fun _ => rfl, fun request => absurd request other⟩

theorem State.route_of_here (here : p.dst = s.fab.moduleId) : s.route p = s.emit (.toRing p) := if_pos here

/-- No way leads to the packet's module, or it has made 64 hops (09 R313, R325). -/
theorem State.route_of_unreachable (other : p.dst ≠ s.fab.moduleId)
    (cut : p.dst ∈ s.fab.lost ∨ p.dst ∈ s.fab.departed ∨ s.fab.candidates p.dst = none ∨ p.hops = 64) : s.route p = s.discard p := by
  rw [State.route, if_neg other]
  by_cases gone : p.dst ∈ s.fab.lost ∨ p.dst ∈ s.fab.departed
  · rw [if_pos (by simpa using gone)]
  · rw [if_neg (by simpa using gone)]
    cases way : s.fab.candidates p.dst with
    | none => rfl
    | some e =>
      have far : p.hops = 64 := by simpa [not_or.1 gone, way] using cut
      exact if_pos far

section

variable (other : p.dst ≠ s.fab.moduleId) (here : p.dst ∉ s.fab.lost) (stays : p.dst ∉ s.fab.departed)
  (way : s.fab.candidates p.dst = some (c, b)) (near : p.hops ≠ 64)

include other here stays way near

/-- A packet whose candidates are all down is held (09 R313). -/
theorem State.route_of_held (held : s.outPort p c b = none) : s.route p = { s with fab := { s.fab with holding := s.fab.holding ++ [(p, s.now)] } } := by
  have reached : ¬(s.fab.lost.contains p.dst || s.fab.departed.contains p.dst) = true := by simp [here, stays]
  simp only [State.route, if_neg other, if_neg reached, way, if_neg near, held]

theorem State.route_of_leaving (leaves : s.outPort p c b = some n) :
    s.route p = (s.modPort n fun x => { x with waiting := x.waiting ++ [(p, 0)] }).pumpAll n := by
  have reached : ¬(s.fab.lost.contains p.dst || s.fab.departed.contains p.dst) = true := by simp [here, stays]
  simp only [State.route, if_neg other, if_neg reached, way, if_neg near, leaves]

end

/-! The output port -/

/-- The candidates that are up, in the order in which a packet prefers them (09 R313). -/
def State.usablePorts (s : State) (p : Packet) (c : List Nat) : List Nat :=
  (if p.alt then c.reverse else c).filter fun n => decide (n < 12) && (s.port n).width != 0

/-- The candidates without a suspect port, where there are any (09 R308, R313). -/
def State.preferredPorts (s : State) (p : Packet) (c : List Nat) : List Nat :=
  if ((s.usablePorts p c).filter fun n => !(s.port n).suspect).isEmpty then s.usablePorts p c else (s.usablePorts p c).filter fun n => !(s.port n).suspect

theorem State.mem_usablePorts : n ∈ s.usablePorts p c ↔ n ∈ c ∧ n < 12 ∧ (s.port n).width ≠ 0 := by
  cases alt : p.alt <;> simp [State.usablePorts, alt]

theorem State.mem_preferredPorts (preferred : n ∈ s.preferredPorts p c) : n ∈ s.usablePorts p c
    ∧ ((s.port n).suspect = true → ∀ k ∈ s.usablePorts p c, (s.port k).suspect = true) := by
  unfold State.preferredPorts at preferred
  split at preferred
  next none => exact ⟨preferred, fun _ k usable => by simpa using List.filter_eq_nil_iff.1 (List.isEmpty_iff.1 none) k usable⟩
  next =>
    obtain ⟨usable, clean⟩ := List.mem_filter.1 preferred
    exact ⟨usable, fun suspect => by simp [suspect] at clean⟩

theorem State.outPort_mem (out : s.outPort p c b = some n) : n ∈ s.preferredPorts p c := by
  change (match s.preferredPorts p c with
    | [] => none
    | a :: r => match r with
      | d :: _ => some (if b && (p.vc == 0 || p.vc == 3) && (p.addr / 4096 ^^^ p.src) % 2 == 1 then d else a)
      | [] => some a) = some n at out
  generalize s.preferredPorts p c = l at out ⊢
  match l with
  | [] => exact nomatch out
  | [a] => exact Option.some.inj out ▸ List.mem_cons_self
  | a :: d :: _ =>
    rw [← Option.some.inj out]
    split
    · exact List.mem_cons_of_mem _ List.mem_cons_self
    · exact List.mem_cons_self

/-- A number of a range, and the numbers before it. -/
theorem range_split {m j : Nat} {before after : List Nat} (range : List.range m = before ++ j :: after) : j < m ∧ ∀ k, k ∈ before ↔ k < j := by
  have short : before.length < m := by
    have length := congrArg List.length range
    rw [List.length_range, List.length_append, List.length_cons] at length
    omega
  have here : j = before.length := by
    have entry := congrArg (fun l => l[before.length]?) range
    simpa [short] using entry.symm
  have lower : before = List.range j := by
    have front := congrArg (List.take before.length) range
    rw [List.take_range, List.take_left, Nat.min_eq_left short.le, ← here] at front
    exact front.symm
  exact ⟨here ▸ short, fun k => by rw [lower, List.mem_range]⟩

/-- The default output corrects the lowest differing dimension (09 R314). -/
theorem Fabric.defaultHop_some {f : Fabric} {dst i : Nat} {up : Bool} (hop : f.defaultHop dst = some (i, up)) : i < 3 ∧ dst < f.dx * f.dy * f.dz
    ∧ (f.coords f.moduleId).getD i 0 ≠ (f.coords dst).getD i 0 ∧ ∀ j < i, (f.coords f.moduleId).getD j 0 = (f.coords dst).getD j 0 := by
  unfold Fabric.defaultHop at hop
  split at hop
  next => exact nomatch hop
  next inside =>
    obtain ⟨before, j, after, range, found, equal⟩ := List.findSome?_eq_some_iff.1 hop
    obtain ⟨last, first⟩ := range_split range
    dsimp only at found
    split at found
    next => exact nomatch found
    next differs =>
      obtain rfl : j = i := congrArg Prod.fst (Option.some.inj found)
      refine ⟨last, Nat.not_le.1 inside, differs, fun k lower => ?_⟩
      have none := equal k ((first k).2 lower)
      dsimp only at none
      split at none
      next same => exact same
      next => exact nomatch none

end

/-- PACKET_ROUTE where a way leads to the packet's module (09 R313). -/
theorem routesOn (s u : State) (p : Packet) (t : Nat) (c : List Nat) (b : Bool) (taken : u = (s.tick t).takeBuffered p) (other : p.dst ≠ s.fab.moduleId)
    (here : p.dst ∉ s.fab.lost) (stays : p.dst ∉ s.fab.departed) (way : s.fab.candidates p.dst = some (c, b)) (near : p.hops ≠ 64) :
    (s.outPort p c b = none → exec (.packetRoute p t) s = .next { u with fab := { u.fab with holding := s.fab.holding ++ [(p, max s.now t)] } })
    ∧ ∀ n, s.outPort p c b = some n → exec (.packetRoute p t) s = .next ((u.modPort n fun x => { x with waiting := x.waiting ++ [(p, 0)] }).pumpAll n) := by
  obtain ⟨ports, same⟩ := (s.tick t).takeBuffered_eq p
  have fab : u.fab = { s.fab with ports := ports } := by rw [taken, same, State.tick_fab]
  have now_ : u.now = max s.now t := by rw [taken, same, State.tick_now]
  have out : u.outPort p c b = s.outPort p c b := taken ▸ State.outPort_congr (s := s) (fun k => (s.tick t).takeBuffered_port p k) p c b
  have away : p.dst ≠ u.fab.moduleId := by rwa [fab]
  have here' : p.dst ∉ u.fab.lost := by rwa [fab]
  have stays' : p.dst ∉ u.fab.departed := by rwa [fab]
  have way' : u.fab.candidates p.dst = some (c, b) := by
    rw [fab]
    exact way
  have routed : exec (.packetRoute p t) s = .next (u.route p) := by rw [taken]; rfl
  rw [routed]
  refine ⟨fun held => ?_, fun n leaves => by rw [State.route_of_leaving away here' stays' way' near (out.trans leaves)]⟩
  rw [State.route_of_held away here' stays' way' near (out.trans held), now_, fab]

theorem routing : Routing := by
  refine ⟨fun s p => State.takeBuffered_of_none, fun s u p t taken here => ?_, fun s u p t taken other cut => ?_, routesOn,
    fun s p c b n out => ?_, fun f dst i up => Fabric.defaultHop_some, fun s p t => ⟨fun short => ?_, fun e due => ?_⟩⟩
  · obtain ⟨ports, same⟩ := (s.tick t).takeBuffered_eq p
    have hop : u.route p = _ := State.route_of_here (by rwa [taken, same])
    rw [← hop, taken]
    rfl
  · obtain ⟨ports, same⟩ := (s.tick t).takeBuffered_eq p
    have hop : u.route p = u.discard p := State.route_of_unreachable (by rwa [taken, same]) (by rw [taken, same]; exact cut)
    obtain ⟨fab, silent, answered⟩ := u.discard_parts p
    have routed : exec (.packetRoute p t) s = .next (u.route p) := by rw [taken]; rfl
    refine ⟨_, routed.trans (congrArg Host.Outcome.next hop), ?_⟩
    rw [fab]
    rw [taken, same] at silent answered ⊢
    exact ⟨rfl, silent, answered⟩
  · obtain ⟨usable, suspects⟩ := State.mem_preferredPorts (State.outPort_mem out)
    obtain ⟨listed, low, up⟩ := State.mem_usablePorts.1 usable
    exact ⟨listed, low, up, fun suspect k named below wide => suspects suspect k (State.mem_usablePorts.2 ⟨named, below, wide⟩)⟩
  · have none : (s.fab.holding.find? fun e => e.1 == p && decide (e.2 + 100000 ≤ t)) = .none :=
      List.find?_eq_none.2 fun e held => by simpa using short e held
    simp only [exec, execHeldPacketTimeout, State.tick_fab, none]
  · obtain ⟨fab, _⟩ := ({ s.tick t with fab := { s.fab with holding := s.fab.holding.erase e } } : State).discard_parts p
    refine ⟨({ s.tick t with fab := { s.fab with holding := s.fab.holding.erase e } } : State).discard p, ?_, fab⟩
    simp only [exec, execHeldPacketTimeout, State.tick_fab, due]

/-- Settles O45: widths and training of ports, and the way of a packet. -/
theorem portsAndRoutes : Obligations.PortsAndRoutes := ⟨portWidths, routing⟩

end Sys2Proof.Machine

namespace Sys2Proof.Machine

open Sys2Proof Sys2Proof.Claims

/-! ### Fields that are packed (00 R3) -/

section

variable {fs : List (Nat × Nat × Nat)} {n lo len v : Nat}

theorem packNat_dvd {k : Nat} (above : ∀ e ∈ fs, k ≤ e.1) : 2 ^ k ∣ packNat fs := by
  induction fs with
  | nil => exact dvd_zero _
  | cons e fs ih =>
    obtain ⟨head, above⟩ := List.forall_mem_cons.1 above
    exact Dvd.dvd.add ((pow_dvd_pow 2 head).mul_left _) (ih above)

/-- Of fields in ascending order each is read back, modulo its range. -/
theorem packNat_field (ascending : fs.Pairwise fun a b => a.1 + a.2.1 ≤ b.1) (listed : (lo, len, v) ∈ fs) :
    packNat fs / 2 ^ lo % 2 ^ len = v % 2 ^ len := by
  induction fs with
  | nil => simp at listed
  | cons e fs ih =>
    obtain ⟨below, ascending⟩ := List.pairwise_cons.1 ascending
    obtain ⟨q, rest⟩ := packNat_dvd below
    obtain rfl | later := List.mem_cons.1 listed
    · have split : packNat ((lo, len, v) :: fs) = (v % 2 ^ len + 2 ^ len * q) * 2 ^ lo := by
        rw [packNat, rest, Nat.pow_add]
        ring
      rw [split, Nat.mul_div_cancel _ (Nat.two_pow_pos lo), Nat.add_mul_mod_self_left, Nat.mod_mod]
    · have low : e.2.2 % 2 ^ e.2.1 * 2 ^ e.1 < 2 ^ (e.1 + e.2.1) := by
        rw [Nat.pow_add, Nat.mul_comm]
        exact Nat.mul_lt_mul_of_pos_left (Nat.mod_lt _ (Nat.two_pow_pos _)) (Nat.two_pow_pos _)
      have skip : packNat (e :: fs) / 2 ^ (e.1 + e.2.1) = packNat fs / 2 ^ (e.1 + e.2.1) := by
        rw [packNat, rest, Nat.add_mul_div_left _ _ (Nat.two_pow_pos _), Nat.div_eq_of_lt low, Nat.zero_add, Nat.mul_div_cancel_left _ (Nat.two_pow_pos _)]
      have above : e.1 + e.2.1 ≤ lo := below _ later
      rw [← ih ascending later, ← Nat.add_sub_cancel' above, Nat.pow_add, ← Nat.div_div_eq_div_mul, ← Nat.div_div_eq_div_mul, skip]

theorem fld_pack (ascending : fs.Pairwise fun a b => a.1 + a.2.1 ≤ b.1) (listed : (lo, len, v) ∈ fs) (fits : lo + len ≤ n) :
    fld (pack n fs) lo len = v % 2 ^ len := by
  have width : 2 ^ n = 2 ^ lo * 2 ^ (n - lo) := by rw [← Nat.pow_add, Nat.add_sub_cancel' (by omega)]
  rw [fld, pack, BitVec.toNat_ofNat, Nat.shiftRight_eq_div_pow, width, Nat.mod_mul_right_div_self, Nat.mod_mod_of_dvd _ (pow_dvd_pow 2 (by omega)),
    packNat_field ascending listed]

end

/-! ### Packets (09 R303, R317) -/

section

variable {s u : State} {p : Packet}

theorem mkPacket_field {dst src ctx type vc addr gen step8 tag lo len v : Nat} {data : List Line}
    (listed : (lo, len, v) ∈ [(0, 13, dst), (13, 13, src), (26, 2, ctx), (28, 4, type), (32, 4, data.length - 1), (40, 48, addr), (96, 8, gen), (104, 8, step8),
      (112, 16, tag)]) (fits : lo + len ≤ 128) : fld (mkPacket dst src ctx type vc addr gen step8 tag data).hdr lo len = v % 2 ^ len :=
  fld_pack (by simp) listed fits

/-- The answer of module state u to the read request p, with the bytes read (09 R317). -/
def State.readAnswer (u : State) (p : Packet) (bs : List Byte) : Packet :=
  mkPacket p.src u.fab.moduleId p.ctx 3 p.vc p.addr p.gen p.step8 p.tag ((chunks 256 16 bs).map lineOf)

theorem State.readAnswer_body (u : State) (p : Packet) (bs : List Byte) :
    (u.readAnswer p bs).data = (chunks 256 16 bs).map lineOf ∧ (u.readAnswer p bs).vc = p.vc := by
  rw [State.readAnswer, mkPacket]
  exact ⟨rfl, rfl⟩

theorem State.readAnswer_header (u : State) (p : Packet) (bs : List Byte) :
    (u.readAnswer p bs).type = 3 ∧ (u.readAnswer p bs).dst = p.src ∧ (u.readAnswer p bs).tag = p.tag :=
  ⟨mkPacket_field (v := 3) (by simp) (by decide), (mkPacket_field (v := p.src) (by simp) (by decide)).trans (Nat.mod_mod ..),
    (mkPacket_field (v := p.tag) (by simp) (by decide)).trans (Nat.mod_mod ..)⟩

theorem exec_packetArrival_of_other (other : p.dst ≠ s.fab.moduleId) : exec (.packetArrival p) s = .next s := congrArg Host.Outcome.next (if_pos other)

section

variable (here : p.dst = s.fab.moduleId)

include here

theorem exec_packetArrival_of_ring (kind : p.type = 3 ∨ p.type = 4) : exec (.packetArrival p) s = .next ((s.takeBuffered p).emit (.toRing p)) := by
  refine congrArg Host.Outcome.next ((if_neg (not_not.2 here)).trans ?_)
  obtain kind | kind := kind <;> simp only [kind]

theorem exec_packetArrival_of_landed (write : p.type = 0) (landed : s.landLines p.ctx p.addr p.data = some u) :
    exec (.packetArrival p) s = .next ((u.takeBuffered p).tell p.ctx p.src (.ack p.tag false false)) := by
  refine congrArg Host.Outcome.next ((if_neg (not_not.2 here)).trans ?_)
  simp only [write, landed]
  rfl

theorem exec_packetArrival_of_not_landed (write : p.type = 0) (not : s.landLines p.ctx p.addr p.data = none) : exec (.packetArrival p) s = .next s := by
  refine congrArg Host.Outcome.next ((if_neg (not_not.2 here)).trans ?_)
  simp only [write, not]

theorem exec_packetArrival_of_read {bs : List Byte} (request : p.type = 2)
    (open_ : ∀ i ≤ fld p.hdr 32 4, s.placePaused (s.resolve p.ctx none (p.addr + 256 * i)) = false)
    (read : s.readLines p.ctx none none (fld p.hdr 32 4 + 1) p.addr [] = (u, none, bs)) :
    exec (.packetArrival p) s = .next ((u.takeBuffered p).route (u.readAnswer p bs)) := by
  have runs : ((List.range (fld p.hdr 32 4 + 1)).any fun i => s.placePaused (s.resolve p.ctx none (p.addr + 256 * i))) = false :=
    any_eq_false_of_forall fun i below => open_ i (Nat.lt_succ_iff.1 (List.mem_range.1 below))
  refine congrArg Host.Outcome.next ((if_neg (not_not.2 here)).trans ?_)
  simp only [request, runs, read, Bool.false_eq_true, if_false]
  rfl

end

/-- One line that lands in usable tier 2 outside every window. -/
theorem State.landLines_tier2 {c a : Nat} (low : a < s.tier2Size) (open_ : s.placePaused (.flat .tier2 a) = false) (unmapped : s.mapEntry c a = none) (l : Line) :
    s.landLines c a [l] = some (s.storeLine c a l) := by
  have size := s.tier2Size_le
  have aperture : caravanAddr 0 a = none := if_neg (by omega)
  have writable : s.canWrite c a = true := by
    simp only [State.canWrite, aperture, State.resolve_tier2 low unmapped, open_]
    rfl
  rw [State.landLines, if_neg (by omega), if_pos writable, State.storeLine, State.resolve_tier2 low unmapped]
  rfl

theorem getD_bytesOfNat {n i : Nat} (low : i < n) (v : Nat) : (bytesOfNat n v).getD i 0 = BitVec.ofNat 8 (v / 256 ^ i) := by
  induction n generalizing i v with
  | zero => omega
  | succ n ih =>
    cases i with
    | zero =>
      rw [bytesOfNat, List.getD_cons_zero, pow_zero, Nat.div_one]
      exact BitVec.eq_of_toNat_eq (by simp)
    | succ i => rw [bytesOfNat, List.getD_cons_succ, ih (by omega), Nat.div_div_eq_div_mul, ← Nat.pow_succ']

end

/-! ### Contributions to a reduce-scatter (09 R318) -/

section

variable {s : State} {p : Packet} {c : Contribution} {l : List Contribution}

/-- How far the step of packet p is ahead of the running one, modulo 256: from 128 on it is an earlier step (09 R318). -/
def State.stepsAhead (s : State) (p : Packet) : Nat := (p.step8 + 256 - (s.cx p.ctx).step % 256) % 256

/-- A packet of a generation before the last restart, or with a rank outside the mask of the step (09 R318; log 87). -/
def Ctx.stalePacket (x : Ctx) (p : Packet) (l : List Contribution) : Prop :=
  p.gen < x.restartNow ∨ x.maskNow = true ∧ ∃ y ∈ l, y.key.r ∉ x.mask.members

/-- What the port's stop does with a packet of contributions that it serves. -/
def State.takeContributions (s : State) (p : Packet) (l : List Contribution) : State :=
  let x := s.cx p.ctx
  let u := s.takeBuffered p
  if 128 ≤ s.stepsAhead p then u.acknowledge p false true
  else
    match x.run with
    | none => u.acknowledge p true false
    | some r =>
      if 0 < s.stepsAhead p then u.acknowledge p true false
      else if p.gen < x.restartNow ∨ (x.maskNow ∧ !(l.all fun c => x.mask.members.contains c.key.r)) then u.acknowledge p false true
      else u.takePacket p l r

theorem Ctx.stalePacket_iff {x : Ctx} : (p.gen < x.restartNow ∨ (x.maskNow ∧ !(l.all fun c => x.mask.members.contains c.key.r))) ↔ x.stalePacket p l := by
  simp [Ctx.stalePacket]

theorem State.takeContributions_of_earlier (earlier : 128 ≤ s.stepsAhead p) :
    s.takeContributions p l = (s.takeBuffered p).tell p.ctx p.src (.ack p.tag false true) := if_pos earlier

theorem State.takeContributions_of_later (near : s.stepsAhead p < 128) (later : (s.cx p.ctx).run = none ∨ 0 < s.stepsAhead p) :
    s.takeContributions p l = (s.takeBuffered p).tell p.ctx p.src (.ack p.tag true false) := by
  refine (if_neg (Nat.not_le.2 near)).trans ?_
  cases run : (s.cx p.ctx).run with
  | none => rfl
  | some r => exact if_pos (later.resolve_left (by simp [run]))

section

variable {r : StepRun} (same : s.stepsAhead p = 0) (run : (s.cx p.ctx).run = some r)

include same run

theorem State.takeContributions_of_running : s.takeContributions p l
    = if p.gen < (s.cx p.ctx).restartNow ∨ ((s.cx p.ctx).maskNow ∧ !(l.all fun c => (s.cx p.ctx).mask.members.contains c.key.r)) then
        (s.takeBuffered p).acknowledge p false true
      else (s.takeBuffered p).takePacket p l r := by
  simp only [State.takeContributions, same, run, Nat.lt_irrefl, if_false, show ¬128 ≤ 0 by decide]

theorem State.takeContributions_of_stale (stale : (s.cx p.ctx).stalePacket p l) :
    s.takeContributions p l = (s.takeBuffered p).tell p.ctx p.src (.ack p.tag false true) := by
  rw [State.takeContributions_of_running same run, if_pos (Ctx.stalePacket_iff.2 stale)]
  rfl

theorem State.takeContributions_of_current (current : ¬(s.cx p.ctx).stalePacket p l) : s.takeContributions p l = (s.takeBuffered p).takePacket p l r := by
  rw [State.takeContributions_of_running same run, if_neg (mt Ctx.stalePacket_iff.1 current)]

end

variable (kind : p.type = 1) (here : p.dst = s.fab.moduleId) (spelled : s.spelled p = some l)
  (listed : ∃ x ∈ l, x = { c with leg := x.leg, hint := x.hint, src := x.src, no := x.no })

include kind here spelled listed

/-- A packet of contributions meets the stop of its line, as every request at a line does (01 R28). -/
theorem exec_reduceScatterContributionArrival :
    ∃ f : State → State, f s = s.takeContributions p l ∧ exec (.reduceScatterContributionArrival p c) s = .next (s.atStop c.line id f) := by
  have ours : ¬(p.type ≠ 1 ∨ p.dst ≠ s.fab.moduleId) := by simp [kind, here]
  have named : (l.any fun x => x == { c with leg := x.leg, hint := x.hint, src := x.src, no := x.no }) = true := by simpa using listed
  simp only [exec, execReduceScatterContributionArrival, if_neg ours, spelled, named, Bool.not_true, Bool.false_eq_true, if_false]
  exact ⟨_, rfl, rfl⟩

theorem exec_contribution_of_refused {stop : RingStop} (refuses : s.refusingStop c.line = some stop) :
    exec (.reduceScatterContributionArrival p c) s = .next (s.emit (.ringRefusal stop)) := by
  obtain ⟨f, _, e⟩ := exec_reduceScatterContributionArrival kind here spelled listed
  rw [e, State.atStop_of_refused refuses]

theorem exec_contribution_of_paused (serves : s.refusingStop c.line = none) (paused : s.linePaused c.line = true) :
    exec (.reduceScatterContributionArrival p c) s = .next s := by
  obtain ⟨f, _, e⟩ := exec_reduceScatterContributionArrival kind here spelled listed
  rw [e, State.atStop_of_paused serves paused, id]

theorem exec_contribution_of_served (serves : s.refusingStop c.line = none) (open_ : s.linePaused c.line = false) :
    exec (.reduceScatterContributionArrival p c) s = .next (s.takeContributions p l) := by
  obtain ⟨f, meaning, e⟩ := exec_reduceScatterContributionArrival kind here spelled listed
  rw [e, State.atStop_of_serves serves open_, meaning]

end

/-- The bytes of a line that a write packet brings (09 R303). -/
theorem State.landed_bytes {s : State} {c a : Nat} (low : a < s.tier2Size) (unmapped : s.mapEntry c a = none) (l : Line) :
    (∀ i < 256, (s.storeLine c a l).readByte .tier2 (a + i) = BitVec.ofNat 8 (l.toNat / 256 ^ i))
    ∧ ∀ sp x, (sp ≠ .tier2 ∨ x < a ∨ a + 256 ≤ x) → (s.storeLine c a l).readByte sp x = s.readByte sp x := by
  refine ⟨fun i below => ?_, fun sp x outside => ?_⟩
  · rw [State.storeLine_readByte low unmapped, if_pos ⟨rfl, by omega, by omega⟩, Nat.add_sub_cancel_left, lineBytes, getD_bytesOfNat below]
  · refine (State.storeLine_readByte low unmapped l sp x).trans (if_neg fun ⟨space, lo, hi⟩ => ?_)
    obtain other | under | beyond := outside
    · exact other space
    · omega
    · omega

theorem contributionArrivals (s : State) (p : Packet) (c : Contribution) (l : List Contribution) (kind : p.type = 1) (here : p.dst = s.fab.moduleId)
    (spelled : s.spelled p = some l) (listed : ∃ x ∈ l, x = { c with leg := x.leg, hint := x.hint, src := x.src, no := x.no })
    (serves : s.refusingStop c.line = none) (open_ : s.linePaused c.line = false) :
    (128 ≤ s.stepsAhead p →
      exec (.reduceScatterContributionArrival p c) s = .next ((s.takeBuffered p).tell p.ctx p.src (.ack p.tag false true)))
    ∧ (s.stepsAhead p < 128 → ((s.cx p.ctx).run = none ∨ 0 < s.stepsAhead p) →
      exec (.reduceScatterContributionArrival p c) s = .next ((s.takeBuffered p).tell p.ctx p.src (.ack p.tag true false)))
    ∧ (∀ r, s.stepsAhead p = 0 → (s.cx p.ctx).run = some r → (s.cx p.ctx).stalePacket p l →
      exec (.reduceScatterContributionArrival p c) s = .next ((s.takeBuffered p).tell p.ctx p.src (.ack p.tag false true)))
    ∧ ∀ r, s.stepsAhead p = 0 → (s.cx p.ctx).run = some r → ¬(s.cx p.ctx).stalePacket p l →
      exec (.reduceScatterContributionArrival p c) s = .next ((s.takeBuffered p).takePacket p l r) := by
  rw [exec_contribution_of_served kind here spelled listed serves open_]
  exact ⟨fun earlier => by rw [State.takeContributions_of_earlier earlier], fun near later => by rw [State.takeContributions_of_later near later],
    fun r same run stale => by rw [State.takeContributions_of_stale same run stale],
    fun r same run current => by rw [State.takeContributions_of_current same run current]⟩

/-- Settles O46: packets that arrive, and contributions of earlier, later and running steps. That a packet whose lines cannot be written gets no
acknowledgement is log 47; that the ranks of the mask alone contribute is log 87. -/
theorem packetArrivals : Obligations.PacketArrivals := by
  refine ⟨fun s p => ⟨exec_packetArrival_of_other, exec_packetArrival_of_ring,
    fun here write => ⟨fun u => exec_packetArrival_of_landed here write, exec_packetArrival_of_not_landed here write⟩,
    fun here request open_ u bs read => ?_, fun _ _ l data low open_ unmapped => ?_⟩, fun s u p c l kind here spelled listed taken => ?_⟩
  · obtain ⟨type, dst, tag⟩ := u.readAnswer_header p bs
    obtain ⟨data, vc⟩ := u.readAnswer_body p bs
    exact ⟨u.readAnswer p bs, exec_packetArrival_of_read here request open_ read, data, vc, type, dst, tag⟩
  · exact ⟨_, data ▸ State.landLines_tier2 low open_ unmapped l, State.landed_bytes low unmapped l⟩
  · subst taken
    refine ⟨fun stop => exec_contribution_of_refused kind here spelled listed, exec_contribution_of_paused kind here spelled listed,
      fun serves open_ => ?_⟩
    obtain ⟨earlier, later, stale, current⟩ := contributionArrivals s p c l kind here spelled listed serves open_
    refine ⟨earlier, later, stale, fun r same run young inside => current r same run ?_⟩
    rintro (old | ⟨masked, y, listed, outside⟩)
    · exact absurd old (Nat.not_lt.2 young)
    · exact outside (inside masked y listed)

end Sys2Proof.Machine

namespace Sys2Proof.Machine

open Sys2Proof Sys2Proof.Claims

/-! ### Ports to one module (09 R324, Table 9-9) -/

section

variable {s : State} {m n p t : Nat}

theorem State.mem_portsTo : p ∈ s.portsTo m ↔ p < 12 ∧ (s.port p).known = true ∧ (s.port p).peerId = m := by simp [State.portsTo]

theorem State.modPortsTo_eq (s : State) (m : Nat) (f : Port → Port) : ∃ ports, s.modPortsTo m f = { s with fab := { s.fab with ports := ports } } :=
  ⟨_, s.foldl_modPort f _⟩

theorem State.modPortsTo_port (s : State) (m : Nat) (f : Port → Port) (p : Nat) :
    (s.modPortsTo m f).port p = if p ∈ s.portsTo m then f (s.port p) else s.port p := by
  rw [State.modPortsTo, State.foldl_modPort]
  exact tget_foldl_tmod_of_nodup Port.init f (List.nodup_range.filter _) s.fab.ports p

theorem State.downLong_iff : s.downLong m = true ↔ ∀ p < 12, (s.port p).known = true → (s.port p).peerId = m →
    ∃ u, (s.port p).downSince = some u ∧ u + 20000 ≤ s.now := by
  simp only [State.downLong, List.all_eq_true, State.mem_portsTo, Option.any_eq_true, decide_eq_true_eq, and_imp]

/-! Losses (09 R324, R325) -/

theorem exec_lossNoticeArrival_of_known (known : m ∈ s.fab.lost ∨ m = s.fab.moduleId) : exec (.lossNoticeArrival m) s = .next s := by
  have idle : s.fab.lost.contains m = true ∨ m = s.fab.moduleId := known.imp_left List.contains_iff_mem.2
  exact congrArg Host.Outcome.next (if_pos idle)

theorem exec_lossNoticeArrival_of_new (new : m ∉ s.fab.lost) (other : m ≠ s.fab.moduleId) : exec (.lossNoticeArrival m) s
    = .next (({ s with fab := { s.fab with lostSeen := satAdd 0xFFFF s.fab.lostSeen 1 } } : State).loseModule m) := by
  have due : ¬(s.fab.lost.contains m = true ∨ m = s.fab.moduleId) := by simp [new, other]
  exact congrArg Host.Outcome.next (if_neg due)

/-- The ports to the neighbour at port n once it counts as gone: it has not departed, and its pin is released if `r` (09 R324). -/
def State.neighbourGone (s : State) (n : Nat) (r : Bool) : State :=
  s.modPortsTo (s.port n).peerId fun x => { x with peerAlive := x.peerAlive && !r, departed := false }

/-- The ports to the neighbour are changed, and nothing else (09 R324). -/
theorem State.neighbourGone_parts (s : State) (n t : Nat) (r : Bool) :
    (∀ p < 12, (s.port p).known = true → (s.port p).peerId = (s.port n).peerId →
      ((s.tick t).neighbourGone n r).port p = { s.port p with peerAlive := (s.port p).peerAlive && !r, departed := false })
    ∧ (∀ p, ((s.port p).known = false ∨ (s.port p).peerId ≠ (s.port n).peerId) → ((s.tick t).neighbourGone n r).port p = s.port p)
    ∧ ({ (s.tick t).neighbourGone n r with fab := s.fab, now := s.now } : State) = s := by
  refine ⟨fun p low known leads => (State.modPortsTo_port ..).trans (if_pos (State.mem_portsTo.2 ⟨low, known, leads⟩)),
    fun p other => (State.modPortsTo_port ..).trans (if_neg fun named => ?_), ?_⟩
  · obtain ⟨_, known, leads⟩ := State.mem_portsTo.1 named
    obtain unknown | other := other
    · exact Bool.false_ne_true (unknown.symm.trans known)
    · exact other leads
  · obtain ⟨ports, work⟩ := (s.tick t).modPortsTo_eq (s.port n).peerId fun x => { x with peerAlive := x.peerAlive && !r, departed := false }
    exact congrArg (fun u : State => { u with fab := s.fab, now := s.now }) work

theorem exec_neighbourLost_of_unknown {r : Bool} (unknown : 12 ≤ n ∨ (s.port n).known = false) : exec (.neighbourLost ⟨n, r⟩ t) s = .next (s.tick t) := by
  have idle : (!(s.port n).known) = true ∨ 12 ≤ n := by simpa [or_comm] using unknown
  exact congrArg Host.Outcome.next (if_pos idle)

section

variable {r : Bool} (low : n < 12) (known : (s.port n).known = true)

include low known

theorem exec_neighbourLost_of_known : exec (.neighbourLost ⟨n, r⟩ t) s = .next (
    if s.fab.lost.contains (s.port n).peerId then (if r then (s.tick t).neighbourGone n r else s.tick t)
    else if r || (!(s.port n).departed && (s.tick t).downLong (s.port n).peerId) then
      (((s.tick t).neighbourGone n r).fault 0x0F 4 0xF n 0 0xFFFF (s.port n).peerId 0).loseModule (s.port n).peerId
    else s.tick t) := by
  have due : ¬((!(s.port n).known) = true ∨ 12 ≤ n) := by simp [known, low]
  exact congrArg Host.Outcome.next (if_neg due)

theorem exec_neighbourLost_of_here (held : r = false)
    (here : (s.port n).peerId ∈ s.fab.lost ∨ (s.port n).departed = true ∨ (s.tick t).downLong (s.port n).peerId = false) :
    exec (.neighbourLost ⟨n, r⟩ t) s = .next (s.tick t) := by
  rw [exec_neighbourLost_of_known low known, held]
  by_cases lost : (s.port n).peerId ∈ s.fab.lost
  · rw [if_pos (List.contains_iff_mem.2 lost), if_neg Bool.false_ne_true]
  · have stays : ¬(false || (!(s.port n).departed && (s.tick t).downLong (s.port n).peerId)) = true := by
      obtain lost' | departed | short := here
      · exact absurd lost' lost
      · simp [departed]
      · simp [short]
    rw [if_neg (mt List.contains_iff_mem.1 lost), if_neg stays]

theorem exec_neighbourLost_of_lost (lost : (s.port n).peerId ∈ s.fab.lost) (released : r = true) :
    exec (.neighbourLost ⟨n, r⟩ t) s = .next ((s.tick t).neighbourGone n r) := by
  rw [exec_neighbourLost_of_known low known, if_pos (List.contains_iff_mem.2 lost), if_pos released]

theorem exec_neighbourLost_of_gone (gone : r = true ∨ (s.port n).departed = false ∧ (s.tick t).downLong (s.port n).peerId = true)
    (new : (s.port n).peerId ∉ s.fab.lost) : exec (.neighbourLost ⟨n, r⟩ t) s
    = .next ((((s.tick t).neighbourGone n r).fault 0x0F 4 0xF n 0 0xFFFF (s.port n).peerId 0).loseModule (s.port n).peerId) := by
  rw [exec_neighbourLost_of_known low known, if_neg (mt List.contains_iff_mem.1 new), if_pos (by simpa using gone)]

end

/-! Departures (09 R323, R324) -/

theorem exec_departureNoticeArrival_of_known (known : m ∈ s.fab.departed ∨ m ∈ s.fab.lost ∨ m = s.fab.moduleId) :
    exec (.departureNoticeArrival ⟨n, some m⟩) s = .next s := by
  have idle : s.fab.departed.contains m = true ∨ s.fab.lost.contains m = true ∨ m = s.fab.moduleId :=
    known.imp List.contains_iff_mem.2 (Or.imp_left List.contains_iff_mem.2)
  exact congrArg Host.Outcome.next (if_pos idle)

theorem exec_departureNoticeArrival_of_new (new : m ∉ s.fab.departed) (here : m ∉ s.fab.lost) (other : m ≠ s.fab.moduleId) :
    exec (.departureNoticeArrival ⟨n, some m⟩) s = .next (s.departModule m) := by
  have due : ¬(s.fab.departed.contains m = true ∨ s.fab.lost.contains m = true ∨ m = s.fab.moduleId) := by simp [new, here, other]
  exact congrArg Host.Outcome.next (if_neg due)

theorem exec_departureNoticeArrival_of_unknown (unknown : 12 ≤ n ∨ (s.port n).known = false) :
    exec (.departureNoticeArrival ⟨n, none⟩) s = .next s := by
  have idle : ¬((s.port n).known && decide (n < 12)) = true := by
    obtain high | unknown := unknown
    · simp [high]
    · simp [unknown]
  exact congrArg Host.Outcome.next (if_neg idle)

theorem exec_departureNoticeArrival_of_neighbour (low : n < 12) (known : (s.port n).known = true) :
    exec (.departureNoticeArrival ⟨n, none⟩) s = .next (s.modPortsTo (s.port n).peerId fun x => { x with departed := true }) := by
  have due : ((s.port n).known && decide (n < 12)) = true := by simp [known, low]
  exact congrArg Host.Outcome.next (if_pos due)

/-- A departure notice marks the ports to the neighbour, and leaves the rest of every port as it was. -/
theorem State.modPortsTo_departed (s : State) (m p : Nat) : ((s.modPortsTo m fun x => { x with departed := true }).port p)
    = { s.port p with departed := (s.port p).departed || decide (p ∈ s.portsTo m) } := by
  rw [State.modPortsTo_port]
  by_cases named : p ∈ s.portsTo m
  · rw [if_pos named, decide_eq_true named, Bool.or_true]
  · rw [if_neg named, decide_eq_false named, Bool.or_false]

theorem State.modPortsTo_departed_parts (s : State) (n : Nat) :
    (∀ p < 12, ((s.modPortsTo (s.port n).peerId fun x => { x with departed := true }).port p).departed
      = ((s.port p).departed || ((s.port p).known && (s.port p).peerId == (s.port n).peerId)))
    ∧ (∀ p, { (s.modPortsTo (s.port n).peerId fun x => { x with departed := true }).port p with departed := (s.port p).departed } = s.port p)
    ∧ ({ (s.modPortsTo (s.port n).peerId fun x => { x with departed := true }) with fab := s.fab } : State) = s := by
  refine ⟨fun p low => ?_, fun p => by rw [State.modPortsTo_departed], ?_⟩
  · have named : decide (p ∈ s.portsTo (s.port n).peerId) = ((s.port p).known && (s.port p).peerId == (s.port n).peerId) := by
      rw [Bool.eq_iff_iff]
      simp [State.mem_portsTo, low]
    rw [State.modPortsTo_departed, named]
  · obtain ⟨ports, work⟩ := s.modPortsTo_eq (s.port n).peerId fun x => { x with departed := true }
    exact congrArg (fun u : State => { u with fab := s.fab }) work

/-- Every port to the departed neighbour at port n has been down for 20 µs, and it does not count as gone yet (09 R324). -/
def State.neighbourLeft (s : State) (n : Nat) : Prop := n < 12 ∧ (s.port n).departed = true ∧ (s.port n).peerAlive = true
  ∧ (s.port n).peerId ∉ s.fab.departed ∧ (s.port n).peerId ∉ s.fab.lost ∧ s.downLong (s.port n).peerId = true

theorem State.neighbourLeft_iff : s.neighbourLeft n ↔ (s.port n).departed = true ∧ (s.port n).peerAlive = true ∧ n < 12
    ∧ (!s.fab.departed.contains (s.port n).peerId) = true ∧ (!s.fab.lost.contains (s.port n).peerId) = true ∧ s.downLong (s.port n).peerId = true := by
  simp only [State.neighbourLeft, Bool.not_eq_true', List.contains_eq_mem, decide_eq_false_iff_not]
  tauto

theorem exec_neighbourDeparted_of_left (left : (s.tick t).neighbourLeft n) :
    exec (.neighbourDeparted n t) s = .next ((s.tick t).departModule (s.port n).peerId) :=
  congrArg Host.Outcome.next (if_pos (State.neighbourLeft_iff.1 left))

theorem exec_neighbourDeparted_of_not_left (stays : ¬(s.tick t).neighbourLeft n) : exec (.neighbourDeparted n t) s = .next (s.tick t) :=
  congrArg Host.Outcome.next (if_neg (mt State.neighbourLeft_iff.2 stays))

/-! A module without any port (09 R326) -/

/-- Every port of the module has been down for 20 µs at time t (09 R326). -/
def State.allDown (s : State) (t : Nat) : Prop := ∀ n < 12, (s.port n).width = 0 ∧ ∀ u, (s.port n).downSince = some u → u + 20000 ≤ t

/-- The contexts that live, frozen. -/
def State.freezeLive (s : State) (l : List Nat) : State := l.foldl (fun s c => if (s.cx c).live then s.freeze c else s) s

/-- A module that is isolated, before the event that says so (09 R326). -/
def State.isolate (s : State) : State :=
  (({ s with fab := { s.fab with isolated := true } } : State).fault 0x0F 4 0xF 0 0 0xFFFF s.fab.moduleId 0).freezeLive (List.range 4)

/-- The ports in the words of `execIsolated`. -/
theorem State.all_down_iff : ((List.range 12).all fun p => (s.port p).width == 0 && (match (s.port p).downSince with
    | some u => decide (u + 20000 ≤ t)
    | none => true)) = true ↔ s.allDown t := by
  simp only [List.all_eq_true, List.mem_range, Bool.and_eq_true, beq_iff_eq, State.allDown]
  refine forall₂_congr fun p _ => and_congr_right fun _ => ?_
  cases (s.port p).downSince <;> simp

theorem exec_isolated_of_not_due (stays : s.fab.isolated = true ∨ s.fab.selfDeparted = true ∨ s.mc.bringup < 8 ∨ ¬s.allDown t) :
    exec (.isolated t) s = .next (s.tick t) := by
  refine congrArg Host.Outcome.next (if_neg fun due => ?_)
  simp only [Bool.and_eq_true, Bool.not_eq_true', decide_eq_true_eq] at due
  obtain ⟨⟨⟨notYet, stayed⟩, up⟩, down⟩ := due
  obtain isolated | departed | early | reached := stays
  · exact Bool.false_ne_true (notYet.symm.trans isolated)
  · exact Bool.false_ne_true (stayed.symm.trans departed)
  · exact absurd up (Nat.not_le.2 early)
  · exact reached ((State.all_down_iff (s := s)).1 down)

theorem exec_isolated_of_due (notYet : s.fab.isolated = false) (stayed : s.fab.selfDeparted = false) (up : 8 ≤ s.mc.bringup) (down : s.allDown t) :
    exec (.isolated t) s = .next ((s.tick t).isolate.event 0x800B 0xF 0) := by
  refine congrArg Host.Outcome.next (if_pos ?_)
  simp only [Bool.and_eq_true, Bool.not_eq_true', decide_eq_true_eq]
  exact ⟨⟨⟨notYet, stayed⟩, up⟩, (State.all_down_iff (s := s)).2 down⟩

theorem State.freeze_cx_eq (s : State) (c d : Nat) : (s.freeze c).cx d = if d = c then (s.cx c).freeze s.now else s.cx d := by
  obtain ⟨k, e⟩ := s.freeze_eq c
  rw [e]
  exact s.cx_modCx c d fun x => x.freeze s.now

theorem State.freezeLive_fab (s : State) (l : List Nat) : (s.freezeLive l).fab = s.fab :=
  List.foldlRecOn l _ (motive := fun u : State => u.fab = s.fab) rfl fun u h c _ => by
    split
    · obtain ⟨k, e⟩ := u.freeze_eq c
      rw [e]
      exact h
    · exact h

theorem State.freezeLive_frozen (s : State) (l : List Nat) (c : Nat) (frozen : (s.cx c).frozen = true ∨ (s.cx c).live = true ∧ c ∈ l) :
    ((s.freezeLive l).cx c).frozen = true := by
  induction l generalizing s with
  | nil => exact frozen.resolve_right fun h => List.not_mem_nil h.2
  | cons d l ih =>
    refine ih (if (s.cx d).live then s.freeze d else s) ?_
    split
    next live =>
      rw [State.freeze_cx_eq]
      split
      next => exact .inl rfl
      next other => exact frozen.imp_right fun ⟨live, named⟩ => ⟨live, (List.mem_cons.1 named).resolve_left other⟩
    next dead =>
      refine frozen.imp_right fun ⟨live, named⟩ => ⟨live, (List.mem_cons.1 named).resolve_left ?_⟩
      rintro rfl
      exact dead live

theorem State.isolate_parts (s : State) : s.isolate.fab.isolated = true ∧ ∀ c < 4, (s.cx c).live = true → (s.isolate.cx c).frozen = true := by
  have reported := State.fault_reported { s with fab := { s.fab with isolated := true } } 0x0F 4 0xF 0 0 0xFFFF s.fab.moduleId 0
  refine ⟨by rw [State.isolate, State.freezeLive_fab, reported.fab], fun c low live => State.freezeLive_frozen _ _ c (.inr ⟨?_, List.mem_range.2 low⟩)⟩
  rw [State.cx, reported.ctx]
  exact live

end

/-- Settles O51: loss, departure and isolation of modules. That a departure is passed on to other modules is log 40. -/
theorem lossAndDeparture : Obligations.LossAndDeparture := by
  refine ⟨fun s m => ⟨exec_lossNoticeArrival_of_known, fun new other => ⟨_, exec_lossNoticeArrival_of_new new other, rfl⟩⟩,
    fun s n t r => ⟨exec_neighbourLost_of_unknown, fun low known => ⟨exec_neighbourLost_of_here low known, fun gone => ?_⟩⟩,
    fun s n m => ⟨exec_departureNoticeArrival_of_known, exec_departureNoticeArrival_of_new, exec_departureNoticeArrival_of_unknown, fun low known => ?_⟩,
    fun s n t => ⟨exec_neighbourDeparted_of_left, exec_neighbourDeparted_of_not_left⟩, fun s m => ⟨_, rfl, rfl⟩, fun s m => State.downLong_iff, fun s t => ⟨fun stays => ?_, ?_⟩⟩
  · obtain ⟨named, others, rest⟩ := s.neighbourGone_parts n t r
    exact ⟨_, exec_neighbourLost_of_lost low known, exec_neighbourLost_of_gone low known gone, named, others, rest⟩
  · exact ⟨_, exec_departureNoticeArrival_of_neighbour low known, s.modPortsTo_departed_parts n⟩
  · refine exec_isolated_of_not_due (stays.imp_right (Or.imp_right (Or.imp_right ?_)))
    rintro ⟨n, low, up⟩ down
    obtain ⟨width, long⟩ := down n low
    obtain up | ⟨u, since, short⟩ := up
    · exact up width
    · exact absurd (long u since) (Nat.not_le.2 short)
  · intro notYet stayed up down
    obtain ⟨isolated, frozen⟩ := (s.tick t).isolate_parts
    exact ⟨_, exec_isolated_of_due notYet stayed up down, isolated, frozen⟩

end Sys2Proof.Machine

namespace Sys2Proof.Machine

open Sys2Proof Sys2Proof.Claims

/-! ### The envelope and what follows it (10 R332, R333, R337) -/

section

variable {s : State} {f : Floor} {w : Rat}

/-- Of terms taken one after the other the lowest stands, and it is one of them. -/
theorem lowerTerm_foldl (l : List (Nat × Term)) (a : Nat × Term) :
    l.foldl lowerTerm a ∈ a :: l ∧ ∀ x ∈ a :: l, (l.foldl lowerTerm a).2.rank ≤ x.2.rank := by
  induction l generalizing a with
  | nil => simp
  | cons b l ih =>
    obtain ⟨listed, lowest⟩ := ih (lowerTerm a b)
    have one : lowerTerm a b = a ∨ lowerTerm a b = b := by unfold lowerTerm; split <;> simp
    have below : (lowerTerm a b).2.rank ≤ a.2.rank ∧ (lowerTerm a b).2.rank ≤ b.2.rank := by
      unfold lowerTerm
      split
      next lower => exact ⟨lower.le, le_rfl⟩
      next higher => exact ⟨le_rfl, not_lt.1 higher⟩
    have first := lowest _ (List.mem_cons_self ..)
    refine ⟨?_, List.forall_mem_cons.2 ⟨first.trans below.1, List.forall_mem_cons.2 ⟨first.trans below.2, fun x hx => lowest x (List.mem_cons_of_mem _ hx)⟩⟩⟩
    rw [List.foldl_cons]
    rcases List.mem_cons.1 listed with e | later
    · rw [e]
      rcases one with e | e <;> simp [e]
    · exact List.mem_cons_of_mem _ (List.mem_cons_of_mem _ later)

/-- The power of the module's rating is always in force (10 Table 10-3). -/
theorem State.rating_mem_terms (s : State) : ((0, .power 3300) : Nat × Term) ∈ s.terms := by simp [State.terms]

theorem State.envelope_lowest (s : State) : s.envelope ∈ s.terms ∧ ∀ x ∈ s.terms, s.envelope.2.rank ≤ x.2.rank := by
  obtain ⟨listed, lowest⟩ := lowerTerm_foldl s.terms (0, .power 3300)
  refine ⟨?_, fun x hx => lowest x (List.mem_cons_of_mem _ hx)⟩
  rcases List.mem_cons.1 listed with e | listed
  · rw [show s.envelope = (0, .power 3300) from e]
    exact s.rating_mem_terms
  · exact listed

/-- Levers change clusters, stacks and ports, and nothing else. -/
def Levered (s t : State) : Prop := ∃ (c : Tbl Cluster) (h : Hbm) (f : Fabric), t = { s with cl := c, hbm := h, fab := f }

theorem Levered.refl (s : State) : Levered s s := ⟨_, _, _, rfl⟩

theorem Levered.trans {s t u : State} (h : Levered s t) (h' : Levered t u) : Levered s u := by
  obtain ⟨_, _, _, rfl⟩ := h
  obtain ⟨_, _, _, rfl⟩ := h'
  exact ⟨_, _, _, rfl⟩

theorem Levered.tg {s t : State} (h : Levered s t) : t.tg = s.tg := by obtain ⟨_, _, _, rfl⟩ := h; rfl

theorem Levered.foldl {α : Type} {f : State → α → State} (hf : ∀ s a, Levered s (f s a)) (l : List α) (s : State) : Levered s (l.foldl f s) :=
  List.foldlRecOn l f (motive := Levered s) (.refl s) fun _ h a _ => h.trans (hf _ a)

theorem State.setWidth_eq (s : State) (p w : Nat) : ∃ f, s.setWidth p w = { s with fab := f } := by
  unfold State.setWidth
  split <;> exact ⟨_, rfl⟩

theorem State.narrowPorts_eq (s : State) : ∃ f, s.narrowPorts = { s with fab := f } :=
  List.foldlRecOn s.upPorts _ (motive := fun (u : State) => ∃ f, u = { s with fab := f }) ⟨_, rfl⟩ fun u hu p _ => by
    obtain ⟨_, rfl⟩ := hu
    exact State.setWidth_eq ..

theorem State.narrowPorts_levered (s : State) : Levered s s.narrowPorts := by
  obtain ⟨f, e⟩ := s.narrowPorts_eq
  exact ⟨s.cl, s.hbm, f, e⟩

theorem State.selfRefresh_levered (s : State) (on : Bool) : Levered s (s.selfRefresh on) := by
  obtain ⟨h, e⟩ := s.selfRefresh_eq on
  exact ⟨s.cl, h, s.fab, e⟩

theorem State.applyDown_levered (s : State) : Levered s s.applyDown := by
  unfold State.applyDown
  obtain ⟨ck, n⟩ := s.opPoint
  dsimp -zeta only
  extract_lets slowed held
  have clusters : Levered s held := Levered.trans (t := slowed) (.foldl (fun _ _ => ⟨_, _, _, rfl⟩) _ _) (.foldl (fun _ _ => ⟨_, _, _, rfl⟩) _ _)
  refine clusters.trans (.trans ?_ (State.narrowPorts_levered _))
  split
  · exact .refl held
  · exact held.selfRefresh_levered true

/-- A power as the envelope lowers the allowance where it stands above it. -/
theorem State.react_of_power (power : s.envelope.2 = .power w) : s.react.tg.allowance = min s.tg.allowance w ∧ s.react.tg.st = s.tg.st := by
  have power' : ({ s with tg := { s.tg with bind := s.envelope.1 } } : State).envelope.2 = .power w := power
  simp only [State.react, power']
  split
  next lower => rw [(State.applyDown_levered _).tg]; exact ⟨(min_eq_right lower.le).symm, rfl⟩
  next higher => exact ⟨(min_eq_left (not_lt.1 higher)).symm, rfl⟩

/-- Parked contexts are the only change to a context that the shed path makes. -/
theorem State.foldl_park_eq (s : State) (l : List Nat) :
    ∃ x, l.foldl (fun s c => if (s.cx c).live then s.park c else s) s = { s with ctx := x } :=
  List.foldlRecOn l _ (motive := fun (u : State) => ∃ x, u = { s with ctx := x }) ⟨_, rfl⟩ fun u hu c _ => by
    obtain ⟨_, rfl⟩ := hu
    split <;> exact ⟨_, rfl⟩

@[simp] theorem State.narrowPorts_tg (s : State) : s.narrowPorts.tg = s.tg := by obtain ⟨_, e⟩ := s.narrowPorts_eq; rw [e]
@[simp] theorem State.narrowPorts_clu (s : State) (k : Nat) : s.narrowPorts.clu k = s.clu k := by obtain ⟨_, e⟩ := s.narrowPorts_eq; rw [e]; rfl
@[simp] theorem State.narrowPorts_stack (s : State) (h : Nat) : s.narrowPorts.stack h = s.stack h := by obtain ⟨_, e⟩ := s.narrowPorts_eq; rw [e]; rfl
@[simp] theorem State.selfRefresh_clu (s : State) (on : Bool) (k : Nat) : (s.selfRefresh on).clu k = s.clu k := by
  obtain ⟨_, e⟩ := s.selfRefresh_eq on; rw [e]; rfl
@[simp] theorem State.holdAll_tg (s : State) : s.holdAll.tg = s.tg := by rw [State.holdAll_eq, State.allClu_eq]

theorem State.holdAll_held (s : State) {k : Nat} (low : k < 48) : (s.holdAll.clu k).held = true := by
  rw [State.holdAll_eq, State.allClu_clu s (fun x => { x with held := true }) (fun _ => rfl) low]

/-- The shed path stops admission and host DMA, and holds every cluster and every stack (10 R337). -/
theorem State.shedPath_parts (s : State) (f : Floor) :
    (s.shedPath f).tg = { s.tg with admitStop := true, dmaPaused := true, entering := some f, shedWork := s.mc.tests.map fun r => r.unit, st := 4 }
    ∧ (∀ k < 48, ((s.shedPath f).clu k).held = true) ∧ ∀ h < 16, ((s.shedPath f).stack h).selfRefresh = true := by
  unfold State.shedPath
  extract_lets tg stopped parked
  obtain ⟨x, parking⟩ : ∃ x, parked = { stopped with ctx := x } := stopped.foldl_park_eq _
  refine ⟨?_, fun k low => ?_, fun h low => ?_⟩
  · rw [State.narrowPorts_tg, State.selfRefresh_tg, State.holdAll_tg, State.setTg_tg, parking]
  · rw [State.narrowPorts_clu, State.selfRefresh_clu, State.holdAll_held _ low]
  · rw [State.narrowPorts_stack, State.selfRefresh_stack _ _ low]

/-- A floor's term noted, and the allowance it leaves (10 R333, R349). -/
def State.toFloor (s : State) (f : Floor) : State := { s with tg := { s.tg with
  bind := s.envelope.1, allowance := if s.tg.st = 3 then (if f = .deep then 150 else s.tg.allowance) else 380 } }

/-- A floor starts the shed path from an operating state; on the way to a floor or at the retention floor the deep floor is headed for. -/
theorem State.react_eq_of_floor (floor : s.envelope.2 = .floor f) (done : s.bringupDone = true) : s.react
    = if s.tg.st = 0 ∨ s.tg.st = 1 ∨ (s.tg.st = 5 ∧ !(decide (s.tg.st = 5) && s.tg.leaving.any fun e => e.2)) then
        ({ s.toFloor f with tg := { (s.toFloor f).tg with leaving := none } } : State).shedPath f
      else if (s.tg.st = 2 ∨ s.tg.st = 4 ∨ decide (s.tg.st = 5) && s.tg.leaving.any fun e => e.2) ∧ f = .deep then
        { s.toFloor f with tg := { (s.toFloor f).tg with entering := some .deep } }
      else s.toFloor f := by
  unfold State.react
  extract_lets tg bound
  have floor' : bound.envelope.2 = .floor f := floor
  have done' : bound.bringupDone = true := done
  rw [floor']
  simp -zeta only [done', Bool.not_true, Bool.false_eq_true, if_false]
  extract_lets +onlyGivenNames fallen
  have fell : fallen = s.toFloor f := by
    by_cases deep : s.tg.st = 3
    · rw [State.toFloor, if_pos deep]
      refine (if_pos deep).trans ?_
      split <;> rfl
    · rw [State.toFloor, if_neg deep]
      exact if_neg deep
  rw [fell]
  rfl

theorem State.react_allowance_of_floor (floor : s.envelope.2 = .floor f) (done : s.bringupDone = true) :
    s.react.tg.allowance = if s.tg.st = 3 then (if f = .deep then 150 else s.tg.allowance) else 380 := by
  rw [State.react_eq_of_floor floor done]
  split
  · rw [(State.shedPath_parts ..).1]
    rfl
  split <;> rfl

theorem State.react_of_floor_operating (floor : s.envelope.2 = .floor f) (done : s.bringupDone = true) (operating : s.tg.st = 0 ∨ s.tg.st = 1) :
    s.react = ({ s.toFloor f with tg := { (s.toFloor f).tg with leaving := none } } : State).shedPath f := by
  rw [State.react_eq_of_floor floor done, if_pos (operating.imp_right .inl)]

theorem envelopeAndAllowance : EnvelopeAndAllowance := by
  refine ⟨State.envelope_lowest, fun s w => State.react_of_power, fun s f floor done => ?_⟩
  have allowance := State.react_allowance_of_floor floor done
  refine ⟨fun above => allowance.trans (if_neg above), fun deep => allowance.trans (if_pos deep), fun operating => ?_⟩
  rw [State.react_of_floor_operating floor done operating]
  obtain ⟨tg, held, resting⟩ := State.shedPath_parts { s.toFloor f with tg := { (s.toFloor f).tg with leaving := none } } f
  rw [tg]
  exact ⟨rfl, rfl, rfl, rfl, held, resting⟩

end

/-! ### Signals that change the terms of the envelope (10 R331, R336 to R341) -/

section

variable {s : State} {t : Nat}

@[simp] theorem now_changes (s : State) (t : Nat) : (now s t).tg.changes = s.tg.changes := by obtain ⟨_, _, _, e, -⟩ := now_eq s t; rw [e]
@[simp] theorem now_chatter (s : State) (t : Nat) : (now s t).tg.chatter = s.tg.chatter := by obtain ⟨_, _, _, e, -⟩ := now_eq s t; rw [e]
@[simp] theorem now_shed (s : State) (t : Nat) : (now s t).tg.shed = s.tg.shed := by obtain ⟨_, _, _, e, -⟩ := now_eq s t; rw [e]
@[simp] theorem now_shedSince (s : State) (t : Nat) : (now s t).tg.shedSince = s.tg.shedSince := by obtain ⟨_, _, _, e, -⟩ := now_eq s t; rw [e]
@[simp] theorem now_sheds (s : State) (t : Nat) : (now s t).tg.sheds = s.tg.sheds := by obtain ⟨_, _, _, e, -⟩ := now_eq s t; rw [e]
@[simp] theorem now_allowance (s : State) (t : Nat) : (now s t).tg.allowance = s.tg.allowance := by obtain ⟨_, _, _, e, -⟩ := now_eq s t; rw [e]
@[simp] theorem now_samples (s : State) (t : Nat) : (now s t).tg.samples = s.tg.samples := by obtain ⟨_, _, _, e, -⟩ := now_eq s t; rw [e]
@[simp] theorem now_cfg (s : State) (t : Nat) : (now s t).tg.cfg = s.tg.cfg := by obtain ⟨_, _, _, e, -⟩ := now_eq s t; rw [e]
@[simp] theorem now_leaseArmed (s : State) (t : Nat) : (now s t).tg.leaseArmed = s.tg.leaseArmed := by obtain ⟨_, _, _, e, -⟩ := now_eq s t; rw [e]
@[simp] theorem now_setAt (s : State) (t : Nat) : (now s t).tg.setAt = s.tg.setAt := by obtain ⟨_, _, _, e, -⟩ := now_eq s t; rw [e]
@[simp] theorem now_mem (s : State) (t : Nat) : (now s t).mem = s.mem := by obtain ⟨_, _, _, e, -⟩ := now_eq s t; rw [e]

/-- Without power the events of the always-on domain only let time pass. -/
theorem whenPowered_tick_of_off (off : s.powered = false) (t : Nat) (f : State → State) : (s.tick t).whenPowered f = s.tick t :=
  if_neg (by rw [show (s.tick t).powered = false from off]; exact Bool.false_ne_true)

theorem exec_tollCommand_of_off (off : s.powered = false) {i : Instr} (listed : i ∈ tollCommands t) : exec i s = .next (s.tick t) := by
  simp only [tollCommands, List.mem_cons, List.not_mem_nil, or_false] at listed
  rcases listed with rfl | rfl | rfl | rfl | rfl | rfl | rfl | rfl | rfl | rfl | rfl | rfl | rfl | rfl <;>
    exact congrArg Host.Outcome.next (whenPowered_tick_of_off off t _)

/-- The end of an exit from a floor (10 R349, Table 10-6). -/
theorem State.settleFloor_cases (s : State) : (s.tg.st ≠ 5 → s.settleFloor = s)
    ∧ ∀ t deep, s.tg.st = 5 → s.tg.leaving = some (t, deep) → (s.now < t → s.settleFloor = s)
      ∧ (t ≤ s.now → s.settleFloor = ({ s with tg := { s.tg with leaving := none } } : State).setTg (if deep then 2 else 1)) := by
  refine ⟨fun other => ?_, fun t deep exits leaving => ⟨fun early => ?_, fun ends => ?_⟩⟩
  · unfold State.settleFloor
    split
    · exact if_neg fun h => other h.1
    · rfl
  · simp only [State.settleFloor, leaving, exits, Nat.not_le.2 early, and_false, if_false]
  · simp only [State.settleFloor, leaving, exits, ends, and_self, if_true]
    cases deep <;> rfl

/-! SHED_N (10 R336, R338) -/

/-- The changes of SHED_N with one more, before the event that nine within a second raise (10 R338). -/
def Toll.changed (g : Toll) (t : Nat) : Toll :=
  let l := lastSecond g.changes t ++ [t]
  let often := decide (8 < l.length) && !g.chatter
  { g with changes := l, chatter := g.chatter || often, chatterEvents := if often then satAdd 0xFF g.chatterEvents 1 else g.chatterEvents }

theorem State.shedChange_eq (s : State) (t : Nat) : s.shedChange t = if 8 ≤ (lastSecond s.tg.changes t).length ∧ s.tg.chatter = false then
    ({ s with tg := s.tg.changed t } : State).event 0x8003 0xF ((lastSecond s.tg.changes t).length + 1) else { s with tg := s.tg.changed t } := by
  have more : 8 < (lastSecond s.tg.changes t).length + 1 ↔ 8 ≤ (lastSecond s.tg.changes t).length := by omega
  by_cases often : 8 ≤ (lastSecond s.tg.changes t).length <;> cases quiet : s.tg.chatter <;> simp [State.shedChange, Toll.changed, more, often, quiet]

/-- SHED_N asserted, before the change is counted. -/
def Toll.assertShed (g : Toll) (t : Nat) : Toll := { g with shed := true, shedSince := t, sheds := satAdd 0xFFFF g.sheds 1 }

/-- SHED_N released, before the change is counted. -/
def Toll.releaseShed (g : Toll) (t : Nat) : Toll := { g with shed := false, shedMs := (t - g.shedSince) / 1000000 }

@[simp] theorem Toll.assertShed_changes (g : Toll) (t : Nat) : (g.assertShed t).changes = g.changes := rfl
@[simp] theorem Toll.assertShed_chatter (g : Toll) (t : Nat) : (g.assertShed t).chatter = g.chatter := rfl
@[simp] theorem Toll.releaseShed_changes (g : Toll) (t : Nat) : (g.releaseShed t).changes = g.changes := rfl

theorem exec_shedNAssert_of_high (power : s.powered = true) (high : (now s t).tg.shed = false) :
    exec (.shedNAssert t) s = .next (({ now s t with tg := (now s t).tg.assertShed t } : State).shedChange t).react := by
  simp only [exec, execShedNAssert, whenPowered_tick power, high, Bool.false_eq_true, if_false]
  rfl

theorem exec_shedNRelease_of_low (power : s.powered = true) (low : (now s t).tg.shed = true) :
    exec (.shedNRelease t) s = .next (({ now s t with tg := (now s t).tg.releaseShed t } : State).shedChange t).react := by
  simp only [exec, execShedNRelease, whenPowered_tick power, low, Bool.not_true, Bool.false_eq_true, if_false]
  rfl

theorem shedNAsserts (s w : State) (t : Nat) (power : s.powered = true) (now_ : w = now s t) (high : w.tg.shed = false) : ∃ u : State,
    (exec (.shedNAssert t) s = .next (if 8 ≤ (lastSecond s.tg.changes t).length ∧ s.tg.chatter = false then
      (u.event 0x8003 0xF ((lastSecond s.tg.changes t).length + 1)).react else u.react))
    ∧ u.tg.shed = true ∧ u.tg.shedSince = t ∧ u.tg.sheds = min 0xFFFF (s.tg.sheds + 1) ∧ u.tg.changes = lastSecond s.tg.changes t ++ [t]
    ∧ u.tg.chatter = (s.tg.chatter || decide (8 ≤ (lastSecond s.tg.changes t).length)) ∧ u.tg.allowance = s.tg.allowance ∧ u.mem = s.mem := by
  subst now_
  refine ⟨{ now s t with tg := ((now s t).tg.assertShed t).changed t }, ?_, rfl, rfl, ?_, ?_, ?_, now_allowance s t, now_mem s t⟩
  · rw [exec_shedNAssert_of_high power high, State.shedChange_eq]
    simp only [Toll.assertShed_changes, Toll.assertShed_chatter, now_changes, now_chatter]
    split <;> rfl
  · simp only [Toll.changed, Toll.assertShed, now_sheds, satAdd]
  · simp only [Toll.changed, Toll.assertShed_changes, now_changes]
  · cases loud : s.tg.chatter <;> simp [Toll.changed, loud]

theorem shedNReleases (s : State) (t : Nat) (power : s.powered = true) (low : s.tg.shed = true) (few : (lastSecond s.tg.changes t).length < 8) : ∃ u : State,
    exec (.shedNRelease t) s = .next u.react ∧ u.tg.shed = false ∧ u.tg.shedMs = (t - s.tg.shedSince) / 1000000 ∧ u.tg.sheds = s.tg.sheds := by
  refine ⟨{ now s t with tg := ((now s t).tg.releaseShed t).changed t }, ?_, rfl, ?_, now_sheds s t⟩
  · rw [exec_shedNRelease_of_low power (by rw [now_shed, low]), State.shedChange_eq, if_neg]
    simp only [Toll.releaseShed_changes, now_changes]
    omega
  · simp only [Toll.changed, Toll.releaseShed, now_shedSince]

theorem exec_chatterClear (power : s.powered = true) : exec (.chatterClear t) s
    = .next (if (lastSecond s.tg.changes t).length ≤ 8 then { now s t with tg := { (now s t).tg with chatter := false } } else now s t) := by
  simp only [exec, execChatterClear, whenPowered_tick power, now_changes]

theorem exec_envSetSample (power : s.powered = true) (mv : Nat) : exec (.envSetSample mv t) s
    = .next ({ now s t with tg := { (now s t).tg with samples := s.tg.samples.drop 1 ++ [min mv 4095] } } : State).react := by
  simp only [exec, execEnvSetSample, whenPowered_tick power, now_samples]

/-! The lease (10 R341) -/

/-- The lease has expired: the fallback power stands. -/
def Toll.expire (g : Toll) : Toll := { g with digitalW := g.cfg.fallback, deep := false, leaseExpired := true, leaseArmed := false }

theorem exec_leaseExpiry_of_due (power : s.powered = true) (granted : s.tg.cfg.lease ≠ 0) (armed : s.tg.leaseArmed = true)
    (due : s.tg.setAt + 1000000000 * s.tg.cfg.lease ≤ t) :
    exec (.leaseExpiry t) s = .next (({ now s t with tg := (now s t).tg.expire } : State).event 0x8005 0xF s.tg.cfg.fallback).react := by
  have expires : ¬((now s t).tg.cfg.lease = 0 ∨ (!(now s t).tg.leaseArmed) = true ∨ t < (now s t).tg.setAt + 1000000000 * (now s t).tg.cfg.lease) := by
    simp [granted, armed, due]
  simp only [exec, execLeaseExpiry, whenPowered_tick power, expires, if_false]
  rw [← now_cfg s t]
  rfl

theorem exec_leaseExpiry_of_not_due (power : s.powered = true)
    (stands : s.tg.cfg.lease = 0 ∨ s.tg.leaseArmed = false ∨ t < s.tg.setAt + 1000000000 * s.tg.cfg.lease) : exec (.leaseExpiry t) s = .next (now s t) := by
  have stays : (now s t).tg.cfg.lease = 0 ∨ (!(now s t).tg.leaseArmed) = true ∨ t < (now s t).tg.setAt + 1000000000 * (now s t).tg.cfg.lease := by
    simpa using stands
  simp only [exec, execLeaseExpiry, whenPowered_tick power, stays, if_true]

theorem exec_inputUndervoltage (power : s.powered = true) :
    exec (.inputUndervoltage t) s = .next ({ now s t with tg := { (now s t).tg with inputTerm := true } } : State).react := by
  simp only [exec, execInputUndervoltage, whenPowered_tick power]

theorem exec_inputRecovery (power : s.powered = true) :
    exec (.inputRecovery t) s = .next ({ now s t with tg := { (now s t).tg with inputTerm := false } } : State).react := by
  simp only [exec, execInputRecovery, whenPowered_tick power]

theorem tollgateSignals : TollgateSignals := by
  refine ⟨fun s t off i => exec_tollCommand_of_off off, State.settleFloor_cases, shedNAsserts, shedNReleases, ?_, ?_, ?_,
    fun s t => exec_leaseExpiry_of_not_due, ?_⟩
  · rintro s _ t power rfl
    exact ⟨fun few => (exec_chatterClear power).trans (by rw [if_pos few]), fun many => (exec_chatterClear power).trans (by rw [if_neg (Nat.not_le.2 many)])⟩
  · rintro s _ mv t power rfl
    exact exec_envSetSample power mv
  · intro s t power granted armed due
    exact ⟨_, exec_leaseExpiry_of_due power granted armed due, congrArg TgCfg.fallback (now_cfg s t), rfl, rfl, rfl⟩
  · rintro s _ t power rfl
    exact ⟨exec_inputUndervoltage power, exec_inputRecovery power⟩

end

/-- Settles O32: the envelope as the lowest term, and the signals that change its terms. That a lease is armed by the write that grants it is log 51; that the
exit from a floor ends with the next event is log 52; that a window of a second leaves out its older end is log 54. -/
theorem envelopeTerms : Obligations.EnvelopeTerms := ⟨envelopeAndAllowance, tollgateSignals⟩

end Sys2Proof.Machine

namespace Sys2Proof.Machine

open Sys2Proof Sys2Proof.Claims

/-! ### Entries that core 3 serves (11 R400, R403) -/

section

variable {s : State} {e : PrioEntry} {op t : Nat}

/-- An entry that passes its checks is left for its command. -/
theorem State.sweepPrio_of_passes (next : s.nextPrio = some e) (passes : s.checkPrio (PrioEntry_wb e) = none) (n : Nat) : s.sweepPrio n = s := by
  cases n with
  | zero => rfl
  | succ n => simp only [State.sweepPrio, next, passes]

/-- The next entry runs under the command that its header names. -/
theorem State.runPrio_of_serves (h : serves s e op) {ops : Waybill → Bool} (listed : ops (PrioEntry_wb e) = true) (f : State → State) :
    s.runPrio e ops f = (f (s.takePrio e)).sweepPrio 64 := by
  obtain ⟨up, next, passes, -⟩ := h
  simp only [State.runPrio, State.barServes_of_le up, Bool.not_true, Bool.false_eq_true, if_false, State.sweepPrio_of_passes next passes, next, beq_self_eq_true,
    listed, Bool.and_self, if_true]

theorem isOp_of_serves (h : serves s e op) : isOp op (PrioEntry_wb e) = true := by
  obtain ⟨-, -, -, named⟩ := h
  exact beq_iff_eq.2 named

/-- An opcode with one of its parameters. -/
theorem isOp_and_of_serves (h : serves s e op) (lo : Nat) {len v : Nat} (given : fld e.hdr (160 + lo) len = v) :
    (isOp op (PrioEntry_wb e) && (PrioEntry_wb e).p lo len == v) = true := by
  rw [isOp_of_serves h, Bool.true_and]
  exact beq_iff_eq.2 given

/-! STATUS, POWER_CAP and SHED (10 R340, R342; 11 R401) -/

theorem exec_status (h : serves s e 0xF001) : exec (.status e) s = .next ((((s.takePrio e).write .bar2 0x800 (snapshotRegs.flatMap fun r =>
    bytesOfNat 8 ((s.takePrio e).image r).toNat)).finishPrio e 0 0).sweepPrio 64) :=
  congrArg Host.Outcome.next (State.runPrio_of_serves h (isOp_of_serves h) _)

theorem exec_powerCap (h : serves (s.tick t) e 0xF002) : exec (.powerCap e t) s
    = .next ((((((s.tick t).takePrio e).writeSetpoint (fld e.hdr 160 12) (fld e.hdr 172 1 == 1) t)).finishPrio e 0 0).sweepPrio 64) :=
  congrArg Host.Outcome.next (State.runPrio_of_serves h (isOp_of_serves h) _)

theorem exec_shedLatch (h : serves (s.tick t) e 0xF003) (latch : fld e.hdr 160 1 = 1) : exec (.shedLatch e t) s
    = .next ((({ (s.tick t).takePrio e with tg := { ((s.tick t).takePrio e).tg with cmdShed := true } } : State).react.finishPrio e 0 0).sweepPrio 64) :=
  congrArg Host.Outcome.next (State.runPrio_of_serves h (isOp_and_of_serves h 0 latch) _)

theorem exec_priorityShedClear (h : serves s e 0xF003) (clear : fld e.hdr 160 1 = 0) : exec (.priorityShedClear e) s
    = .next ((({ s.takePrio e with tg := { (s.takePrio e).tg with cmdShed := false } } : State).react.finishPrio e 0 0).sweepPrio 64) :=
  congrArg Host.Outcome.next (State.runPrio_of_serves h (isOp_and_of_serves h 0 clear) _)

/-! QUIESCE (09 R323) -/

theorem exec_quiesceDepart (h : serves s e 0xF005) (depart : fld e.hdr 160 1 = 1) : exec (.quiesceDepart e) s
    = .next (((if s.fab.selfDeparted then s.takePrio e else (s.takePrio e).depart).finishPrio e 0 0).sweepPrio 64) :=
  congrArg Host.Outcome.next (State.runPrio_of_serves h (isOp_and_of_serves h 0 depart) _)

theorem exec_quiesceRejoin (h : serves s e 0xF005) (rejoin : fld e.hdr 160 1 = 0) (departed : s.fab.selfDeparted = true) (above : s.tg.st ≠ 3) :
    exec (.quiesceRejoin e) s = .next
      ((({ s.takePrio e with fab := { (s.takePrio e).fab with selfDeparted := false } } : State).trainPorts.finishPrio e 0 0).sweepPrio 64) := by
  refine congrArg Host.Outcome.next ((State.runPrio_of_serves h (isOp_and_of_serves h 0 rejoin) _).trans ?_)
  have rejoins : (s.takePrio e).fab.selfDeparted = true ∧ (s.takePrio e).tg.st ≠ 3 := ⟨departed, above⟩
  simp only [rejoins, ne_eq, not_false_eq_true, and_self, if_true]

/-- Notices sent to a list of ports. -/
theorem State.foldl_tell_port (s : State) (m : Msg) (l : List Nat) :
    l.foldl (fun s p => s.tell 0 (s.port p).peerId m) s = { s with out := s.out ++ l.map fun p => .send 0 (s.port p).peerId m } := by
  induction l generalizing s with
  | nil => simp
  | cons p l ih =>
    rw [List.foldl_cons, ih]
    simp only [State.tell, State.emit, List.append_assoc, List.map_cons, List.cons_append, List.nil_append]
    rfl

theorem State.idleLanes_eq (s : State) : ∃ ports, s.idleLanes = { s with fab := { s.fab with ports := ports } } := ⟨_, s.foldl_modPort _ _⟩

theorem State.idleLanes_port (s : State) {p : Nat} (low : p < 12) :
    s.idleLanes.port p = { s.port p with width := 0, paused := false, training := false } := by
  rw [State.idleLanes, State.foldl_modPort]
  exact (tget_foldl_tmod _ (fun x : Port => { x with width := 0, paused := false, training := false }) (fun _ => rfl) _ _ p).trans
    (if_pos (List.mem_range.2 low))

/-- A departure tells every neighbour and idles every lane. -/
theorem State.depart_eq (s : State) : ∃ u : State, s.depart = { u with fab := { u.fab with selfDeparted := true } }
    ∧ u = ({ s with out := s.out ++ s.upPorts.map fun i => .send 0 (s.port i).peerId .departure } : State).idleLanes :=
  ⟨_, rfl, congrArg State.idleLanes (s.foldl_tell_port .departure s.upPorts)⟩

theorem State.depart_parts (s : State) : s.depart.fab.selfDeparted = true ∧ (∀ i < 12, (s.depart.port i).width = 0 ∧ (s.depart.port i).training = false)
    ∧ s.depart.out = s.out ++ (s.upPorts.map fun i => .send 0 (s.port i).peerId .departure) := by
  obtain ⟨u, departed, idle⟩ := s.depart_eq
  rw [departed]
  refine ⟨rfl, fun i low => ?_, ?_⟩
  · have port : u.port i = _ := (congrArg (State.port · i) idle).trans (State.idleLanes_port _ low)
    exact ⟨congrArg Port.width port, congrArg Port.training port⟩
  · obtain ⟨ports, e⟩ := State.idleLanes_eq { s with out := s.out ++ s.upPorts.map fun i => .send 0 (s.port i).peerId .departure }
    exact congrArg State.out (idle.trans e)

/-! FREEZE and THAW (03 R88; 11 R401, R402) -/

theorem State.mem_owned {c k : Nat} : k ∈ s.owned c ↔ k < 48 ∧ (s.clu k).owner = some c := by simp [State.owned]

theorem State.freeze_clu (s : State) (c k : Nat) : (s.freeze c).clu k = if k ∈ s.owned c then { s.clu k with frozen := true } else s.clu k :=
  State.clu_foldl_modClu (s.modCx c fun x => x.freeze s.now) (fun x => { x with frozen := true }) (fun _ => rfl) (s.owned c) k

theorem State.freeze_owner (s : State) (c k : Nat) : ((s.freeze c).clu k).owner = (s.clu k).owner := by
  rw [State.freeze_clu]
  split <;> rfl

theorem State.freeze_frozen_iff {k : Nat} (low : k < 48) (c : Nat) :
    ((s.freeze c).clu k).frozen = true ↔ (s.clu k).frozen = true ∨ (s.clu k).owner = some c := by
  rw [State.freeze_clu]
  split
  next own => simp [(State.mem_owned.1 own).2]
  next other => simp [show (s.clu k).owner ≠ some c from fun owner => other (State.mem_owned.2 ⟨low, owner⟩)]

theorem State.foldl_freeze_cx (s : State) (l : List Nat) {c : Nat} (frozen : (s.cx c).frozen = true ∨ c ∈ l) :
    ((l.foldl State.freeze s).cx c).frozen = true := by
  induction l generalizing s with
  | nil => exact frozen.resolve_right List.not_mem_nil
  | cons d l ih =>
    refine ih (s.freeze d) ?_
    rw [State.freeze_cx_eq]
    split
    next => exact .inl rfl
    next other => exact frozen.imp_right fun listed => (List.mem_cons.1 listed).resolve_left other

/-- A frozen context's clusters are frozen with it. -/
theorem State.foldl_freeze_clu (s : State) (l : List Nat) {c k : Nat} (low : k < 48) (owner : (s.clu k).owner = some c)
    (frozen : (s.clu k).frozen = true ∨ c ∈ l) : ((l.foldl State.freeze s).clu k).frozen = true := by
  induction l generalizing s with
  | nil => exact frozen.resolve_right List.not_mem_nil
  | cons d l ih =>
    refine ih (s.freeze d) (by rw [State.freeze_owner, owner]) ?_
    rw [State.freeze_frozen_iff low, owner]
    rcases frozen with frozen | listed
    · exact .inl (.inl frozen)
    · exact (List.mem_cons.1 listed).imp (fun first => .inr (congrArg some first)) id

theorem exec_freezeTileBoundary (h : serves (s.tick t) e 0xF006) (boundary : fld e.hdr 164 1 = 0) : exec (.freezeTileBoundary e t) s = .next (
    (let u := (((s.tick t).takePrio e).maskCtxs (fld e.hdr 160 4)).foldl State.freeze ((s.tick t).takePrio e)
     ({ u with mc := { u.mc with freezeReq := some (e, t) } } : State)).sweepPrio 64) :=
  congrArg Host.Outcome.next (State.runPrio_of_serves h (isOp_and_of_serves h 4 boundary) _)

theorem exec_freezeImmediate (h : serves s e 0xF006) (immediate : fld e.hdr 164 1 = 1) : exec (.freezeImmediate e) s
    = .next (((((s.takePrio e).maskCtxs (fld e.hdr 160 4)).foldl State.freezeNow (s.takePrio e)).finishPrio e 0 0).sweepPrio 64) :=
  congrArg Host.Outcome.next (State.runPrio_of_serves h (isOp_and_of_serves h 4 immediate) _)

theorem exec_thaw (h : serves s e 0xF007) : exec (.thaw e) s
    = .next (((((s.takePrio e).maskCtxs (fld e.hdr 160 4)).foldl State.thawCtx (s.takePrio e)).finishPrio e 0 0).sweepPrio 64) :=
  congrArg Host.Outcome.next (State.runPrio_of_serves h (isOp_of_serves h) _)

theorem exec_freezeComplete {t₀ : Nat} (asked : s.mc.freezeReq = some (e, t₀)) : exec (.freezeComplete t) s
    = .next (((({ s.tick t with mc := { s.mc with freezeReq := none } } : State).finishPrio e 0 (t - t₀)).sweepPrio 64)) := by
  simp only [exec, execFreezeComplete, State.tick_mc, asked]

theorem State.mem_maskCtxs {m c : Nat} : c ∈ s.maskCtxs m ↔ c < 4 ∧ m / 2 ^ c % 2 = 1 ∧ (s.cx c).live = true := by
  simp [State.maskCtxs, bit, bitsOf, Nat.shiftRight_eq_div_pow]

/-! CRASH_DUMP (11 R401) -/

theorem exec_crashDump (h : serves s e 0xF008) : ∃ (bs : List Byte) (n : Nat), exec (.crashDump e) s
    = .next (((({ s.takePrio e with freeCtr := s.freeCtr + 1 } : State).write .bar2 0x10000 bs).finishPrio e 0 n).sweepPrio 64) ∧ bs.length = 65536 :=
  ⟨(List.range 65536).map fun i => Config.crashByte s.freeCtr (fld e.hdr 160 16) i, (Config.crashChunks s.freeCtr).toNat,
    congrArg Host.Outcome.next (State.runPrio_of_serves h (isOp_of_serves h) _), by rw [List.length_map, List.length_range]⟩

end

/-- Settles O33: the priority operations. That an immediate freeze answers detail 0 is log 86. -/
theorem priorityOperations : Obligations.PriorityOperations := by
  intro s e t p
  refine ⟨exec_status, exec_powerCap, fun h latch => ⟨_, rfl, exec_shedLatch h latch⟩, fun h clear => ⟨_, rfl, exec_priorityShedClear h clear⟩, fun h depart => ?_,
    fun h rejoin departed above => ⟨_, exec_quiesceRejoin h rejoin departed above, ?_, fun i low => State.trainPorts_port _ low⟩, fun h boundary => ?_,
    exec_freezeImmediate, exec_thaw, fun h => ?_, fun t₀ => exec_freezeComplete⟩
  · refine ⟨_, exec_quiesceDepart h depart, ?_⟩
    cases left : s.fab.selfDeparted with
    | true => exact ⟨left, nofun, fun _ => rfl⟩
    | false =>
      obtain ⟨departed, idle, told⟩ := (s.takePrio e).depart_parts
      exact ⟨departed, fun _ => ⟨idle, told⟩, nofun⟩
  · exact State.trainPorts_selfDeparted _
  · refine ⟨_, exec_freezeTileBoundary h boundary, rfl, fun c low named live => ?_⟩
    have listed : c ∈ ((s.tick t).takePrio e).maskCtxs (fld e.hdr 160 4) := State.mem_maskCtxs.2 ⟨low, named, live⟩
    exact ⟨State.foldl_freeze_cx _ _ (.inr listed), fun k small owner => State.foldl_freeze_clu _ _ small owner (.inr listed)⟩
  · obtain ⟨bs, n, dumped, length⟩ := exec_crashDump h
    exact ⟨_, bs, n, dumped, length, rfl⟩

end Sys2Proof.Machine

namespace Sys2Proof.Machine

open Sys2Proof Sys2Proof.Claims

/-! ### BEAT and the slot clock (10 R343 to R345) -/

section

variable {s : State} {t e : Nat}

@[simp] theorem now_beat (s : State) (t : Nat) : (now s t).beat = s.beat := by obtain ⟨_, _, _, e, -⟩ := now_eq s t; rw [e]
@[simp] theorem now_ownedSlot (s : State) (t : Nat) : (now s t).ownedSlot = s.ownedSlot := by obtain ⟨_, _, _, e, -⟩ := now_eq s t; rw [e]; rfl

theorem Beat.late_eq {b : Beat} (last : b.lastEdge = some e) (t : Nat) : b.late t = decide (e + 40000000 < t) := by simp only [Beat.late, last]

/-- BEAT that stands takes an edge at u and its interval among the last eight. -/
def Beat.take (b : Beat) (u iv : Nat) : Beat :=
  { b with lastEdge := some u, intervals := lastEight (b.intervals ++ [iv]), period := meanOf (lastEight (b.intervals ++ [iv])) }

/-- An edge timed to 10 ns. -/
theorem exec_beatEdge_of_range (power : s.powered = true) (valid : s.beat.valid = true) (last : s.beat.lastEdge = some e)
    (low : e + 15385000 ≤ t / 10 * 10) (high : t / 10 * 10 ≤ e + 22222000) :
    exec (.beatEdge t true) s = .next { now s t with beat := s.beat.take (t / 10 * 10) ((t / 10 * 10 - e) / 10) } := by
  have late : s.beat.late (t / 10 * 10) = false := (Beat.late_eq last _).trans (decide_eq_false (by omega))
  have early : ¬t / 10 * 10 < e + 12000000 := by omega
  have range : 15385000 ≤ t / 10 * 10 - e ∧ t / 10 * 10 - e ≤ 22222000 := by omega
  simp only [exec, execBeatEdge, whenPowered_tick power, now_beat, valid, late, last, early, range, Bool.and_false, Bool.false_eq_true, Bool.not_true, or_self,
    and_self, if_true, if_false, State.beatInterval, Beat.take, lastEight]

/-- One rejection while fewer than nine stand within the second. -/
theorem State.beatReject_of_few (few : (lastSecond s.beat.rejTimes t).length < 8) : s.beatReject t = { s with beat := { s.beat with
    rejects := satAdd 0xFFFF s.beat.rejects 1, rejTimes := lastSecond s.beat.rejTimes t ++ [t], good := [] } } := by
  have quiet : ¬(8 < (lastSecond s.beat.rejTimes t).length + 1) := by omega
  simp only [State.beatReject, List.length_append, List.length_singleton, quiet, false_and, if_false]

theorem exec_beatEdge_of_reject (power : s.powered = true) {ok : Bool} (last : s.beat.lastEdge = some e) (bad : ok = false ∨ t / 10 * 10 < e + 12000000)
    (soon : t / 10 * 10 ≤ e + 40000000) : exec (.beatEdge t ok) s = .next ((now s t).beatReject t) := by
  have late : s.beat.late (t / 10 * 10) = false := (Beat.late_eq last _).trans (decide_eq_false (by omega))
  have bad' : (!ok) = true ∨ t / 10 * 10 < e + 12000000 := bad.imp_left fun low => by rw [low]; rfl
  simp only [exec, execBeatEdge, whenPowered_tick power, now_beat, late, last, bad', Bool.and_false, Bool.false_eq_true, if_true, if_false]

theorem State.setBeatValid_eq (s : State) (b : Bool) : ∃ o, s.setBeatValid b = { s with out := o, beat := { s.beat with valid := b } } := by
  unfold State.setBeatValid
  split
  next same => exact ⟨s.out, by rw [← same]⟩
  next =>
    dsimp only
    split <;> exact ⟨_, rfl⟩

/-- BEAT lost, before the event that says so. -/
theorem State.beatLost_eq (s : State) (why : Nat) : ∃ u : State, s.beatLost why = u.event 0x8004 0xF why ∧ u.beat.valid = false ∧ u.beat.relock = false
    ∧ u.beat.invalids = min 0xFF (s.beat.invalids + 1) ∧ u.beat.period = s.beat.period := by
  obtain ⟨o, unset⟩ := s.setBeatValid_eq false
  refine ⟨_, rfl, ?_, rfl, ?_, ?_⟩ <;> rw [unset]
  rfl

theorem exec_beatInvalid (power : s.powered = true) (valid : s.beat.valid = true) (last : s.beat.lastEdge = some e)
    (few : (lastSecond s.beat.rejTimes t).length ≤ 8) :
    exec (.beatInvalid t) s = .next (if decide (e + 40000000 < t / 10 * 10) then (now s t).beatLost 1 else now s t) := by
  have quiet : ¬8 < (lastSecond s.beat.rejTimes t).length := by omega
  simp only [exec, execBeatInvalid, whenPowered_tick power, now_beat, valid, quiet, Beat.late_eq last, Bool.not_true, Bool.false_eq_true, if_false]

/-! Slots (10 R345) -/

/-- The slot clock in the next slot, which began at t. -/
def Beat.nextSlot (b : Beat) (t slot : Nat) : Beat :=
  { b with slots := (b.slots + 1) % 2 ^ 64, slot := slot, slotAt := t, relock := b.relock && decide (64 * 5000 ≤ b.phaseError t slot) }

theorem exec_slotBoundary_of_early (power : s.powered = true) {slot : Nat} (no : 6400 * (t - s.beat.slotAt) < 980 * s.beat.period ∨ slot ≠ (s.beat.slot + 1) % 64) :
    exec (.slotBoundary t slot) s = .next (now s t) := by
  have none : s.beat.early t = true ∨ slot ≠ (s.beat.slot + 1) % 64 := no.imp_left fun early => decide_eq_true early
  simp only [exec, execSlotBoundary, whenPowered_tick power, now_beat, none, if_true]

theorem exec_slotBoundary_of_next (power : s.powered = true) {slot : Nat} (due : 980 * s.beat.period ≤ 6400 * (t - s.beat.slotAt))
    (next : slot = (s.beat.slot + 1) % 64) : exec (.slotBoundary t slot) s = .next (if slot = s.ownedSlot ∧ s.bringupDone = true
      then ({ now s t with beat := s.beat.nextSlot t slot } : State).rise.applyUp else { now s t with beat := s.beat.nextSlot t slot }) := by
  have early : s.beat.early t = false := decide_eq_false (Nat.not_lt.2 due)
  have slot_ (b : Beat) : ({ now s t with beat := b } : State).ownedSlot = s.ownedSlot := now_ownedSlot s t
  have done (b : Beat) : ({ now s t with beat := b } : State).bringupDone = s.bringupDone := now_bringupDone s t
  simp only [exec, execSlotBoundary, whenPowered_tick power, now_beat, early, ← next, ne_eq, not_true_eq_false, Bool.false_eq_true, or_self, if_false, slot_, done]
  by_cases owned : slot = s.ownedSlot <;> cases up : s.bringupDone <;> simp [owned] <;> rfl

/-- The allowance rises by at most the ramp, and never above the envelope (10 R333). -/
theorem State.rise_allowance {p : Rat} (power : s.envelope.2 = .power p) (operating : s.tg.st ≠ 3 ∧ s.tg.st ≠ 6 ∧ s.tg.entering ≠ some .deep)
    (below : s.tg.allowance ≤ p) : s.tg.allowance ≤ s.rise.tg.allowance ∧ s.rise.tg.allowance ≤ p
      ∧ s.rise.tg.allowance ≤ s.tg.allowance + (s.tg.cfg.ramp : Rat) * s.beat.period / 100000000 := by
  obtain ⟨deep, tripped, heading⟩ := operating
  have ramp : (0 : Rat) ≤ (s.tg.cfg.ramp : Rat) * s.beat.period / 100000000 := by positivity
  simp only [State.rise, power, deep, tripped, heading, or_self, if_false]
  exact ⟨le_max_left .., max_le below (min_le_left ..), max_le (le_add_of_nonneg_right ramp) (min_le_right ..)⟩

theorem State.rise_of_floor {f : Floor} (floor : s.envelope.2 = .floor f) : s.rise = s := by simp only [State.rise, floor]

theorem State.rise_rest (s : State) : { s.rise with tg := s.tg } = s := by
  unfold State.rise
  split
  · split <;> rfl
  · rfl

end

/-- Settles O41: edges of BEAT, slots and the rise of the allowance. Which slot boundary counts, and how one ends a relock, is log 94. -/
theorem beatAndSlots : Obligations.BeatAndSlots := by
  refine ⟨?_, ?_, fun s t e power valid last few => ?_, ?_, fun s => ⟨fun p power above running heading => State.rise_allowance power ⟨above, running, heading⟩,
    fun f => State.rise_of_floor, s.rise_rest⟩⟩
  · rintro s _ t e power rfl valid last low high
    exact ⟨_, exec_beatEdge_of_range power valid last low high, rfl, valid, rfl, rfl, rfl, rfl⟩
  · rintro s _ t e ok power rfl valid last bad soon few
    refine ⟨_, (exec_beatEdge_of_reject power last bad soon).trans (congrArg Host.Outcome.next (State.beatReject_of_few ?_)), ?_, ?_, ?_, ?_, ?_⟩ <;>
      simp only [now_beat, satAdd, last, valid, few]
  · rw [exec_beatInvalid power valid last few]
    refine ⟨fun late => ?_, fun soon => by rw [decide_eq_false (Nat.not_lt.2 soon), if_neg Bool.false_ne_true]⟩
    obtain ⟨u, lost, rest⟩ := (now s t).beatLost_eq 1
    rw [now_beat] at rest
    exact ⟨u, by rw [decide_eq_true late, if_pos rfl, lost], rest⟩
  · rintro s _ t slot power rfl
    exact ⟨exec_slotBoundary_of_early power, fun due next => ⟨s.beat.nextSlot t slot, rfl, rfl, rfl, rfl, rfl, exec_slotBoundary_of_next power due next⟩⟩

end Sys2Proof.Machine

namespace Sys2Proof.Machine

open Sys2Proof Sys2Proof.Claims

/-! ### The governor (10 R356) -/

section

variable {s : State} {t avg : Nat}

/-- The tollgate with an average input power measured. -/
def Toll.measure (g : Toll) (avg : Nat) (governing : Bool) : Toll := { g with inputW := avg, governing := governing }

theorem exec_governorTick_of_above (power : s.powered = true) (operating : (now s t).tg.st = 0 ∨ (now s t).tg.st = 1) (above : s.tg.allowance * 102 / 100 < avg) :
    exec (.governorTick avg t) s = .next ({ now s t with tg := (now s t).tg.measure avg true } : State).govern := by
  have runs : ¬((now s t).tg.st ≠ 0 ∧ (now s t).tg.st ≠ 1) := by omega
  rw [← now_allowance s t] at above
  simp only [exec, execGovernorTick, whenPowered_tick power, runs, if_false, above, if_true]
  rfl

theorem exec_governorTick_of_below (power : s.powered = true) (operating : (now s t).tg.st = 0 ∨ (now s t).tg.st = 1)
    (below : (avg : Rat) ≤ s.tg.allowance) :
    exec (.governorTick avg t) s = .next { now s t with tg := (now s t).tg.measure avg false } := by
  have runs : ¬((now s t).tg.st ≠ 0 ∧ (now s t).tg.st ≠ 1) := by omega
  have quiet : ¬(now s t).tg.allowance * 102 / 100 < avg := by
    rw [now_allowance]
    linarith
  rw [← now_allowance s t] at below
  simp only [exec, execGovernorTick, whenPowered_tick power, runs, if_false, quiet, below, if_true, Bool.false_eq_true]
  rfl

/-- A cluster one step down. -/
def Cluster.stepDown (x : Cluster) : Cluster := { x with target := max 24 (min x.clock x.target - 1) }

/-- Above 0.6 GHz every running cluster goes one step down, and no other. -/
theorem State.govern_clu (high : ∃ k < 48, (s.clu k).held = false ∧ 24 < (s.clu k).clock) {k : Nat} (low : k < 48) :
    s.govern.clu k = if (s.clu k).held = false then (s.clu k).stepDown else s.clu k := by
  obtain ⟨j, small, runs, fast⟩ := high
  have above : ¬(s.running.all fun k => (s.clu k).clock ≤ 24) = true := fun all => by
    have slow := List.all_eq_true.1 all j (State.mem_running.2 ⟨small, runs⟩)
    exact absurd (of_decide_eq_true slow) (by omega)
  rw [State.govern]
  simp only [above, if_false, Bool.false_eq_true]
  refine (s.clu_foldl_modClu_of_nodup Cluster.stepDown s.running_nodup k).trans ?_
  simp only [State.mem_running, low, true_and]

/-- The running clusters end with the highest. -/
theorem State.running_getLast {k : Nat} (low : k < 48) (runs : (s.clu k).held = false) (highest : ∀ j, k < j → j < 48 → (s.clu j).held = true) :
    s.running.getLast? = some k := by
  have split : List.range 48 = List.range (k + 1) ++ (List.range (47 - k)).map (k + 1 + ·) := by
    rw [← List.range_add]
    congr 1
    omega
  have none : ((List.range (47 - k)).map (k + 1 + ·)).filter (fun j => !(s.clu j).held) = [] := List.filter_eq_nil_iff.2 fun j listed => by
    obtain ⟨i, small, rfl⟩ := List.mem_map.1 listed
    have := List.mem_range.1 small
    simp [highest (k + 1 + i) (by omega) (by omega)]
  rw [State.running, split, List.filter_append, none, List.append_nil, List.range_succ, List.filter_append]
  simp [runs]

theorem State.govern_of_slow (slow : ∀ k < 48, (s.clu k).held = false → (s.clu k).clock ≤ 24) {k : Nat} (low : k < 48) (runs : (s.clu k).held = false)
    (highest : ∀ j, k < j → j < 48 → (s.clu j).held = true) : s.govern = s.holdCluster k := by
  have all : (s.running.all fun k => (s.clu k).clock ≤ 24) = true := List.all_eq_true.2 fun j running => by
    obtain ⟨small, runs⟩ := State.mem_running.1 running
    exact decide_eq_true (slow j small runs)
  rw [State.govern]
  simp only [all, if_true, State.running_getLast low runs highest]

end

/-! ### Heat and sensors (10 R357, R358; 12 Table 12-2) -/

section

variable {s : State} {t : Nat}

@[simp] theorem now_heat (s : State) (t : Nat) : (now s t).heat = s.heat := by obtain ⟨_, _, _, e, -⟩ := now_eq s t; rw [e]
@[simp] theorem now_pwr (s : State) (t : Nat) : (now s t).pwr = s.pwr := by obtain ⟨_, _, _, e, -⟩ := now_eq s t; rw [e]

theorem heatModelUpdates (s : State) (inlet plate power t : Nat) (powered : s.powered = true) : ∃ h : Heat,
    exec (.heatModelUpdate inlet plate power t) s = .next ({ now s t with heat := h } : State).react
    ∧ h.inlet = inlet ∧ h.plate = plate ∧ h.flow = s.heat.flow ∧ h.limit = s.heat.limit ∧ h.cap = some h.cap_
    ∧ h.model = max ((if s.heat.started = true then s.heat.model else (plate : Rat)) + ((if s.heat.fault = true then 45 else (inlet : Rat))
        + power * thetaOf s.heat.flow - (if s.heat.started = true then s.heat.model else (plate : Rat))) * 125 / 100000) plate := by
  simp only [exec, execHeatModelUpdate, whenPowered_tick powered, now_heat]
  exact ⟨_, rfl, rfl, rfl, rfl, rfl, rfl, rfl⟩

theorem exec_sensorFault_of_known (power : s.powered = true) {x : Sensor} (known : x ∈ s.pwr.sensorsBad) : exec (.sensorFault x t) s = .next (now s t) := by
  have listed : (now s t).pwr.sensorsBad.contains x = true := by simpa using known
  simp only [exec, execSensorFault, whenPowered_tick power, State.sensorFails, listed, if_true]

/-- A sensor marked as failed, before its fault record; without the inlet's the model takes 45 °C. -/
def State.markSensor (s : State) (x : Sensor) : State :=
  { s with pwr := { s.pwr with sensorsBad := s.pwr.sensorsBad ++ [x] }, heat := { s.heat with fault := s.heat.fault || decide (x = .inlet) } }

theorem exec_sensorFault_of_new (power : s.powered = true) {x : Sensor} (new : x ∉ s.pwr.sensorsBad) :
    exec (.sensorFault x t) s = .next (((now s t).markSensor x).retire [.sensor x] 0x0C 2 0xF (sensorUnit x) 0 0xFFFF 0 8) := by
  have listed : (now s t).pwr.sensorsBad.contains x = false := by simpa using new
  simp only [exec, execSensorFault, whenPowered_tick power, State.sensorFails, listed, Bool.false_eq_true, if_false]
  by_cases inlet : x = .inlet <;> simp [inlet, State.markSensor]

end

/-! ### Throttles and the trip (10 R359, R360) -/

section

variable {s : State} {d : Die} {temp t : Nat}

theorem State.noteTemp_eq (s : State) (d : Die) (temp : Nat) : ∃ l, s.noteTemp d temp = { s with pwr := { s.pwr with baseTemps := l } } := by
  cases d <;> exact ⟨_, rfl⟩

/-- The state in which a die's temperature is acted upon. -/
def State.heard (s : State) (d : Die) (temp t : Nat) : State := ((s.tick t).noteTemp d temp).settleFloor

theorem State.whenPowered_heard (power : s.powered = true) (f : State → State) : ((s.tick t).noteTemp d temp).whenPowered f = f (s.heard d temp t) := by
  obtain ⟨l, e⟩ := (s.tick t).noteTemp_eq d temp
  refine if_pos ?_
  rw [e]
  exact power

theorem State.heard_eq (s : State) (d : Die) (temp t : Nat) : ∃ st l o b, s.heard d temp t = { s with
    now := max s.now t, out := o, tg := { s.tg with st := st, leaving := l }, pwr := { s.pwr with baseTemps := b } } := by
  obtain ⟨b, noted⟩ := (s.tick t).noteTemp_eq d temp
  obtain ⟨st, l, o, e, -⟩ := now_eq { s with pwr := { s.pwr with baseTemps := b } } t
  exact ⟨st, l, o, b, (congrArg State.settleFloor noted).trans e⟩

@[simp] theorem State.heard_throttles (s : State) (d : Die) (temp t : Nat) : (s.heard d temp t).pwr.throttles = s.pwr.throttles := by
  obtain ⟨_, _, _, _, e⟩ := s.heard_eq d temp t; rw [e]
@[simp] theorem State.heard_trip (s : State) (d : Die) (temp t : Nat) : (s.heard d temp t).pwr.trip = s.pwr.trip := by
  obtain ⟨_, _, _, _, e⟩ := s.heard_eq d temp t; rw [e]
@[simp] theorem State.heard_mem (s : State) (d : Die) (temp t : Nat) : (s.heard d temp t).mem = s.mem := by
  obtain ⟨_, _, _, _, e⟩ := s.heard_eq d temp t; rw [e]
@[simp] theorem State.heard_mc (s : State) (d : Die) (temp t : Nat) : (s.heard d temp t).mc = s.mc := by
  obtain ⟨_, _, _, _, e⟩ := s.heard_eq d temp t; rw [e]
@[simp] theorem State.heard_clu (s : State) (d : Die) (temp t k : Nat) : (s.heard d temp t).clu k = s.clu k := by
  obtain ⟨_, _, _, _, e⟩ := s.heard_eq d temp t; rw [e]; rfl
@[simp] theorem State.heard_inWindow (s : State) (d : Die) (temp t u : Nat) : (s.heard d temp t).inWindow u = s.inWindow u := by
  obtain ⟨_, _, _, _, e⟩ := s.heard_eq d temp t; rw [e]; rfl

theorem Die.clusters_nodup (d : Die) : (Die.clusters d).Nodup := by
  cases d with
  | base q => exact List.nodup_range.filter _
  | cellar c => exact List.nodup_singleton c
  | hbm h => exact List.nodup_nil

/-- A die's rate at its stack: an HBM stack alone has one. -/
def State.setRate (s : State) (d : Die) (half : Bool) : State :=
  match d with
  | .hbm h => s.modStack h fun x => { x with halfRate := half }
  | _ => s

theorem State.setRate_eq (s : State) (d : Die) (half : Bool) : ∃ h, s.setRate d half = { s with hbm := h } := by cases d <;> exact ⟨_, rfl⟩

/-- The list of throttled dies with die d throttled since t. -/
def throttleDie (l : List (Die × Nat)) (d : Die) (t : Nat) : List (Die × Nat) := (l.filter fun e => e.1 != d) ++ [(d, t)]

/-- A die throttled: its clusters one step down. -/
def State.throttle (s : State) (d : Die) (t : Nat) : State :=
  ((Die.clusters d).foldl (fun (s : State) k => s.modClu k fun x => { x.stepDown with throttled := true })
    { s with pwr := { s.pwr with throttles := throttleDie s.pwr.throttles d t } }).setRate d true

theorem State.modClu_modClu (s : State) (k : Nat) (f g : Cluster → Cluster) : (s.modClu k f).modClu k g = s.modClu k fun x => g (f x) :=
  congrArg (fun c => { s with cl := c }) (tmod_tmod ..)

theorem exec_dieThrottle_of_hot (power : s.powered = true) (hot : 100 < temp ∨ (97 ≤ temp ∧ ∃ e ∈ s.pwr.throttles, e.1 = d)) :
    exec (.dieThrottle d temp t) s = .next ((s.heard d temp t).throttle d t) := by
  rw [← s.heard_throttles d temp t] at hot
  have acts : (decide (100 < temp) || (((s.heard d temp t).pwr.throttles.any fun e => e.1 == d) && decide (97 ≤ temp))) = true := by
    simp only [Bool.or_eq_true, Bool.and_eq_true, decide_eq_true_eq, List.any_eq_true, beq_iff_eq]
    exact hot.imp_right And.symm
  simp only [exec, execDieThrottle, State.whenPowered_heard power, acts, Bool.not_true, Bool.false_eq_true, if_false, State.stepDown, State.modClu_modClu]
  cases d <;> rfl

@[simp] theorem State.setRate_clu (s : State) (d : Die) (half : Bool) (k : Nat) : (s.setRate d half).clu k = s.clu k := by
  obtain ⟨_, e⟩ := s.setRate_eq d half; rw [e]; rfl
@[simp] theorem State.setRate_pwr (s : State) (d : Die) (half : Bool) : (s.setRate d half).pwr = s.pwr := by
  obtain ⟨_, e⟩ := s.setRate_eq d half; rw [e]
@[simp] theorem State.setRate_mem (s : State) (d : Die) (half : Bool) : (s.setRate d half).mem = s.mem := by
  obtain ⟨_, e⟩ := s.setRate_eq d half; rw [e]

theorem State.setRate_stack (s : State) (half : Bool) (h : Nat) : ((s.setRate (.hbm h) half).stack h).halfRate = half :=
  congrArg Stack.halfRate (State.stack_modStack_self ..)

theorem State.throttle_parts (s : State) (d : Die) (t : Nat) : (d, t) ∈ (s.throttle d t).pwr.throttles
    ∧ (∀ k, (s.throttle d t).clu k = if k ∈ Die.clusters d then { (s.clu k).stepDown with throttled := true } else s.clu k)
    ∧ (∀ h, d = .hbm h → ((s.throttle d t).stack h).halfRate = true) ∧ (s.throttle d t).mem = s.mem := by
  unfold State.throttle
  refine ⟨?_, fun k => ?_, ?_, ?_⟩
  · rw [State.setRate_pwr, State.foldl_modClu]
    exact List.mem_append_right _ (List.mem_singleton_self _)
  · rw [State.setRate_clu]
    exact State.clu_foldl_modClu_of_nodup _ (fun x => { x.stepDown with throttled := true }) (Die.clusters_nodup d) k
  · rintro h rfl
    exact State.setRate_stack ..
  · rw [State.setRate_mem, State.foldl_modClu]

/-! Release (10 R359) -/

/-- The other dies' throttles. -/
def otherThrottles (l : List (Die × Nat)) (d : Die) : List (Die × Nat) := l.filter fun e => e.1 != d

/-- A die's throttle over: its clusters stay throttled where another die's holds them. -/
def State.endThrottle (s : State) (d : Die) : State :=
  ((Die.clusters d).foldl (fun (s' : State) k => s'.modClu k fun x =>
      { x with throttled := (otherThrottles s.pwr.throttles d).any fun e => (Die.clusters e.1).contains k })
    { s with pwr := { s.pwr with throttles := otherThrottles s.pwr.throttles d } }).setRate d false

theorem exec_throttleRelease_of_stays (power : s.powered = true)
    (stays : s.inWindow t = false ∨ 97 < temp ∨ ∀ e ∈ s.pwr.throttles, e.1 = d → t < e.2 + 100000000) :
    exec (.throttleRelease d temp t) s = .next (s.heard d temp t) := by
  have holds : (!((s.heard d temp t).pwr.throttles.any fun e => e.1 == d && decide (e.2 + 100000000 ≤ t)) || !(s.heard d temp t).inWindow t
      || decide (97 < temp)) = true := by
    rw [State.heard_throttles, State.heard_inWindow]
    rcases stays with outside | hot | short
    · simp [outside]
    · simp [hot]
    · rw [any_eq_false_of_forall fun e listed => ?_]
      · rfl
      · by_cases same : e.1 = d
        · simp [same, short e listed same]
        · simp [same]
  simp only [exec, execThrottleRelease, State.whenPowered_heard power, holds, if_true]

theorem exec_throttleRelease_of_cool (power : s.powered = true) (window : s.inWindow t = true) (cool : temp ≤ 97) {since : Nat}
    (throttled : (d, since) ∈ s.pwr.throttles) (long : since + 100000000 ≤ t) :
    exec (.throttleRelease d temp t) s = .next ((s.heard d temp t).endThrottle d).applyUp := by
  have listed : ((s.heard d temp t).pwr.throttles.any fun e => e.1 == d && decide (e.2 + 100000000 ≤ t)) = true := by
    rw [State.heard_throttles]
    exact List.any_eq_true.2 ⟨_, throttled, by simp [long]⟩
  simp only [exec, execThrottleRelease, State.whenPowered_heard power, listed, State.heard_inWindow, window, Nat.not_lt.2 cool, decide_false, Bool.not_true,
    Bool.or_self, Bool.false_eq_true, if_false]
  cases d <;> rfl

/-- Each of a list of clusters changed by a function of its number. -/
theorem State.foldl_modClu_each (s : State) (f : Nat → Cluster → Cluster) {l : List Nat} (once : l.Nodup) (k : Nat) :
    (l.foldl (fun s k => s.modClu k (f k)) s).pwr = s.pwr
      ∧ (l.foldl (fun s k => s.modClu k (f k)) s).clu k = if k ∈ l then f k (s.clu k) else s.clu k := by
  induction l generalizing s with
  | nil => exact ⟨rfl, rfl⟩
  | cons j l ih =>
    obtain ⟨out, once⟩ := List.nodup_cons.1 once
    obtain ⟨pwr, clu⟩ := ih (s.modClu j (f j)) once
    refine ⟨pwr, clu.trans ?_⟩
    rw [State.clu_modClu]
    by_cases first : k = j
    · subst first
      simp [out]
    · simp [first]

theorem State.endThrottle_parts (s : State) (d : Die) : (∀ e ∈ (s.endThrottle d).pwr.throttles, e.1 ≠ d)
    ∧ ∀ k, (∀ e ∈ (s.endThrottle d).pwr.throttles, k ∉ Die.clusters e.1) → k ∈ Die.clusters d → ((s.endThrottle d).clu k).throttled = false := by
  have each := State.foldl_modClu_each { s with pwr := { s.pwr with throttles := otherThrottles s.pwr.throttles d } }
    (fun k x => { x with throttled := (otherThrottles s.pwr.throttles d).any fun e => (Die.clusters e.1).contains k }) (Die.clusters_nodup d)
  have others : (s.endThrottle d).pwr.throttles = otherThrottles s.pwr.throttles d := by
    rw [State.endThrottle, State.setRate_pwr, (each 0).1]
  rw [others]
  refine ⟨fun e listed => by simpa using (List.mem_filter.1 listed).2, fun k free held => ?_⟩
  rw [State.endThrottle, State.setRate_clu, (each k).2, if_pos held]
  exact any_eq_false_of_forall fun e listed => by simpa using free e listed

/-! The trip (10 R360) -/

theorem exec_thermalTrip_of_below (power : s.powered = true) (below : temp ≤ tripLimit d) : exec (.thermalTrip d temp t) s = .next (s.heard d temp t) := by
  simp only [exec, execThermalTrip, State.whenPowered_heard power, below, or_true, if_true]

theorem exec_thermalTrip_of_above (power : s.powered = true) (above : tripLimit d < temp) (runs : s.pwr.trip = false) :
    exec (.thermalTrip d temp t) s = .next (s.heard d temp t).tripNow := by
  simp only [exec, execThermalTrip, State.whenPowered_heard power, State.heard_trip, runs, Nat.not_le.2 above, Bool.false_eq_true, or_self, if_false]

theorem State.setAlive_eq (s : State) (b : Bool) : ∃ o, s.setAlive b = { s with out := o, pwr := { s.pwr with alive := b } } := by
  unfold State.setAlive
  split
  next same => exact ⟨s.out, by rw [← same]⟩
  next => exact ⟨_, rfl⟩

theorem State.setTrip_eq (s : State) (b : Bool) : ∃ o, s.setTrip b = { s with out := o, pwr := { s.pwr with trip := b } } := by
  unfold State.setTrip
  split
  next same => exact ⟨s.out, by rw [← same]⟩
  next => exact ⟨_, rfl⟩

@[simp] theorem State.setTg_pwr (s : State) (st : Nat) : (s.setTg st).pwr = s.pwr := by obtain ⟨_, e⟩ := s.setTg_eq st; rw [e]
@[simp] theorem State.setTg_mem (s : State) (st : Nat) : (s.setTg st).mem = s.mem := by obtain ⟨_, e⟩ := s.setTg_eq st; rw [e]
@[simp] theorem State.setTg_legs (s : State) (st : Nat) : (s.setTg st).legs = s.legs := by obtain ⟨_, e⟩ := s.setTg_eq st; rw [e]
@[simp] theorem State.setTg_mc (s : State) (st : Nat) : (s.setTg st).mc = s.mc := by obtain ⟨_, e⟩ := s.setTg_eq st; rw [e]

/-- A trip first releases ALIVE, idles the lanes and drives THERMTRIP_N. -/
theorem State.tripPins_eq (s : State) : ∃ o ports, ((s.setAlive false).idleLanes).setTrip true = { s with
    out := o, fab := { s.fab with ports := ports }, pwr := { s.pwr with alive := false, trip := true } } := by
  obtain ⟨o, dead⟩ := s.setAlive_eq false
  obtain ⟨ports, idle⟩ := (s.setAlive false).idleLanes_eq
  obtain ⟨o', tripped⟩ := ((s.setAlive false).idleLanes).setTrip_eq true
  exact ⟨o', ports, by rw [tripped, idle, dead]⟩

/-- A trip takes stages 0 to 6 and all that they hold (13 R454). -/
theorem State.tripNow_parts (s : State) : s.tripNow.tg.st = 6 ∧ s.tripNow.pwr.trip = true
    ∧ s.tripNow.pwr.stages = [.off, .off, .off, .off, .off, .off, .off, .up] ∧ s.tripNow.mem.tier2 = [] ∧ s.tripNow.mem.bar2 = s.mem.bar2 ∧ s.tripNow.legs = []
    ∧ s.tripNow.mc.faultLog = s.mc.faultLog ∧ s.tripNow.mc.faultSeq = s.mc.faultSeq := by
  obtain ⟨_, _, pins⟩ := s.tripPins_eq
  unfold State.tripNow
  rw [pins, State.setTg_tg, State.setTg_pwr, State.setTg_mem, State.setTg_legs, State.setTg_mc]
  exact ⟨rfl, rfl, rfl, rfl, rfl, rfl, rfl, rfl⟩

end

/-- Settles O42, from one lemma per transition. A sensor's number in its fault record is `sensorUnit` (log 21); the heat model starts at its first update
from the plate (log 93). -/
theorem governorAndHeat : Obligations.GovernorAndHeat := by
  refine ⟨?_, fun s high k low => State.govern_clu high low, fun s slow k low runs highest => State.govern_of_slow slow low runs highest, ?_, ?_, ?_, ?_, ?_, ?_⟩
  · rintro s w avg t power rfl operating
    exact ⟨exec_governorTick_of_above power operating, fun below _ => exec_governorTick_of_below power operating below⟩
  · rintro s w inlet plate powered t power rfl
    exact heatModelUpdates s inlet plate powered t power
  · intro s x t power
    refine ⟨exec_sensorFault_of_known power, fun new => ⟨_, exec_sensorFault_of_new power new, ?_, ?_⟩, ?_⟩
    · simp [State.markSensor]
    · simp [State.markSensor]
    · rintro rfl
      rfl
  · intro s d temp t power hot
    obtain ⟨listed, clu, rate, mem⟩ := (s.heard d temp t).throttle_parts d t
    refine ⟨_, exec_dieThrottle_of_hot power hot, listed, fun k held => ?_, fun k free => ?_, rate, mem.trans (s.heard_mem d temp t)⟩
    · rw [clu, if_pos held, State.heard_clu]
      exact ⟨rfl, rfl, rfl⟩
    · rw [clu, if_neg free, State.heard_clu]
  · exact fun s d temp t power stays => exec_throttleRelease_of_stays power stays
  · exact fun s d temp t since power window cool throttled long =>
      ⟨_, exec_throttleRelease_of_cool power window cool throttled long, State.endThrottle_parts _ d⟩
  · intro s d temp t power
    refine ⟨exec_thermalTrip_of_below power, fun above runs => ⟨_, exec_thermalTrip_of_above power above runs, ?_⟩⟩
    simpa only [State.heard_mem, State.heard_mc] using (s.heard d temp t).tripNow_parts

end Sys2Proof.Machine

namespace Sys2Proof.Machine

open Sys2Proof Sys2Proof.Claims

/-! ### What a cold reset finds as it was (10 R344, R357)

Flash and the list of failed sensors. No work of a cluster, a column, a leg or a step changes either: one lemma per function of the model that the cold reset
calls, in the order in which these call one another. -/

/-- The flash and the failed sensors. Where an update of another part leaves them by definition, the proof is `(rfl)` and not `rfl`: `simp` then takes the
lemma as an equation that it may use under the binders of `State.foldl_lasting`. -/
def State.lasting (s : State) : Flash × List Sensor := (s.mc.flash, s.pwr.sensorsBad)

section

variable {s t u : State}

@[simp] theorem State.lasting_mk (p : List Instr) (n f : Nat) (o : List Output) (m : Mems) (ce : Cellar) (h : HostIf) (mc : Mc) (cx : Tbl Ctx) (cl : Tbl Cluster)
    (co : Tbl Core) (l : List LegRun) (nl : Nat) (hb : Hbm) (fa : Fabric) (tg : Toll) (b : Beat) (he : Heat) (pw : Power) (mg : Mgmt) :
    (⟨p, n, f, o, m, ce, h, mc, cx, cl, co, l, nl, hb, fa, tg, b, he, pw, mg⟩ : State).lasting = (mc.flash, pw.sensorsBad) := rfl

@[simp] theorem State.lasting_eta (s : State) : (s.mc.flash, s.pwr.sensorsBad) = s.lasting := rfl

@[simp] theorem State.ite_lasting {p : Prop} [Decidable p] : (if p then t else u).lasting = if p then t.lasting else u.lasting := apply_ite ..

@[simp] theorem State.foldl_lasting {α : Type} {f : State → α → State} (hf : ∀ s a, (f s a).lasting = s.lasting) (l : List α) (s : State) :
    (l.foldl f s).lasting = s.lasting :=
  List.foldlRecOn l f (motive := fun t => t.lasting = s.lasting) rfl fun _ h a _ => (hf _ a).trans h

/-! Single parts of the state -/

@[simp] theorem State.modCol_lasting (s : State) (k : Nat) (f : Column → Column) : (s.modCol k f).lasting = s.lasting := (rfl)
@[simp] theorem State.modStack_lasting (s : State) (h : Nat) (f : Stack → Stack) : (s.modStack h f).lasting = s.lasting := (rfl)
@[simp] theorem State.modRing_lasting (s : State) (n : Nat) (f : Ring → Ring) : (s.modRing n f).lasting = s.lasting := (rfl)
@[simp] theorem State.modLeg_lasting (s : State) (c l : Nat) (f : LegRun → LegRun) : (s.modLeg c l f).lasting = s.lasting := (rfl)
@[simp] theorem State.modCx_lasting (s : State) (c : Nat) (f : Ctx → Ctx) : (s.modCx c f).lasting = s.lasting := (rfl)
@[simp] theorem State.modRun_lasting (s : State) (c : Nat) (f : StepRun → StepRun) : (s.modRun c f).lasting = s.lasting := (rfl)
@[simp] theorem State.modClu_lasting (s : State) (k : Nat) (f : Cluster → Cluster) : (s.modClu k f).lasting = s.lasting := (rfl)
@[simp] theorem State.modCnt_lasting (s : State) (k : Nat) (f : ClCnt → ClCnt) : (s.modCnt k f).lasting = s.lasting := (rfl)
@[simp] theorem State.modCor_lasting (s : State) (k : Nat) (f : Core → Core) : (s.modCor k f).lasting = s.lasting := (rfl)
@[simp] theorem State.modPort_lasting (s : State) (p : Nat) (f : Port → Port) : (s.modPort p f).lasting = s.lasting := (rfl)
@[simp] theorem State.emit_lasting (s : State) (o : Output) : (s.emit o).lasting = s.lasting := (rfl)
@[simp] theorem State.clear_lasting (s : State) (sp : Space) (a n : Nat) : (s.clear sp a n).lasting = s.lasting := (rfl)
@[simp] theorem State.putHome_lasting (s : State) (id : LineId) (h : HomeLine) : (s.putHome id h).lasting = s.lasting := (rfl)
@[simp] theorem State.dropAll_lasting (s : State) (id : LineId) : (s.dropAll id).lasting = s.lasting := (rfl)
@[simp] theorem State.giveL1_lasting (s : State) (k : Nat) (id : LineId) (d : Line) (w : Bool) : (s.giveL1 k id d w).lasting = s.lasting := (rfl)
@[simp] theorem State.countShares_lasting (s : State) : s.countShares.lasting = s.lasting := (rfl)
@[simp] theorem State.free_lasting (s : State) : s.free.2.lasting = s.lasting := (rfl)
@[simp] theorem State.setFactor_lasting (s : State) (k : Rat) : (s.setFactor k).lasting = s.lasting := (rfl)
@[simp] theorem State.keepWaiting_lasting (s : State) (id : LineId) (p : Contribution → Bool) : (s.keepWaiting id p).lasting = s.lasting := (rfl)
@[simp] theorem State.holdReq_lasting (s : State) (id : LineId) (h : HeldReq) : (s.holdReq id h).lasting = s.lasting := (rfl)
@[simp] theorem State.tell_lasting (s : State) (c d : Nat) (m : Msg) : (s.tell c d m).lasting = s.lasting := (rfl)
@[simp] theorem State.notFinite_lasting (s : State) (c : Nat) : (s.notFinite c).lasting = s.lasting := (rfl)
@[simp] theorem State.stampPhase_lasting (s : State) (c ph : Nat) : (s.stampPhase c ph).lasting = s.lasting := (rfl)
@[simp] theorem State.passOver_lasting (s : State) (k set : Nat) : (s.passOver k set).lasting = s.lasting := (rfl)
@[simp] theorem State.countFault_lasting (s : State) (k : Nat) : (s.countFault k).lasting = s.lasting := (rfl)
@[simp] theorem State.endVisits_lasting (s : State) (c l : Nat) : (s.endVisits c l).lasting = s.lasting := (rfl)
@[simp] theorem State.loadHset_lasting (s : State) (c i : Nat) (v : BitVec 256) : (s.loadHset c i v).lasting = s.lasting := (rfl)
@[simp] theorem State.dropAreaBytes_lasting (s : State) (c : Nat) : (s.dropAreaBytes c).lasting = s.lasting := (rfl)
@[simp] theorem State.countHalt_lasting (s : State) (c tile : Nat) : (s.countHalt c tile).lasting = s.lasting := (rfl)
@[simp] theorem State.write_lasting (s : State) (sp : Space) (a : Nat) (bs : List Byte) : (s.write sp a bs).lasting = s.lasting := by
  simp [State.write]

/-! A whole list of them -/

@[simp] theorem State.allCols_lasting (s : State) (f : Column → Column) : (s.allCols f).lasting = s.lasting := by simp [State.allCols]
@[simp] theorem State.allClu_lasting (s : State) (f : Cluster → Cluster) : (s.allClu f).lasting = s.lasting := by simp [State.allClu]
@[simp] theorem State.allCores_lasting (s : State) (f : Core → Core) : (s.allCores f).lasting = s.lasting := by simp [State.allCores]
@[simp] theorem State.allStacks_lasting (s : State) (f : Stack → Stack) : (s.allStacks f).lasting = s.lasting := by simp [State.allStacks]
@[simp] theorem State.allPorts_lasting (s : State) (f : Port → Port) : (s.allPorts f).lasting = s.lasting := by simp [State.allPorts]
@[simp] theorem State.idleLanes_lasting (s : State) : s.idleLanes.lasting = s.lasting := by simp [State.idleLanes]
@[simp] theorem State.clearStrands_lasting (s : State) (k : Nat) : (s.clearStrands k).lasting = s.lasting := by simp [State.clearStrands]
@[simp] theorem State.endHalts_lasting (s : State) (l : List DescRun) : (s.endHalts l).lasting = s.lasting := by simp [State.endHalts]
@[simp] theorem State.freeLeg_lasting (s : State) (g : LegRun) : (s.freeLeg g).lasting = s.lasting := by simp [State.freeLeg]
@[simp] theorem State.freeBlocks_lasting (s : State) (c : Nat) : (s.freeBlocks c).lasting = s.lasting := by simp [State.freeBlocks]
@[simp] theorem State.freeze_lasting (s : State) (c : Nat) : (s.freeze c).lasting = s.lasting := by simp [State.freeze]
@[simp] theorem State.dropCopies_lasting (s : State) : s.dropCopies.lasting = s.lasting := by simp [State.dropCopies]
@[simp] theorem State.trimKeeps_lasting (s : State) (k set : Nat) : (s.trimKeeps k set).lasting = s.lasting := by simp [State.trimKeeps]
@[simp] theorem State.releaseShelf_lasting (s : State) (i : Nat) : (s.releaseShelf i).lasting = s.lasting := by simp [State.releaseShelf]
@[simp] theorem State.releaseShelves_lasting (s : State) (p : Shelf → Bool) : (s.releaseShelves p).lasting = s.lasting :=
  State.foldl_lasting (fun _ _ => by split <;> simp) _ s

@[simp] theorem State.tellRanks_lasting (s : State) (c : Nat) (l : List Nat) (m : Msg) : (s.tellRanks c l m).lasting = s.lasting :=
  State.foldl_lasting (fun _ _ => by
    split
    · rfl
    split <;> rfl) l s

@[simp] theorem State.clearCluster_lasting (s : State) (k : Nat) : (s.clearCluster k).lasting = s.lasting := by simp [State.clearCluster]
@[simp] theorem State.freeCluster_lasting (s : State) (k : Nat) : (s.freeCluster k).lasting = s.lasting := by simp [State.freeCluster]

/-! Receipts, events and fault records -/

@[simp] theorem State.irq_lasting (s : State) (n : Nat) (ev now : Bool) : (s.irq n ev now).lasting = s.lasting := by simp [State.irq]
@[simp] theorem State.postReceipt_lasting (s : State) (n : Nat) (r : BitVec 256) (now : Bool) : (s.postReceipt n r now).lasting = s.lasting := by
  simp [State.postReceipt]
@[simp] theorem State.receiptDue_lasting (s : State) (n : Nat) (r : BitVec 256) (now : Bool) : (s.receiptDue n r now).lasting = s.lasting := by
  simp [State.receiptDue]
@[simp] theorem State.postEvent_lasting (s : State) (r : BitVec 256) : (s.postEvent r).lasting = s.lasting := by simp [State.postEvent]
@[simp] theorem State.event_lasting (s : State) (code ctx detail : Nat) : (s.event code ctx detail).lasting = s.lasting := by simp [State.event]
@[simp] theorem State.setService_lasting (s : State) (b : Bool) : (s.setService b).lasting = s.lasting := by simp [State.setService]
@[simp] theorem State.setCauses_lasting (s : State) (l : List Nat) : (s.setCauses l).lasting = s.lasting := by simp [State.setCauses]
@[simp] theorem State.service_lasting (s : State) (cause : Nat) : (s.service cause).lasting = s.lasting := by simp [State.service]
@[simp] theorem State.fault_lasting (s : State) (kind outcome ctx unit sub spare detail cause : Nat) :
    (s.fault kind outcome ctx unit sub spare detail cause).lasting = s.lasting := by simp [State.fault]
@[simp] theorem State.setAlive_lasting (s : State) (b : Bool) : (s.setAlive b).lasting = s.lasting := by simp [State.setAlive]
@[simp] theorem State.finish_lasting (s : State) (w : Waybill) (status detail detail2 : Nat) : (s.finish w status detail detail2).lasting = s.lasting := by
  unfold State.finish
  split <;> simp

/-! Lines and their homes (chapter 6) -/

@[simp] theorem State.enterPoison_lasting (s : State) (a : Nat) : (s.enterPoison a).lasting = s.lasting := by simp [State.enterPoison]
@[simp] theorem State.leavePoison_lasting (s : State) (a : Nat) : (s.leavePoison a).lasting = s.lasting := by simp [State.leavePoison]
@[simp] theorem State.makePz_lasting (s : State) (id : LineId) : (s.makePz id).lasting = s.lasting := by cases id <;> simp [State.makePz]

@[simp] theorem State.putTier_lasting (s : State) (a : Nat) (l : Line) : (s.putTier a l).lasting = s.lasting := by
  unfold State.putTier
  split <;> simp

@[simp] theorem State.putData_lasting (s : State) (id : LineId) (direct : Bool) (l : Line) : (s.putData id direct l).lasting = s.lasting := by
  cases id <;> simp [State.putData]

@[simp] theorem State.recallAll_lasting (s : State) (id : LineId) (direct : Bool) : (s.recallAll id direct).lasting = s.lasting := by simp [State.recallAll]
@[simp] theorem State.demote_lasting (s : State) (id : LineId) (direct : Bool) : (s.demote id direct).lasting = s.lasting := by simp [State.demote]
@[simp] theorem State.evict_lasting (s : State) (id : LineId) : (s.evict id).lasting = s.lasting := by cases id <;> simp [State.evict]
@[simp] theorem State.evictAll_lasting (s : State) (p : LineId → Bool) : (s.evictAll p).lasting = s.lasting := by simp [State.evictAll]

@[simp] theorem State.touch_lasting (s : State) (id : LineId) (hint : Nat) : (s.touch id hint).lasting = s.lasting := by
  unfold State.touch
  split <;> simp

@[simp] theorem State.settleCopies_lasting (s : State) (id : LineId) (direct : Bool) (hint : Nat) : (s.settleCopies id direct hint).lasting = s.lasting := by
  simp [State.settleCopies]

@[simp] theorem State.settle_lasting (s : State) (id : LineId) (direct : Bool) (hint : Nat) : (s.settle id direct hint).lasting = s.lasting := by
  unfold State.settle
  extract_lets k settled line stamped cel next l
  have kept : next.lasting = s.lasting := by simp [next, stamped, settled]
  clear_value next
  split
  · exact kept
  split <;> simp [kept]

theorem State.makeRoom_lasting {k set : Nat} (h : s.makeRoom k set = some t) : t.lasting = s.lasting := by
  unfold State.makeRoom at h
  extract_lets ls order passed cl deferred at h
  split at h
  · obtain rfl := Option.some.inj h
    rfl
  split at h
  · exact absurd h (by simp)
  next =>
    extract_lets counted at h
    obtain rfl := Option.some.inj h
    simp [counted, deferred]

theorem State.allocate_lasting {c k a set hint fills : Nat} {st : LineSt} {dirty : Bool} {data : Line}
    (h : s.allocate c k a set hint st fills dirty data = some t) : t.lasting = s.lasting := by
  unfold State.allocate at h
  extract_lets trimmed at h
  split at h
  · exact absurd h (by simp)
  next roomy room =>
    obtain rfl := Option.some.inj h
    exact (State.makeRoom_lasting room).trans (s.trimKeeps_lasting k set)

theorem State.fill_lasting {c k a set hint : Nat} (h : s.fill c k a set hint = some t) : t.lasting = s.lasting := State.allocate_lasting h

theorem State.bringEvac_lasting {id : LineId} {hint : Nat} {full : Option Line} (h : s.bringEvac id hint full = some t) : t.lasting = s.lasting := by
  obtain ⟨roomy, room, rfl⟩ := Option.map_eq_some_iff.1 h
  exact (State.makeRoom_lasting room).trans (State.trimKeeps_lasting ..)

@[simp] theorem State.serve_lasting (s : State) (id : LineId) (direct : Bool) (hint : Nat) (ev : HomeEvent) :
    (s.serve id direct hint ev).1.lasting = s.lasting := by
  cases ev with
  | l1Read | l1Write | ownerEvict =>
    simp only [State.serve]
    split <;> simp
  | dropCopy | tileRead | writeAtHome | fullLineWrite => simp [State.serve]
  | victim =>
    simp only [State.serve]
    split
    · rfl
    split
    · simp
    · cases id <;> simp

@[simp] theorem State.waitOver_lasting (s : State) (id : LineId) : (s.waitOver id).lasting = s.lasting := by simp [State.waitOver]

@[simp] theorem State.homeServe_lasting (s : State) (c : Nat) (id : LineId) (direct : Bool) (set hint : Nat) (ev : HomeEvent) :
    (s.homeServe c id direct set hint ev).1.lasting = s.lasting := by
  unfold State.homeServe
  extract_lets h freed sound
  split
  case h_1 => cases ev <;> rfl
  case h_2 =>
    cases ev with
    | fullLineWrite d => cases id <;> simp [sound, freed]
    | victim => exact s.evict_lasting id
    | _ => rfl
  case h_3 =>
    cases id
    case scratch k off =>
      cases ev
      case victim | dropCopy | ownerEvict => rfl
      all_goals
        dsimp only
        split
        next room => simp [State.bringEvac_lasting room]
        next => simp
    case window k a =>
      dsimp only
      split
      · cases ev
        case victim => rfl
        case fullLineWrite => exact s.serve_lasting ..
        all_goals
          dsimp only
          split <;> simp
      · cases ev
        case victim | dropCopy | ownerEvict => rfl
        case fullLineWrite d =>
          dsimp only
          split
          next room => exact State.allocate_lasting room
          next => simp
        all_goals
          dsimp only
          split
          next => simp
          next room => split <;> simp [State.fill_lasting room]
  all_goals simp

@[simp] theorem State.homeStep_lasting (s : State) (c : Nat) (id : LineId) (direct : Bool) (set hint : Nat) (ev : HomeEvent) :
    (s.homeStep c id direct set hint ev).1.lasting = s.lasting := by
  unfold State.homeStep
  extract_lets r
  split
  · split <;> simp [r]
  · simp [r]

@[simp] theorem State.readPlace_lasting (s : State) (c : Nat) (p : Place) (hint : Option Nat) : (s.readPlace c p hint).1.lasting = s.lasting := by
  cases p <;> simp only [State.readPlace]
  case homed => simp
  case flat =>
    split
    · rfl
    split <;> rfl

@[simp] theorem State.readLines_lasting (s : State) (c : Nat) (mu hint : Option Nat) (n a : Nat) (bs : List Byte) :
    (s.readLines c mu hint n a bs).1.lasting = s.lasting := by
  induction n generalizing s a bs with
  | zero => rfl
  | succ n ih =>
    have kept := s.readPlace_lasting c (s.resolve c mu a) hint
    unfold State.readLines
    split
    next e => rw [ih, ← kept, e]
    next e => rw [← kept, e]

@[simp] theorem State.dmaRead_lasting (s : State) (c a n : Nat) : (s.dmaRead c a n).1.lasting = s.lasting := by simp [State.dmaRead]

/-! Contributions, locks and requests that wait -/

@[simp] theorem State.pressApply_lasting (s : State) (c : Contribution) : (s.pressApply c).lasting = s.lasting := by simp [State.pressApply]

@[simp] theorem State.moveRanks_lasting (s : State) (id : LineId) (l : List Nat) : (s.moveRanks id l).lasting = s.lasting := by
  induction l generalizing s with
  | nil => rfl
  | cons r l ih =>
    unfold State.moveRanks
    split
    · rfl
    split
    · rfl
    · simp [ih]

@[simp] theorem State.moveCursor_lasting (s : State) (id : LineId) (n fuel : Nat) : (s.moveCursor id n fuel).lasting = s.lasting := by
  induction fuel generalizing s with
  | zero => rfl
  | succ fuel ih =>
    unfold State.moveCursor
    split
    · rfl
    split
    · rfl
    · simp [ih]

@[simp] theorem State.immApply_lasting (s : State) (o : ImmReq) : (s.immApply o).lasting = s.lasting := by simp [State.immApply]

@[simp] theorem State.tryHeld_lasting (s : State) (h : HeldReq) : (s.tryHeld h).lasting = s.lasting := by
  cases h with
  | req r =>
    have kept := s.homeStep_lasting r.ctx r.line (s.isDirect r.line) (s.setFor r.ctx r.line) r.hint r.ev
    simp only [State.tryHeld]
    split
    · simp
    split
    next e => rw [State.holdReq_lasting, ← kept, e]
    next => simp
    next e => rw [← kept, e]
  | imm o =>
    simp only [State.tryHeld]
    split
    · simp
    split <;> simp

@[simp] theorem State.serveColumn_lasting (s : State) (k : Nat) : (s.serveColumn k).lasting = s.lasting := by simp [State.serveColumn]
@[simp] theorem State.serveHeld_lasting (s : State) (id : LineId) : (s.serveHeld id).lasting = s.lasting := by simp [State.serveHeld]
@[simp] theorem State.closeLock_lasting (s : State) (id : LineId) : (s.closeLock id).lasting = s.lasting := by simp [State.closeLock]

@[simp] theorem State.advance_lasting (s : State) (id : LineId) : (s.advance id).lasting = s.lasting := by
  unfold State.advance
  split
  · rfl
  split
  · rfl
  extract_lets n moved
  have kept : moved.lasting = s.lasting := by simp [moved]
  split
  · exact kept
  · simp [kept]

@[simp] theorem State.advanceAll_lasting (s : State) (c : Nat) : (s.advanceAll c).lasting = s.lasting := by simp [State.advanceAll]
@[simp] theorem State.closeLegLocks_lasting (s : State) (g : LegRun) : (s.closeLegLocks g).lasting = s.lasting := by simp [State.closeLegLocks]
@[simp] theorem State.closeStepLocks_lasting (s : State) (c : Nat) : (s.closeStepLocks c).lasting = s.lasting := by simp [State.closeStepLocks]

/-! Legs and steps (chapter 8) -/

@[simp] theorem State.stopIn_lasting (s : State) (c l : Nat) (keep : Bool) (k : Nat) : (s.stopIn c l keep k).lasting = s.lasting := by simp [State.stopIn]

@[simp] theorem State.endLeg_lasting (s : State) (c l status detail : Nat) : (s.endLeg c l status detail).lasting = s.lasting := by
  unfold State.endLeg
  split <;> simp

@[simp] theorem State.dropMu_lasting (s : State) (c mu cause : Nat) : (s.dropMu c mu cause).lasting = s.lasting := by
  unfold State.dropMu
  split <;> simp

@[simp] theorem State.failLeg_lasting (s : State) (c l status detail cause : Nat) : (s.failLeg c l status detail cause).lasting = s.lasting := by
  unfold State.failLeg
  dsimp only
  split <;> simp

@[simp] theorem State.strandFault_lasting (s : State) (p : Where) (u : StrandRef) (pc : Nat) : (s.strandFault p u pc).lasting = s.lasting := by
  simp [State.strandFault]

@[simp] theorem State.immFault_lasting (s : State) (o : ImmReq) : (s.immFault o).lasting = s.lasting := by
  unfold State.immFault
  split <;> simp

@[simp] theorem State.poisonLine_lasting (s : State) (id : LineId) : (s.poisonLine id).lasting = s.lasting := by simp [State.poisonLine]
@[simp] theorem State.loseCopy_lasting (s : State) (id : LineId) : (s.loseCopy id).lasting = s.lasting := by simp [State.loseCopy]
@[simp] theorem State.coldCellar_lasting (s : State) : s.coldCellar.lasting = s.lasting := by simp [State.coldCellar]

@[simp] theorem State.freeLayer_lasting (s : State) (c mu layer : Nat) : (s.freeLayer c mu layer).lasting = s.lasting := by simp [State.freeLayer]

@[simp] theorem State.dropLeg_lasting (s : State) (g : LegRun) (t : Nat) : (s.dropLeg g t).lasting = s.lasting := by
  unfold State.dropLeg
  dsimp only
  split
  · split <;> simp
  · simp

@[simp] theorem State.cutLonely_lasting (s : State) (g : LegRun) : (s.cutLonely g).lasting = s.lasting := by simp [State.cutLonely]

@[simp] theorem State.sendTrailer_lasting (s : State) (c : Nat) : (s.sendTrailer c).lasting = s.lasting := by
  unfold State.sendTrailer
  split <;> simp

@[simp] theorem State.withdraw_lasting (s : State) (c : Nat) : (s.withdraw c).lasting = s.lasting := by
  unfold State.withdraw
  split <;> simp

@[simp] theorem State.pauseLeg_lasting (s : State) (g : LegRun) : (s.pauseLeg g).lasting = s.lasting := by simp [State.pauseLeg]

@[simp] theorem State.resetLeg_lasting (s : State) (g : LegRun) : (s.resetLeg g).lasting = s.lasting := by
  unfold State.resetLeg
  split
  · simp
  split
  · simp
  · simp
  · simp
  · split <;> simp

@[simp] theorem State.keepStep_lasting (s : State) (c : Nat) (lost : Bool) : (s.keepStep c lost).lasting = s.lasting := by simp [State.keepStep]
@[simp] theorem State.loseRank_lasting (s : State) (c : Nat) : (s.loseRank c).lasting = s.lasting := by simp [State.loseRank]

/-! The end of a step: its mirror, and what its context had set for the boundary -/

@[simp] theorem State.readAll_lasting (s : State) (c a n : Nat) : (s.readAll c a n).1.lasting = s.lasting := by
  have kept := s.dmaRead_lasting c a n
  unfold State.readAll
  split
  next e => rw [← kept, e]
  next e => rw [← kept, e]

@[simp] theorem State.mirrorUnit_lasting (s : State) (c m step : Nat) (t : Tensor) (array u : Nat) : (s.mirrorUnit c m step t array u).lasting = s.lasting := by
  have kept := s.readAll_lasting c (arrayAddr t array + u * sealUnit) (unitBytes (masterBytes t (s.groupSize c) (s.ownRank c)) u)
  unfold State.mirrorUnit
  dsimp only
  split
  next e => rw [← kept, e]
  next e => rw [State.tell_lasting, ← kept, e]

@[simp] theorem State.sendMirror_lasting (s : State) (c step : Nat) (b : CtxBlock) : (s.sendMirror c step b).lasting = s.lasting := by
  unfold State.sendMirror
  split
  · rfl
  · dsimp only
    rw [State.tell_lasting, State.foldl_lasting fun _ _ => by simp]
    simp

@[simp] theorem State.buffer_lasting (s : State) (w : Waybill) : (s.buffer w).1.lasting = s.lasting := by
  unfold State.buffer
  split <;> simp

@[simp] theorem State.giveCluster_lasting (s : State) (c k units stat : Nat) : (s.giveCluster c k units stat).lasting = s.lasting := by simp [State.giveCluster]
@[simp] theorem State.setPlacement_lasting (s : State) (c : Nat) (p : Placement) : (s.setPlacement c p).lasting = s.lasting := by simp [State.setPlacement]

theorem State.tryPlacement_lasting {c : Nat} {p : Placement} (h : s.tryPlacement c p = .ok t) : t.lasting = s.lasting := by
  unfold State.tryPlacement at h
  split at h
  · exact absurd h (by simp)
  split at h
  · exact absurd h (by simp)
  extract_lets placed at h
  split at h
  · exact absurd h (by simp)
  split at h
  · exact absurd h (by simp)
  · obtain rfl := Except.ok.inj h
    exact s.setPlacement_lasting c p

@[simp] theorem State.configure_lasting (s : State) (w : Waybill) : (s.configure w).1.lasting = s.lasting := by
  have kept := s.buffer_lasting w
  unfold State.configure
  dsimp only
  split
  · split
    · exact kept
    split
    · exact kept
    next placed => exact (State.tryPlacement_lasting placed).trans kept
  · exact kept
  · exact kept
  · split <;> simp
  · split <;> simp
  · split <;> simp
  · exact kept

@[simp] theorem State.configureNow_lasting (s : State) (w : Waybill) : (s.configureNow w).lasting = s.lasting := by simp [State.configureNow]
@[simp] theorem State.applyBoundary_lasting (s : State) (c : Nat) : (s.applyBoundary c).lasting = s.lasting := by simp [State.applyBoundary]

@[simp] theorem State.closeStep_lasting (s : State) (c : Nat) (r : StepRun) (e p t : Nat) : (s.closeStep c r e p t).lasting = s.lasting := by
  simp [State.closeStep]

@[simp] theorem State.voidStep_lasting (s : State) (c t : Nat) : (s.voidStep c t).lasting = s.lasting := by
  unfold State.voidStep
  split <;> simp

@[simp] theorem State.loseStep_lasting (s : State) (c : Nat) : (s.loseStep c).lasting = s.lasting := by simp [State.loseStep]
@[simp] theorem State.resetCtx_lasting (s : State) (c : Nat) (lost : Bool) : (s.resetCtx c lost).lasting = s.lasting := by simp [State.resetCtx]

end

end Sys2Proof.Machine

namespace Sys2Proof.Machine

open Sys2Proof Sys2Proof.Claims

/-! ### Power (10 R331; 12 Table 12-2; 13 Table 13-2) -/

section

variable {s : State} {t : Nat}

/-- An update cut off changes the flash only, and of it only which images are rejected. -/
theorem State.dropUpdate_eq (s : State) : ∃ r, s.dropUpdate = { s with mc := { s.mc with flash := { s.mc.flash with rejected := r } } } := by
  unfold State.dropUpdate
  split <;> exact ⟨_, rfl⟩

theorem State.setService_eq (s : State) (b : Bool) : ∃ o, s.setService b = { s with out := o, mc := { s.mc with serviceReq := b } } := by
  unfold State.setService
  split
  next same => exact ⟨s.out, by rw [← same]⟩
  next => exact ⟨_, rfl⟩

/-- What a unit without power keeps: its flash, its pins and the host's memory. -/
def State.darkOf (s u : State) : Prop := u.pwr.switch = false ∧ u.mc.bringup = 0 ∧ u.pwr.stages = List.replicate 8 .off ∧ u.mem.tier2 = [] ∧ u.mem.scratch = []
  ∧ u.mem.tier0 = [] ∧ u.mem.host = s.mem.host ∧ u.ctx = [] ∧ u.legs = [] ∧ u.mc.flashLog = s.mc.flashLog ∧ u.mc.repairMap = s.mc.repairMap
  ∧ u.mc.faultSeq = s.mc.faultSeq ∧ u.pwr.alive = false ∧ u.mc.serviceReq = s.mc.serviceReq

theorem State.darkened_darkOf (s : State) : s.darkOf s.darkened := by
  obtain ⟨_, cut⟩ := s.dropUpdate_eq
  unfold State.darkened
  rw [cut]
  exact ⟨rfl, rfl, rfl, rfl, rfl, rfl, rfl, rfl, rfl, rfl, rfl, rfl, rfl, rfl⟩

theorem State.losePower_darkOf (s : State) : { s with mc := { s.mc with serviceReq := false } }.darkOf s.losePower := by
  obtain ⟨_, dead⟩ := s.setAlive_eq false
  obtain ⟨_, quiet⟩ := (s.setAlive false).setService_eq false
  obtain ⟨_, idle⟩ := ((s.setAlive false).setService false).idleLanes_eq
  obtain ⟨_, cool⟩ := (((s.setAlive false).setService false).idleLanes).setTrip_eq false
  unfold State.losePower
  rw [cool, idle, quiet, dead]
  exact State.darkened_darkOf _

theorem exec_powerLoss_of_open (opened : s.pwr.switch = false) : exec (.powerLoss t) s = .next (s.tick t) :=
  congrArg Host.Outcome.next (if_neg (by simp [State.tick, opened]))

theorem exec_powerLoss_of_closed (closed : s.pwr.switch = true) : exec (.powerLoss t) s = .next (s.tick t).losePower :=
  congrArg Host.Outcome.next (if_pos closed)

theorem exec_powerOn_of_open (opened : s.pwr.switch = false) :
    exec (.powerOn t) s = .next { s.tick t with pwr := { s.pwr with switch := true }, mc := { s.mc with bringup := 1 } } :=
  congrArg Host.Outcome.next (if_neg (by simp [State.tick, opened]))

theorem exec_powerOn_of_closed (closed : s.pwr.switch = true) : exec (.powerOn t) s = .next (s.tick t) :=
  congrArg Host.Outcome.next (if_pos closed)

/-- A power stage without one of its phases. -/
def State.markPhase (s : State) (st ph : Nat) : State := { s with pwr := { s.pwr with stageBad := s.pwr.stageBad ++ [(st, ph)] } }

theorem exec_powerStagePhaseFault_of_new (power : s.powered = true) {st ph : Nat} {holds : Bool} (real : st < 8) (new : (st, ph) ∉ s.pwr.stageBad) :
    exec (.powerStagePhaseFault st ph holds t) s = .next (if holds = true then ((now s t).markPhase st ph).retire [.phase st ph] 0x0B 2 0xF st ph 0xFFFF 0 7
      else (((now s t).markPhase st ph).retire [.phase st ph] 0x0B 2 0xF st ph 0xFFFF 0 7).losePower) := by
  have fresh : ¬(8 ≤ st ∨ (now s t).pwr.stageBad.contains (st, ph) = true) := by simp [real, new]
  simp only [exec, execPowerStagePhaseFault, whenPowered_tick power, fresh, if_false]
  rfl

/-! ### RESET_N and the watchdog (13 R451, R454) -/

/-- The state with RESET_N low. -/
def State.pullReset (s : State) : State := { s with mc := { s.mc with resetNLow := true } }

/-- The state with RESET_N released: test mode is over. -/
def State.freeReset (s : State) : State := { s with mc := { s.mc with resetNLow := false, testMode := false } }

theorem exec_resetNAssert (s : State) (t : Nat) : exec (.resetNAssert t) s = .next (
    if s.powered = false then (s.tick t).pullReset
    else if s.pwr.trip = true then
      if (s.tick t).pullReset.plateCool = true then { (s.tick t).pullReset with mc := { (s.tick t).pullReset.mc with resetting := some 3, resetCause := 5 } }
      else (s.tick t).pullReset
    else (s.tick t).pullReset.coldStart 1) := by
  simp only [exec, execResetNAssert, ← Bool.not_eq_true']
  rfl

theorem exec_resetNRelease (s : State) (t : Nat) : exec (.resetNRelease t) s
    = .next (if s.powered = true ∧ s.pwr.trip = true ∧ s.mc.resetting.isSome = true then (s.tick t).freeReset.endTrip else (s.tick t).freeReset) := by
  simp only [← Bool.and_eq_true, ← Bool.and_assoc]
  rfl

@[simp] theorem now_mc (s : State) (t : Nat) : (now s t).mc = s.mc := by obtain ⟨_, _, _, e, -⟩ := now_eq s t; rw [e]

theorem exec_watchdogExpiry_of_running (power : s.powered = true) (runs : s.pwr.trip = false) (high : s.mc.resetNLow = false) :
    exec (.watchdogExpiry t) s = .next ((now s t).coldStart 2) := by
  simp [exec, execWatchdogExpiry, whenPowered_tick power, runs, high]

/-! ### RESET on the priority ring (11 R401; 13 R452, R454) -/

variable {e : PrioEntry} {level : Nat}

theorem isReset_of_serves (h : serves s e 0xF004) (given : fld e.hdr 160 2 = level) : isReset level (PrioEntry_wb e) = true := isOp_and_of_serves h 0 given

theorem exec_resetContext (h : serves s e 0xF004) (given : fld e.hdr 160 2 = 1) :
    exec (.resetContext e) s = .next ((if s.mc.resetting.isSome = true then (s.takePrio e).joinReset e
      else (((s.takePrio e).contextReset (PrioEntry_wb e).context).finishPrio e 0 0).sweepWbs).sweepPrio 64) :=
  congrArg Host.Outcome.next (State.runPrio_of_serves h (isReset_of_serves h given) _)

theorem exec_resetWarm (h : serves (s.tick t) e 0xF004) (given : fld e.hdr 160 2 = 2) :
    exec (.resetWarm e t) s = .next ((if s.mc.resetting.isSome = true then ((s.tick t).takePrio e).joinReset e
      else ((s.tick t).takePrio e).warmReset.finishPrio e 0 0).sweepPrio 64) :=
  congrArg Host.Outcome.next (State.runPrio_of_serves h (isReset_of_serves h given) _)

theorem exec_resetCold (h : serves (s.tick t) e 0xF004) (given : fld e.hdr 160 2 = 3) : exec (.resetCold e t) s = .next ((
    if s.pwr.trip = true ∧ (!(s.tick t).plateCool) = true then ((s.tick t).takePrio e).finishPrio e 0x0206 s.heat.plate
    else if s.mc.resetting.isSome = true then ((s.tick t).takePrio e).joinReset e
    else if s.pwr.trip = true then (((s.tick t).takePrio e).joinReset e).endTrip
    else (((s.tick t).takePrio e).joinReset e).coldStart 3).sweepPrio 64) :=
  congrArg Host.Outcome.next (State.runPrio_of_serves h (isReset_of_serves h given) _)

/-! ### What a cold reset leaves (13 R451, R454) -/

/-- Two states are alike in what a cold reset sets the beat and the heat model from: the nominal period in flash and the failed sensors. -/
def State.coldLike (s v : State) : Prop := v.mc.flash.nominalPeriod = s.mc.flash.nominalPeriod ∧ v.pwr.sensorsBad = s.pwr.sensorsBad

theorem State.dropUpdate_coldLike {v : State} (kept : v.lasting = s.lasting) : s.coldLike v.dropUpdate := by
  obtain ⟨_, cut⟩ := v.dropUpdate_eq
  obtain ⟨flash, sensors⟩ := Prod.ext_iff.1 kept
  have period : v.mc.flash.nominalPeriod = s.mc.flash.nominalPeriod := congrArg Flash.nominalPeriod flash
  rw [cut]
  exact ⟨period, sensors⟩

theorem State.coldStart_eq (s : State) (cause : Nat) : ∃ v, s.coldLike v ∧ s.coldStart cause = { v with
    fab := v.fab.cold, mc := v.mc.cold cause, tg := v.coldToll, beat := v.coldBeat, heat := v.coldHeat, pwr := { v.pwr with throttles := [] }
    mgmt := v.mgmt.cold } :=
  ⟨_, State.dropUpdate_coldLike (by simp), rfl⟩

theorem State.endTrip_eq (s : State) : ∃ v, s.coldLike v ∧ v.mc.bringup = s.mc.bringup ∧ s.endTrip = { v with
    mc := { v.mc with resetCause := 5, bringup := min 5 v.mc.bringup, zeroDone := false, resetting := some 3 }
    tg := v.coldToll, beat := v.coldBeat, heat := v.coldHeat, mgmt := v.mgmt.cold } := by
  obtain ⟨_, cool⟩ := s.setTrip_eq false
  have tolled : ((s.setTrip false).setTg 2).lasting = s.lasting := by
    obtain ⟨_, floor⟩ := (s.setTrip false).setTg_eq 2
    rw [floor, cool]
    rfl
  have stage : ((s.setTrip false).setTg 2).mc.bringup = s.mc.bringup := by rw [State.setTg_mc, cool]
  obtain ⟨_, cut⟩ := ((s.setTrip false).setTg 2).dropUpdate_eq
  exact ⟨_, State.dropUpdate_coldLike tolled, by rw [cut]; exact stage, rfl⟩

/-- The beat that every cold reset leaves: the slot clock at the nominal frequency (10 R344). -/
theorem State.coldLike.coldBeat_eq {v : State} (like : s.coldLike v) :
    v.coldBeat = { State.reset.beat with period := if s.mc.flash.nominal60 = true then 1666667 else 2000000 } := by
  obtain ⟨period, -⟩ := like
  rw [State.coldBeat, period]
  rfl

theorem State.coldLike.coldHeat_eq {v : State} (like : s.coldLike v) : v.coldHeat = { State.reset.heat with fault := s.pwr.sensorsBad.contains .inlet } := by
  obtain ⟨-, sensors⟩ := like
  rw [State.coldHeat, sensors]

end

/-- Settles O57: power and the pins by their cases, the RESET levels by the service of the priority ring, and what a cold reset leaves from the fact that its
work on cellar, legs and steps changes neither flash nor the failed sensors. What power loss and the resets keep beside 13 Table 13-2 is logs 70, 72 and 73. -/
theorem resets : Obligations.Resets := by
  refine ⟨fun s t => ⟨fun opened => ⟨exec_powerLoss_of_open opened, exec_powerOn_of_open opened⟩, fun closed => ⟨exec_powerOn_of_closed closed,
      _, exec_powerLoss_of_closed closed, State.losePower_darkOf _⟩⟩, ?_, ?_, exec_resetNRelease, ?_, ?_, ?_, ?_, ?_⟩
  · exact fun s st ph t holds power real new => ⟨_, exec_powerStagePhaseFault_of_new power real new, by simp [State.markPhase], by simp [State.markPhase]⟩
  · intro s t u
    rw [exec_resetNAssert, show (s.tick t).pullReset = u from rfl]
    clear_value u
    exact ⟨fun off => by rw [if_pos off], fun power runs => by simp [power, runs], fun power tripped hot => by simp [power, tripped, hot],
      fun power tripped cool => by simp [power, tripped, cool]⟩
  · exact fun s t power runs high => exec_watchdogExpiry_of_running power runs high
  · exact fun s e served given => exec_resetContext served given
  · exact fun s e t served given => exec_resetWarm served given
  · intro s e t served given free
    rw [exec_resetCold served given]
    exact ⟨fun runs => by simp [runs, free], fun tripped cool => by simp [tripped, cool, free], fun tripped hot => by simp [tripped, hot]⟩
  · intro s cause
    obtain ⟨v, like, cold⟩ := s.coldStart_eq cause
    obtain ⟨w, same, stage, ended⟩ := s.endTrip_eq
    rw [cold, ended]
    exact ⟨rfl, rfl, rfl, like.coldBeat_eq, like.coldHeat_eq, rfl, rfl, rfl, congrArg (min 5) stage, rfl, rfl, same.coldBeat_eq.trans like.coldBeat_eq.symm,
      same.coldHeat_eq.trans like.coldHeat_eq.symm⟩

end Sys2Proof.Machine

namespace Sys2Proof.Machine

open Sys2Proof Sys2Proof.Claims

/-! ### The invariant along a step -/

section

variable {s : State}

/-- The invariant says nothing of the queue. -/
theorem State.Inv.setPending (inv : s.Inv) (queue : List Instr) : ({ s with pending := queue } : State).Inv :=
  ⟨inv.mem, inv.tables, inv.faultLog, inv.flashLog, inv.faultLen, inv.flashLen, inv.repairs, inv.lost, inv.gate⟩

end

/-- Settles O4: a step without a command changes nothing, and every command keeps the invariant (`exec_sound`). -/
theorem stepKeepsInv : Obligations.StepKeepsInv := by
  intro s t inv ran
  unfold step at ran
  split at ran
  next =>
    cases ran
    exact inv
  next c rest queue => exact (exec_sound c _ t ran).inv (inv.setPending rest)

/-! ### Fields of a receipt (11 Table 11-3) -/

section

/-- A field is read from its own bits. -/
theorem fld_congr {n m : Nat} {v : BitVec n} {w : BitVec m} {lo len : Nat} (same : ∀ j, lo ≤ j → j < lo + len → v.getLsbD j = w.getLsbD j) :
    fld v lo len = fld w lo len := by
  refine Nat.eq_of_testBit_eq fun i => ?_
  rw [fld, fld, Nat.testBit_mod_two_pow, Nat.testBit_mod_two_pow, Nat.testBit_shiftRight, Nat.testBit_shiftRight]
  by_cases inside : i < len
  · rw [show v.toNat.testBit (lo + i) = w.toNat.testBit (lo + i) from same (lo + i) (by omega) (by omega)]
  · rw [decide_eq_false inside, Bool.false_and, Bool.false_and]

/-- The phase is bit 54 alone. -/
theorem getLsbD_withPhase (r : BitVec 256) (ph : Bool) (j : Nat) : (withPhase r ph).getLsbD j = if j = 54 then ph else r.getLsbD j := by
  have bit (j : Nat) : (BitVec.ofNat 256 (2 ^ 54)).getLsbD j = decide (j = 54) := by
    rw [BitVec.getLsbD_ofNat, Nat.testBit_two_pow, Bool.eq_iff_iff]
    simp only [Bool.and_eq_true, decide_eq_true_eq]
    omega
  have inside : r.getLsbD j = true → j < 256 := BitVec.lt_of_getLsbD
  rw [withPhase]
  cases ph
  · rw [if_neg Bool.false_ne_true, BitVec.getLsbD_and, BitVec.getLsbD_not, bit]
    by_cases phase : j = 54
    · simp [phase]
    · simpa [phase] using inside
  · rw [if_pos rfl, BitVec.getLsbD_or, bit]
    by_cases phase : j = 54 <;> simp [phase]

theorem fld_withPhase (r : BitVec 256) (ph : Bool) {lo len : Nat} (other : lo + len ≤ 54 ∨ 54 < lo) : fld (withPhase r ph) lo len = fld r lo len :=
  fld_congr fun j _ _ => by rw [getLsbD_withPhase, if_neg (by omega)]

/-- The fields of a receipt, without its phase. -/
def receiptParts (status tag opcode ctx kind ring detail time detail2 : Nat) : List (Nat × Nat × Nat) :=
  [(0, 16, status), (16, 16, tag), (32, 16, opcode), (48, 4, ctx), (52, 2, kind), (56, 8, ring), (64, 64, detail), (128, 64, time), (192, 64, detail2)]

variable {status tag opcode ctx kind ring detail time detail2 lo len v : Nat}

theorem mkReceipt_field (listed : (lo, len, v) ∈ receiptParts status tag opcode ctx kind ring detail time detail2) (small : v < 2 ^ len) :
    fld (mkReceipt status tag opcode ctx kind ring detail time detail2) lo len = v := by
  have fits : lo + len ≤ 256 := by
    simp only [receiptParts, List.mem_cons, Prod.mk.injEq, List.not_mem_nil, or_false] at listed
    omega
  exact (fld_pack (fs := receiptParts ..) (by simp [receiptParts]) listed fits).trans (Nat.mod_eq_of_lt small)

/-- The phase stands in no other field. -/
theorem withPhase_mkReceipt_field {ph : Bool} (listed : (lo, len, v) ∈ receiptParts status tag opcode ctx kind ring detail time detail2)
    (small : v < 2 ^ len) :
    fld (withPhase (mkReceipt status tag opcode ctx kind ring detail time detail2) ph) lo len = v := by
  have other : lo + len ≤ 54 ∨ 54 < lo := by
    simp only [receiptParts, List.mem_cons, Prod.mk.injEq, List.not_mem_nil, or_false] at listed
    omega
  rw [fld_withPhase _ _ other, mkReceipt_field listed small]

theorem receiptFields : ReceiptFields := by
  intro status tag opcode ctx kind ring detail time detail2 ph status_lt tag_lt opcode_lt ctx_lt kind_lt ring_lt detail_lt time_lt detail2_lt r
  refine ⟨withPhase_mkReceipt_field ?_ status_lt, withPhase_mkReceipt_field ?_ tag_lt, withPhase_mkReceipt_field ?_ opcode_lt,
    withPhase_mkReceipt_field ?_ ctx_lt, withPhase_mkReceipt_field ?_ kind_lt, (getLsbD_withPhase _ ph 54).trans (if_pos rfl),
    withPhase_mkReceipt_field ?_ ring_lt, withPhase_mkReceipt_field ?_ detail_lt, withPhase_mkReceipt_field ?_ time_lt,
    withPhase_mkReceipt_field ?_ detail2_lt⟩ <;> simp [receiptParts]

/-! A field that is filled in later -/

variable {a b : List (Nat × Nat × Nat)} {n : Nat}

theorem packNat_append (a b : List (Nat × Nat × Nat)) : packNat (a ++ b) = packNat a + packNat b := by
  induction a with
  | nil => exact (Nat.zero_add _).symm
  | cons e a ih => rw [List.cons_append, packNat, packNat, ih, Nat.add_assoc]

/-- Setting a field that stands empty, between what lies below and above it, adds it. -/
theorem or_field_eq_add {high low : Nat} (above : 2 ^ (lo + len) ∣ high) (below : low < 2 ^ lo) (fits : n < 2 ^ len) :
    (low + high) ||| 2 ^ lo * n = low + (2 ^ lo * n + high) := by
  obtain ⟨q, rfl⟩ := above
  have field : 2 ^ lo * n + low < 2 ^ (lo + len) := calc
    2 ^ lo * n + low < 2 ^ lo * (n + 1) := by rw [Nat.mul_succ]; omega
    _ ≤ 2 ^ (lo + len) := by
      rw [Nat.pow_add]
      exact Nat.mul_le_mul_left _ fits
  have bottom : low < 2 ^ (lo + len) := by omega
  calc (low + 2 ^ (lo + len) * q) ||| 2 ^ lo * n
    _ = 2 ^ (lo + len) * q ||| (2 ^ lo * n ||| low) := by
      rw [Nat.add_comm, Nat.two_pow_add_eq_or_of_lt bottom, Nat.or_assoc, Nat.or_comm low]
    _ = low + (2 ^ lo * n + 2 ^ (lo + len) * q) := by
      rw [← Nat.two_pow_add_eq_or_of_lt below, ← Nat.two_pow_add_eq_or_of_lt field]
      omega

theorem packNat_or_field (below : packNat a < 2 ^ lo) (above : ∀ e ∈ b, lo + len ≤ e.1) (fits : n < 2 ^ len) :
    packNat (a ++ (lo, len, 0) :: b) ||| 2 ^ lo * n = packNat (a ++ (lo, len, n) :: b) := by
  rw [packNat_append, packNat_append, packNat, packNat, Nat.zero_mod, Nat.zero_mul, Nat.zero_add, Nat.mod_eq_of_lt fits, Nat.mul_comm n,
    or_field_eq_add (packNat_dvd above) below fits]

/-- The ring's number set in its field: an event is made out before the ring that takes it is known (11 R387). -/
theorem mkReceipt_or_ring (fits : n < 2 ^ 8) : mkReceipt status tag opcode ctx kind 0 detail time detail2 ||| BitVec.ofNat 256 (2 ^ 56 * n)
    = mkReceipt status tag opcode ctx kind n detail time detail2 := by
  have below : packNat [(0, 16, status), (16, 16, tag), (32, 16, opcode), (48, 4, ctx), (52, 2, kind)] < 2 ^ 56 := by
    simp only [packNat]
    omega
  rw [mkReceipt, pack, ← BitVec.ofNat_or]
  exact congrArg (BitVec.ofNat 256) (packNat_or_field (b := [(64, 64, detail), (128, 64, time), (192, 64, detail2)]) below (by simp) fits)

end

/-! ### Bytes of the host's memory (log 3) -/

section

theorem hostGet_eq_tget (t : Tbl Byte) (a : Nat) : hostGet t a = tget (Config.hostByte a) t a := by
  induction t with
  | nil => rfl
  | cons e t ih =>
    obtain ⟨k, v⟩ := e
    by_cases found : k = a
    · rw [tget, if_pos found, hostGet, List.find?_cons_of_pos (p := fun e : Nat × Byte => e.1 == a) (beq_iff_eq.2 found)]
    · rw [tget, if_neg found, ← ih, hostGet, hostGet, List.find?_cons_of_neg (p := fun e : Nat × Byte => e.1 == a) (by simpa using found)]

/-- A read of the host's memory after a write: the bytes written, and every other byte as before. -/
theorem hostGet_hostPut (t : Tbl Byte) (a : Nat) (bs : List Byte) (x : Nat) :
    hostGet (hostPut t a bs) x = if a ≤ x ∧ x < a + bs.length then bs.getD (x - a) 0 else hostGet t x := by
  have middle : ∀ e ∈ cells a bs, a ≤ e.1 ∧ e.1 < a + bs.length := fun e => mem_cells
  have last : ∀ e ∈ tfrom t (a + bs.length), a + bs.length ≤ e.1 := fun e listed => (mem_tfrom listed).2
  have first : ∀ e ∈ tbelow t a, e.1 < a := fun e listed => (mem_tbelow listed).2
  rw [hostGet_eq_tget, hostGet_eq_tget, hostPut]
  split_ifs with written
  · rw [tget_append_right _ fun e listed => by have := first e listed; omega, tget_append_left _ fun e listed => by have := last e listed; omega,
      tget_cells _ a bs written, List.getD_eq_getElem _ _ (by omega), List.getD_eq_getElem _ _ (by omega)]
  · by_cases under : x < a
    · rw [tget_append_left, tget_tbelow _ t under]
      intro e listed
      obtain listed | listed := List.mem_append.1 listed
      · have := middle e listed; omega
      · have := last e listed; omega
    · rw [tget_append_right _ fun e listed => by have := first e listed; omega, tget_append_right _ fun e listed => by have := middle e listed; omega,
        tget_tfrom _ t (by omega)]

/-- A read after a write to any memory: the bytes written, and every other byte as before. -/
theorem State.readByte_write_any (s : State) (sp : Space) (a : Nat) (bs : List Byte) (sp' : Space) (x : Nat) :
    (s.write sp a bs).readByte sp' x = if sp' = sp ∧ a ≤ x ∧ x < a + bs.length then bs.getD (x - a) 0 else s.readByte sp' x := by
  by_cases host : sp = .host
  · subst host
    rw [State.write, if_pos rfl]
    by_cases same : sp' = .host
    · subst same
      simp only [true_and]
      exact hostGet_hostPut s.mem.host a bs x
    · rw [if_neg fun h => same h.1, State.readByte, State.readByte, if_neg same, if_neg same, Mems.sp_put, if_neg same]
  · exact s.readByte_write host a bs sp' x

/-- The bytes of a number that was written. -/
theorem State.readByte_write_number (s : State) (sp : Space) (a v : Nat) {n i : Nat} (low : i < n) :
    (s.write sp a (bytesOfNat n v)).readByte sp (a + i) = BitVec.ofNat 8 (v / 256 ^ i) := by
  rw [State.readByte_write_any, if_pos ⟨rfl, by omega, by rw [length_bytesOfNat]; omega⟩, Nat.add_sub_cancel_left, getD_bytesOfNat low]

theorem State.readByte_write_number_of_outside (s : State) (sp : Space) (a v n : Nat) {sp' : Space} {x : Nat} (outside : sp' ≠ sp ∨ x < a ∨ a + n ≤ x) :
    (s.write sp a (bytesOfNat n v)).readByte sp' x = s.readByte sp' x := by
  rw [State.readByte_write_any, length_bytesOfNat, if_neg]
  rintro ⟨same, above, below⟩
  exact outside.elim (· same) (by omega)

end

/-! ### Receipts written (11 R378, R408) -/

section

variable {s : State} {n : Nat} {r : BitVec 256}

/-- The address in host memory of a completion ring's next receipt. -/
def Ring.receiptAddr (g : Ring) : Nat := 4096 * g.cqBase + 32 * g.cqTail

/-- A completion ring with one more receipt written: the phase turns at the wrap. -/
def Ring.advance (g : Ring) : Ring := { g with cqTail := (g.cqTail + 1) % 4096, phase := g.phase != decide (g.cqTail = 4095) }

/-- The state with receipt r in the next place of ring n. -/
def State.receiptPut (s : State) (n : Nat) (r : BitVec 256) : State :=
  (s.write .host (s.ring n).receiptAddr (bytesOfNat 32 (withPhase r (s.ring n).phase).toNat)).modRing n Ring.advance

theorem State.postReceipt_of_room (runs : (s.ring n).halted = false) (first : (s.ring n).waiting = []) (room : (s.ring n).full = false) (now : Bool) :
    s.postReceipt n r now = (s.receiptPut n r).irq n (isEvent r) now := by
  have turn : (fun x : Ring => { x with cqTail := (x.cqTail + 1) % 4096, phase := if x.cqTail + 1 = 4096 then !x.phase else x.phase }) = Ring.advance := by
    funext x
    by_cases wrap : x.cqTail = 4095 <;> simp [Ring.advance, wrap]
  rw [State.receiptPut, ← turn, Ring.receiptAddr, Nat.mul_comm 32]
  simp only [State.postReceipt, runs, first, room, List.isEmpty_nil, Bool.not_true, Bool.or_self, Bool.false_eq_true, if_false]

/-- The interrupt of a receipt changes of the rings only how many receipts one has gathered. -/
theorem State.irq_ring (s : State) (n : Nat) (ev now : Bool) (k : Nat) : ∃ g, (s.irq n ev now).ring k = { s.ring k with gathered := g } := by
  have gathers (f : Nat) : ∃ g, (s.modRing n fun r => { r with gathered := f }).ring k = { s.ring k with gathered := g } := by
    rw [State.ring_modRing]
    split_ifs with same
    · exact ⟨f, by rw [same]⟩
    · exact ⟨_, rfl⟩
  unfold State.irq
  extract_lets g reset
  split
  · exact ⟨_, rfl⟩
  split
  · split <;> exact gathers 0
  · exact gathers g

theorem State.irq_wbs (s : State) (n : Nat) (ev now : Bool) : (s.irq n ev now).host.wbs = s.host.wbs := by
  unfold State.irq
  split
  · rfl
  extract_lets g reset
  split
  · split <;> rfl
  · rfl

@[simp] theorem State.write_ring (s : State) (sp : Space) (a : Nat) (bs : List Byte) (k : Nat) : (s.write sp a bs).ring k = s.ring k := by
  obtain ⟨_, e⟩ := s.write_eq sp a bs
  rw [e]
  rfl

@[simp] theorem State.write_host (s : State) (sp : Space) (a : Nat) (bs : List Byte) : (s.write sp a bs).host = s.host := by
  obtain ⟨_, e⟩ := s.write_eq sp a bs
  rw [e]

theorem State.receiptPut_ring (s : State) (n : Nat) (r : BitVec 256) : (s.receiptPut n r).ring n = (s.ring n).advance := by
  rw [State.receiptPut, State.ring_modRing_self, State.write_ring]

/-- A receipt posted leaves the waybills of its ring that are out as they were counted. -/
theorem State.postReceipt_outstanding (s : State) (n : Nat) (r : BitVec 256) (now : Bool) :
    ((s.postReceipt n r now).ring n).outstanding = (s.ring n).outstanding := by
  unfold State.postReceipt
  extract_lets g a w v
  split
  · rw [State.ring_modRing_self]
  split
  · rw [State.ring_modRing_self]
  obtain ⟨_, e⟩ := v.irq_ring n (isEvent r) now n
  rw [e, State.ring_modRing_self, State.write_ring]

theorem State.postReceipt_wbs (s : State) (n : Nat) (r : BitVec 256) (now : Bool) : (s.postReceipt n r now).host.wbs = s.host.wbs := by
  unfold State.postReceipt
  extract_lets g a w v
  split
  · rfl
  split
  · rfl
  · rw [State.irq_wbs]
    have kept : w.host = s.host := s.write_host ..
    exact (congrArg HostIf.wbs kept :)

theorem State.receiptDue_outstanding (s : State) (n : Nat) (r : BitVec 256) (now : Bool) :
    ((s.receiptDue n r now).ring n).outstanding = (s.ring n).outstanding := by
  unfold State.receiptDue
  split
  · exact s.postReceipt_outstanding n r now
  · rfl

theorem State.receiptDue_wbs (s : State) (n : Nat) (r : BitVec 256) (now : Bool) : (s.receiptDue n r now).host.wbs = s.host.wbs := by
  unfold State.receiptDue
  split
  · exact s.postReceipt_wbs n r now
  · rfl

theorem State.receiptDue_of_linkDown (down : s.host.linkUp = false) (now : Bool) :
    s.receiptDue n r now = { s with host := { s.host with held := s.host.held ++ [(some n, r, now)] } } := by
  rw [State.receiptDue, down, Bool.false_and, if_neg Bool.false_ne_true]

theorem State.receiptDue_of_linkUp (up : s.host.linkUp = true) (none : ∀ h ∈ s.host.held, h.1 ≠ some n) (now : Bool) :
    s.receiptDue n r now = s.postReceipt n r now := by
  have free : (s.host.linkUp && !(s.host.held.any fun h => h.1 == some n)) = true := by simpa [up] using none
  rw [State.receiptDue, if_pos free]

end

/-! ### The final receipt (11 R378, R384, R385) -/

section

variable {s : State} {w : Waybill} {e : WbEntry} {status detail detail2 : Nat}

/-- The entry e of waybill w has left the list, and its ring has one waybill fewer out. -/
def State.completed (s : State) (w : Waybill) (e : WbEntry) : State :=
  ({ s with host := { s.host with wbs := s.host.wbs.erase e } } : State).modRing w.ring fun r => { r with outstanding := r.outstanding - 1 }

/-- The ring of a completed waybill is otherwise as it was. -/
theorem State.completed_ring (s : State) (w : Waybill) (e : WbEntry) :
    (s.completed w e).ring w.ring = { s.ring w.ring with outstanding := (s.ring w.ring).outstanding - 1 } := State.ring_modRing_self ..

/-- The final receipt of waybill w, but for its phase. -/
def State.finalReceipt (s : State) (w : Waybill) (status detail detail2 : Nat) : BitVec 256 :=
  mkReceipt status w.tag w.op w.context 0 w.ring detail s.beat.slots detail2

section

variable (listed : s.host.wbs.find? (fun e => e.wb == w) = some e) (kept : e.dropped = false)

include listed kept

theorem State.finish_of_listed : s.finish w status detail detail2 = if (w.quiet && status == 0) = true then s.completed w e
    else (s.completed w e).receiptDue w.ring (s.finalReceipt w status detail detail2) w.irq := by
  rw [State.finish, listed]
  simp only [kept, Bool.false_eq_true, if_false]
  rfl

theorem State.finish_of_quiet (quiet : w.quiet = true) (good : status = 0) : s.finish w status detail detail2 = s.completed w e := by
  rw [State.finish_of_listed listed kept, if_pos (by simp [quiet, good])]

theorem State.finish_of_answered (answered : w.quiet = false ∨ status ≠ 0) :
    s.finish w status detail detail2 = (s.completed w e).receiptDue w.ring (s.finalReceipt w status detail detail2) w.irq := by
  rw [State.finish_of_listed listed kept, if_neg (by simpa [imp_iff_not_or] using answered)]

theorem State.finish_wbs : (s.finish w status detail detail2).host.wbs = s.host.wbs.erase e := by
  rw [State.finish_of_listed listed kept]
  split
  · rfl
  · rw [State.receiptDue_wbs]
    rfl

theorem State.finish_outstanding : ((s.finish w status detail detail2).ring w.ring).outstanding = (s.ring w.ring).outstanding - 1 := by
  rw [State.finish_of_listed listed kept]
  split
  · rw [State.completed_ring]
  · rw [State.receiptDue_outstanding, State.completed_ring]

/-! With the link up and room in the ring -/

variable (answered : w.quiet = false ∨ status ≠ 0) (up : s.host.linkUp = true) (none : ∀ h ∈ s.host.held, h.1 ≠ some w.ring)
  (runs : (s.ring w.ring).halted = false) (first : (s.ring w.ring).waiting = []) (room : (s.ring w.ring).full = false)

include answered up none runs first room

/-- The final receipt is put in the ring's next place. -/
theorem State.finish_of_room :
    s.finish w status detail detail2 = ((s.completed w e).receiptPut w.ring (s.finalReceipt w status detail detail2)).irq w.ring
      (isEvent (s.finalReceipt w status detail detail2)) w.irq := by
  have ring := s.completed_ring w e
  rw [State.finish_of_answered listed kept answered, State.receiptDue_of_linkUp (s := s.completed w e) up none,
    State.postReceipt_of_room (by rw [ring]; exact runs) (by rw [ring]; exact first) (by rw [ring]; exact room)]

theorem State.finish_mem_of_room : (s.finish w status detail detail2).mem = (s.write .host (s.ring w.ring).receiptAddr
    (bytesOfNat 32 (withPhase (s.finalReceipt w status detail detail2) (s.ring w.ring).phase).toNat)).mem := by
  have place : ((s.completed w e).ring w.ring).receiptAddr = (s.ring w.ring).receiptAddr := by
    rw [State.completed_ring]
    rfl
  rw [State.finish_of_room listed kept answered up none runs first room, State.irq_mem, State.receiptPut, place, State.completed_ring]
  rfl

theorem State.finish_ring_of_room : ((s.finish w status detail detail2).ring w.ring).cqTail = (s.ring w.ring).advance.cqTail
    ∧ ((s.finish w status detail detail2).ring w.ring).phase = (s.ring w.ring).advance.phase := by
  obtain ⟨g, ring⟩ := ((s.completed w e).receiptPut w.ring (s.finalReceipt w status detail detail2)).irq_ring w.ring
    (isEvent (s.finalReceipt w status detail detail2)) w.irq w.ring
  rw [State.finish_of_room listed kept answered up none runs first room, ring, State.receiptPut_ring, State.completed_ring]
  exact ⟨rfl, rfl⟩

end

theorem finalReceipt : FinalReceipt := by
  intro s w status detail detail2 e listed kept t r a
  refine ⟨State.finish_wbs listed kept, State.finish_outstanding listed kept, fun quiet good => ?_, fun answered down => ?_,
    fun answered up none runs first room => ?_⟩
  · rw [show t = _ from State.finish_of_quiet listed kept quiet good]
    exact ⟨rfl, rfl⟩
  · rw [show t = _ from State.finish_of_answered listed kept answered, State.receiptDue_of_linkDown (s := s.completed w e) down]
    exact ⟨rfl, rfl⟩
  · have mem : t.mem = _ := State.finish_mem_of_room listed kept answered up none runs first room
    refine ⟨fun i low => ?_, fun sp b outside => ?_, State.finish_ring_of_room listed kept answered up none runs first room⟩
    · rw [State.readByte_congr mem]
      exact s.readByte_write_number _ _ _ low
    · rw [State.readByte_congr mem]
      exact s.readByte_write_number_of_outside _ _ _ _ outside

end

/-- Settles O24: the final receipt by whether one is due, the link is up and the ring has room; its fields are the ones it was packed from. -/
theorem receipts : Obligations.Receipts := ⟨finalReceipt, receiptFields⟩

/-! ### Events (11 R374, R387) -/

section

variable {s : State} {code ctx detail : Nat} {r : BitVec 256}

theorem State.event_of_linkDown (down : s.host.linkUp = false) : s.event code ctx detail
    = { s with host := { s.host with held := s.host.held ++ [(none, mkReceipt code 0 0 ctx 2 0 detail s.beat.slots 0, false)] } } := by
  rw [State.event, down, Bool.false_and, if_neg Bool.false_ne_true]

theorem State.event_of_linkUp (up : s.host.linkUp = true) (none : ∀ h ∈ s.host.held, h.1 ≠ none) :
    s.event code ctx detail = s.postEvent (mkReceipt code 0 0 ctx 2 0 detail s.beat.slots 0) := by
  have free : (s.host.linkUp && !(s.host.held.any fun h => h.1 == Option.none)) = true := by simpa [up] using none
  rw [State.event, if_pos free]

/-- An event counted as lost. -/
def State.eventLost (s : State) : State := { s with mc := { s.mc with eventsLost := min 0xFFFF (s.mc.eventsLost + 1) } }

/-- The event ring takes events: it is enabled, and neither waits nor is halted. -/
def State.eventsOpen (s : State) : Bool :=
  s.host.eventEn && (s.ring s.host.eventRing).enabled && !(s.ring s.host.eventRing).fullWait && !(s.ring s.host.eventRing).halted

theorem State.postEvent_of_closed (closed : s.eventsOpen = false) : s.postEvent r = s.eventLost := by
  unfold State.eventsOpen at closed
  simp only [State.postEvent, closed, Bool.false_and, Bool.false_eq_true, if_false]
  rfl

theorem State.postEvent_of_full (takes : s.eventsOpen = true) (full : (s.ring s.host.eventRing).full = true) :
    s.postEvent r = (s.modRing s.host.eventRing fun x => { x with fullWait := true }).eventLost := by
  unfold State.eventsOpen at takes
  simp only [State.postEvent, takes, full, Bool.not_true, Bool.and_false, Bool.false_eq_true, if_false, if_true]
  rfl

theorem State.postEvent_of_room (takes : s.eventsOpen = true) (room : (s.ring s.host.eventRing).full = false) :
    s.postEvent r = s.postReceipt s.host.eventRing (r ||| BitVec.ofNat 256 (2 ^ 56 * s.host.eventRing)) false := by
  unfold State.eventsOpen at takes
  simp only [State.postEvent, takes, room, Bool.not_false, Bool.and_self, if_true]

theorem isEvent_mkReceipt (status tag opcode ctx ring detail time detail2 : Nat) :
    isEvent (mkReceipt status tag opcode ctx 2 ring detail time detail2) = true :=
  beq_iff_eq.2 (mkReceipt_field (by simp [receiptParts]) (by decide))

@[simp] theorem State.receiptPut_mc (s : State) (n : Nat) (r : BitVec 256) : (s.receiptPut n r).mc = s.mc := rfl
@[simp] theorem State.receiptPut_out (s : State) (n : Nat) (r : BitVec 256) : (s.receiptPut n r).out = s.out := rfl

end

/-- Settles O25: an event is held while the link is down (11 R374); with its ring closed it is lost (R380, R387), as it is with the ring full, which waits then
(R378); and a ring with room takes it under its own number. -/
theorem eventsWrittenOrLost : Obligations.EventsWrittenOrLost := by
  intro s code ctx detail
  refine ⟨State.event_of_linkDown, fun up none => ⟨fun closed => ?_, fun en on goes runs full => ?_, fun en on room goes runs first low => ?_⟩⟩
  · have shut : s.eventsOpen = false := by
      obtain off | off | waits | halted := closed <;> simp [State.eventsOpen, *]
    rw [State.event_of_linkUp up none, State.postEvent_of_closed shut]
    rfl
  · have takes : s.eventsOpen = true := by simp [State.eventsOpen, en, on, goes, runs]
    refine ⟨_, rfl, ?_⟩
    rw [State.event_of_linkUp up none, State.postEvent_of_full takes full]
    rfl
  · have takes : s.eventsOpen = true := by simp [State.eventsOpen, en, on, goes, runs]
    have posted : s.event code ctx detail = s.postReceipt s.host.eventRing (mkReceipt code 0 0 ctx 2 s.host.eventRing detail s.beat.slots 0) false := by
      rw [State.event_of_linkUp up none, State.postEvent_of_room takes room, mkReceipt_or_ring (by omega)]
    have written : s.event code ctx detail
        = (s.receiptPut s.host.eventRing (mkReceipt code 0 0 ctx 2 s.host.eventRing detail s.beat.slots 0)).emit (.msix 65) := by
      rw [posted, State.postReceipt_of_room runs first room, isEvent_mkReceipt, State.irq, if_pos rfl]
    refine ⟨posted, ?_, ?_⟩
    · rw [written, State.emit_mc, State.receiptPut_mc]
    · rw [written, State.emit_out, State.receiptPut_out]

/-! ### The priority ring (11 R398 to R403) -/

section

variable {s : State} {e : PrioEntry} {status detail : Nat}

/-- The address in BAR2 of the receipt of slot i. -/
def prioReceiptAddr (i : Nat) : Nat := 0x400 + 32 * i

/-- The receipt that entry e of the BAR ring gets in s: the phase bit of its slot is turned. -/
def State.prioReceipt (s : State) (e : PrioEntry) (status detail : Nat) : BitVec 256 :=
  withPhase (mkReceipt status (PrioEntry_wb e).tag (PrioEntry_wb e).op (PrioEntry_wb e).context 0 0x40 detail s.beat.slots 0)
    (!bit (natOfBytes (s.read .bar2 (prioReceiptAddr e.slot) 32)) 54)

/-- The state with that receipt in its slot and the ring's head past it. -/
def State.prioAnswered (s : State) (e : PrioEntry) (status detail : Nat) : State :=
  let u := s.write .bar2 (prioReceiptAddr e.slot) (bytesOfNat 32 (s.prioReceipt e status detail).toNat)
  { u with host := { u.host with prioBusy := false, prioHead := (e.slot + 1) % 16 } }

theorem State.finishPrio_of_bar (bar : e.mctp = false) :
    s.finishPrio e status detail = if s.host.linkUp = true then (s.prioAnswered e status detail).emit (.msix 64) else s.prioAnswered e status detail := by
  have ring : (PrioEntry_wb e).ring = 0x40 := by rw [PrioEntry_wb, bar, if_neg Bool.false_ne_true]
  simp only [State.finishPrio, bar, ring, Bool.false_eq_true, if_false, Nat.mul_comm e.slot, State.write_host]
  rfl

/-- A receipt of the priority ring (11 R398, R400). -/
theorem prioReceipts (s : State) (e : PrioEntry) (status detail : Nat) (bar : e.mctp = false) (t : State) (done : t = s.finishPrio e status detail) :
    t.host.prioBusy = false ∧ t.host.prioHead = (e.slot + 1) % 16
    ∧ (∀ i < 32, t.readByte .bar2 (prioReceiptAddr e.slot + i) = BitVec.ofNat 8 ((s.prioReceipt e status detail).toNat / 256 ^ i))
    ∧ (∀ sp a, (sp ≠ .bar2 ∨ a < prioReceiptAddr e.slot ∨ prioReceiptAddr e.slot + 32 ≤ a) → t.readByte sp a = s.readByte sp a)
    ∧ (s.host.linkUp = true → t.out = s.out ++ [.msix 64]) := by
  rw [State.finishPrio_of_bar bar] at done
  have mem : t.mem = (s.write .bar2 (prioReceiptAddr e.slot) (bytesOfNat 32 (s.prioReceipt e status detail).toNat)).mem := by
    rw [done]
    split <;> rfl
  have host : t.host = (s.prioAnswered e status detail).host := by
    rw [done]
    split <;> rfl
  refine ⟨by rw [host]; rfl, by rw [host]; rfl, fun i inside => ?_, fun sp a outside => ?_, fun up => ?_⟩
  · rw [State.readByte_congr mem, State.readByte_write_number _ _ _ _ inside]
  · rw [State.readByte_congr mem, State.readByte_write_number_of_outside _ _ _ _ _ outside]
  · rw [done, if_pos up]
    rfl

/-- With an entry in each of the two sources, the one that was not served last goes next (11 R403). -/
theorem State.nextPrio_of_both {a b : PrioEntry} {l m : List PrioEntry} (free : s.host.prioBusy = false) (idle : s.host.mctpBusy = false)
    (ring : s.host.prioQ = a :: l) (bus : s.host.mctpQ = b :: m) : s.nextPrio = some (if s.host.barServed then b else a) := by
  simp only [State.nextPrio, free, idle, ring, bus, Bool.or_self, Bool.false_eq_true, if_false]

theorem priorityReceipts : PriorityReceipts := by
  refine ⟨fun s e status detail bar _ => prioReceipts s e status detail bar _ rfl,
    fun s a b l m free idle ring bus => ⟨fun served => ?_, fun served => ?_⟩⟩
  · rw [State.nextPrio_of_both free idle ring bus, if_pos served]
  · rw [State.nextPrio_of_both free idle ring bus, if_neg (by simp [served])]

/-- The entries between the old tail and a new one. -/
def State.posted (s : State) (v : DWord) : Nat := (fld v 0 4 + 16 - s.host.prioTail) % 16

/-- The entries at and after the head that are not served yet. -/
def State.standing (s : State) : Nat := (s.host.prioTail + 16 - s.host.prioHead) % 16

section

variable {v : DWord} (serves : s.hostServes = true) (keep : v.getLsbD 14 = false) (some : s.posted v ≠ 0)

include serves keep some

theorem exec_priorityDoorbell_of_room (room : s.posted v + s.standing ≤ 15) : exec (.priorityDoorbell v []) s = .next { s with host := { s.host with
    prioTail := fld v 0 4, prioQ := s.host.prioQ ++ (List.range (s.posted v)).map fun i => s.prioEntry ((s.host.prioTail + i) % 16) } } := by
  have fits : ¬15 < s.posted v + s.standing := by omega
  unfold State.posted State.standing at *
  simp only [exec, execPriorityDoorbell, serves, State.hostEntries, State.writePrio, bitAt, keep, some, fits, if_true, if_false, Bool.false_eq_true]

theorem exec_priorityDoorbell_of_overrun (overrun : 15 < s.posted v + s.standing) :
    exec (.priorityDoorbell v []) s = .next { s with host := { s.host with overrun := true } } := by
  unfold State.posted State.standing at *
  simp only [exec, execPriorityDoorbell, serves, State.hostEntries, State.writePrio, bitAt, keep, some, overrun, if_true, if_false, Bool.false_eq_true]

end

theorem priorityDoorbells : PriorityDoorbells := by
  intro s v up link tail head keep posted
  have serves : s.hostServes = true := State.hostServes_of_le up link
  refine ⟨fun some room => exec_priorityDoorbell_of_room serves keep some room,
    fun overrun some => exec_priorityDoorbell_of_overrun serves keep some overrun, ?_⟩
  rintro e i low _ rfl
  rw [State.hostEntries, State.hostEntries, Nat.mod_eq_of_lt tail, Nat.mul_comm 64]
  exact s.readByte_write_number _ _ _ low

end

/-- Settles O34: the receipts of the priority ring with its two sources, and its doorbell. -/
theorem priorityRing : Obligations.PriorityRing := ⟨priorityReceipts, priorityDoorbells⟩

/-! ### Waybills fetched and checked (11 R377, R388) -/

section

variable {s : State} {w : Waybill} {fs : List (Nat × Nat)}

/-- A submission ring with one waybill more taken out of it. -/
def Ring.takeNext (g : Ring) : Ring := { g with sqHead := (g.sqHead + 1) % 4096, outstanding := g.outstanding + 1 }

/-- The state after a fetch from ring n, before the new waybill joins the list: what failed its checks before is answered, and the round robin stands at n. -/
def State.fetchedFrom (s : State) (n : Nat) : State :=
  let u := s.sweepWbs.modRing n Ring.takeNext
  let same := n == s.host.rrRing && decide (0 < s.host.rrLeft)
  { u with host := { u.host with rrRing := n, rrLeft := if same then s.host.rrLeft - 1 else (s.ring n).weight - 1 } }

theorem State.fetchedFrom_ring (s : State) (n k : Nat) : (s.fetchedFrom n).ring k
    = if k = n then (s.sweepWbs.ring n).takeNext else s.sweepWbs.ring k := s.sweepWbs.ring_modRing n k _

theorem exec_waybillFetch_of_grant {n : Nat} (hdr : BitVec 512) (buf : List Byte) (err : Option DWord) (up : 5 ≤ s.mc.bringup)
    (runs : s.mc.coreAlive.getD 1 false = true) (link : s.host.linkUp = true) (grant : s.grant = some n) :
    exec (.waybillFetch hdr buf err) s = .next (({ s.fetchedFrom n with
      host := { (s.fetchedFrom n).host with wbs := (s.fetchedFrom n).host.wbs ++ [⟨⟨n, hdr, buf⟩, false, false, err⟩] } } : State).sweepWbs) := by
  simp only [exec, execWaybillFetch, State.barServes_of_le up, runs, link, grant, Bool.not_true, Bool.or_self, Bool.false_eq_true, if_false]
  rfl

theorem waybillFetched : WaybillFetched := by
  intro s hdr buf err n up runs link grant
  refine ⟨s.fetchedFrom n, exec_waybillFetch_of_grant hdr buf err up runs link grant, ?_, rfl, rfl, rfl, fun k other => ?_⟩
  · rw [State.fetchedFrom_ring, if_pos rfl, Ring.takeNext]
  · rw [State.fetchedFrom_ring, if_neg other]

/-! The checks of a header in their order -/

theorem State.checkHeader_of_unlisted (unlisted : opFields w.op = none) : s.checkHeader w = some (0x0101, w.op) := by
  rw [State.checkHeader, unlisted]

theorem State.checkHeader_of_firstBad {i : Nat} (listed : opFields w.op = some fs) (bad : s.firstBad w fs = some i) : s.checkHeader w = some (0x0102, i) := by
  simp only [State.checkHeader, listed, bad]

theorem State.checkHeader_of_context (listed : opFields w.op = some fs) (clean : s.firstBad w fs = none) : s.checkHeader w = s.badContext w := by
  simp only [State.checkHeader, listed, clean]

theorem bit_eq_testBit (v i : Nat) : bit v i = v.testBit i := by
  rw [Nat.testBit_eq_decide_div_mod_eq, bit, bitsOf, Nat.shiftRight_eq_div_pow, pow_one]
  rfl

theorem lowestBit_of_testBit {n v j : Nat} (inside : j < n) (set : v.testBit j = true) :
    ∃ i, lowestBit n v = some i ∧ v.testBit i = true ∧ ∀ k, v.testBit k = true → i ≤ k := by
  simp only [lowestBit, bit_eq_testBit]
  cases found : (List.range n).find? fun i => v.testBit i with
  | none => exact absurd set (by simpa using List.find?_eq_none.1 found j (List.mem_range.2 inside))
  | some i =>
    obtain ⟨here, -, least⟩ := List.find?_range_eq_some.1 found
    refine ⟨i, rfl, here, fun k other => Nat.le_of_not_lt fun below => ?_⟩
    simpa [other] using least k below

/-- Bits [63:41] of a header are reserved for every opcode (11 Table 11-2). -/
theorem reservedBits_testBit (fs : List (Nat × Nat)) {j : Nat} (above : 41 ≤ j) (below : j < 64) : (reservedBits fs).testBit j = true := by
  have field : reservedBits fs / 2 ^ 41 % 2 ^ 23 = (2 ^ 23 - 1) % 2 ^ 23 :=
    packNat_field (List.pairwise_pair.2 (Nat.le_of_ble_eq_true rfl)) (List.mem_cons_self ..)
  have inside : j - 41 < 23 := by omega
  calc (reservedBits fs).testBit j
    _ = (reservedBits fs / 2 ^ 41 % 2 ^ 23).testBit (j - 41) := by
      rw [Nat.testBit_mod_two_pow, Nat.testBit_div_two_pow, Nat.sub_add_cancel above, decide_eq_true inside, Bool.true_and]
    _ = true := by
      rw [field, Nat.testBit_mod_two_pow, Nat.testBit_two_pow_sub_one, decide_eq_true inside, Bool.and_self]

/-- A reserved bit among [63:41] makes the header fail at it or at one below, which is set too, or else at a bad parameter. -/
theorem State.firstBad_of_reserved (s : State) (fs : List (Nat × Nat)) (set : ∃ j, 41 ≤ j ∧ j < 64 ∧ w.hdr.getLsbD j = true) :
    ∃ i, s.firstBad w fs = some i ∧ (w.hdr.getLsbD i = true ∨ 160 ≤ i) ∧ ∀ j, 41 ≤ j → j < 64 → w.hdr.getLsbD j = true → i ≤ j := by
  have bad {j : Nat} (above : 41 ≤ j) (below : j < 64) (on : w.hdr.getLsbD j = true) : (w.hdr.toNat &&& reservedBits fs).testBit j = true := by
    rw [Nat.testBit_and, reservedBits_testBit fs above below, Bool.and_true]
    exact on
  obtain ⟨j, above, below, on⟩ := set
  obtain ⟨k, first, bit, least⟩ := lowestBit_of_testBit (n := 512) (by omega) (bad above below on)
  have bit : w.hdr.getLsbD k = true := by
    rw [Nat.testBit_and, Bool.and_eq_true] at bit
    exact bit.1
  have params : s.firstBad w fs = (k :: (s.badParams w).map fun i => 160 + i).min? := by
    simp only [State.firstBad, first, List.singleton_append]
  obtain ⟨i, lowest⟩ : ∃ i, (k :: (s.badParams w).map fun i => 160 + i).min? = some i := ⟨_, List.min?_cons'⟩
  obtain ⟨listed, bound⟩ := List.min?_eq_some_iff.1 lowest
  refine ⟨i, params.trans lowest, ?_, fun j above below on => (bound k (List.mem_cons_self ..)).trans (least j (bad above below on))⟩
  obtain rfl | param := List.mem_cons.1 listed
  · exact .inl bit
  · obtain ⟨_, -, rfl⟩ := List.mem_map.1 param
    exact .inr (Nat.le_add_right ..)

theorem waybillChecks : WaybillChecks := by
  intro s w
  refine ⟨State.checkHeader_of_unlisted, fun fs listed set => ?_, fun fs listed clean no => ?_, fun fs listed clean no any high => ?_,
    fun fs listed clean no any low other => ?_⟩
  · obtain ⟨i, bad, rest⟩ := s.firstBad_of_reserved fs set
    exact ⟨i, State.checkHeader_of_firstBad listed bad, rest⟩
  · rw [State.checkHeader_of_context listed clean, State.badContext, if_pos no]
  · rw [State.checkHeader_of_context listed clean, State.badContext, if_neg (by simp [no]), if_neg (by simp [any]), if_pos high]
  · rw [State.checkHeader_of_context listed clean, State.badContext, if_neg (by simp [no]), if_neg (by simp [any]), if_neg (by omega)]
    simp [other]

end

/-- Settles O23: the fetch of a waybill, and the checks of its header in their order. -/
theorem waybillsFetchedAndChecked : Obligations.WaybillsFetchedAndChecked := ⟨waybillFetched, waybillChecks⟩

end Sys2Proof.Machine

namespace Sys2Proof.Machine

open Sys2Proof Sys2Proof.Claims

/-! ### The queue of commands (logs 1, 5, 15) -/

section

variable {s : State}

theorem step_of_front {c : Instr} {rest : List Instr} (queue : s.pending = c :: rest) : step s = exec c { s with pending := rest } := by
  simp only [step, queue]

theorem step_of_idle (queue : s.pending = []) : step s = .next s := by simp only [step, queue]

/-- No command stops the module or is refused: each has a next state. -/
theorem exec_answers (i : Instr) (s : State) : ∃ t, exec i s = .next t := by
  cases i <;> exact ⟨_, rfl⟩

end

/-- Settles O1. -/
theorem stepRunsFront : Obligations.StepRunsFront := fun _ _ _ => step_of_front

/-- Settles O2: that the block idles is log 15. -/
theorem stepIdle : Obligations.StepIdle := fun _ => step_of_idle

/-- Settles O3: at reset every memory, table and log is empty. -/
theorem invAtReset : Obligations.InvAtReset where
  mem := rfl
  tables := rfl
  faultLog := logWf_nil _
  flashLog := logWf_nil _
  faultLen := Nat.zero_le _
  flashLen := Nat.zero_le _
  repairs := Nat.zero_le _
  lost := Nat.zero_le _
  gate := by decide

/-- Settles O5: every command has a next state (`exec_answers`), and what it keeps of the queue, the outputs and the counters is `exec_sound`. That the timer is
the largest time a command has carried is log 5, that an empty queue idles log 15, and that free values are counted log 2. -/
theorem everyStepCompletes : Obligations.EveryStepCompletes := by
  intro s
  cases queue : s.pending with
  | nil => exact ⟨s, step_of_idle queue, by rw [queue]; rfl, List.prefix_refl _, le_refl _, le_refl _, le_refl _⟩
  | cons c rest =>
    obtain ⟨t, ran⟩ := exec_answers c { s with pending := rest }
    have kept := exec_sound c _ t ran
    exact ⟨t, (step_of_front queue).trans ran, kept.pending, kept.out, kept.now, kept.seq, kept.free⟩

end Sys2Proof.Machine

namespace Sys2Proof.Machine

open Sys2Proof Sys2Proof.Claims

/-! ### The management bus (13 R461 to R463; log 81) -/

section

variable {s : State} {f : State → State}

theorem State.onBus_of_served (served : s.busServed = true) : s.onBus f = f s := if_pos served

theorem State.onBus_of_not_served (silent : s.busServed = false) : s.onBus f = s := if_neg (by simp [silent])

theorem State.onRom_of_served (served : s.romServed = true) : s.onRom f = f s := if_pos served

theorem State.romServed_of_busServed (served : s.busServed = true) : s.romServed = true := by simp [State.romServed, served]

/-! SPDM (13 R459, R460) -/

/-- A reply on state t, which is s at its next stage. -/
theorem spdmReplied_of_answer {t : State} {i : Instr} {request stage : Nat} {old content : List Byte} (ran : exec i s = .next (t.spdmAnswer request content))
    (next : t = { s with mgmt := { s.mgmt with spdm := stage, transcript := old } }) : spdmReplied s i stage old content := by
  subst next
  exact ⟨_, _, rfl, ran⟩

theorem State.eq_at_stage {n : Nat} (stage : s.mgmt.spdm = n) : s = { s with mgmt := { s.mgmt with spdm := n, transcript := s.mgmt.transcript } } := by
  subst stage
  rfl

theorem State.spdmReady_of_agreed (served : s.busServed = true) (agreed : s.mgmt.spdm = 3) : s.spdmReady 0 f = f s :=
  (State.onBus_of_served served).trans (if_pos ⟨agreed, rfl⟩)

theorem State.spdmReady_of_not {slot : Nat} (served : s.busServed = true) (early : ¬(s.mgmt.spdm = 3 ∧ slot = 0)) : s.spdmReady slot f = s.emit .spdmError :=
  (State.onBus_of_served served).trans (if_neg early)

theorem exec_getVersion (served : s.busServed = true) :
    exec .getVersion s = .next (({ s with mgmt := { s.mgmt with transcript := [] } } : State).spdmStage 1 |>.spdmAnswer 0x84 [0x12]) :=
  congrArg _ (State.onBus_of_served served)

theorem exec_getCapabilities (served : s.busServed = true) :
    exec .getCapabilities s = .next (if s.mgmt.spdm = 1 then (s.spdmStage 2).spdmAnswer 0xE1 [] else s.emit .spdmError) :=
  congrArg _ (State.onBus_of_served served)

theorem exec_negotiateAlgorithms (served : s.busServed = true) (a b : Bool) : exec (.negotiateAlgorithms a b) s
    = .next (if s.mgmt.spdm = 2 ∧ a = true ∧ b = true then (s.spdmStage 3).spdmAnswer 0xE3 [] else s.emit .spdmError) :=
  congrArg _ (State.onBus_of_served served)

theorem exec_getMeasurements (served : s.busServed = true) (agreed : s.mgmt.spdm = 3) (index : Nat) (nonce : BitVec 256) : exec (.getMeasurements index nonce) s
    = .next (if index = 0 then s.spdmSigned 0xE0 nonce [6]
      else if index = 255 then s.spdmSigned 0xE0 nonce s.mgmt.measured.flatten
      else match s.mgmt.measured[index - 1]? with
        | some d => s.spdmSigned 0xE0 nonce d
        | none => s.emit .spdmError) :=
  congrArg _ (State.spdmReady_of_agreed served agreed)

theorem exec_getMeasurements_of_item (served : s.busServed = true) (agreed : s.mgmt.spdm = 3) {index : Nat} {item : List Byte} (low : 1 ≤ index)
    (high : index < 255) (measured : s.mgmt.measured[index - 1]? = some item) (nonce : BitVec 256) :
    exec (.getMeasurements index nonce) s = .next (s.spdmSigned 0xE0 nonce item) := by
  rw [exec_getMeasurements served agreed, if_neg (by omega), if_neg (by omega), measured]

end

theorem spdm : Spdm := by
  intro s served
  refine ⟨spdmReplied_of_answer (exec_getVersion served) rfl, fun first => ?_, fun other => ?_, fun second => ?_, fun a b refused => ?_, fun third => ?_,
    fun early => ?_, fun slot other => ?_⟩
  · exact spdmReplied_of_answer ((exec_getCapabilities served).trans (congrArg _ (if_pos first))) rfl
  · exact (exec_getCapabilities served).trans (congrArg _ (if_neg other))
  · exact spdmReplied_of_answer ((exec_negotiateAlgorithms served true true).trans (congrArg _ (if_pos ⟨second, rfl, rfl⟩))) rfl
  · refine (exec_negotiateAlgorithms served a b).trans (congrArg _ (if_neg ?_))
    rintro ⟨second, rfl, rfl⟩
    simp [second] at refused
  · have asked {f : State → State} : s.spdmReady 0 f = f s := State.spdmReady_of_agreed served third
    have same := State.eq_at_stage third
    refine ⟨spdmReplied_of_answer (congrArg _ asked) same, fun off len => spdmReplied_of_answer (congrArg _ asked) same,
      fun nonce => spdmReplied_of_answer (congrArg _ asked) same, fun nonce i d low high item => ?_, fun nonce => ?_⟩
    · exact spdmReplied_of_answer (exec_getMeasurements_of_item served third low high item nonce) same
    · exact spdmReplied_of_answer (exec_getMeasurements served third 0 nonce) same
  · have refused {slot : Nat} {f : State → State} : s.spdmReady slot f = s.emit .spdmError := State.spdmReady_of_not served fun h => early h.1
    exact ⟨congrArg _ refused, fun _ _ _ => congrArg _ refused, fun _ _ => congrArg _ refused, fun _ _ => congrArg _ refused⟩
  · have refused {f : State → State} : s.spdmReady slot f = s.emit .spdmError := State.spdmReady_of_not served fun h => other h.2
    exact ⟨fun _ _ => congrArg _ refused, fun _ => congrArg _ refused⟩

/-! ### The test access port (13 R465, R466, Table 13-8; log 84) -/

section

variable {s : State}

theorem State.onTap_of_powered (power : s.pwr.switch = true) {f : State → State} : s.onTap f = f s := if_pos power

theorem getElem?_wordBits (w : BitVec 32) {i : Nat} (low : i < 32) : (wordBits w)[i]? = some (w.getLsbD i) := by simp [wordBits, low]

theorem State.getLsbD_idReg (s : State) {i : Nat} (low : i < 32) :
    s.idReg.getLsbD i = ((0xE1600B5 + 2 ^ 28 * (s.mc.flash.stepping % 16)) / 2 ^ i % 2 == 1) := by
  have fields : packNat [(0, 28, 0xE1600B5), (28, 4, s.mc.flash.stepping)] = 0xE1600B5 + 2 ^ 28 * (s.mc.flash.stepping % 16) := by
    simp only [packNat]
    omega
  rw [State.idReg, pack, BitVec.getLsbD_ofNat, fields, Nat.testBit_eq_decide_div_mod_eq, decide_eq_true low, Bool.true_and]
  rfl

/-- Test mode entered, the host link down. -/
def State.enterTest (s : State) : State := { s with mc := { s.mc with testMode := true }, host := { s.host with linkUp := false } }

theorem State.enterTest_port (s : State) (n : Nat) : s.enterTest.port n = s.port n := rfl

/-- TESTMODE with RESET_N low: the lanes idle, and ALIVE_N and the host link go down. -/
def State.inTest (s : State) : State := ((s.setTap .testmode).setAlive false).idleLanes.enterTest

theorem exec_testmode (power : s.pwr.switch = true) : exec .testmode s = .next (if s.mc.resetNLow = true then s.inTest else s) :=
  congrArg _ (State.onTap_of_powered power)

theorem exec_extest (power : s.pwr.switch = true) (cells : List Bool) : exec (.extest cells) s
    = .next (if s.mc.testMode = true then { s with mgmt := { s.mgmt with tap := .extest, cells := cells } } else s) :=
  congrArg _ (State.onTap_of_powered power)

theorem State.inTest_eq (s : State) : ∃ o ports, s.inTest = { s with
    out := o, fab := { s.fab with ports := ports }, mc := { s.mc with testMode := true }, host := { s.host with linkUp := false }
    mgmt := { s.mgmt with tap := .testmode }, pwr := { s.pwr with alive := false } } := by
  obtain ⟨o, dead⟩ := (s.setTap .testmode).setAlive_eq false
  obtain ⟨ports, idle⟩ := ((s.setTap .testmode).setAlive false).idleLanes_eq
  refine ⟨o, ports, ?_⟩
  rw [State.inTest, idle, dead]
  rfl

theorem State.inTest_width (s : State) {n : Nat} (low : n < 12) : (s.inTest.port n).width = 0 := by
  rw [State.inTest, State.enterTest_port, State.idleLanes_port _ low]

end

theorem testAccess : TestAccess := by
  intro s power
  have served {f : State → State} : s.onTap f = f s := State.onTap_of_powered power
  refine ⟨fun p => congrArg _ served, ⟨_, congrArg _ served, by simp [wordBits], fun i low => ?_⟩, fun x => congrArg _ served, congrArg _ served,
    congrArg _ served, fun cells => ⟨fun inTest => ?_, fun out => ?_⟩, fun high => ?_, fun pulled => ?_⟩
  · rw [getElem?_wordBits _ low, s.getLsbD_idReg low]
  · rw [exec_extest power, if_pos inTest]
  · rw [exec_extest power, if_neg (by simp [out])]
  · rw [exec_testmode power, if_neg (by simp [high])]
  · obtain ⟨o, ports, e⟩ := s.inTest_eq
    refine ⟨s.inTest, by rw [exec_testmode power, if_pos pulled], ?_, ?_, ?_, fun n => s.inTest_width, ?_, ?_⟩ <;> rw [e]

/-- Settles O60. That SPDM requests out of order get the error reply is log 82, the layout bytes of replies are log 13, and that the TAP answers while the
module has power is log 84. -/
theorem spdmAndTestAccess : Obligations.SpdmAndTestAccess := ⟨spdm, testAccess⟩

end Sys2Proof.Machine

namespace Sys2Proof.Machine

open Sys2Proof Sys2Proof.Claims

/-! ### Sensors, effecters and firmware update on the management bus (13 Table 13-6, R462, R463) -/

section

variable {s : State}

/-- A sensor is read without a change of the state, but that the input voltage is a free value (log 2). -/
theorem State.sensorValue_state (s : State) (x : PldmSensor) : { (s.sensorValue x).1 with freeCtr := s.freeCtr } = s := by
  cases x <;> rfl

theorem State.sensorValue_state_of_held {x : PldmSensor} (held : x ≠ .inputVoltage) : (s.sensorValue x).1 = s := by
  cases x with
  | inputVoltage => exact absurd rfl held
  | _ => rfl

theorem State.sensorValue_allowance (s : State) :
    (s.sensorValue .allowance).2 ≤ s.tg.allowance ∧ s.tg.allowance < (s.sensorValue .allowance).2 + 1 :=
  ⟨Int.floor_le _, Int.lt_floor_add_one _⟩

theorem State.sensorValue_modelPlate (s : State) :
    (s.sensorValue .modelPlate).2 ≤ s.heat.model ∧ s.heat.model < (s.sensorValue .modelPlate).2 + 1 :=
  ⟨Int.floor_le _, Int.lt_floor_add_one _⟩

theorem State.sensorValue_beatValid (s : State) : (s.sensorValue .beatValid).2 = if s.beat.valid = true then 1 else 0 := by
  simp [State.sensorValue, b2n]

theorem keepUnless_self (ok : Bool) (n : Nat) : keepUnless ok n n = n := by simp [keepUnless]

theorem keepUnless_of_between {low high old n : Nat} (least : low ≤ n) (most : n ≤ high) : keepUnless (decide (low ≤ n ∧ n ≤ high)) old n = n := by
  rw [keepUnless_decide, if_pos ⟨least, most⟩]

theorem keepUnless_of_outside {low high old n : Nat} (outside : n < low ∨ high < n) : keepUnless (decide (low ≤ n ∧ n ≤ high)) old n = old := by
  rw [keepUnless_decide, if_neg (by omega)]

theorem exec_digitalSetpointEffecter (served : s.busServed = true) (watts t : Nat) : exec (.digitalSetpointEffecter watts t) s
    = .next (if watts ≤ 3300 then (s.tick t).writeSetpoint watts s.tg.deep t else s.tick t) :=
  congrArg _ (State.onBus_of_served (s := s.tick t) served)

theorem exec_mctpPriorityMessage (served : s.busServed = true) (v : BitVec 16) (x : Byte) (h : BitVec 512) : exec (.mctpPriorityMessage v x h) s
    = .next (if v ≠ s.mc.flash.vendorId ∨ x ≠ 1 then s.emit .mctpError else { s with host := { s.host with mctpQ := s.host.mctpQ ++ [⟨true, 0, h⟩] } }) :=
  congrArg _ (State.onBus_of_served served)

/-- The inactive image of an update (13 R463): its own bytes, and its verdict; the active image and which one that is stay. -/
theorem Flash.writeInactive_image (f : Flash) (bs : List Byte) (bad : Bool) :
    (f.writeInactive bs bad).image (!f.active) = bs ∧ (f.writeInactive bs bad).image f.active = f.image f.active
      ∧ (f.writeInactive bs bad).active = f.active ∧ (f.writeInactive bs bad).isRejected (!f.active) = bad := by
  cases active : f.active <;> simp [Flash.writeInactive, Flash.image, Flash.isRejected, active]

theorem exec_firmwareUpdateTransfer_of_other (served : s.romServed = true) {n : Nat} (image : n ≠ 1) (config : n ≠ 2) (bs : List Byte) :
    exec (.firmwareUpdateTransfer n bs) s = .next s := by
  refine (congrArg _ (State.onRom_of_served served)).trans ?_
  rw [if_neg image, if_neg config]

theorem exec_activateFirmware (served : s.romServed = true) : exec .activateFirmware s = .next (match s.mgmt.update with
    | some (1, _) => ({ s with mgmt := { s.mgmt with update := none } } : State).modFlash fun f => { f with active := !f.active, attempts := 0 }
    | some (_, bs) => { s with mgmt := { s.mgmt with update := none, pendingCfg := some bs } }
    | none => s) :=
  (congrArg _ (State.onRom_of_served served)).trans (by rfl)

theorem busSilent (silent : s.busServed = false) :
    (∀ v x h, exec (.mctpPriorityMessage v x h) s = .next s) ∧ (∀ b, exec (.pldmEventsEnable b) s = .next s)
      ∧ (∀ x, exec (.getSensorReading x) s = .next s) ∧ (∀ n, exec (.coolantFlowEffecter n) s = .next s ∧ exec (.plateLimitEffecter n) s = .next s)
      ∧ ∀ n t, exec (.digitalSetpointEffecter n t) s = .next (s.tick t) := by
  have ignored {f : State → State} : s.onBus f = s := State.onBus_of_not_served silent
  exact ⟨fun _ _ _ => congrArg _ ignored, fun _ => congrArg _ ignored, fun _ => congrArg _ ignored, fun _ => ⟨congrArg _ ignored, congrArg _ ignored⟩,
    fun _ t => congrArg _ (State.onBus_of_not_served (s := s.tick t) silent)⟩

theorem sensorReadings (served : s.busServed = true) (x : PldmSensor) : ∃ (u : State) (v : Int),
    exec (.getSensorReading x) s = .next (u.emit (.pldmReading (some v)))
      ∧ { u with freeCtr := s.freeCtr } = s ∧ (x ≠ .inputVoltage → u = s)
      ∧ (x = .inputPower → v = s.tg.inputW) ∧ (x = .allowance → v ≤ s.tg.allowance ∧ s.tg.allowance < v + 1) ∧ (x = .coolantInlet → v = s.heat.inlet)
      ∧ (x = .coldPlate → v = s.heat.plate) ∧ (x = .modelPlate → v ≤ s.heat.model ∧ s.heat.model < v + 1) ∧ (∀ h, x = .hbmStack h → v = (s.stack h).temp)
      ∧ (x = .tollgateState → v = s.tg.st) ∧ (x = .beatValid → v = if s.beat.valid = true then 1 else 0) := by
  refine ⟨_, _, congrArg _ (State.onBus_of_served served), s.sensorValue_state x, State.sensorValue_state_of_held, ?_, ?_, ?_, ?_, ?_, ?_, ?_, ?_⟩
  case refine_1 | refine_3 | refine_4 | refine_7 => rintro rfl; rfl
  case refine_2 => rintro rfl; exact s.sensorValue_allowance
  case refine_5 => rintro rfl; exact s.sensorValue_modelPlate
  case refine_6 => rintro h rfl; rfl
  case refine_8 => rintro rfl; exact s.sensorValue_beatValid

theorem coolantFlows (served : s.busServed = true) (n : Nat) : ∃ h : Heat, exec (.coolantFlowEffecter n) s = .next { s with heat := h }
    ∧ (20 ≤ n → n ≤ 40 → h.flow = n) ∧ ((n < 20 ∨ 40 < n) → h.flow = s.heat.flow) ∧ { h with flow := s.heat.flow } = s.heat :=
  ⟨_, congrArg _ (State.onBus_of_served served), keepUnless_of_between, keepUnless_of_outside, by simp only [keepUnless_self]⟩

theorem plateLimits (served : s.busServed = true) (n : Nat) : ∃ h : Heat, exec (.plateLimitEffecter n) s = .next { s with heat := h }
    ∧ (40 ≤ n → n ≤ 85 → h.limit = n) ∧ ((n < 40 ∨ 85 < n) → h.limit = s.heat.limit) ∧ { h with limit := s.heat.limit } = s.heat :=
  ⟨_, congrArg _ (State.onBus_of_served served), keepUnless_of_between, keepUnless_of_outside, by simp only [keepUnless_self]⟩

end

/-- Settles O59. When the bus is served is log 81, that a setpoint above 3,300 W is ignored and that the input voltage is free log 82, and what a transfer and
an activation do log 83. -/
theorem management : Obligations.Management := by
  refine ⟨fun s => busSilent, fun s served => ?_, fun s bs served => ?_, fun s served => ?_⟩
  · have rom := State.romServed_of_busServed served
    refine ⟨fun v x h => ⟨fun other => ?_, fun own kind => ?_⟩, congrArg _ (State.onRom_of_served rom), fun a => congrArg _ (State.onRom_of_served rom),
      fun e => congrArg _ (State.onRom_of_served rom), fun b => congrArg _ (State.onBus_of_served served), sensorReadings served,
      fun n t => ⟨fun low => ?_, fun high => ?_⟩, fun b t => congrArg _ (State.onBus_of_served (s := s.tick t) served), coolantFlows served, plateLimits served⟩
    · rw [exec_mctpPriorityMessage served, if_pos other]
    · rw [exec_mctpPriorityMessage served, if_neg (by simp [own, kind])]
    · rw [exec_digitalSetpointEffecter served, if_pos low]
    · rw [exec_digitalSetpointEffecter served, if_neg (by omega)]
  · obtain ⟨written, kept, same, verdict⟩ := s.mc.flash.writeInactive_image bs (!s.mc.flash.accepts bs)
    exact ⟨_, congrArg _ (State.onRom_of_served served), written, kept, same, verdict, congrArg _ (State.onRom_of_served served), fun n image config =>
      exec_firmwareUpdateTransfer_of_other served image config bs⟩
  · exact ⟨fun none => by rw [exec_activateFirmware served, none], fun bs image => by rw [exec_activateFirmware served, image]; rfl,
      fun bs config => by rw [exec_activateFirmware served, config]; rfl⟩

end Sys2Proof.Machine

namespace Sys2Proof.Machine

open Sys2Proof Sys2Proof.Claims

/-! ### What a fault record changes (12 R412 to R414, R421, R424) -/

section

variable {s : State}

/-- Events write host memory alone (11 R378): every other byte space stays. -/
theorem State.postReceipt_hostMem (s : State) (n : Nat) (r : BitVec 256) (irqNow : Bool) :
    ∃ o b h, s.postReceipt n r irqNow = { s with out := o, mem := { s.mem with host := b }, host := h } := by
  unfold State.postReceipt
  extract_lets g a w v
  split
  · exact ⟨_, _, _, rfl⟩
  split
  · exact ⟨_, _, _, rfl⟩
  obtain ⟨o, h, e⟩ := v.irq_eq n (isEvent r) irqNow
  exact ⟨o, _, h, e⟩

theorem State.event_hostMem (s : State) (code ctx detail : Nat) : ∃ o b h n,
    s.event code ctx detail = { s with out := o, mem := { s.mem with host := b }, host := h, mc := { s.mc with eventsLost := n } } := by
  unfold State.event State.postEvent
  extract_lets r n isOpen
  clear_value isOpen
  split
  · split
    · obtain ⟨o, b, h, e⟩ := s.postReceipt_hostMem n (r ||| BitVec.ofNat 256 (2 ^ 56 * n)) false
      exact ⟨o, b, h, _, e⟩
    · cases isOpen <;> exact ⟨_, _, _, _, rfl⟩
  · exact ⟨_, _, _, _, rfl⟩

theorem State.setCauses_eq (s : State) (l : List Nat) : ∃ o, s.setCauses l = { s with out := o, mc := { s.mc with causes := l } } := by
  unfold State.setCauses
  extract_lets u
  split
  next same =>
    subst same
    exact ⟨s.out, rfl⟩
  split <;> exact ⟨_, rfl⟩

/-- The causes of the replacement request with one more. -/
def withCause (l : List Nat) (cause : Nat) : List Nat := if l.contains cause then l else l ++ [cause]

theorem mem_withCause (l : List Nat) (cause : Nat) : cause ∈ withCause l cause := by
  unfold withCause
  split
  next listed => simpa using listed
  next => simp

/-- The replacement request (12 R424): what it changes, and the cause among its causes. -/
theorem State.service_eq (s : State) (cause : Nat) : ∃ o b h n map causes, cause ∈ causes ∧ s.service cause = { s with
    out := o, mem := { s.mem with host := b }, host := h
    mc := { s.mc with repairMap := map, serviceReq := true, causes := causes, eventsLost := n } } := by
  unfold State.service
  extract_lets map noted u
  have requested : ∃ o, u = { s with out := o, mc := { s.mc with repairMap := map, serviceReq := true } } := State.setService_eq _ true
  clear_value u map
  obtain ⟨o, rfl⟩ := requested
  obtain ⟨o', listed⟩ := State.setCauses_eq { s with out := o, mc := { s.mc with repairMap := map, serviceReq := true } } (withCause s.mc.causes cause)
  obtain ⟨o'', b, h, n, told⟩ :=
    State.event_hostMem { s with out := o', mc := { s.mc with repairMap := map, serviceReq := true, causes := withCause s.mc.causes cause } } 0x800C 0xF cause
  exact ⟨o'', b, h, n, map, _, mem_withCause .., (congrArg (State.event · 0x800C 0xF cause) listed).trans told⟩

/-- The record that a fault writes (12 R412, Table 12-1). -/
def State.faultRecord (s : State) (kind outcome ctx unit sub spare detail cause : Nat) : FaultRec :=
  ⟨s.mc.faultSeq, s.beat.slots, kind, outcome, ctx, unit, sub, spare, if ctx < 4 then (s.cx ctx).step else 0, detail, cause⟩

/-- Fault record f written, before anything else happens (12 R412 to R414). -/
def State.recorded (s : State) (f : FaultRec) : State := { s with mc := { s.mc with
  faultSeq := s.mc.faultSeq + 1
  faultLog := (s.mc.faultLog ++ [f]).drop (s.mc.faultLog.length + 1 - 65536)
  flashLog := if f.outcome = 0 then s.mc.flashLog else (s.mc.flashLog ++ [f]).drop (s.mc.flashLog.length + 1 - 4096) } }

/-- The event of a record, then the replacement request of its cause (12 R414, R424). -/
def State.report (s : State) (ctx seq cause : Nat) : State :=
  if cause = 0 then s.event 0x8001 ctx seq else (s.event 0x8001 ctx seq).service cause

/-- State t is s after the event of a record and the request of its cause: outputs, host memory and rings may differ, and of the MC's records the repair map,
the request with its causes, and the count of lost events. -/
def Told (cause : Nat) (s t : State) : Prop := ∃ o b h n map req causes,
  (cause ≠ 0 → req = true ∧ cause ∈ causes) ∧ (cause = 0 → req = s.mc.serviceReq ∧ causes = s.mc.causes)
  ∧ t = { s with
    out := o, mem := { s.mem with host := b }, host := h
    mc := { s.mc with repairMap := map, serviceReq := req, causes := causes, eventsLost := n } }

theorem State.report_told (s : State) (ctx seq cause : Nat) : Told cause s (s.report ctx seq cause) := by
  obtain ⟨o, b, h, n, told⟩ := s.event_hostMem 0x8001 ctx seq
  unfold State.report
  split
  next none =>
    rw [told]
    exact ⟨o, b, h, n, _, _, _, fun some => absurd none some, fun _ => ⟨rfl, rfl⟩, rfl⟩
  next some =>
    obtain ⟨o', b', h', n', map, causes, listed, asked⟩ := (s.event 0x8001 ctx seq).service_eq cause
    rw [asked, told]
    exact ⟨o', b', h', n', map, _, causes, fun _ => ⟨rfl, listed⟩, fun none => absurd none some, rfl⟩

/-- A fault (12 R414): its record first, then the event, then the request. -/
theorem State.fault_report (s : State) (kind outcome ctx unit sub spare detail cause : Nat) : s.fault kind outcome ctx unit sub spare detail cause
    = (s.recorded (s.faultRecord kind outcome ctx unit sub spare detail cause)).report ctx s.mc.faultSeq cause := by
  simp only [State.fault, State.recorded, State.report, State.faultRecord, List.length_append, List.length_singleton]
  rfl

theorem State.fault_told (s : State) (kind outcome ctx unit sub spare detail cause : Nat) :
    Told cause (s.recorded (s.faultRecord kind outcome ctx unit sub spare detail cause)) (s.fault kind outcome ctx unit sub spare detail cause) := by
  rw [State.fault_report]
  exact State.report_told ..

/-- A fault record leaves the byte spaces of the module as they were (12 R412). -/
theorem State.readByte_of_hostMem {t : State} {b : Tbl Byte} (kept : t.mem = { s.mem with host := b }) {sp : Space} (other : sp ≠ .host) (a : Nat) :
    t.readByte sp a = s.readByte sp a := by
  rw [State.readByte, State.readByte, if_neg other, if_neg other, kept]
  cases sp with
  | host => exact absurd rfl other
  | _ => rfl

/-- What a retirement adds to the repair map is cut where the map is full (12 R421). -/
theorem append_take_room {α : Type} (l m : List α) (n : Nat) : l ++ m.take (n - l.length) = (l ++ m).take (max n l.length) := by
  have room : max n l.length - l.length = n - l.length := by omega
  rw [List.take_append, List.take_of_length_le (l := l) (le_max_right ..), room]

theorem State.retire_of_room {l : List Repair} (room : s.mc.repairMap.length + l.length ≤ 16384) (kind outcome ctx unit sub spare detail cause : Nat) :
    s.retire l kind outcome ctx unit sub spare detail cause = (s.repairNote l).fault kind outcome ctx unit sub spare detail cause := by
  have fits : ¬16384 < s.mc.repairMap.length + l.length := by omega
  simp [State.retire, fits]

theorem State.retire_of_full {l : List Repair} (full : 16384 < s.mc.repairMap.length + l.length) (kind outcome ctx unit sub spare detail : Nat) :
    s.retire l kind outcome ctx unit sub spare detail 0 = (s.repairNote l).fault kind outcome ctx unit sub spare detail 11 := by
  simp [State.retire, full]

theorem State.retire_of_full_of_cause {l : List Repair} (full : 16384 < s.mc.repairMap.length + l.length) {cause : Nat} (own : cause ≠ 0)
    (kind outcome ctx unit sub spare detail : Nat) : s.retire l kind outcome ctx unit sub spare detail cause
      = ((s.repairNote l).fault kind outcome ctx unit sub spare detail cause).service 11 := by
  simp [State.retire, full, own]

/-- The record of a unit whose test found nothing, for the units of a cluster (12 R417; log 112). -/
theorem State.passUnit_of_cluster {x : TestRun} {k : Nat} (kind : x.kind ≠ 0) (inCluster : (∃ b, x.unit = .bank k b) ∨ x.unit = .core k ∨ x.unit = .channel k) :
    s.passUnit x = s.fault x.kind 0 ((s.clu (k / 32)).owner.getD 0xF) (TestUnit_where x.unit).1 (TestUnit_where x.unit).2 0xFFFF x.info 0 := by
  obtain ⟨unit, number, info, wb⟩ := x
  obtain ⟨b, rfl⟩ | rfl | rfl := inCluster <;> exact if_neg kind

end

theorem faultRecorded : FaultRecorded := by
  refine ⟨fun s kind outcome ctx unit sub spare detail cause => ?_, fun s l kind outcome ctx unit sub spare detail cause => ?_,
    fun s x k kind inCluster => State.passUnit_of_cluster kind inCluster⟩
  · obtain ⟨o, b, h, n, map, req, causes, requested, quiet, e⟩ := s.fault_told kind outcome ctx unit sub spare detail cause
    dsimp only
    rw [e]
    dsimp only [State.recorded, State.faultRecord]
    exact ⟨rfl, rfl, rfl, requested, quiet, fun sp a other => State.readByte_of_hostMem (s := s) (b := b) rfl other a, rfl, rfl, rfl, rfl⟩
  · refine ⟨s.repairNote l, append_take_room .., rfl, fun room => State.retire_of_room room .., fun full none => ?_,
      fun full own => State.retire_of_full_of_cause full own ..⟩
    subst none
    exact State.retire_of_full full ..

end Sys2Proof.Machine

namespace Sys2Proof.Machine

open Sys2Proof Sys2Proof.Claims

/-! ### Faults of MC cores (12 Table 12-2, code 0x0D; log 71) -/

section

variable {s : State} {core t : Nat}

/-- Watchdogs of the last hour (12 Table 12-5, cause 9). -/
def State.recentRestarts (s : State) (t : Nat) : List (Nat × Nat) := s.mc.coreRestarts.filter fun e => decide (t < e.2 + 3600000000000)

/-- MC core `core` down at time t, its watchdog listed. -/
def State.coreDown (s : State) (core t : Nat) : State := { s.tick t with mc := { s.mc with
  coreAlive := s.mc.coreAlive.set core false, coreRestarts := s.recentRestarts t ++ [(core, t)] } }

/-- The third watchdog of a core within an hour raises cause 9. -/
theorem watchdogs_count (l : List (Nat × Nat)) (core t : Nat) :
    3 ≤ ((l ++ [(core, t)]).filter fun e => e.1 == core).length ↔ 2 ≤ (l.filter fun e => e.1 == core).length := by
  simp

/-- The record of a core's watchdog. -/
def State.watchdogFault (s : State) (core t : Nat) : State :=
  (s.coreDown core t).fault 0x0D 4 0xF core 0 0xFFFF 0 (if 2 ≤ ((s.recentRestarts t).filter fun e => e.1 == core).length then 9 else 0)

theorem exec_mcCoreWatchdog_of_down (down : 3 ≤ core ∨ s.mc.coreAlive.getD core false = false) : exec (.mcCoreWatchdog core t) s = .next (s.tick t) :=
  congrArg _ (if_pos (down.imp_right fun h => by rw [show (s.tick t).mc = s.mc from rfl, h]; rfl))

theorem exec_mcCoreWatchdog_of_alive (real : core < 3) (alive : s.mc.coreAlive.getD core false = true) : exec (.mcCoreWatchdog core t) s
    = .next (if core ≠ 1 then s.watchdogFault core t else ((s.watchdogFault core t).abandonAll.abortWbs (fun e => e.started) 0).sweepWbs) := by
  have up : ¬(3 ≤ core ∨ (!(s.tick t).mc.coreAlive.getD core false) = true) := by
    rintro (other | down)
    · omega
    · rw [show (s.tick t).mc = s.mc from rfl, alive] at down
      exact absurd down (by decide)
  refine (congrArg _ (if_neg up)).trans ?_
  simp only [watchdogs_count]
  rfl

theorem State.watchdogFault_coreAlive (s : State) (core t : Nat) : (s.watchdogFault core t).mc.coreAlive = s.mc.coreAlive.set core false := by
  obtain ⟨_, _, _, _, _, _, _, -, -, e⟩ := (s.coreDown core t).fault_told 0x0D 4 0xF core 0 0xFFFF 0
    (if 2 ≤ ((s.recentRestarts t).filter fun e => e.1 == core).length then 9 else 0)
  rw [State.watchdogFault, e]
  rfl

theorem State.watchdogFault_reported (s : State) (core t : Nat) : Reported (s.coreDown core t) (s.watchdogFault core t) := State.fault_reported ..

/-- What a restart of core 1 forgets leaves the steps that run (log 71). -/
theorem State.abandonAll_run (s : State) (c : Nat) : (s.abandonAll.cx c).run = (s.cx c).run :=
  List.foldlRecOn (List.range 4) (fun (s : State) (c : Nat) => s.modCx c Ctx.abandon) (motive := fun u => (u.cx c).run = (s.cx c).run) rfl fun u kept d _ => by
    rw [State.cx_modCx, ← kept]
    split
    next same => rw [same]; rfl
    next => rfl

theorem exec_mcCoreRestartComplete (s : State) (core : Nat) : exec (.mcCoreRestartComplete core) s
    = .next (if core < 3 ∧ 5 ≤ s.mc.bringup then { s with mc := { s.mc with coreAlive := s.mc.coreAlive.set core true } } else s) := by
  by_cases up : core < 3 ∧ 5 ≤ s.mc.bringup
  · rw [if_pos up]
    exact congrArg _ (if_neg (by omega))
  · rw [if_neg up]
    exact congrArg _ (if_pos (by omega))

end

/-! ### Faults of cores, tier 0 and L1 (12 Table 12-2, codes 0x01 to 0x04) -/

section

variable {s : State} {core off t : Nat} {line : LineId}

/-- A tier-0 word marked as bad, once. -/
def Core.markBad (x : Core) (w : Nat) : Core := { x with badWords := if x.badWords.contains w then x.badWords else x.badWords ++ [w] }

theorem Core.mem_markBad_self (x : Core) (w : Nat) : w ∈ (x.markBad w).badWords := by
  unfold Core.markBad
  split
  next listed => simpa using listed
  next => simp

theorem Core.mem_markBad_of_mem {x : Core} {v : Nat} (bad : v ∈ x.badWords) (w : Nat) : v ∈ (x.markBad w).badWords := by
  unfold Core.markBad
  split
  · exact bad
  · exact List.mem_append_left _ bad

/-- The corrected errors of a core's tier 0 in the last hour. -/
def State.recentCorrected (s : State) (core t : Nat) : List (Nat × Nat) := (s.cor core).corrected.filter fun e => decide (t < e.2 + 3600000000000)

@[simp] theorem State.coresUp_tick (s : State) (t : Nat) : (s.tick t).coresUp = s.coresUp := rfl
@[simp] theorem State.coreInUse_tick (s : State) (t core : Nat) : (s.tick t).coreInUse core = s.coreInUse core := rfl

/-- Errors of tier 0 count where the cores run and the offset is real. -/
theorem tier0_guard_of_served (up : s.coresUp = true) (used : s.coreInUse core = true) (real : off < 262144) :
    ¬((!(s.tick t).coresUp || !(s.tick t).coreInUse core || decide (2 ^ 18 ≤ off)) = true) := by
  simpa [up, used] using real

theorem tier0_guard_of_not (idle : s.coresUp = false ∨ s.coreInUse core = false ∨ 262144 ≤ off) :
    (!(s.tick t).coresUp || !(s.tick t).coreInUse core || decide (2 ^ 18 ≤ off)) = true := by
  simpa [or_assoc] using idle

theorem exec_coreLogicFault_of_used (up : s.coresUp = true) (used : s.coreInUse core = true) :
    exec (.coreLogicFault core t) s = .next (((s.tick t).endLaunch core).startTest (.core core) 0x01 0 none) :=
  congrArg _ (if_neg (by simp [up, used]))

theorem exec_coreLogicFault_of_not (idle : s.coresUp = false ∨ s.coreInUse core = false) : exec (.coreLogicFault core t) s = .next (s.tick t) :=
  congrArg _ (if_pos (by simpa using idle))

theorem exec_tier0Uncorrectable_of_served (up : s.coresUp = true) (used : s.coreInUse core = true) (real : off < 262144) :
    exec (.tier0Uncorrectable core off t) s
      = .next (((s.tick t).modCor core fun x => x.markBad (off / 8)).startTest (.bank core (off / 32768)) 0x02 off none) :=
  congrArg _ (if_neg (tier0_guard_of_served up used real))

theorem exec_tier0Corrected_of_served (up : s.coresUp = true) (used : s.coreInUse core = true) (real : off < 262144) :
    let l := s.recentCorrected core t ++ [(off / 32768, t)]
    exec (.tier0Corrected core off t) s = .next (
      if (l.filter fun e => e.1 == off / 32768).length < 8 then (s.tick t).modCor core fun x => { x with corrected := l }
      else ((s.tick t).modCor core fun x => { x with corrected := l.filter fun e => e.1 != off / 32768 }).startTest (.bank core (off / 32768)) 0x03 off none) :=
  congrArg _ (if_neg (tier0_guard_of_served up used real))

theorem correctedBank_count (l : List (Nat × Nat)) (bank t : Nat) :
    ((l ++ [(bank, t)]).filter fun e => e.1 == bank).length = (l.filter fun e => e.1 == bank).length + 1 := by
  simp

theorem exec_l1Parity (core t : Nat) (line : LineId) : exec (.l1Parity core line t) s
    = .next (match s.cel.l1.find? fun x => x.core == core && x.line == line with
      | none => s.tick t
      | some x => (if x.modified = true then (s.tick t).loseCopy line else ((s.tick t).serve line ((s.tick t).isDirect line) 0 (.dropCopy core)).1).startTest
        (.core core) 0x04 (lineAddr line) none) := by
  rfl

end

theorem coreFaults : CoreFaults := by
  refine ⟨fun s core t => exec_mcCoreWatchdog_of_down,
    fun s core t real other alive => ⟨s.coreDown core t, ?_, rfl, List.mem_append_right _ (by simp), rfl, rfl, rfl⟩, fun s t alive => ?_,
    exec_mcCoreRestartComplete, fun s core t => ⟨exec_coreLogicFault_of_used, exec_coreLogicFault_of_not⟩, fun s core off t up used real => ?_,
    fun s core off t up used real => ?_, fun s core off t idle => ?_, fun s core t line => ⟨fun none => ?_, fun x copy => ?_⟩⟩
  · rw [exec_mcCoreWatchdog_of_alive real alive, if_pos other]
    rfl
  · have told := s.watchdogFault_reported 1 t
    refine ⟨s.watchdogFault 1 t, ?_, s.watchdogFault_coreAlive 1 t, told.legs, fun c => ?_⟩
    · rw [exec_mcCoreWatchdog_of_alive (by decide) alive, if_neg (by decide)]
    · rw [State.abandonAll_run, State.cx, told.ctx]
      rfl
  · refine ⟨_, exec_tier0Uncorrectable_of_served up used real, ?_, fun w bad => ?_, rfl, rfl⟩
    · rw [State.cor_modCor_self]
      exact Core.mem_markBad_self ..
    · rw [State.cor_modCor_self]
      exact Core.mem_markBad_of_mem bad _
  · have ran := exec_tier0Corrected_of_served (t := t) up used real
    have count := correctedBank_count (s.recentCorrected core t) (off / 32768) t
    refine ⟨fun few => ⟨_, ran.trans (congrArg _ (if_pos (count.trans_lt (Nat.succ_lt_succ few)))), ?_, rfl, rfl⟩,
      fun many => ⟨_, ran.trans (congrArg _ (if_neg (by rw [count]; exact Nat.not_lt.2 (Nat.succ_le_succ many)))), fun e listed => ?_⟩⟩
    · rw [State.cor_modCor_self]
      rfl
    · rw [State.cor_modCor_self] at listed
      simpa using (List.mem_filter.1 listed).2
  · exact ⟨congrArg _ (if_pos (tier0_guard_of_not idle)), congrArg _ (if_pos (tier0_guard_of_not idle))⟩
  · rw [exec_l1Parity, List.find?_eq_none.2 (by simpa using none)]
  · rw [exec_l1Parity, copy]
    exact ⟨fun changed => congrArg _ (by simp only [if_pos changed]), fun clean => congrArg _ (by simp only [clean, Bool.false_eq_true, if_false])⟩

/-- Settles O55. That a restart of core 1 ends the waybills it had started, with detail 0, and forgets what contexts had queued is log 71; that the repair map
takes its entries before the record is log 116, and the context a record names log 112. -/
theorem faultHandling : Obligations.FaultHandling := ⟨faultRecorded, coreFaults⟩

end Sys2Proof.Machine

namespace Sys2Proof.Machine

open Sys2Proof Sys2Proof.Claims

/-! ### Step 4 of bring-up: the configuration block and the boot image (13 R456 to R458; logs 74, 97) -/

section

variable {s : State}

/-- The block as the configuration block sets it: the module ID, the torus dimensions and the nominal period (13 R458; 09 R478). -/
def State.configured (s : State) : State :=
  let f := s.mc.flash
  let d : Nat × Nat × Nat := if f.dimsOk then (f.dx, f.dy, f.dz) else (16, 16, 32)
  { s with
    fab := { s.fab with moduleId := if f.idSource then f.moduleId else s.mc.geoId % 8192, dx := d.1, dy := d.2.1, dz := d.2.2 }
    beat := { s.beat with period := f.nominalPeriod } }

/-- Dimensions that break 09 R478 leave a fault record besides. -/
theorem State.applyConfig_eq (s : State) : s.applyConfig
    = if s.mc.flash.dimsOk then s.configured else s.configured.free.2.faultTraining 4 0xF s.configured.free.1.toNat := by
  rfl

/-- State t is s but for what a fault record changes: the fabric, the beat, the flash and the stage of bring-up are as they were. -/
structure BootKept (s t : State) : Prop where
  fab     : t.fab = s.fab
  beat    : t.beat = s.beat
  flash   : t.mc.flash = s.mc.flash
  bringup : t.mc.bringup = s.mc.bringup
  romHalt : t.mc.romHalt = s.mc.romHalt

theorem BootKept.trans {t u : State} (h : BootKept s t) (h' : BootKept t u) : BootKept s u :=
  ⟨h'.fab.trans h.fab, h'.beat.trans h.beat, h'.flash.trans h.flash, h'.bringup.trans h.bringup, h'.romHalt.trans h.romHalt⟩

theorem State.fault_bootKept (s : State) (kind outcome ctx unit sub spare detail cause : Nat) :
    BootKept s (s.fault kind outcome ctx unit sub spare detail cause) := by
  obtain ⟨_, _, _, _, _, _, _, -, -, e⟩ := s.fault_told kind outcome ctx unit sub spare detail cause
  rw [e]
  exact ⟨rfl, rfl, rfl, rfl, rfl⟩

theorem State.applyConfig_bootKept (s : State) : BootKept s.configured s.applyConfig := by
  rw [State.applyConfig_eq]
  split
  · exact ⟨rfl, rfl, rfl, rfl, rfl⟩
  · exact .trans (t := s.configured.free.2) ⟨rfl, rfl, rfl, rfl, rfl⟩ (State.fault_bootKept ..)

theorem State.configured_dims (s : State) : (s.configured.fab.dx, s.configured.fab.dy, s.configured.fab.dz)
    = if 1 ≤ s.mc.flash.dx ∧ 1 ≤ s.mc.flash.dy ∧ 1 ≤ s.mc.flash.dz ∧ s.mc.flash.dx * s.mc.flash.dy * s.mc.flash.dz ≤ 8192
      then (s.mc.flash.dx, s.mc.flash.dy, s.mc.flash.dz) else (16, 16, 32) := by
  simp only [State.configured, Flash.dimsOk, decide_eq_true_eq]

/-- The ROM runs image b. -/
def State.runImage (s : State) (b : Bool) : State :=
  { s with mc := { s.mc with image := b, bringup := 4 }, mgmt := { s.mgmt with measured := s.measure b } }

/-- A boot attempt counted. -/
def State.countBoot (s : State) : State := s.modFlash fun f => { f with attempts := f.attempts + 1 }

theorem State.pickImage_eq (s : State) : s.pickImage
    = if s.mc.flash.imageOk s.mc.flash.active then s.countBoot.runImage s.mc.flash.active
      else if s.mc.flash.imageOk (!s.mc.flash.active) then (s.countBoot.rejectImage s.mc.flash.active).runImage (!s.mc.flash.active)
      else
        let t := (s.countBoot.rejectImage s.mc.flash.active).rejectImage (!s.mc.flash.active)
        { t with mc := { t.mc with romHalt := true } } := by
  rfl

/-- What the ROM leaves (13 R456): the attempt is counted, and an image that it accepts runs, or it stays with none. -/
structure Booted (s t : State) : Prop where
  attempts : t.mc.flash.attempts = s.mc.flash.attempts + 1
  fab      : t.fab = s.fab
  beat     : t.beat = s.beat
  image    : (t.mc.bringup = 4 ∧ t.mc.romHalt = s.mc.romHalt ∧ s.mc.flash.imageOk t.mc.image = true)
    ∨ (t.mc.bringup = s.mc.bringup ∧ t.mc.romHalt = true ∧ ∀ b, s.mc.flash.imageOk b = false)

theorem State.runImage_booted {t : State} (kept : BootKept s.countBoot t) {b : Bool} (accepted : s.mc.flash.imageOk b = true) : Booted s (t.runImage b) :=
  ⟨congrArg Flash.attempts kept.flash, kept.fab, kept.beat, .inl ⟨rfl, kept.romHalt, accepted⟩⟩

theorem State.pickImage_booted (s : State) : Booted s s.pickImage := by
  have rejected (t : State) (b : Bool) : BootKept t (t.rejectImage b) := State.fault_bootKept ..
  rw [State.pickImage_eq]
  split
  next own => exact State.runImage_booted ⟨rfl, rfl, rfl, rfl, rfl⟩ own
  next own =>
    split
    next other => exact State.runImage_booted (rejected ..) other
    next other =>
      have kept := (rejected s.countBoot s.mc.flash.active).trans (rejected (s.countBoot.rejectImage s.mc.flash.active) (!s.mc.flash.active))
      refine ⟨congrArg Flash.attempts kept.flash, kept.fab, kept.beat, .inr ⟨kept.bringup, rfl, fun b => ?_⟩⟩
      obtain rfl | rfl := Bool.eq_or_eq_not b s.mc.flash.active
      · exact Bool.eq_false_of_not_eq_true own
      · exact Bool.eq_false_of_not_eq_true other

theorem Flash.imageOk_accepts {f : Flash} {b : Bool} (ok : f.imageOk b = true) :
    f.minSecurity ≤ f.secVersion b ∧ f.isRejected b = false ∧ (b = f.active → f.attempts < 3) := by
  simp only [Flash.imageOk, Bool.and_eq_true, Bool.not_eq_true', decide_eq_true_eq, Bool.and_eq_false_imp, beq_iff_eq, decide_eq_false_iff_not, not_le] at ok
  obtain ⟨⟨⟨kept, -⟩, version⟩, boots⟩ := ok
  exact ⟨version, kept, boots⟩

end

/-! ### The other steps of bring-up (13 Table 13-1) -/

section

variable {s : State} {x : Training} {l : List TestUnit}

theorem State.channelOut_mc (s : State) (k : Nat) : (s.channelOut k).mc = s.mc := by
  unfold State.channelOut
  extract_lets p u
  split <;> rfl

theorem State.columnOut_mc (s : State) (k : Nat) : (s.columnOut k).mc = s.mc := by
  unfold State.columnOut
  split <;> rfl

/-- The repair map is applied without a change of the MC's records. -/
theorem State.applyRepair_mc (s : State) (r : Repair) : (s.applyRepair r).mc = s.mc := by
  cases r with
  | channel k => exact s.channelOut_mc k
  | column k => exact s.columnOut_mc k
  | sensor x =>
    dsimp only [State.applyRepair]
    split <;> rfl
  | _ => rfl

theorem State.applyMap_mc (s : State) (p : Repair → Bool) : (s.applyMap p).mc = s.mc :=
  List.foldlRecOn _ State.applyRepair (motive := fun u => u.mc = s.mc) rfl fun u kept r _ => (u.applyRepair_mc r).trans kept

/-- SERVICE_N that follows the repair map changes the request alone. -/
theorem State.serviceFromMap_eq (s : State) : ∃ o req causes,
    s.serviceFromMap = { s with out := o, mc := { s.mc with serviceReq := req, causes := causes } } := by
  unfold State.serviceFromMap
  extract_lets l
  obtain ⟨o, asked⟩ := s.setService_eq (!l.isEmpty)
  obtain ⟨o', listed⟩ := (s.setService (!l.isEmpty)).setCauses_eq l
  rw [listed, asked]
  exact ⟨o', _, l, rfl⟩

/-- The MC's cores start, with the fault log of the flash. -/
def State.startCores (s : State) : State := { s with
  mc := { s.mc with coreAlive := [true, true, true], faultLog := s.mc.flashLog }, pwr := { s.pwr with stageBad := [], sensorsBad := [] } }

theorem State.bringStep5_eq (s : State) (l : List TestUnit) (x : Training) :
    s.bringStep 5 l x = (s.startCores.applyMap Repair.early).serviceFromMap := by
  rfl

theorem State.bringStep5_mc (s : State) (l : List TestUnit) (x : Training) :
    (s.bringStep 5 l x).mc.coreAlive = [true, true, true] ∧ (s.bringStep 5 l x).mc.faultLog = s.mc.flashLog := by
  obtain ⟨_, _, _, e⟩ := (s.startCores.applyMap Repair.early).serviceFromMap_eq
  rw [State.bringStep5_eq, e, State.applyMap_mc]
  exact ⟨rfl, rfl⟩

theorem State.setAlive_alive (s : State) (b : Bool) : (s.setAlive b).pwr.alive = b := by
  obtain ⟨_, e⟩ := s.setAlive_eq b
  rw [e]

/-- Channels that failed in a step are retired, and the others stay trained (13 R448). -/
theorem State.retireUnits_trains (channels : ∀ u ∈ l, ∃ k, u = .channel k) (s : State) : Trains s (s.retireUnits l) :=
  List.foldlRecOn l _ (motive := Trains s) (Trains.refl s) fun t kept u listed => by
    obtain ⟨k, rfl⟩ := channels u listed
    split
    · exact kept
    · exact kept.trans (t.couplerFails_trains k _ _)

theorem channel_of_testedAt12 {u : TestUnit} (tested : testedAt 12 u = true) : ∃ k, u = .channel k := by
  cases u with
  | channel k => exact ⟨k, rfl⟩
  | _ => exact absurd tested Bool.false_ne_true

theorem State.bringStep12_trained (s : State) (l : List TestUnit) (x : Training) : (s.bringStep 12 l x).cel.trained = true :=
  ((s.trainChannels_trains x).trans (State.retireUnits_trains (fun _ listed => channel_of_testedAt12 (List.mem_filter.1 listed).2) _)).trained

theorem State.zeroMemories_spec (s : State) : s.zeroMemories.mc.zeroDone = true
    ∧ (s.mc.zeroDone = false → s.zeroMemories.mem.scratch = [] ∧ s.zeroMemories.mem.tier2 = [] ∧ s.zeroMemories.mem.stash = [] ∧ s.zeroMemories.mem.evac = [])
    ∧ (s.mc.zeroDone = true → s.zeroMemories.mem = s.mem) := by
  unfold State.zeroMemories
  split
  next done => exact ⟨done, fun todo => absurd done (by simp [todo]), fun _ => rfl⟩
  next todo => exact ⟨rfl, fun _ => ⟨rfl, rfl, rfl, rfl⟩, fun done => absurd done todo⟩

theorem exec_bringupStepComplete (s : State) (l : List TestUnit) (x : Training) : exec (.bringupStepComplete l x) s
    = .next (if (!s.bringReady) = true then s.tick x.t
      else if s.mc.bringup + 1 = 4 then (s.tick x.t).takeConfig.applyConfig.pickImage
      else if s.mc.bringup + 1 = 14 then (s.tick x.t).step14
      else ((s.tick x.t).bringStep (s.mc.bringup + 1) l x).setBring (s.mc.bringup + 1)) := by
  rfl

theorem exec_bringupStepComplete_of_not_ready (holds : s.bringReady = false) : exec (.bringupStepComplete l x) s = .next (s.tick x.t) := by
  rw [exec_bringupStepComplete, holds]
  rfl

theorem exec_bringupStepComplete_of_ready (ready : s.bringReady = true) (boot : s.mc.bringup ≠ 3) (last : s.mc.bringup ≠ 13) :
    exec (.bringupStepComplete l x) s = .next (((s.tick x.t).bringStep (s.mc.bringup + 1) l x).setBring (s.mc.bringup + 1)) := by
  rw [exec_bringupStepComplete, if_neg (by simp [ready]), if_neg (by omega), if_neg (by omega)]

theorem exec_bringupStepComplete_boot (ready : s.bringReady = true) (boot : s.mc.bringup = 3) (noBlock : s.mgmt.pendingCfg = none) :
    exec (.bringupStepComplete l x) s = .next (s.tick x.t).applyConfig.pickImage := by
  have same : (s.tick x.t).takeConfig = s.tick x.t := by
    unfold State.takeConfig
    rw [show (s.tick x.t).mgmt.pendingCfg = none from noBlock]
  rw [exec_bringupStepComplete, if_neg (by simp [ready]), if_pos (by omega), same]

theorem exec_bringupStepComplete_last (ready : s.bringReady = true) (last : s.mc.bringup = 13) :
    exec (.bringupStepComplete l x) s = .next (s.tick x.t).step14 := by
  rw [exec_bringupStepComplete, if_neg (by simp [ready]), if_neg (by omega), if_pos (by omega)]

end

/-- Settles O58. That steps from 11 on do not wait for PERST_N and that boot attempts are judged before this boot is counted is log 74, that the factory set of
dimensions stands in where one breaks 09 R478 log 97. -/
theorem bringUp : Obligations.BringUp := by
  refine ⟨fun s l x => exec_bringupStepComplete_of_not_ready, fun s l x ready boot last => ?_, fun s l x ready boot noBlock => ?_,
    fun s l x => exec_bringupStepComplete_last, fun f b => Flash.imageOk_accepts⟩
  · refine ⟨_, exec_bringupStepComplete_of_ready ready boot last, rfl, fun at5 => ?_, fun at9 => ?_, fun at12 => ?_, fun at13 => ?_⟩
    · rw [at5]
      exact (s.tick x.t).bringStep5_mc l x
    · rw [at9]
      exact (s.tick x.t).setAlive_alive true
    · rw [at12]
      exact (s.tick x.t).bringStep12_trained l x
    · rw [at13]
      exact (s.tick x.t).zeroMemories_spec
  · have kept := (s.tick x.t).applyConfig_bootKept
    obtain ⟨attempts, fab, beat, image⟩ := (s.tick x.t).applyConfig.pickImage_booted
    rw [kept.flash] at attempts image
    rw [kept.fab] at fab
    rw [kept.beat] at beat
    rw [kept.bringup, kept.romHalt] at image
    refine ⟨_, exec_bringupStepComplete_boot ready boot noBlock, attempts, by rw [fab]; rfl, by rw [beat]; rfl, ?_, ?_⟩
    · rw [fab]
      exact (s.tick x.t).configured_dims
    · exact image.imp_right fun ⟨stays, halted, rejected⟩ => ⟨stays.trans boot, halted, rejected⟩

end Sys2Proof.Machine

namespace Sys2Proof.Machine

open Sys2Proof Sys2Proof.Claims

/-! ### The end of a self-test (12 R416 to R418) -/

section

variable {s : State} {x : TestRun} {unit : TestUnit} {pass : Bool} {t : Nat}

/-- The tests of a unit before this one within 24 h. -/
def State.earlierTests (s : State) (u : TestUnit) (t : Nat) : Nat := ((recentTests s.mc.testHistory t).filter fun e => e.1 == u).length

/-- A test counts as passed (12 R418): it passed, and fewer than three of the unit came before it within 24 h. -/
def State.testOk (s : State) (x : TestRun) (pass : Bool) (t : Nat) : Bool := pass && decide (s.earlierTests x.unit t < 3)

/-- The test off the list of those that run, and in the history, which begins anew with a failed one. -/
def State.testNoted (s : State) (x : TestRun) (pass : Bool) (t : Nat) : State :=
  let l := recentTests s.mc.testHistory t ++ [(x.unit, t)]
  { s with mc := { s.mc with
    tests := s.mc.tests.filter fun y => y.unit != x.unit
    testHistory := if s.testOk x pass t then l else l.filter fun e => e.1 != x.unit } }

theorem fourth_of_earlier (s : State) (u : TestUnit) (t : Nat) :
    decide (((recentTests s.mc.testHistory t ++ [(u, t)]).filter fun e => e.1 == u).length < 4) = decide (s.earlierTests u t < 3) := by
  have counted : ((recentTests s.mc.testHistory t ++ [(u, t)]).filter fun e => e.1 == u).length = s.earlierTests u t + 1 := by simp [State.earlierTests]
  rw [counted]
  exact decide_eq_decide.2 Nat.succ_lt_succ_iff

/-- The end of a test that no waybill asked for, of a unit in service. -/
theorem State.testDone_of_inService (own : x.waybill = none) (serves : s.unitRetired x.unit = false) : s.testDone x pass t
    = ((if s.testOk x pass t then (s.testNoted x pass t).passUnit x
        else (s.testNoted x pass t).failUnit x.unit (if x.kind = 0 then TestUnit_kind x.unit else x.kind) x.info).afterTest x.unit).goesOn x.unit := by
  obtain ⟨unit, kind, info, wb⟩ := x
  subst own
  simp only [State.testDone, serves, fourth_of_earlier, Bool.or_false, Bool.false_eq_true, if_false]
  cases unit <;> rfl

theorem State.testOk_of_pass (passed : pass = true) (few : s.earlierTests x.unit t < 3) : s.testOk x pass t = true := by
  rw [State.testOk, passed, decide_eq_true few]
  rfl

theorem State.testOk_of_fail (failed : pass = false ∨ 3 ≤ s.earlierTests x.unit t) : s.testOk x pass t = false := by
  obtain rfl | many := failed
  · rfl
  · rw [State.testOk, decide_eq_false (by omega), Bool.and_false]

theorem exec_selfTestComplete (s : State) (unit : TestUnit) (pass : Bool) (t : Nat) : exec (.selfTestComplete unit pass t) s
    = .next (match s.mc.tests.find? fun r => r.unit == unit with
      | none => s.tick t
      | some x => if (!(s.mc.coreAlive.getD 2 false) || s.tg.shedWork.contains unit) = true then s.tick t else (s.tick t).testDone x pass t) := rfl

theorem exec_selfTestComplete_of_idle (idle : ∀ r ∈ s.mc.tests, r.unit ≠ unit) : exec (.selfTestComplete unit pass t) s = .next (s.tick t) := by
  rw [exec_selfTestComplete, List.find?_eq_none.2 (by simpa using idle)]

theorem exec_selfTestComplete_of_served (runs : s.mc.tests.find? (fun r => r.unit == unit) = some x) (alive : s.mc.coreAlive.getD 2 false = true)
    (kept : unit ∉ s.tg.shedWork) : exec (.selfTestComplete unit pass t) s = .next ((s.tick t).testDone x pass t) := by
  rw [exec_selfTestComplete, runs]
  exact congrArg _ (if_neg (by rw [alive]; simpa using kept))

theorem exec_selfTestComplete_of_not (runs : s.mc.tests.find? (fun r => r.unit == unit) = some x)
    (stopped : s.mc.coreAlive.getD 2 false = false ∨ unit ∈ s.tg.shedWork) : exec (.selfTestComplete unit pass t) s = .next (s.tick t) := by
  rw [exec_selfTestComplete, runs]
  refine congrArg _ (if_pos ?_)
  obtain down | shed := stopped
  · rw [down]; rfl
  · rw [List.contains_iff_mem.2 shed, Bool.or_true]

/-- A unit that passed leaves a record of what raised the test, and no other trace; a lane rejoins its port besides (12 R417). -/
theorem State.passUnit_of_no_lane (noLane : ∀ p l, x.unit ≠ .lane p l) : s.passUnit x = if x.kind = 0 then s
    else s.fault x.kind 0 (s.unitCtx x.unit) (TestUnit_where x.unit).1 (TestUnit_where x.unit).2 0xFFFF x.info 0 := by
  obtain ⟨unit, kind, info, wb⟩ := x
  cases unit with
  | lane p l => exact absurd rfl (noLane p l)
  | _ => rfl

end

/-! ### A core that fails (12 R420; 01 R11) -/

section

variable {s : State} {core kind info pos cl r : Nat} {x : Cluster}

theorem Cluster.dropRemount_first (used : x.rem32 = pos) : x.dropRemount pos = { x with rem32 := 0x3F, failed32 := true } := if_pos used

theorem Cluster.dropRemount_second (other : x.rem32 ≠ pos) (used : x.rem33 = pos) : x.dropRemount pos = { x with rem33 := 0x3F, failed33 := true } :=
  (if_neg other).trans (if_pos used)

theorem Cluster.dropRemount_none (first : x.rem32 ≠ pos) (second : x.rem33 ≠ pos) : x.dropRemount pos = x := (if_neg first).trans (if_neg second)

theorem State.remountNote_first (used : (s.clu cl).rem32 = pos) : s.remountNote cl pos = [.remountFailed cl 32] := if_pos used

theorem State.remountNote_second (other : (s.clu cl).rem32 ≠ pos) (used : (s.clu cl).rem33 = pos) : s.remountNote cl pos = [.remountFailed cl 33] :=
  (if_neg other).trans (if_pos used)

theorem State.remountNote_none (first : (s.clu cl).rem32 ≠ pos) (second : (s.clu cl).rem33 ≠ pos) : s.remountNote cl pos = [] :=
  (if_neg first).trans (if_neg second)

theorem not_free {failed : Bool} (taken : r ≠ 0x3F ∨ failed = true) : ¬(r = 0x3F ∧ (!failed) = true) := by simpa [imp_iff_not_or] using taken

theorem Cluster.nextRemount_first (free : x.rem32 = 0x3F) (sound : x.failed32 = false) : x.nextRemount = some 32 := if_pos (by simp [free, sound])

theorem Cluster.nextRemount_second (first : x.rem32 ≠ 0x3F ∨ x.failed32 = true) (free : x.rem33 = 0x3F) (sound : x.failed33 = false) :
    x.nextRemount = some 33 := (if_neg (not_free first)).trans (if_pos (by simp [free, sound]))

theorem Cluster.nextRemount_none (first : x.rem32 ≠ 0x3F ∨ x.failed32 = true) (second : x.rem33 ≠ 0x3F ∨ x.failed33 = true) : x.nextRemount = none :=
  (if_neg (not_free first)).trans (if_neg (not_free second))

/-- The cluster of a failed core, the remount that ran at its position dropped. -/
def State.coreOut (s : State) (core : Nat) : State := s.modClu (clusterOf core) fun x => x.dropRemount (core % 32)

/-- Remount r runs at the position of a core. -/
def State.onRemount (s : State) (core r : Nat) : State :=
  ((s.coreOut core).modClu (clusterOf core) fun x => if r = 32 then { x with rem32 := core % 32 } else { x with rem33 := core % 32 }).modCor core fun x =>
    { x with bankMoved := none }

/-- The position of a core is inactive (01 R11). -/
def State.positionOut (s : State) (core : Nat) : State :=
  (s.coreOut core).modClu (clusterOf core) fun x => { x with active := x.active &&& ~~~(BitVec.ofNat 32 (2 ^ (core % 32))) }

theorem State.failCore_of_remount (next : ((s.clu (clusterOf core)).dropRemount (core % 32)).nextRemount = some r) : s.failCore core kind info
    = (((s.onRemount core r).retire (s.remountNote (clusterOf core) (core % 32) ++ [.remount core r]) kind 1 ((s.onRemount core r).ownerCtx (clusterOf core))
        core 0 r info 0).endLaunch core).recoverSweep core := by
  simp only [State.failCore, State.clu_modClu_self, next]
  rfl

/-- The record of a core without a remount, and the launch on it ended. -/
def State.positionLost (s : State) (core kind info : Nat) : State :=
  ((s.positionOut core).retire (s.remountNote (clusterOf core) (core % 32) ++ [.position core]) kind 3 ((s.positionOut core).ownerCtx (clusterOf core))
    core 0 0xFFFF info (if (s.positionOut core).coresShort = true then 2 else 0)).endLaunch core

theorem State.failCore_of_none (none : ((s.clu (clusterOf core)).dropRemount (core % 32)).nextRemount = none) : s.failCore core kind info
    = ((s.positionLost core kind info).runsOf (clusterOf core) (core % 32)).foldl
        (fun s r => s.failLeg r.ctx r.leg 0x0106 (fld r.desc 16 16 + 2 ^ 16 * clusterOf core) 1)
        ((s.positionLost core kind info).modCor core fun y => { y with strands := [] }) := by
  simp only [State.failCore, State.clu_modClu_self, none]
  rfl

theorem State.onRemount_clu (s : State) (core r : Nat) : (s.onRemount core r).clu (clusterOf core)
    = let x := (s.clu (clusterOf core)).dropRemount (core % 32)
      if r = 32 then { x with rem32 := core % 32 } else { x with rem33 := core % 32 } := by
  rw [State.clu, State.onRemount, State.modCor_cl, ← State.clu, State.clu_modClu_self, State.coreOut, State.clu_modClu_self]

theorem State.onRemount_bankMoved (s : State) (core r : Nat) : ((s.onRemount core r).cor core).bankMoved = none :=
  congrArg Core.bankMoved (State.cor_modCor_self ..)

theorem State.positionOut_active (s : State) (core : Nat) {i : Nat} (low : i < 32) : ((s.positionOut core).clu (clusterOf core)).active.getLsbD i
    = (((s.clu (clusterOf core)).dropRemount (core % 32)).active.getLsbD i && decide (i ≠ core % 32)) := by
  rw [State.positionOut, State.clu_modClu_self, State.coreOut, State.clu_modClu_self, BitVec.getLsbD_and, BitVec.getLsbD_not, BitVec.getLsbD_ofNat,
    Nat.testBit_two_pow]
  simp [low, eq_comm]

theorem shortCause (b : Bool) : ((if b = true then 2 else 0) = 2 ↔ b = true) ∧ ((if b = true then 2 else 0) = 0 ∨ (if b = true then 2 else 0) = 2) := by
  cases b <;> decide

end

/-- Settles O56. That the legs which run on a position gone inactive end with 0x0106 is log 69. -/
theorem selfTests : Obligations.SelfTests := by
  refine ⟨fun s u pass t => exec_selfTestComplete_of_idle, fun s x pass t runs => ⟨exec_selfTestComplete_of_served runs, exec_selfTestComplete_of_not runs⟩,
    fun s x pass t own serves => ⟨s.testNoted x pass t, fun r listed => ?_, rfl, rfl, rfl, fun passed few => ?_, fun failed => ?_⟩,
    fun s x noLane => ⟨_, State.passUnit_of_no_lane noLane⟩,
    fun s cl pos => ⟨fun used => ⟨Cluster.dropRemount_first used, State.remountNote_first used⟩,
      fun other used => ⟨Cluster.dropRemount_second other used, State.remountNote_second other used⟩,
      fun first second => ⟨Cluster.dropRemount_none first second, State.remountNote_none first second⟩⟩, ?_⟩
  · simpa using (List.mem_filter.1 listed).2
  · rw [State.testDone_of_inService own serves, State.testOk_of_pass passed few, if_pos rfl]
  · rw [State.testDone_of_inService own serves, State.testOk_of_fail failed, if_neg Bool.false_ne_true]
  · rintro s core kind info x rfl
    refine ⟨fun free sound => ?_, fun first free sound => ?_, fun first second => ?_⟩
    · exact ⟨s.onRemount core 32, _, State.failCore_of_remount (Cluster.nextRemount_first free sound), s.onRemount_clu core 32, s.onRemount_bankMoved core 32,
        rfl, rfl⟩
    · exact ⟨s.onRemount core 33, _, State.failCore_of_remount (Cluster.nextRemount_second first free sound), s.onRemount_clu core 33,
        s.onRemount_bankMoved core 33, rfl, rfl⟩
    · obtain ⟨short, cause⟩ := shortCause (s.positionOut core).coresShort
      exact ⟨s.positionOut core, s.positionLost core kind info, _, _, State.failCore_of_none (Cluster.nextRemount_none first second), rfl,
        fun i => s.positionOut_active core, short, cause, rfl, rfl⟩

end Sys2Proof.Machine

namespace Sys2Proof.Machine

open Sys2Proof Sys2Proof.Claims

/-! ### Restores (12 R438, R439; log 78) -/

section

variable {s u z : State} {w : Waybill} {bs img : List Byte}

/-- Context c emptied for a restore: what it had begun has given way, and what ran in it has ended (12 R438). -/
def State.forRestore (u : State) (c : Nat) : State :=
  ((u.giveWay c).stopForRestore c).modCx c fun x => { x with fetched := [], fetching := none }

/-- The context takes a record whose shards are in place, and waits for the shards of others. -/
def State.takeRecord (z : State) (w : Waybill) (img : List Byte) : State :=
  let c := w.context
  let t := z.modCx c fun x => x.restored img
  let last := (t.cx c).lastSwept
  ((t.rebuild c last).publishAll c last).modCx c fun x => { x with restore := some w }

theorem exec_restore (b : begins s w 0x5002 u bs) : exec (.restore w img) s = .next ((match (u.forRestore w.context).recordBad w.context img with
    | some d => (u.forRestore w.context).restoreFails w.context w d 0
    | none => match (u.forRestore w.context).restoreShards w.context img (natAt img 72 2) 0 0 with
      | (z, some e) => z.restoreFails w.context w e.1 e.2
      | (z, none) => (z.takeRecord w img).nextFetch w.context).sweepWbs) :=
  congrArg _ (State.startWb_of_begins b _)

theorem exec_restore_of_bad (b : begins s w 0x5002 u bs) {d : Nat} (bad : (u.forRestore w.context).recordBad w.context img = some d) :
    exec (.restore w img) s = .next (((u.forRestore w.context).restoreFails w.context w d 0).sweepWbs) := by
  rw [exec_restore b, bad]

theorem exec_restore_of_shards (b : begins s w 0x5002 u bs) (good : (u.forRestore w.context).recordBad w.context img = none)
    (placed : (u.forRestore w.context).restoreShards w.context img (natAt img 72 2) 0 0 = (z, none)) :
    exec (.restore w img) s = .next (((z.takeRecord w img).nextFetch w.context).sweepWbs) := by
  rw [exec_restore b, good, placed]

theorem exec_restore_of_badShard (b : begins s w 0x5002 u bs) (good : (u.forRestore w.context).recordBad w.context img = none) {e : RecErr}
    (failed : (u.forRestore w.context).restoreShards w.context img (natAt img 72 2) 0 0 = (z, some e)) :
    exec (.restore w img) s = .next ((z.restoreFails w.context w e.1 e.2).sweepWbs) := by
  rw [exec_restore b, good, failed]

theorem State.takeRecord_restore (z : State) (w : Waybill) (img : List Byte) : ((z.takeRecord w img).cx w.context).restore = some w :=
  congrArg Ctx.restore (State.cx_modCx_self ..)

/-- A table filled for the keys of a list. -/
theorem tget_foldl_tset {α : Type} [DecidableEq α] (d : α) (f : Nat → α) (l : List Nat) (t : Tbl α) (k : Nat) :
    tget d (l.foldl (fun t h => tset d t h (f h)) t) k = if k ∈ l then f k else tget d t k := by
  induction l generalizing t with
  | nil => rfl
  | cons h l ih =>
    rw [List.foldl_cons, ih, tget_tset]
    by_cases later : k ∈ l
    · simp [later]
    · by_cases same : k = h <;> simp [later, same]

theorem tget_filled {α : Type} [DecidableEq α] (d : α) (f : Nat → α) {h : Nat} (low : h < 16) :
    tget d ((List.range 16).foldl (fun t h => tset d t h (f h)) []) h = f h := by
  rw [tget_foldl_tset, if_pos (List.mem_range.2 low)]

theorem Ctx.restored_p1 (x : Ctx) (img : List Byte) {h : Nat} (low : h < 16) :
    tget one32 (x.restored img).p1 h = BitVec.ofNat 32 (natAt img (96 + 4 * h) 4) :=
  tget_filled one32 (fun h => BitVec.ofNat 32 (natAt img (96 + 4 * h) 4)) low

theorem Ctx.restored_p2 (x : Ctx) (img : List Byte) {h : Nat} (low : h < 16) :
    tget one32 (x.restored img).p2 h = BitVec.ofNat 32 (natAt img (160 + 4 * h) 4) :=
  tget_filled one32 (fun h => BitVec.ofNat 32 (natAt img (160 + 4 * h) 4)) low

theorem Ctx.restored_hsets (x : Ctx) (img : List Byte) {h : Nat} (low : h < 16) :
    tget 0 (x.restored img).hsets h = BitVec.ofNat 256 (natAt img (224 + 32 * h) 32) :=
  tget_filled 0 (fun h => BitVec.ofNat 256 (natAt img (224 + 32 * h) 32)) low

end

/-! ### Takeovers (12 R427 to R430) -/

section

variable {s u v : State} {w : Waybill} {bs : List Byte} {c src : Nat} {k : Takeover} {b : Buffer} {p : Placement}

/-- A takeover as it begins: the leader is asked first. -/
def takeoverOf (w : Waybill) (rank : Nat) : Takeover := ⟨w, rank, 1, 0, none, 0, []⟩

/-- The spare whose takeover begins. -/
def State.startTakeover (u : State) (w : Waybill) (rank : Nat) : State :=
  u.modCx w.context fun x => { x with take := some (takeoverOf w rank), fetched := [], fetching := none }

theorem exec_takeover (b : begins s w 0x5003 u bs) : exec (.takeover w) s = .next ((match (u.cx w.context).place, u.leaderOf w.context with
    | some p, some m =>
      if p.rank ≠ w.p 0 13 ∨ (u.cx w.context).run.isSome = true ∨ (u.cx w.context).restore.isSome = true ∨ (u.cx w.context).take.isSome = true
      then u.takeFails w.context w 9
      else (u.startTakeover w p.rank).tell w.context m (.takeoverQuery (.rankState p.rank))
    | _, _ => u.takeFails w.context w 9).sweepWbs) :=
  congrArg _ (State.startWb_of_begins b _)

theorem exec_takeover_of_free (b : begins s w 0x5003 u bs) {m : Nat} (placed : (u.cx w.context).place = some p) (leader : u.leaderOf w.context = some m)
    (own : p.rank = w.p 0 13) (idle : (u.cx w.context).run = none) (whole : (u.cx w.context).restore = none) (first : (u.cx w.context).take = none) :
    exec (.takeover w) s = .next (((u.startTakeover w p.rank).tell w.context m (.takeoverQuery (.rankState p.rank))).sweepWbs) := by
  rw [exec_takeover b, placed, leader, idle, whole, first]
  dsimp only
  rw [if_neg (by simp [own])]

theorem exec_takeover_of_check9 (b : begins s w 0x5003 u bs) (failed : (u.cx w.context).place = none ∨ u.leaderOf w.context = none
      ∨ (u.cx w.context).run.isSome = true ∨ (u.cx w.context).restore.isSome = true ∨ (u.cx w.context).take.isSome = true
      ∨ ∃ p, (u.cx w.context).place = some p ∧ p.rank ≠ w.p 0 13) : exec (.takeover w) s = .next ((u.takeFails w.context w 9).sweepWbs) := by
  rw [exec_takeover b]
  split
  next p m placed leader =>
    refine congrArg (Host.Outcome.next <| State.sweepWbs ·) (if_pos ?_)
    rw [placed, leader] at failed
    obtain none | none | busy | busy | busy | ⟨q, same, other⟩ := failed
    · cases none
    · cases none
    · exact .inr (.inl busy)
    · exact .inr (.inr (.inl busy))
    · exact .inr (.inr (.inr busy))
    · cases same
      exact .inl other
  next => rfl

/-- The newer of a buffer found so far and the next one. -/
def newerBuffer (o : Option Buffer) (b : Buffer) : Option Buffer :=
  match o with
  | none => some b
  | some a => if a.step < b.step then some b else some a

theorem newerBuffer_spec (o : Option Buffer) (b : Buffer) :
    ∃ a, newerBuffer o b = some a ∧ (o = some a ∨ a = b) ∧ ∀ d, (o = some d ∨ d = b) → d.step ≤ a.step := by
  cases o with
  | none => exact ⟨b, rfl, .inr rfl, fun d from_ => (congrArg Buffer.step (from_.resolve_left nofun)).le⟩
  | some a =>
    by_cases newer : a.step < b.step
    · refine ⟨b, if_pos newer, .inr rfl, fun d from_ => ?_⟩
      obtain rfl | rfl := from_.imp_left Option.some.inj
      · exact newer.le
      · exact le_refl _
    · refine ⟨a, if_neg newer, .inl rfl, fun d from_ => ?_⟩
      obtain rfl | rfl := from_.imp_left Option.some.inj
      · exact le_refl _
      · exact not_lt.1 newer

theorem foldl_newerBuffer (l : List Buffer) (o : Option Buffer) :
    (∀ a, l.foldl newerBuffer o = some a → (o = some a ∨ a ∈ l) ∧ ∀ d, (o = some d ∨ d ∈ l) → d.step ≤ a.step)
      ∧ (l.foldl newerBuffer o = none → o = none ∧ l = []) := by
  induction l generalizing o with
  | nil =>
    refine ⟨fun a found => ⟨.inl found, ?_⟩, fun none => ⟨none, rfl⟩⟩
    rintro d (other | listed)
    · rw [List.foldl_nil, other] at found
      exact Option.some.inj found ▸ le_refl _
    · cases listed
  | cons b l ih =>
    obtain ⟨y, next, from_, newest⟩ := newerBuffer_spec o b
    obtain ⟨found, none⟩ := ih (newerBuffer o b)
    rw [next] at found none
    rw [List.foldl_cons, next]
    refine ⟨fun a last => ?_, fun missing => nomatch (none missing).1⟩
    obtain ⟨source, most⟩ := found a last
    refine ⟨?_, ?_⟩
    · obtain rfl | later := source.imp_left Option.some.inj
      · exact from_.imp_right fun same => List.mem_cons.2 (.inl same)
      · exact .inr (List.mem_cons_of_mem _ later)
    · rintro d (start | listed)
      · exact (newest d (.inl start)).trans (most y (.inl rfl))
      · obtain rfl | later := List.mem_cons.1 listed
        · exact (newest d (.inr rfl)).trans (most y (.inl rfl))
        · exact most d (.inr later)

/-- The buddy answers with the newest complete buffer of the rank, or with none where it has none (12 R429). -/
theorem newestBuffer_spec (l : List Buffer) (r : Nat) :
    (∀ b, newestBuffer l r = some b → b ∈ l ∧ b.complete = true ∧ b.owner = r ∧ ∀ d ∈ l, d.complete = true → d.owner = r → d.step ≤ b.step)
      ∧ (newestBuffer l r = none → ∀ d ∈ l, d.complete = true → d.owner ≠ r) := by
  obtain ⟨found, none⟩ := foldl_newerBuffer (l.filter fun b => b.complete && b.owner == r) none
  have fits (d : Buffer) : d ∈ l.filter (fun b => b.complete && b.owner == r) ↔ d ∈ l ∧ d.complete = true ∧ d.owner = r := by
    simp only [List.mem_filter, Bool.and_eq_true, beq_iff_eq]
  refine ⟨fun b newest => ?_, fun missing d listed whole own => ?_⟩
  · obtain ⟨source, most⟩ := found b newest
    obtain ⟨listed, whole, own⟩ := (fits b).1 (source.resolve_left nofun)
    exact ⟨listed, whole, own, fun d other done same => most d (.inr ((fits d).2 ⟨other, done, same⟩))⟩
  · have empty := (none missing).2
    exact List.not_mem_nil (empty ▸ (fits d).2 ⟨listed, whole, own⟩)

theorem exec_takeoverQuery_seals (s : State) (c src r : Nat) (id : Word) : exec (.takeoverQuery c src (.seals r id)) s = .next (match s.trained c id with
    | none => s.tell c src (.takeoverReply (.seals id []))
    | some t => (s.workingSeals c t r).1.tell c src (.takeoverReply (.seals id ((s.workingSeals c t r).2.getD [])))) := rfl

section

variable (asks : (s.cx c).take = some k)

include asks

theorem exec_takeoverQueryReply_state (first : k.stage = 1) (inMask gone : Bool) (last : Nat) :
    exec (.takeoverQueryReply c (.rankState inMask gone last)) s = .next (s.takeState c k inMask gone last) := by
  simp only [exec, execTakeoverQueryReply, asks, first]

theorem exec_takeoverQueryReply_buffer (second : k.stage = 2) (o : Option Buffer) :
    exec (.takeoverQueryReply c (.buffer o)) s = .next (s.takeBuffer c k o) := by
  simp only [exec, execTakeoverQueryReply, asks, second]

theorem exec_takeoverQueryReply_seals (third : k.stage = 3) (id : Word) (l : List DWord) :
    exec (.takeoverQueryReply c (.seals id l)) s = .next (s.takeSeals c k id l) := by
  simp only [exec, execTakeoverQueryReply, asks, third]

end

theorem exec_takeoverQueryReply_of_none (none : (s.cx c).take = none) (r : TakeoverReply) : exec (.takeoverQueryReply c r) s = .next s := by
  simp only [exec, execTakeoverQueryReply, none]

theorem State.takeState_of_noBuddy (noBuddy : ∀ m, s.buddyModule c = some m → s.reachable m = false) (last : Nat) :
    s.takeState c k false true last = s.takeFails c k.wb 3 := by
  simp only [State.takeState, Bool.false_eq_true, if_false, Bool.not_true]
  split
  next => rfl
  next m buddy => rw [noBuddy m buddy]; rfl

/-- The buddy of the missing rank is asked for its buffer. -/
theorem State.takeState_of_buddy {m : Nat} (buddy : s.buddyModule c = some m) (reached : s.reachable m = true) (last : Nat) :
    s.takeState c k false true last
      = (s.modCx c fun x => { x with take := some { k with stage := 2, swept := last } }).tell c m (.takeoverQuery (.buffer k.rank)) := by
  simp only [State.takeState, Bool.false_eq_true, if_false, Bool.not_true, buddy, reached]

/-- A buffer that is not complete, of another rank or of another step stops the takeover (check 4). -/
theorem State.takeBuffer_of_stale (stale : b.complete = false ∨ b.owner ≠ k.rank ∨ b.step ≠ k.swept) :
    s.takeBuffer c k (some b) = s.takeFails c k.wb 4 :=
  if_pos (stale.imp_left fun part => by rw [show (Buffer.keep b k.buffer).complete = b.complete from rfl, part]; rfl)

theorem State.takeSeals_of_wanted {id : Word} {l m : List DWord} {t : Tensor} (wanted : k.wanted.head? = some id) (trained : s.trained c id = some t)
    (seals : s.workingSeals c t k.rank = (u, some m)) :
    s.takeSeals c k id l = if m = l then u.askSeals c { k with wanted := k.wanted.drop 1 } else u.takeFails c k.wb 7 := by
  simp only [State.takeSeals, trained, wanted, ne_eq, not_true, if_false, seals]

end

/-- Settles O54. Which failures of a restore give which detail is log 78, the numbers 1 to 9 of the checks that stop a takeover log 80. -/
theorem restoreAndTakeover : Obligations.RestoreAndTakeover := by
  refine ⟨fun s u w bs img b v empty => ?_, fun x img => ⟨rfl, rfl, rfl, rfl, rfl, rfl, rfl, fun h low => ⟨x.restored_p1 img low,
    x.restored_p2 img low, x.restored_hsets img low⟩⟩, fun s u w bs b => ⟨fun p m placed leader own idle whole first => ?_, exec_takeover_of_check9 b⟩,
    fun s c src r => ⟨rfl, ?_, fun id => ⟨fun unknown => ?_, fun t u l known seals => ?_⟩⟩,
    fun s c r => ⟨fun none => exec_takeoverQueryReply_of_none none r, fun k asks => ⟨?_, ?_, ?_, ?_⟩⟩⟩
  · subst empty
    exact ⟨fun d => exec_restore_of_bad b, fun good z placed => ⟨_, exec_restore_of_shards b good placed, State.takeRecord_restore ..⟩,
      fun good z e => exec_restore_of_badShard b good⟩
  · exact ⟨u.startTakeover w p.rank, takeoverOf w p.rank, exec_takeover_of_free b placed leader own idle whole first,
      congrArg Ctx.take (State.cx_modCx_self ..), rfl, rfl, rfl, rfl⟩
  · obtain ⟨newest, missing⟩ := newestBuffer_spec (s.cx c).buffers r
    exact ⟨_, rfl, newest, missing⟩
  · rw [exec_takeoverQuery_seals, unknown]
  · rw [exec_takeoverQuery_seals, known]
    dsimp only
    rw [seals]
  · rintro inMask gone last rfl first
    have ran := exec_takeoverQueryReply_state asks first inMask gone last
    refine ⟨?_, ?_, ?_, ?_⟩
    · rintro rfl
      exact ran
    · rintro rfl rfl
      exact ran
    · rintro rfl rfl noBuddy
      exact ran.trans (congrArg _ (State.takeState_of_noBuddy noBuddy last))
    · rintro rfl rfl m buddy reached
      exact ⟨_, ran.trans (congrArg _ (State.takeState_of_buddy buddy reached last)), congrArg Ctx.take (State.cx_modCx_self ..)⟩
  · rintro rfl second
    exact exec_takeoverQueryReply_buffer asks second none
  · rintro b rfl second stale
    exact (exec_takeoverQueryReply_buffer asks second (some b)).trans (congrArg _ (State.takeBuffer_of_stale stale))
  · rintro id l t rfl third wanted trained u m seals
    exact (exec_takeoverQueryReply_seals asks third id l).trans (congrArg _ (State.takeSeals_of_wanted wanted trained seals))

end Sys2Proof.Machine

namespace Sys2Proof.Machine

open Sys2Proof Sys2Proof.Claims

/-! ### What a record's reading leaves as it was (12 R436) -/

section

variable {s : State}

theorem State.readLines_cellar (s : State) (c : Nat) (mu hint : Option Nat) (n a : Nat) (acc : List Byte) :
    CellarWork s (s.readLines c mu hint n a acc).1 := by
  induction n generalizing s a acc with
  | zero => exact .refl s
  | succ n ih =>
    have h := s.readPlace_cellar c (s.resolve c mu a) hint
    unfold State.readLines
    split
    next e => exact (h.of_eq e).trans (ih ..)
    next e => exact h.of_eq e

theorem State.readAll_cellar (s : State) (c a n : Nat) : CellarWork s (s.readAll c a n).1 := by
  have h : CellarWork s (s.dmaRead c a n).1 := s.readLines_cellar ..
  unfold State.readAll
  split
  next e => exact h.of_eq e
  next e => exact h.of_eq e

theorem State.readAreas_cellar (s : State) (c : Nat) (l : List (Nat × Nat)) : CellarWork s (s.readAreas c l).1 := by
  induction l generalizing s with
  | nil => exact .refl s
  | cons e l ih =>
    have first := s.readAll_cellar c e.1 e.2
    unfold State.readAreas
    split
    next e => exact first.of_eq e
    next t _ e =>
      have others := (first.of_eq e).trans (ih t)
      split
      next e => exact others.of_eq e
      next e => exact others.of_eq e

theorem State.readParts_cellar (s : State) (c : Nat) (l : List (Tensor × Nat)) : CellarWork s (s.readParts c l).1 := by
  induction l generalizing s with
  | nil => exact .refl s
  | cons e l ih =>
    have first := s.readAreas_cellar c (s.partAreas c e.1)
    unfold State.readParts
    split
    next e => exact first.of_eq e
    next t _ e =>
      have others := (first.of_eq e).trans (ih t)
      split
      next e => exact others.of_eq e
      next e => exact others.of_eq e

end

/-! ### Exports (12 R433, R434; logs 76, 115) -/

section

variable {s u : State} {c t : Nat} {e : Export} {w : Waybill} {parts : List RecPart} {p : Placement}

section

variable (exports : (s.cx c).exp = some e)

include exports

/-- A grant (12 R434): the lines of the record go out, then its digest. -/
theorem exec_storeGrant_of_asked (asked : e.base = none) (base : Nat) : exec (.storeGrant c base) s
    = .next ((((s.emit (.lines c (e.wb.p 0 13) 3 base e.record)).tell c (e.wb.p 0 13) (.storeClose e.digest)).modCx c fun x =>
        { x with exp := some { e with base := some base, closed := true, since := s.now } }).retryAll c (· == .undoHeld)) := by
  simp only [exec, execStoreGrant, exports, asked]
  rfl

theorem exec_storeGrant_of_granted (granted : e.base ≠ none) (base : Nat) : exec (.storeGrant c base) s = .next s := by
  simp only [exec, execStoreGrant, exports, Option.isSome_iff_ne_none.2 granted, if_true]

theorem exec_storeRefuse_of_asked (asked : e.base = none) : exec (.storeRefuse c) s = .next (s.exportFails c e.wb) := by
  simp only [exec, execStoreRefuse, exports, asked, Option.isNone_none, if_true]

theorem exec_storeRefuse_of_granted {b : Nat} (granted : e.base = some b) : exec (.storeRefuse c) s = .next s := by
  simp only [exec, execStoreRefuse, exports, granted, Option.isNone_some, Bool.false_eq_true, if_false]

theorem exec_storeDone_of_asked (asked : e.base = none) (ok : Bool) : exec (.storeDone c ok) s = .next s := by
  simp only [exec, execStoreDone, exports, asked]

theorem exec_storeDone_of_granted {b : Nat} (granted : e.base = some b) (ok : Bool) : exec (.storeDone c ok) s
    = .next (if ok = true then (s.modCx c fun x => { x with exp := none }).finish e.wb 0 b e.step else s.exportFails c e.wb) := by
  simp only [exec, execStoreDone, exports, granted]

/-- The store's 100 ms count from the message that asks for the answer (log 115). -/
theorem exec_storeTimeout_of_export (t : Nat) : exec (.storeTimeout ⟨c, t⟩) s
    = .next (if t < e.since + 100000000 then s.tick t else (s.tick t).exportFails c e.wb) := by
  have same : ((s.tick t).cx c).exp = some e := exports
  simp only [exec, execStoreTimeout, same]

theorem exportAnswers (base : Nat) :
    (e.base = none → ∃ u : State, exec (.storeGrant c base) s = .next (u.retryAll c (· == .undoHeld))
      ∧ (u.cx c).exp = some { e with base := some base, closed := true, since := s.now }
      ∧ u.out = s.out ++ [.lines c (e.wb.p 0 13) 3 base e.record, .send c (e.wb.p 0 13) (.storeClose e.digest)] ∧ u.mem = s.mem)
    ∧ (e.base ≠ none → exec (.storeGrant c base) s = .next s)
    ∧ (e.base = none → exec (.storeRefuse c) s = .next (s.exportFails c e.wb) ∧ ∀ ok, exec (.storeDone c ok) s = .next s)
    ∧ (∀ b, e.base = some b → exec (.storeDone c true) s = .next ((s.modCx c fun x => { x with exp := none }).finish e.wb 0 b e.step)
      ∧ exec (.storeDone c false) s = .next (s.exportFails c e.wb) ∧ exec (.storeRefuse c) s = .next s)
    ∧ (∀ t, e.since + 100000000 ≤ t → exec (.storeTimeout ⟨c, t⟩) s = .next ((s.tick t).exportFails c e.wb))
    ∧ (∀ t, t < e.since + 100000000 → exec (.storeTimeout ⟨c, t⟩) s = .next (s.tick t)) := by
  refine ⟨fun asked => ⟨_, exec_storeGrant_of_asked exports asked base, congrArg Ctx.exp (State.cx_modCx_self ..), List.append_assoc .., rfl⟩,
    fun granted => exec_storeGrant_of_granted exports granted base,
    fun asked => ⟨exec_storeRefuse_of_asked exports asked, exec_storeDone_of_asked exports asked⟩,
    fun b granted => ⟨exec_storeDone_of_granted exports granted true, exec_storeDone_of_granted exports granted false,
      exec_storeRefuse_of_granted exports granted⟩,
    fun t late => ?_, fun t early => ?_⟩
  · rw [exec_storeTimeout_of_export exports, if_neg (by omega)]
  · rw [exec_storeTimeout_of_export exports, if_pos early]

end

theorem noExportAnswers (none : (s.cx c).exp = none) : exec (.storeRefuse c) s = .next s ∧ (∀ t, exec (.storeTimeout ⟨c, t⟩) s = .next (s.tick t))
    ∧ (∀ b, exec (.storeGrant c b) s = .next s) ∧ ∀ b, exec (.storeDone c b) s = .next s := by
  have still (t : Nat) : ((s.tick t).cx c).exp = Option.none := none
  simp only [exec, execStoreRefuse, execStoreTimeout, execStoreGrant, execStoreDone, none, still, implies_true, and_self]

/-- What EXPORT_START notes of the record that it sends: the record is made from its parts, and the store has not answered yet. -/
def State.exportOf (u : State) (c : Nat) (w : Waybill) (parts : List RecPart) (digest : DWord) : Export :=
  let r := buildRecord (fun n => u.recHeader c parts.length n digest) (u.groupSize c) (u.ownRank c) parts
  ⟨w, (u.cx c).step, r.1, r.2, true, none, false, u.now⟩

theorem exec_exportStart_of_none (asks : s.exportWb c = none) : exec (.exportStart c) s = .next s := by
  simp only [exec, execExportStart, asks]

theorem exec_exportStart_of_busy (busy : (s.cx c).live = false ∨ (s.cx c).run.isSome = true ∨ (s.cx c).exp.isSome = true ∨ (s.cx c).restore.isSome = true) :
    exec (.exportStart c) s = .next s := by
  cases asks : s.exportWb c with
  | none => exact exec_exportStart_of_none asks
  | some w =>
    simp only [exec, execExportStart, asks]
    rw [if_pos (busy.imp_left fun gone => by rw [gone]; rfl)]

section

variable (asks : s.exportWb c = some w) (live : (s.cx c).live = true) (idle : (s.cx c).run = none) (first : (s.cx c).exp = none)
  (whole : (s.cx c).restore = none)

include asks live idle first whole

theorem exec_exportStart_of_ready : exec (.exportStart c) s = .next (if (!s.reachable (w.p 0 13)) = true then s.exportFails c w
    else match s.readParts c (s.ownShards c) with
      | (u, none) => u.exportFails c w
      | (u, some parts) =>
        let (d, u) := match (s.cx c).place with
          | some p => (p.digest, u)
          | none => u.free
        (u.modCx c fun x => { x with exp := some (u.exportOf c w parts d) }).tell c (w.p 0 13)
          (.storeOpen (u.exportOf c w parts d).record.length (w.p 13 2))) := by
  simp only [exec, execExportStart, asks]
  rw [if_neg (by simp [live, idle, first, whole])]
  rfl

theorem exec_exportStart_of_unreachable (away : s.reachable (w.p 0 13) = false) : exec (.exportStart c) s = .next (s.exportFails c w) := by
  rw [exec_exportStart_of_ready asks live idle first whole, away]
  rfl

theorem exec_exportStart_of_unread (reached : s.reachable (w.p 0 13) = true) (unread : s.readParts c (s.ownShards c) = (u, none)) :
    exec (.exportStart c) s = .next (u.exportFails c w) := by
  rw [exec_exportStart_of_ready asks live idle first whole, reached, unread]
  rfl

theorem exec_exportStart_of_parts (reached : s.reachable (w.p 0 13) = true) (read : s.readParts c (s.ownShards c) = (u, some parts))
    (placed : (s.cx c).place = some p) : exec (.exportStart c) s
      = .next ((u.modCx c fun x => { x with exp := some (u.exportOf c w parts p.digest) }).tell c (w.p 0 13)
        (.storeOpen (u.exportOf c w parts p.digest).record.length (w.p 13 2))) := by
  rw [exec_exportStart_of_ready asks live idle first whole, reached, read, placed]
  rfl

theorem exportStarts : (s.reachable (w.p 0 13) = false → exec (.exportStart c) s = .next (s.exportFails c w))
    ∧ (s.reachable (w.p 0 13) = true →
      (∀ u, s.readParts c (s.ownShards c) = (u, none) → exec (.exportStart c) s = .next (u.exportFails c w))
      ∧ ∀ u parts p, s.readParts c (s.ownShards c) = (u, some parts) → (s.cx c).place = some p → ∃ (v : State) (x : Export),
        exec (.exportStart c) s = .next (v.tell c (w.p 0 13) (.storeOpen x.record.length (w.p 13 2))) ∧ (v.cx c).exp = some x
        ∧ x.wb = w ∧ x.step = (s.cx c).step ∧ x.base = none ∧ x.since = v.now ∧ v.now = u.now ∧ v.mem = u.mem) := by
  refine ⟨exec_exportStart_of_unreachable asks live idle first whole, fun reached => ⟨fun u => exec_exportStart_of_unread asks live idle first whole reached,
    fun u parts p read placed => ?_⟩⟩
  have same : u.cx c = s.cx c := ((s.readParts_cellar c (s.ownShards c)).of_eq read).cx c
  exact ⟨_, u.exportOf c w parts p.digest, exec_exportStart_of_parts asks live idle first whole reached read placed, congrArg Ctx.exp (State.cx_modCx_self ..),
    rfl, congrArg Ctx.step same, rfl, rfl, rfl, rfl⟩

end

end

/-! ### The store (12 R435) -/

section

variable {s u : State} {c src sc size : Nat} {e : MapEntry} {g : Grant} {d : BitVec 384}

theorem le_foldl_max {α : Type} (f : α → Nat) (l : List α) (n : Nat) :
    n ≤ l.foldl (fun n x => max n (f x)) n ∧ ∀ x ∈ l, f x ≤ l.foldl (fun n x => max n (f x)) n := by
  induction l generalizing n with
  | nil => exact ⟨le_refl n, nofun⟩
  | cons x l ih =>
    obtain ⟨start, others⟩ := ih (max n (f x))
    refine ⟨(le_max_left ..).trans start, fun y listed => ?_⟩
    obtain rfl | later := List.mem_cons.1 listed
    · exact (le_max_right ..).trans start
    · exact others y later

theorem le_ceilDiv_mul (n : Nat) {k : Nat} (pos : 0 < k) : n ≤ ceilDiv n k * k := by
  have split := Nat.div_add_mod (n + k - 1) k
  have low := Nat.mod_lt (n + k - 1) pos
  rw [ceilDiv, Nat.mul_comm]
  omega

/-- The next record goes behind every one granted before. -/
theorem Ctx.grant_le_storeNext {x : Ctx} (listed : g ∈ x.grants) (e : MapEntry) : g.base + g.size ≤ x.storeNext e :=
  (le_ceilDiv_mul _ (by decide)).trans ((le_foldl_max (fun g : Grant => ceilDiv (g.base + g.size) 4096 * 4096) x.grants e.base).2 g listed)

theorem exec_storeOpen (s : State) (c src sc size : Nat) : exec (.storeOpen c src sc size) s = .next (match (s.cx c).storeWindow with
    | none => s.tell sc src .storeRefuse
    | some e =>
      if (s.cx c).storeNext e + size ≤ e.base + 4096 * e.pages then
        (s.modCx c fun x => { x with grants := x.grants ++ [⟨src, sc, (s.cx c).storeNext e, size⟩] }).tell sc src (.storeGrant ((s.cx c).storeNext e))
      else s.tell sc src .storeRefuse) := rfl

theorem exec_storeClose (s : State) (c src sc : Nat) (d : BitVec 384) : exec (.storeClose c src sc d) s
    = .next (match (s.cx c).grants.reverse.find? (fun g => g.src == src && g.srcCtx == sc) with
      | none => s.tell sc src (.storeDone false)
      | some g => match s.readHead c g.base g.size with
        | (u, none) => u.tell sc src (.storeDone false)
        | (u, some bs) => u.tell sc src (.storeDone (sha384Field (recordHead bs).1 == d))) := rfl

theorem storeOpens (window : (s.cx c).storeWindow = some e) :
    let b := (s.cx c).storeNext e
    (∀ g ∈ (s.cx c).grants, g.base + g.size ≤ b)
    ∧ (b + size ≤ e.base + 4096 * e.pages → exec (.storeOpen c src sc size) s
      = .next ((s.modCx c fun x => { x with grants := x.grants ++ [⟨src, sc, b, size⟩] }).tell sc src (.storeGrant b)))
    ∧ (e.base + 4096 * e.pages < b + size → exec (.storeOpen c src sc size) s = .next (s.tell sc src .storeRefuse)) := by
  intro b
  refine ⟨fun g listed => Ctx.grant_le_storeNext listed e, fun room => ?_, fun full => ?_⟩
  · rw [exec_storeOpen, window]
    exact congrArg _ (if_pos room)
  · rw [exec_storeOpen, window]
    exact congrArg _ (if_neg (Nat.not_le.2 full))

theorem exec_storeClose_of_unknown (unknown : ∀ g ∈ (s.cx c).grants, ¬(g.src = src ∧ g.srcCtx = sc)) :
    exec (.storeClose c src sc d) s = .next (s.tell sc src (.storeDone false)) := by
  rw [exec_storeClose, List.find?_eq_none.2 (by simpa using unknown)]

end

/-- Settles O53. That EXPORT fails with 0x0503 when its state cannot be read or the store is out of reach, that an unknown CLOSE is answered as a
mismatch and that no store window means a refusal is log 76; from when the 100 ms count is log 115. -/
theorem checkpointStores : Obligations.CheckpointStores := by
  refine ⟨fun s c base e exports => exportAnswers exports base, fun s c => noExportAnswers, fun s c idle => ?_,
    fun s c w asks live idle first whole => exportStarts asks live idle first whole,
    fun s c src sc size => ⟨fun none => by rw [exec_storeOpen, none], fun e => storeOpens⟩,
    fun s c src sc d => ⟨exec_storeClose_of_unknown, fun g granted => ⟨fun u unread => ?_, fun u bs read => ?_⟩⟩⟩
  · exact idle.elim exec_exportStart_of_none exec_exportStart_of_busy
  · rw [exec_storeClose, granted]
    dsimp only
    rw [unread]
  · rw [exec_storeClose, granted]
    dsimp only
    rw [read]

end Sys2Proof.Machine
